-- ==== Sys2Proof/Word.lean ====
section
/-! DEFINITION. The word types of the MN7240: the byte that crosses every link and fills every ring, the 32-bit
word of the part's counts, and byte strings (spec 11_record_layouts.md, section 11.1). -/

namespace Sys2Proof

/-- One byte of a record, of a link or of the Media Store. -/
abbrev Byte := BitVec 8

/-- A 32-bit count, unit number, G-number, label number or frame serial. -/
abbrev Word := BitVec 32

/-- Bytes in the order they are sent or stored. -/
abbrev Bytes := List Byte

end Sys2Proof
end

