-- ==== Sys2Proof/Syntax.lean ====
section
/-! DEFINITION. The commands and events of the MN7240, one constructor for each row of spec/opcode_table.json.
Every constructor's first operand says what the outside world shows at that moment (`Env`, or a `Caller`
around it for the commands of a master port).  Arguments of port commands have the widths of Table 68. -/

namespace Sys2Proof

/-- What the error-correcting code finds when the part reads a unit from the Media Store (R42, R43):
how many single-bit errors it corrects, whether it meets an uncorrectable error, and the bytes that come back
differing from what was stored when it does (offset from the first header byte, byte as read). -/
structure ReadFault where
  corrected : Nat := 0
  uncorrectable : Bool := false
  asRead : List (Nat × Byte) := []
  deriving DecidableEq, Repr

/-- The outside world at one command: CLK27 cycles since the command before it, the level of the 32 path status
pins (path p has READY at bit 4p, CARRIER at 4p+1, LINK_OK at 4p+2, ALERT at 4p+3), and what successive
unit reads of this command meet in the Media Store (a read past the end of the list meets no error). -/
structure Env where
  dt : Nat := 0
  lines : BitVec 32 := 0
  ecc : List ReadFault := []
  deriving DecidableEq, Repr

/-- A command of a master port at its taking: the outside world, the port, and the tag the response returns. -/
structure Caller where
  env : Env := {}
  port : Fin 4
  tag : Byte := 0
  deriving DecidableEq, Repr

/-- A timecode: the label of a frame, with the counting it belongs to (`df` for drop-frame). -/
structure Timecode where
  hours : Nat
  minutes : Nat
  seconds : Nat
  frames : Nat
  df : Bool
  deriving DecidableEq, Repr

/-- The four frame rates of Table 7 (`r2997` is 29.97 and `r5994` is 59.94). -/
inductive Rate where
  | r25 | r50 | r2997 | r5994
  deriving DecidableEq, Repr

/-- The two picture formats: `hd` is 1920 × 1080 and `uhd` is 3840 × 2160, both 4:2:2 10-bit. -/
inductive Format where
  | hd | uhd
  deriving DecidableEq, Repr

/-- A receiver's measurement of a picture (section 3.1): `none` stands for a size, sampling structure or bit depth
of neither format, and for a picture rate outside the four rates. -/
structure Measured where
  format : Option Format
  rate : Option Rate
  deriving DecidableEq, Repr

/-- A text field of a command: its length byte and the 64 text bytes that follow it (Table 68). -/
structure TextArg where
  len : Byte
  bytes : Bytes
  deriving DecidableEq, Repr

/-- The action of SET TRIGGER with its stream mask or partner; `unknown` is any code that Table 54 does not give. -/
inductive ActionArg where
  | start (mask : BitVec 16)
  | stop (partner : Byte)
  | unknown
  deriving DecidableEq, Repr

/-- The input samples of one sample period (Table 27): which of the 32 embedded channels the pictures carry, which
audio port reports an error, and the 64 samples in channel order. -/
structure SampleIn where
  carried : BitVec 32
  portError : BitVec 4
  samples : List (BitVec 24)
  deriving DecidableEq, Repr

/-- The steps of the part: one constructor per row of the operation table, in the table's order. -/
inductive Instr where
  -- resets and ticks
  | partReset (e : Env)
  | resetRelease (e : Env) (strap : BitVec 16) (supw : Bool)
  | dividerExpiry (e : Env)
  | referencePulse (e : Env)
  | pulseTimeout (e : Env)
  | readerArrival (e : Env) (value : Option Timecode)
  | readerStateTimeout (e : Env)
  -- video inputs and the coder
  | receiverLossOfLock (e : Env) (input : Fin 4)
  | receiverFormatReport (e : Env) (input : Fin 4) (measured : Measured)
  | lineCheckFailure (e : Env) (input : Fin 4)
  | captureEnd (e : Env) (input : Fin 4)
  | pictureStart (e : Env) (stream : Fin 4)
  | sliceStart (e : Env) (stream : Fin 4)
  | sliceEnd (e : Env) (stream : Fin 4) (coded : Bytes)
  | lateDrop (e : Env) (stream : Fin 4)
  | limitClose (e : Env) (clip : Word)
  -- mixer
  | mixerSample (e : Env) (x : SampleIn)
  | muteEnd (e : Env) (channel : Fin 64)
  -- paths
  | pauseTimeout (e : Env) (path : Fin 8)
  | backChannelBreak (e : Env) (path : Fin 8)
  | framingError (e : Env) (path : Fin 8)
  | idleFill (e : Env) (path : Fin 8)
  | receiptReport (e : Env) (path : Fin 8) (unused : BitVec 24) (count : Word) (check : Word)
  | unitTakeUp (e : Env) (ring : Fin 17)
  | fragmentPlacement (e : Env) (path : Fin 8)
  | transmissionEnd (e : Env) (path : Fin 8)
  | releaseDue (e : Env) (path : Fin 8)
  -- gauge
  | step1End (e : Env) (path : Fin 8)
  | step2Expiry (e : Env) (path : Fin 8)
  | timeGaugeEnd (e : Env) (path : Fin 8)
  | volumeGaugeExpiry (e : Env) (path : Fin 8)
  -- supply, ports, attention lines
  | supplyWarningAssert (e : Env)
  | supplyWarningDeassert (e : Env)
  | commandRecordArrival (e : Env) (port : Fin 4) (framed : Bool) (record : Bytes)
  | responseEnd (e : Env) (port : Fin 4)
  | portAbsent (e : Env) (port : Fin 4)
  | attentionPulse (e : Env) (port : Fin 4)
  | attentionPulseEnd (e : Env) (port : Fin 4)
  -- commands of no class
  | presence (c : Caller) (phase : Byte)
  | takeNotices (c : Caller) (selector : Byte)
  | ackAttention (c : Caller)
  -- class TIME
  | setReference (c : Caller) (source : Byte)
  | setTimecodeMode (c : Caller) (mode : Byte) (counting : Byte)
  | jamTimecode (c : Caller) (timecode : BitVec 32)
  | setRate (c : Caller) (rate : Byte)
  | readTimebase (c : Caller)
  -- class STORE
  | openStream (c : Caller) (stream : Byte)
  | holdStream (c : Caller) (stream : Byte) (policy : Byte)
  | releaseStream (c : Caller) (stream : Byte)
  | closeStream (c : Caller) (stream : Byte)
  | setStream (c : Caller) (stream : Byte) (binding : Byte)
  | setRing (c : Caller) (ring : Byte) (base : Word) (size : Word) (enabled : Bool) (policy : Byte)
  | fetch (c : Caller) (stream : Byte) (unit : Word) (offset : Word) (length : BitVec 16)
  | insert (c : Caller) (stream : Byte) (data : Bytes) (final : Bool)
  | readStream (c : Caller) (stream : Byte)
  | readRing (c : Caller) (ring : Byte)
  | readUnit (c : Caller) (stream : Byte) (unit : Word)
  -- class CODE
  | setInput (c : Caller) (input : Byte) (format : Byte)
  | setPicture (c : Caller) (stream source format mode : Byte) (rFix rMin rMax : Word) (weight bf : Byte)
  | coderReset (c : Caller)
  | readInput (c : Caller) (input : Byte)
  | readPicture (c : Caller) (stream : Byte)
  -- class MIX
  | setChannel (c : Caller) (channel : Byte) (delay : BitVec 16) (polarity : Byte)
  | setGain (c : Caller) (channel : Byte) (bus : Byte) (target : BitVec 16) (ramp : BitVec 16)
  | setBusGain (c : Caller) (bus : Byte) (target : BitVec 16) (ramp : BitVec 16)
  | setMeter (c : Caller) (bus : Byte) (threshold : Word) (frames : Byte)
  | mixerReset (c : Caller)
  | readChannel (c : Caller) (channel : Byte)
  | readBus (c : Caller) (bus : Byte)
  -- class LINK
  | setPath (c : Caller) (path : Byte) (enabled : Bool) (pauseLimit : Byte) (lineRate : BitVec 16)
  | clearLoss (c : Caller) (path : Byte) (selector : Byte)
  | setSpread (c : Caller) (mask : Byte)
  | addDirected (c : Caller) (stream : Byte) (mask : Byte)
  | removeDirected (c : Caller) (stream : Byte)
  | setBond (c : Caller) (pair : Byte) (bonded : Bool)
  | pathReset (c : Caller) (path : Byte)
  | pathRelease (c : Caller) (path : Byte)
  | readPath (c : Caller) (path : Byte)
  | readSpread (c : Caller)
  | readSend (c : Caller) (ring : Byte)
  -- class GAUGE
  | setGauge (c : Caller) (auto : Bool) (window : Byte)
  | startGauge (c : Caller) (path : Byte) (mode : Byte) (gate : Word)
  | readGauge (c : Caller) (path : Byte)
  | setBudget (c : Caller) (source : Byte) (fixed : BitVec 64) (headroom : BitVec 16) (res12 res13 res14 res15 : Word)
  | readBudget (c : Caller)
  -- class LOG
  | openClip (c : Caller) (mask : BitVec 16) (name : Option TextArg)
  | closeClip (c : Caller) (clip : Word)
  | releaseClip (c : Caller) (clip : Word)
  | addLabel (c : Caller) (kind : Byte) (value : Option Word) (text : TextArg) (clip : Option Word)
  | setSelection (c : Caller) (kind : Byte) (source : Byte) (setting : Byte)
  | setTrigger (c : Caller) (trigger kind source : Byte) (pattern mask : Word) (action : ActionArg) (rearm : Byte)
  | armTrigger (c : Caller) (trigger : Byte)
  | disarmTrigger (c : Caller) (trigger : Byte)
  | logReset (c : Caller)
  | readClip (c : Caller) (clip : Word)
  | readLabels (c : Caller) (first : Word) (count : Byte)
  | readLog (c : Caller)
  -- class TALLY
  | setTally (c : Caller) (output : Byte) (kind : Byte) (number : Byte)
  | setOverride (c : Caller) (output : Byte) (value : Byte)
  | readTally (c : Caller)
  -- class RIGHTS
  | setRights (c : Caller) (port : Byte) (classes : BitVec 16) (streams : BitVec 16)
  | readRights (c : Caller)
  -- class NOTICE
  | setNoticeMask (c : Caller) (mask : Word)
  | readSummary (c : Caller)
  | setAttention (c : Caller) (mode : Byte)
  | readNotices (c : Caller)
  -- class PART
  | hubReset (c : Caller)
  | readPart (c : Caller)
  -- the end of a pulse's asserted part
  | pulseLineDeasserted (e : Env) (port : Fin 4)
  deriving DecidableEq, Repr

end Sys2Proof
end

