-- ==== Sys2Proof/Decode.lean ====
section
/-! DEFINITION. The command that a word of spec/opcode_table.json's bits spells.  The table gives no row any bits
(its rows carry no "fixed" and no "fields"), so no word spells a command; command records of a master port are read
by Sys2Proof.Machine.Records and Sys2Proof.Machine.Link instead. -/

namespace Sys2Proof

/-- No row of the operation table gives bits: no word spells a command. -/
def decodeTableWord (_nbits _w : Nat) : Option Instr := none

end Sys2Proof
end

