-- ==== Sys2Proof/Config.lean ====
section
/-! DEFINITION. The free values of the model: what the spec leaves open.  Each is a constant without a body, so no proof
can see its value (notes/assumptions). -/

namespace Sys2Proof.Config

/-- Byte i of the fixed 960-byte payload of a BLACK unit in a format: R62 fixes the length and the meaning ("a black
picture in the stream's format") and gives no bytes (log entry 5). -/
opaque blackByte : Format → Nat → Byte

/-- How the part takes a flag byte that is neither 0 nor 1: Table 68 gives a meaning to 0 and 1 alone (log entry 6). -/
opaque otherFlag : Byte → Bool

/-- What READ TIMEBASE returns in the four bytes of the last measured interval when the interval does not fit them:
R195 fixes the width and says nothing of such a value (log entry 7). -/
opaque wideInterval : Nat → Word

/-- What READ SEND returns in the four bytes of a deficit that does not fit them: R110 returns the deficit, and section 5.5
calls it a count up to 78,000 (log entry 61). -/
opaque wideDeficit : Nat → Word

/-- What READ LOG returns in the four bytes of the next clip number once 4,294,967,295 has been given: R134 lets no number
follow it, and R155 says nothing of the field (log entry 53). -/
opaque spentClips : Word

/-- The byte READ INPUT returns for a measured format outside the two formats (log entry 8). -/
opaque otherFormatCode : Byte

/-- The byte READ INPUT returns for a measured picture rate outside the four rates (log entry 8). -/
opaque otherRateCode : Byte

/-- What a sound unit holds in the place of a sample that no sample period gave before the tick (log entry 9). -/
opaque missingSample : Nat → BitVec 24

end Sys2Proof.Config
end

