-- ==== Sys2Proof/Machine/Types.lean ====
section
/-! DEFINITION. The records of which the part's state is made, block by block, as the "holds" sentences and field
tables of the spec's chapters give them.  Plain data throughout. -/

namespace Sys2Proof.Machine

/-! ### Timebase (01_timebase_and_timecode.md) -/

/-- Table 8: the reference states. -/
inductive RefState where
  | free | seeking | locked | holdover
  deriving DecidableEq, Repr

/-- What R7 keeps of a frame: its serial, timecode, cadence phase, and whether its tick gave TC_JUMP. -/
structure Frame where
  serial : Word
  tc : Timecode
  phase : Nat
  jump : Bool
  deriving DecidableEq, Repr

/-- The Timebase (section 1.1, 1.3, R7, R15).  Moments are CLK27 cycles on the line of `Hub.now`; the divider's
count is the time since `lastTick`. -/
structure Timebase where
  rate : Rate                  -- the rate setting
  frameRate : Rate             -- the rate of the running frame
  ratePending : Bool
  external : Bool              -- reference source: EXTERNAL when true
  ref : RefState
  good : Nat                   -- good-interval count, 0 to 8
  prevPulse : Option Nat       -- moment of the previous reference pulse
  lastInterval : Nat           -- last measured interval since entering the state, 0 for none
  lastTick : Nat               -- moment of the last tick
  frame : Frame                -- the running frame
  history : List Frame         -- the two frames before it, newest first
  df : Bool                    -- counting: DF when true
  follow : Bool                -- timecode mode: FOLLOW_READER when true
  jam : Option Timecode        -- jam slot
  reader : Option Timecode     -- reader state
  readerNow : Bool             -- a reader value arrived in the running frame period
  readerBefore : Bool          -- one arrived in the period before
  deriving DecidableEq, Repr

/-! ### Streams and the Media Store (02_streams_and_the_media_store.md) -/

/-- Table 15: the stream states. -/
inductive StreamState where
  | closed | opened | held | closing
  deriving DecidableEq, Repr

/-- A stream record (section 2.1).  The next unit number of stream n is the head of ring n. -/
structure Stream where
  state : StreamState
  discard : Bool               -- hold policy: DISCARD when true, STORE otherwise
  setter : Option (Fin 4)      -- hold setter
  global : Bool                -- ring binding: GLOBAL when true
  fromHeld : Bool              -- CLOSING was entered from HELD, its hold not yet ended
  releaseMark : Word
  committed : Word
  discarded : Word
  lost : Word                  -- units lost before send
  skipped : Word
  buffer : Bytes               -- insert buffer
  builder : Option (Fin 4)
  deriving DecidableEq, Repr

/-- The flags of a unit (Table 18). -/
structure UnitFlags where
  repeated : Bool := false
  black : Bool := false
  damaged : Bool := false
  inputError : Bool := false
  sourceChange : Bool := false
  tcJump : Bool := false
  deriving DecidableEq, Repr

/-- A unit index entry (Table 18).  `payload` is the payload length in bytes that the unit header carries. -/
structure Entry where
  stream : Fin 16
  unit : Word
  g : Option Word
  start : Nat
  len : Nat
  payload : Nat
  serial : Word
  tc : Timecode
  flags : UnitFlags
  deriving DecidableEq, Repr

/-- A ring record (Table 17) with its unit index.  Ring 16 is ring G. -/
structure Ring where
  base : Nat
  size : Nat
  enabled : Bool
  keep : Bool                  -- error policy: KEEP_FLAGGED when true, DISCARD otherwise
  headOff : Nat                -- head sector offset
  index : List Entry           -- oldest first
  head : Word                  -- next unit number, or next G-number of ring G
  send : Word                  -- send pointer
  corrected : Word
  damaged : Word
  deriving DecidableEq, Repr

/-- The Store: 16 stream records, 17 rings and the external DRAM, as (address, byte) pairs in canonical form. -/
structure Store where
  streams : Vector Stream 16
  rings : Vector Ring 17
  mem : List (Nat × BitVec 8)
  deriving DecidableEq, Repr

/-- A unit as a producer offers it: payload, dating, producer flags and the 32 producer bytes of its header. -/
structure Offer where
  stream : Fin 16
  payload : Bytes
  frame : Frame
  flags : UnitFlags
  producer : Bytes
  deriving DecidableEq, Repr

/-- The Store's answer to an offer (R29, R30, R32). -/
inductive Fate where
  | committed (unit : Word) (g : Option Word)
  | discarded
  | tooLarge
  | aborted
  | notTaken
  deriving DecidableEq, Repr

/-! ### Picture Coder (03_picture_coder.md) -/

/-- An input record (Table 21), with the receiver's lock and the formats of the pictures that the receiver has
delivered whole in the running frame, oldest first (section 3.1). -/
structure VideoInput where
  expected : Format
  present : Bool
  sinceLoss : Nat
  lineErrors : Word
  losses : Word
  measured : Option Measured
  locked : Bool
  delivered : List Measured
  deriving DecidableEq, Repr

/-- What section 3.4 keeps of a picture after its coding has begun; `slice` is the quantiser of the slice being
coded, `last` that of the last slice coded, `coded` the bytes of the slices coded so far. -/
structure Coding where
  i : Nat
  b : Nat
  cPic : Nat
  first : Nat
  last : Nat
  slice : Option Nat
  coded : Bytes
  deriving DecidableEq, Repr

/-- A picture in flight (section 3.4), or a substitute unit that waits in its stream's order (R61, R62):
`subst` is `some false` for REPEAT and `some true` for BLACK, and `aborted` tells one that stands in place of an aborted
picture (R61) from one that a tick made. -/
structure Flight where
  frame : Frame
  source : Fin 4
  subst : Option Bool
  aborted : Bool
  captured : Bool
  lineError : Bool
  coding : Option Coding
  deriving DecidableEq, Repr

/-- The counts of a coder context (R65). -/
structure CoderCounts where
  captured : Word := 0
  completed : Word := 0
  ceiling : Word := 0
  late : Word := 0
  tooLarge : Word := 0
  aborted : Word := 0
  discarded : Word := 0
  repeats : Word := 0
  blacks : Word := 0
  undershoots : Word := 0
  deriving DecidableEq, Repr

/-- A picture coder context: the settings of Table 22, the rate state, the SOURCE_CHANGE mark and the pictures in
flight, oldest first. -/
structure Coder where
  source : Fin 4
  format : Format
  fixed : Bool                 -- rate mode: FIXED when true
  rFix : Nat
  rMin : Nat
  rMax : Nat
  weight : Nat
  bf : Nat
  built : Bool
  rate : Nat                   -- R in use
  target : Nat                 -- T
  size : Nat                   -- B
  fullness : Nat               -- F
  q : Nat                      -- q_pic
  remembered : Fin 4
  sourceChange : Bool
  flight : List Flight
  counts : CoderCounts
  deriving DecidableEq, Repr

/-! ### Sound Mixer (04_sound_mixer.md) -/

/-- A gain record (Table 29). -/
structure Gain where
  g : Nat
  target : Nat
  r : Nat
  deriving DecidableEq, Repr

/-- A channel record (Table 28) with the crosspoints from the channel to the 16 buses.  `line` holds the input
samples newest first; a sample past its end is 0. -/
structure Channel where
  delay : Nat
  pendingDelay : Option Nat
  muteEnd : Option Nat
  inverted : Bool
  valid : Bool
  invalid : Word
  line : List (BitVec 24)
  gains : Vector Gain 16
  deriving DecidableEq, Repr

/-- A bus record: master gain, the meter record of Table 32 and the input-error mark (R69). -/
structure Bus where
  master : Gain
  peak : Nat
  overloads : Nat
  lastPeak : Nat
  lastOverloads : Nat
  threshold : Nat
  silenceFrames : Nat
  run : Nat
  silent : Bool
  overloadFrames : Word
  inputError : Bool
  deriving DecidableEq, Repr

/-- The pack states of section 4.5. -/
inductive PackState where
  | idle | packing | void
  deriving DecidableEq, Repr

/-- The pack buffer of a sound stream, samples of its two buses newest first. -/
structure Pack where
  state : PackState
  serial : Word
  buffer : List (BitVec 24 × BitVec 24)
  offered : Word
  voided : Word
  deriving DecidableEq, Repr

/-- The mixer; `sampleNo` counts the samples already given in the running frame. -/
structure Mixer where
  channels : Vector Channel 64
  buses : Vector Bus 16
  packs : Vector Pack 8
  sampleNo : Nat
  deriving DecidableEq, Repr

/-! ### Contribution Paths (05_contribution_paths.md) -/

/-- Table 37: the path states, in code order. -/
inductive PathState where
  | off | reset | down | up | paused
  deriving DecidableEq, Repr

/-- Table 37: the down reasons. -/
inductive DownReason where
  | none | carrier | linkOk | loss | pauseTimeout
  deriving DecidableEq, Repr

/-- The nine counters of a path (Table 37). -/
structure PathCounts where
  placed : Word := 0
  sent : Word := 0
  bytes : Word := 0
  lostInFlight : Word := 0
  framing : Word := 0
  breaks : Word := 0
  reports : Word := 0
  stale : Word := 0
  bad : Word := 0
  deriving DecidableEq, Repr

/-- A path record (Table 37).  `lines` has READY at bit 0, CARRIER at 1, LINK_OK at 2, ALERT at 3, as last
sampled; `hold` is the reset hold (R89); the oldest packet of `fifo` is on the wire while `transmitting`, at the line
rate `txRate` taken when its transmission began (R93, R104); `heard` and `upAllFrame` serve the break test (R94), and
`pausedIn`, the serial of the frame in which PAUSED was last entered, the pause count (R91). -/
structure Path where
  enabled : Bool
  pauseLimit : Nat
  lineRate : Nat
  state : PathState
  reason : DownReason
  lines : BitVec 4
  change : Bool
  loss : Bool
  pauseCount : Nat
  pausedIn : Word
  timeoutMark : Bool
  hold : Bool
  holder : Option (Fin 4)
  resetCount : Nat
  releaseDue : Bool
  fifo : List Bytes
  transmitting : Bool
  txRate : Nat
  seq : Word
  baseline : Option Word
  counts : PathCounts
  heard : Bool
  upAllFrame : Bool
  deriving DecidableEq, Repr

/-- The bond of a pair of paths (section 5.3): setting, bond in force, and the alternation (ODD when true). -/
structure Bond where
  setting : Bool
  inForce : Bool
  odd : Bool
  deriving DecidableEq, Repr

/-- A unit taken up into a send context (section 5.4), with its bytes as read and the next fragment to place. -/
structure Taken where
  stream : Fin 16
  unit : Word
  g : Option Word
  bytes : Bytes
  next : Nat
  serial : Word
  flags : UnitFlags
  deriving DecidableEq, Repr

/-- The send context of a ring and its two counts (R101, R103). -/
structure SendContext where
  taken : Option Taken
  sent : Word
  passedDamaged : Word
  deriving DecidableEq, Repr

/-- The arbiter of a path (section 5.5). -/
structure Arbiter where
  last0 : Fin 17
  cur1 : Option (Fin 17)
  deficits : Vector Nat 17
  deriving DecidableEq, Repr

/-- The Path Controller: paths, spread map and send scheduler. -/
structure Paths where
  path : Vector Path 8
  spread : BitVec 8                       -- the distributed set D
  directed : List (Fin 16 × BitVec 8)     -- directed entries in the order loaded
  bonds : Vector Bond 4
  sends : Vector SendContext 17
  arbiters : Vector Arbiter 8
  deriving DecidableEq, Repr

/-! ### Gauge and Budget (06_gauge_and_budget.md) -/

/-- Table 42: the phases of an automatic cycle. -/
inductive AutoPhase where
  | idle | step1 | step2
  deriving DecidableEq, Repr

/-- Table 42: the states of a manual gauge. -/
inductive ManualState where
  | idle | waiting | running
  deriving DecidableEq, Repr

/-- The gauge state of a path (Table 42).  While a count of cycles runs it is the time since `from2` (step 2) or
`manualFrom` (a VOLUME gauge), and `count2` or `manualCount` holds it otherwise. -/
structure Gauge where
  phase : AutoPhase
  g : Nat
  remaining : Nat
  sum : Nat
  v0 : Nat
  from2 : Nat
  count2 : Nat
  lastV0 : Nat
  lastT1 : Nat
  c : Nat
  s : Nat
  e : Nat
  completed : Word
  aborted : Word
  manual : ManualState
  volume : Bool                -- manual mode: VOLUME when true, TIME otherwise
  gate : Nat
  manualSum : Nat
  manualFrom : Nat
  manualCount : Nat
  manualTicks : Nat            -- whole frames of a TIME gauge's gate already completed
  result : Option (Bool × Word)
  deriving DecidableEq, Repr

/-- The Gauge: its two settings and eight paths. -/
structure Gauges where
  auto : Bool
  window : Nat
  path : Vector Gauge 8
  deriving DecidableEq, Repr

/-- The part of the budget record that belongs to one picture stream.  `kept` holds the rate that a picture in flight
keeps when another is assigned, by the picture's frame serial, and `changedAt` and `startedAt` tell a reassignment that falls
together with a picture start (R63, R125, log entry 47): the model's own fields. -/
structure PictureBudget where
  assigned : Nat
  counted : Bool
  share : Option Nat
  starved : Bool
  kept : List (Word × Nat)
  changedAt : Option Nat       -- the moment of the last change of the assigned rate
  startedAt : Option Nat       -- the moment of the stream's last picture start
  deriving DecidableEq, Repr

/-- The budget record (Table 45). -/
structure Budget where
  fixedSource : Bool           -- capacity source: FIXED when true, GAUGED otherwise
  fixedCapacity : Nat
  headroom : Nat
  reserves : Vector Nat 4
  kBits : Nat
  u : Nat
  u' : Nat
  soundReserve : Nat
  otherReserve : Nat
  fixedTotal : Nat
  pool : Nat
  overdrawn : Bool
  pictures : Vector PictureBudget 4
  recomputations : Word
  deriving DecidableEq, Repr

/-! ### Clip Log (07_clip_log.md) -/

/-- Table 52: the label kinds, in code order. -/
inductive LabelKind where
  | note | name | overload | silenceStart | silenceEnd | tcJump | pictureDrop | inputLoss | inputReturn
  | pathDown | pathUp | trigger
  deriving DecidableEq, Repr

/-- Table 52: the label sources. -/
inductive LabelSource where
  | port (p : Fin 4)
  | timebase | coder | mixer | link | trigger
  deriving DecidableEq, Repr

/-- Table 49: the clip states. -/
inductive ClipState where
  | opened | closing | closed | lapsed
  deriving DecidableEq, Repr

/-- Table 48: the owner of a clip. -/
inductive Owner where
  | port (p : Fin 4)
  | trigger (t : Fin 4)
  | none
  deriving DecidableEq, Repr

/-- Table 48: the end reasons. -/
inductive EndReason where
  | portClose | trigger | portLost | supply | limit
  deriving DecidableEq, Repr

/-- A clip descriptor (Table 48). -/
structure Clip where
  number : Word
  state : ClipState
  owner : Owner
  mask : BitVec 16
  starts : Vector (Option Word) 16
  running : Vector (Option Word) 16
  ends : Vector (Option Word) 16
  startSerial : Word
  startTc : Option Timecode
  endSerial : Option Word
  endTc : Option Timecode
  reason : Option EndReason
  name : Bytes
  labels : List Word
  passed : BitVec 16
  limitDue : Bool
  damaged : Bool
  overloadSeen : Bool
  tcJump : Bool
  truncated : Bool
  deriving DecidableEq, Repr

/-- A label in the Label Store (Table 52). -/
structure Label where
  number : Word
  kind : LabelKind
  source : LabelSource
  serial : Word
  tc : Timecode
  value : Option Word
  text : Bytes
  deriving DecidableEq, Repr

/-- A label as its maker hands it to the Clip Log (R145): kind, source, the dated frame, value and text. -/
structure Draft where
  kind : LabelKind
  source : LabelSource
  frame : Frame
  value : Option Word := none
  text : Bytes := []
  deriving DecidableEq, Repr

/-- Table 54: the action of a trigger. -/
inductive Action where
  | start (mask : BitVec 16)
  | stop (partner : Fin 4)
  deriving DecidableEq, Repr

/-- Table 54: the trigger states. -/
inductive TriggerState where
  | disarmed | armed | fired
  deriving DecidableEq, Repr

/-- A trigger record (Table 54); a `source` of none is ANY. -/
structure Trigger where
  kind : Option LabelKind
  source : Option LabelSource
  pattern : Word
  mask : Word
  action : Action
  auto : Bool
  state : TriggerState
  fires : Word
  ignored : Word
  misses : Word
  deriving DecidableEq, Repr

/-- The Clip Log.  `selection` holds keep (true) or ignore at 9 × kind + source; `nextClip` passes 4,294,967,295
when the clip numbers are used up (R134).  The filed, ignored, removed and lapse counts are 32 bits and wrap (log entry 57). -/
structure ClipLog where
  clips : List Clip            -- in clip-number order
  labels : List Label          -- oldest first
  selection : Vector Bool 108
  triggers : Vector Trigger 4
  supply : Bool                -- supply state: asserted when true
  nextClip : Nat
  nextLabel : Word
  filed : Word
  ignored : Word
  removed : Word
  lapses : Word
  deriving DecidableEq, Repr

/-! ### Tally Unit (08_tally_outputs.md) -/

/-- Table 56: what an output watches. -/
inductive TallySource where
  | input (n : Fin 4)
  | path (n : Fin 8)
  | trigger (n : Fin 4)
  | none
  deriving DecidableEq, Repr

/-- Table 57: the lamp states. -/
inductive Lamp where
  | off | red | green | amber
  deriving DecidableEq, Repr

/-- Table 56: the overrides. -/
inductive Override where
  | none | forceOff | forceRed | forceGreen
  deriving DecidableEq, Repr

/-- A tally map entry (Table 56). -/
structure TallyEntry where
  source : TallySource
  lamp : Lamp
  override : Override
  holder : Option (Fin 4)
  deriving DecidableEq, Repr

/-- The Tally Unit: map entries, flash phases and sent marks. -/
structure Tally where
  entries : Vector TallyEntry 16
  flash : Vector Nat 4
  sent : Vector Bool 4
  deriving DecidableEq, Repr

/-! ### Master ports (09_master_ports_and_rights.md) -/

/-- Table 77: the outcomes of a command, in code order. -/
inductive Answer where
  | done | started | denied | badArg | conflict | full | absent | gone | notYet | damaged
  deriving DecidableEq, Repr

/-- A block's answer to a command: outcome and result data. -/
structure Reply where
  outcome : Answer
  data : Bytes := []
  deriving DecidableEq, Repr

/-- A response on its way to a master (Table 70). -/
structure Response where
  tag : Byte
  code : Byte
  outcome : Answer
  data : Bytes
  deriving DecidableEq, Repr

/-- The ten counts of a port record (Table 60). -/
structure PortCounts where
  takenIn : Word := 0
  bad : Word := 0
  overrun : Word := 0
  answered : Word := 0
  full : Word := 0
  denied : Word := 0
  absent : Word := 0
  wrongPhase : Word := 0
  pairs : Word := 0
  absences : Word := 0
  deriving DecidableEq, Repr

/-- A port record (Table 60).  `fullList` holds tag and command code of each record turned away; `sending` is the
response on the response link, with true for a FULL answer; `half` is the moment of the absence that found half a pair
completed (R177, log entry 55). -/
structure PortRecord where
  queue : List Bytes
  fullList : List (Byte × Byte)
  sending : Option (Bool × Response)
  present : Bool
  expectOdd : Bool
  half : Option Nat
  timer : Nat
  classes : BitVec 16
  streams : BitVec 16
  counts : PortCounts
  deriving DecidableEq, Repr

/-! ### Notice Unit (10_notices.md) -/

/-- Table 66: the notice kinds, in code order. -/
inductive NoticeKind where
  | refState | serialWrap | tcJump | dayWrap | streamState | unsentLost | ringHalf | ringWrap | memoryError
  | inputState | pictureDrop | audioOverload | pathChange | pathState | gaugeDone | budgetChange | starved
  | clipClosed | clipLapsed | triggerFired | supplyWarn | portAbsent | portPresent
  deriving DecidableEq, Repr

/-- An entry of a notice queue; its class follows from the kind. -/
structure Notice where
  kind : NoticeKind
  param : Word
  serial : Word
  deriving DecidableEq, Repr

/-- Table 65: the attention modes, in code order. -/
inductive AttentionMode where
  | pulse | untilAck | untilEmpty
  deriving DecidableEq, Repr

/-- Where a pulse of R190 stands: none under way, asserted, or in the deasserted interval after it. -/
inductive PulsePhase where
  | idle | asserted | interval
  deriving DecidableEq, Repr

/-- The notice state of a port (Table 65); bit n of `mask` and `summary` is kind n, bit 23 of `summary` is
NOTICE_LOST. -/
structure NoticePort where
  queue : List Notice
  mask : Word
  summary : Word
  lost : Word
  mode : AttentionMode
  line : Bool
  owed : Nat
  pulse : PulsePhase
  deriving DecidableEq, Repr

/-! ### The whole part -/

/-- Everything the part holds behind its pins: the ten blocks of Table 1, the strap word, and the model's own clock and
view of the outside world at the current command. -/
structure Hub where
  now : Nat                    -- CLK27 cycles
  env : Env                    -- the outside world at the current command
  strap : BitVec 16
  tb : Timebase
  store : Store
  inputs : Vector VideoInput 4
  coders : Vector Coder 4
  mixer : Mixer
  paths : Paths
  gauges : Gauges
  budget : Budget
  log : ClipLog
  tally : Tally
  ports : Vector PortRecord 4
  notices : Vector NoticePort 4
  deriving DecidableEq, Repr

end Sys2Proof.Machine
end

