-- ==== Sys2Proof/Machine/Reset.lean ====
section
/-! DEFINITION. The strap word (Table 59) and what the release of Part reset leaves in every block: R18, R46, R66,
R87, R111, R132, R156, R167, R173, R183, R194. -/

namespace Sys2Proof

/-- The rate with a code 0 to 3 (section 11.7). -/
def Rate.ofCode : Nat → Option Rate
  | 0 => some .r25
  | 1 => some .r50
  | 2 => some .r2997
  | 3 => some .r5994
  | _ => none

/-- The timecode 00:00:00:00 in non-DF counting. -/
def Timecode.zero : Timecode := { hours := 0, minutes := 0, seconds := 0, frames := 0, df := false }

end Sys2Proof

namespace Sys2Proof.Machine

/-! ### The strap word (Table 59) -/

/-- STRAP0–1: the presence period in frames, none when off. -/
def strapPeriod (strap : BitVec 16) : Option Nat :=
  match strap.toNat % 4 with
  | 0 => none
  | 1 => some 25
  | 2 => some 100
  | _ => some 250

/-- STRAP2: the split rights profile. -/
def strapSplit (strap : BitVec 16) : Bool := strap.getLsbD 2

/-- STRAP3–6: whether a port is in the editor mask. -/
def strapEditor (strap : BitVec 16) (p : Fin 4) : Bool := strap.getLsbD (3 + p.val)

/-- STRAP7: the reference source, EXTERNAL when set. -/
def strapExternal (strap : BitVec 16) : Bool := strap.getLsbD 7

/-- STRAP8–9: the frame rate. -/
def strapRate (strap : BitVec 16) : Rate := (Rate.ofCode (strap.toNat / 256 % 4)).getD .r25

/-- STRAP10: the last block of the store is one below this count of 4 KiB blocks (section 2.3). -/
def strapBlocks (strap : BitVec 16) : Nat := if strap.getLsbD 10 then 1048576 else 524288

/-- STRAP11: the auto gauge default. -/
def strapAuto (strap : BitVec 16) : Bool := strap.getLsbD 11

/-- STRAP12–15: the van slot number. -/
def strapSlot (strap : BitVec 16) : Nat := strap.toNat / 4096

/-! ### Part reset values, block by block -/

/-- R18: the Timebase at the release of RESET. -/
def Timebase.released (strap : BitVec 16) : Timebase where
  rate := strapRate strap
  frameRate := strapRate strap
  ratePending := false
  external := strapExternal strap
  ref := if strapExternal strap then .seeking else .free
  good := 0
  prevPulse := none
  lastInterval := 0
  lastTick := 0
  frame := { serial := 0, tc := .zero, phase := 0, jump := false }
  history := []
  df := false
  follow := false
  jam := none
  reader := none
  readerNow := false
  readerBefore := false

/-- R46: a stream record. -/
def Stream.released : Stream where
  state := .closed
  discard := false
  setter := none
  global := false
  fromHeld := false
  releaseMark := 0
  committed := 0
  discarded := 0
  lost := 0
  skipped := 0
  buffer := []
  builder := none

/-- R46: a ring. -/
def Ring.released : Ring where
  base := 0
  size := 64
  enabled := false
  keep := false
  headOff := 0
  index := []
  head := 0
  send := 0
  corrected := 0
  damaged := 0

/-- R46: the Store; no byte of the DRAM has been written (log entry 2). -/
def Store.released : Store where
  streams := Vector.replicate 16 .released
  rings := Vector.replicate 17 .released
  mem := []

/-- R66: an input; its receiver has not yet measured a picture, so it has no lock (log entry 16). -/
def VideoInput.released : VideoInput where
  expected := .hd
  present := false
  sinceLoss := 0
  lineErrors := 0
  losses := 0
  measured := none
  locked := false
  delivered := []

/-- R66: a picture coder context. -/
def Coder.released : Coder where
  source := 0
  format := .hd
  fixed := false
  rFix := 2000000
  rMin := 2000000
  rMax := 100000000
  weight := 1
  bf := 4
  built := false
  rate := 0
  target := 0
  size := 0
  fullness := 0
  q := 0
  remembered := 0
  sourceChange := false
  flight := []
  counts := {}

/-- R87: a crosspoint at silence. -/
def Gain.silence : Gain := { g := 0, target := 0, r := 0 }

/-- R87: a master gain at unity. -/
def Gain.unity : Gain := { g := 16384, target := 16384, r := 0 }

/-- R87: a channel; its valid flag awaits the first sample (log entry 3). -/
def Channel.released : Channel where
  delay := 0
  pendingDelay := none
  muteEnd := none
  inverted := false
  valid := false
  invalid := 0
  line := []
  gains := Vector.replicate 16 .silence

/-- R87: a bus. -/
def Bus.released : Bus where
  master := .unity
  peak := 0
  overloads := 0
  lastPeak := 0
  lastOverloads := 0
  threshold := 0
  silenceFrames := 50
  run := 0
  silent := false
  overloadFrames := 0
  inputError := false

/-- R87: a pack buffer. -/
def Pack.released : Pack where
  state := .idle
  serial := 0
  buffer := []
  offered := 0
  voided := 0

/-- R87: the mixer. -/
def Mixer.released : Mixer where
  channels := Vector.replicate 64 .released
  buses := Vector.replicate 16 .released
  packs := Vector.replicate 8 .released
  sampleNo := 0

/-- The four status lines of path p on the pins. -/
def pathLines (lines : BitVec 32) (p : Fin 8) : BitVec 4 := BitVec.ofNat 4 (lines.toNat / 16 ^ p.val)

/-- R111: a path; the copy of its lines is taken at the release. -/
def Path.released (lines : BitVec 4) : Path where
  enabled := false
  pauseLimit := 12
  lineRate := 100
  state := .off
  reason := .none
  lines := lines
  change := false
  loss := false
  pauseCount := 0
  pausedIn := 0
  timeoutMark := false
  hold := false
  holder := none
  resetCount := 0
  releaseDue := false
  fifo := []
  transmitting := false
  txRate := 100
  seq := 0
  baseline := none
  counts := {}
  heard := false
  upAllFrame := false

/-- R111: an empty send context. -/
def SendContext.released : SendContext := { taken := none, sent := 0, passedDamaged := 0 }

/-- R111: an arbiter. -/
def Arbiter.released : Arbiter := { last0 := 16, cur1 := none, deficits := Vector.replicate 17 0 }

/-- R111: the Path Controller. -/
def Paths.released (lines : BitVec 32) : Paths where
  path := Vector.ofFn fun p => .released (pathLines lines p)
  spread := 0
  directed := []
  bonds := Vector.replicate 4 { setting := false, inForce := false, odd := false }
  sends := Vector.replicate 17 .released
  arbiters := Vector.replicate 8 .released

/-- R132: the gauge of a path. -/
def Gauge.released : Gauge where
  phase := .idle
  g := 0
  remaining := 0
  sum := 0
  v0 := 0
  from2 := 0
  count2 := 0
  lastV0 := 0
  lastT1 := 0
  c := 0
  s := 0
  e := 0
  completed := 0
  aborted := 0
  manual := .idle
  volume := false
  gate := 1
  manualSum := 0
  manualFrom := 0
  manualCount := 0
  manualTicks := 0
  result := none

/-- R132: the Gauge. -/
def Gauges.released (strap : BitVec 16) : Gauges where
  auto := strapAuto strap
  window := 25
  path := Vector.replicate 8 .released

/-- R132: the budget record. -/
def Budget.released : Budget where
  fixedSource := false
  fixedCapacity := 0
  headroom := 100
  reserves := Vector.replicate 4 0
  kBits := 0
  u := 0
  u' := 0
  soundReserve := 0
  otherReserve := 0
  fixedTotal := 0
  pool := 0
  overdrawn := false
  pictures :=
    Vector.replicate 4
      { assigned := 2000000, counted := false, share := none, starved := false, kept := [], changedAt := none,
        startedAt := none }
  recomputations := 0

/-- R156: a trigger. -/
def Trigger.released : Trigger where
  kind := none
  source := none
  pattern := 0
  mask := 0
  action := .start 0
  auto := false
  state := .disarmed
  fires := 0
  ignored := 0
  misses := 0

/-- R152, R156: the Clip Log; the supply state takes the level of SUPW. -/
def ClipLog.released (supw : Bool) : ClipLog where
  clips := []
  labels := []
  selection := Vector.replicate 108 true
  triggers := Vector.replicate 4 .released
  supply := supw
  nextClip := 1
  nextLabel := 0
  filed := 0
  ignored := 0
  removed := 0
  lapses := 0

/-- R167: the Tally Unit. -/
def Tally.released : Tally where
  entries := Vector.replicate 16 { source := .none, lamp := .off, override := .none, holder := none }
  flash := Vector.replicate 4 0
  sent := Vector.replicate 4 false

/-- Table 62: the class mask of a port's column (bits 0 to 10 are TIME, STORE, CODE, MIX, LINK, GAUGE, LOG, TALLY,
RIGHTS, NOTICE, PART). -/
def profileClasses (split : Bool) (p : Fin 4) : BitVec 16 :=
  if split then
    match p with
    | 0 => 0b11011000110#16
    | 1 => 0b01001001010#16
    | 2 => 0b11000110011#16
    | 3 => 0b01011000010#16
  else 0b11011111111#16

/-- R173: the class mask with RIGHTS (bit 8) when the port's editor pin is high. -/
def strapClasses (strap : BitVec 16) (p : Fin 4) : BitVec 16 :=
  if strapEditor strap p then profileClasses (strapSplit strap) p ||| 0x100#16 else profileClasses (strapSplit strap) p

/-- R173, R183: a port record. -/
def PortRecord.released (strap : BitVec 16) (p : Fin 4) : PortRecord where
  queue := []
  fullList := []
  sending := none
  present := true
  expectOdd := false
  half := none
  timer := 0
  classes := strapClasses strap p
  streams := 0xFFFF
  counts := {}

/-- R194: the notice state of a port; the mask passes all 23 kinds. -/
def NoticePort.released : NoticePort where
  queue := []
  mask := 0x7FFFFF
  summary := 0
  lost := 0
  mode := .untilEmpty
  line := false
  owed := 0
  pulse := .idle

/-- R168: every block at its Part reset values under a strap word, the level of SUPW, and the outside world at the
release. -/
def Hub.released (strap : BitVec 16) (supw : Bool) (e : Env) : Hub where
  now := 0
  env := e
  strap := strap
  tb := .released strap
  store := .released
  inputs := Vector.replicate 4 .released
  coders := Vector.replicate 4 .released
  mixer := .released
  paths := .released e.lines
  gauges := .released strap
  budget := .released
  log := .released supw
  tally := .released
  ports := Vector.ofFn fun p => .released strap p
  notices := Vector.replicate 4 .released

end Sys2Proof.Machine
end

