-- ==== Sys2Proof/Machine/Records.lean ====
section
/-! DEFINITION. Bytes on the links and in the rings: the field encodings of Table 68, the CRC-32 of R197, and the
reading of command arguments (R195). -/

namespace Sys2Proof.Machine

/-! ### Writing fields -/

/-- A number in n bytes, least significant byte first (R195). -/
def le : Nat → Nat → Bytes
  | 0, _ => []
  | n + 1, v => BitVec.ofNat 8 v :: le n (v / 256)

/-- The number that bytes spell, least significant byte first (R195). -/
def ofLe : Bytes → Nat
  | [] => 0
  | b :: bs => b.toNat + 256 * ofLe bs

/-- A 32-bit word in 4 bytes. -/
def word4 (w : Word) : Bytes := le 4 w.toNat

/-- A flag in a byte (Table 68). -/
def flagByte (b : Bool) : Bytes := if b then [1] else [0]

/-- n bytes of 0. -/
def zeros (n : Nat) : Bytes := List.replicate n 0

/-- An optional field of a fixed width: a present byte, then the field, sent as 0 when absent (Table 68). -/
def optField {α : Type} (width : Nat) (f : α → Bytes) : Option α → Bytes
  | none => 0 :: zeros width
  | some x => 1 :: f x

/-- A list of entries behind a count of n bytes (Table 68). -/
def listField {α : Type} (n : Nat) (f : α → Bytes) (xs : List α) : Bytes := le n xs.length ++ xs.flatMap f

/-- An optional port number. -/
def optPort (p : Option (Fin 4)) : Bytes := optField 1 (fun q => le 1 q.val) p

/-- Every entry of a table of fixed size, in order and without a count: the model's reading, that such a table (the 16
crosspoints of READ CHANNEL among them) is no List of Table 68.  DEDUCED, unsafe (log entry 45). -/
def tableField {α : Type} {n : Nat} (f : α → Bytes) (v : Vector α n) : Bytes := v.toList.flatMap f

/-! ### Timecodes (Table 68) -/

/-- A timecode in 32 bits: frames with bit 7 for DF counting, seconds, minutes, hours. -/
def timecodeWire (t : Timecode) : Nat :=
  (t.frames % 128 + (if t.df then 128 else 0)) + 256 * (t.seconds % 256) + 65536 * (t.minutes % 256)
    + 16777216 * (t.hours % 256)

/-- The timecode that 32 bits spell. -/
def timecodeOf (w : BitVec 32) : Timecode where
  frames := w.toNat % 128
  df := w.getLsbD 7
  seconds := w.toNat / 256 % 256
  minutes := w.toNat / 65536 % 256
  hours := w.toNat / 16777216

/-- A timecode in 4 bytes. -/
def tc4 (t : Timecode) : Bytes := le 4 (timecodeWire t)

/-! ### The CRC-32 (R197) -/

/-- One bit into the CRC register. -/
def crcBit (r : BitVec 32) (b : Bool) : BitVec 32 :=
  if xor (r.getLsbD 0) b then (r >>> 1) ^^^ 0xEDB88320#32 else r >>> 1

/-- One byte into the CRC register, least significant bit first. -/
def crcByte (r : BitVec 32) (b : Byte) : BitVec 32 :=
  crcBit (crcBit (crcBit (crcBit (crcBit (crcBit (crcBit (crcBit r (b.getLsbD 0)) (b.getLsbD 1)) (b.getLsbD 2))
    (b.getLsbD 3)) (b.getLsbD 4)) (b.getLsbD 5)) (b.getLsbD 6)) (b.getLsbD 7)

/-- The CRC-32 of bytes in the order they are sent. -/
def crc32 (bs : Bytes) : BitVec 32 := ~~~ (bs.foldl crcByte 0xFFFFFFFF#32)

/-! ### Reading arguments (R195): each reader takes a field off the front of the argument bytes -/

/-- A flag byte; Table 68 gives a meaning to 0 and 1 alone. -/
def flagOf (b : Byte) : Bool := if b = 0 then false else if b = 1 then true else Config.otherFlag b

/-- A field of n bytes. -/
def takeField (n : Nat) (bs : Bytes) : Option (Nat × Bytes) :=
  if bs.length < n then none else some (ofLe (bs.take n), bs.drop n)

/-- A byte. -/
def take1 (bs : Bytes) : Option (Byte × Bytes) :=
  match bs with
  | [] => none
  | b :: rest => some (b, rest)

/-- Two bytes. -/
def take2 (bs : Bytes) : Option (BitVec 16 × Bytes) :=
  match takeField 2 bs with
  | none => none
  | some (v, rest) => some (BitVec.ofNat 16 v, rest)

/-- Four bytes. -/
def take4 (bs : Bytes) : Option (Word × Bytes) :=
  match takeField 4 bs with
  | none => none
  | some (v, rest) => some (BitVec.ofNat 32 v, rest)

/-- Eight bytes. -/
def take8 (bs : Bytes) : Option (BitVec 64 × Bytes) :=
  match takeField 8 bs with
  | none => none
  | some (v, rest) => some (BitVec.ofNat 64 v, rest)

/-- A text of 65 bytes. -/
def takeText (bs : Bytes) : Option (TextArg × Bytes) :=
  match bs with
  | [] => none
  | n :: rest => if rest.length < 64 then none else some ({ len := n, bytes := rest.take 64 }, rest.drop 64)

/-- An optional field: its present byte, then the field whatever the byte says.  A present byte that is neither 0 nor 1 is
read as a flag byte is (log entry 6). -/
def takeOpt {α : Type} (f : Bytes → Option (α × Bytes)) (bs : Bytes) : Option (Option α × Bytes) :=
  match bs with
  | [] => none
  | b :: rest =>
    match f rest with
    | none => none
    | some (x, rest') => some (if flagOf b then some x else none, rest')

/-- Data bytes behind a 2-byte count. -/
def takeData (bs : Bytes) : Option (Bytes × Bytes) :=
  match takeField 2 bs with
  | none => none
  | some (n, rest) => if rest.length < n then none else some (rest.take n, rest.drop n)

/-- The action of SET TRIGGER with its stream mask or partner. -/
def takeAction (bs : Bytes) : Option (ActionArg × Bytes) :=
  match bs with
  | [] => none
  | b :: rest =>
    if b = 0 then
      match take2 rest with
      | none => none
      | some (m, rest') => some (.start m, rest')
    else if b = 1 then
      match take1 rest with
      | none => none
      | some (p, rest') => some (.stop p, rest')
    else some (.unknown, rest)

end Sys2Proof.Machine
end

