-- ==== Sys2Proof/Machine/Operands.lean ====
section
/-! DEFINITION. The operands of commands as the rules judge them: named values and their codes (section 11.7), numbers
with a bound, clamping, and texts. -/

namespace Sys2Proof

/-- The code of a rate (section 11.7). -/
def Rate.code : Rate → Nat
  | .r25 => 0
  | .r50 => 1
  | .r2997 => 2
  | .r5994 => 3

/-- The code of a picture format. -/
def Format.code : Format → Nat
  | .hd => 0
  | .uhd => 1

/-- A byte that names one of two values by its position, 0 or 1 (section 11.7): the second when true. -/
def twoWay (b : Byte) : Option Bool := if b = 0 then some false else if b = 1 then some true else none

/-- A byte as a number below n. -/
def below (n : Nat) (b : Byte) : Option (Fin n) := if h : b.toNat < n then some ⟨b.toNat, h⟩ else none

/-- To clamp a value into a range (section Conventions). -/
def clamp (lo hi x : Nat) : Nat := max lo (min hi x)

/-- A text of at most 64 bytes; a longer one is refused by the rule of its command. -/
def TextArg.text (t : TextArg) : Option Bytes := if t.len.toNat ≤ 64 then some (t.bytes.take t.len.toNat) else none

/-- A format by its code. -/
def Format.ofByte (b : Byte) : Option Format := (twoWay b).map fun u => if u then .uhd else .hd

/-- A rate by its code. -/
def Rate.ofByte (b : Byte) : Option Rate := Rate.ofCode b.toNat

end Sys2Proof

namespace Sys2Proof.Machine

/-! ### Codes of the part's named values: each is the position in the list that first gives the values -/

/-- Reference state (section 11.7). -/
def refStateCode : RefState → Nat
  | .free => 0
  | .seeking => 1
  | .locked => 2
  | .holdover => 3

/-- Stream state (section 11.7). -/
def streamStateCode : StreamState → Nat
  | .closed => 0
  | .opened => 1
  | .held => 2
  | .closing => 3

/-- Path state (section 11.7). -/
def pathStateCode : PathState → Nat
  | .off => 0
  | .reset => 1
  | .down => 2
  | .up => 3
  | .paused => 4

/-- Down reason, in the order of Table 37. -/
def downReasonCode : DownReason → Nat
  | .none => 0
  | .carrier => 1
  | .linkOk => 2
  | .loss => 3
  | .pauseTimeout => 4

/-- Pack state, in the order of section 4.5. -/
def packStateCode : PackState → Nat
  | .idle => 0
  | .packing => 1
  | .void => 2

/-- Auto phase, in the order of Table 42. -/
def autoPhaseCode : AutoPhase → Nat
  | .idle => 0
  | .step1 => 1
  | .step2 => 2

/-- Manual state, in the order of Table 42. -/
def manualStateCode : ManualState → Nat
  | .idle => 0
  | .waiting => 1
  | .running => 2

/-- Clip state (section 11.7). -/
def clipStateCode : ClipState → Nat
  | .opened => 0
  | .closing => 1
  | .closed => 2
  | .lapsed => 3

/-- End reason (section 11.7). -/
def endReasonCode : EndReason → Nat
  | .portClose => 0
  | .trigger => 1
  | .portLost => 2
  | .supply => 3
  | .limit => 4

/-- Trigger state, in the order of Table 54. -/
def triggerStateCode : TriggerState → Nat
  | .disarmed => 0
  | .armed => 1
  | .fired => 2

/-- Owner byte of a clip descriptor (section 11.7). -/
def ownerCode : Owner → Nat
  | .port p => p.val
  | .trigger t => 4 + t.val
  | .none => 8

/-- Label kind, 0 to 11 in the order of Table 52. -/
def LabelKind.code : LabelKind → Nat
  | .note => 0
  | .name => 1
  | .overload => 2
  | .silenceStart => 3
  | .silenceEnd => 4
  | .tcJump => 5
  | .pictureDrop => 6
  | .inputLoss => 7
  | .inputReturn => 8
  | .pathDown => 9
  | .pathUp => 10
  | .trigger => 11

/-- A label kind by its code. -/
def LabelKind.ofCode (n : Nat) : Option LabelKind :=
  [LabelKind.note, .name, .overload, .silenceStart, .silenceEnd, .tcJump, .pictureDrop, .inputLoss, .inputReturn,
    .pathDown, .pathUp, .trigger][n]?

/-- Label source, 0 to 8 (section 11.7). -/
def LabelSource.code : LabelSource → Nat
  | .port p => p.val
  | .timebase => 4
  | .coder => 5
  | .mixer => 6
  | .link => 7
  | .trigger => 8

/-- A label source by its code. -/
def LabelSource.ofCode (n : Nat) : Option LabelSource :=
  [LabelSource.port 0, .port 1, .port 2, .port 3, .timebase, .coder, .mixer, .link, .trigger][n]?

/-- Notice kind, 0 to 22 in the order of Table 66. -/
def NoticeKind.code : NoticeKind → Nat
  | .refState => 0
  | .serialWrap => 1
  | .tcJump => 2
  | .dayWrap => 3
  | .streamState => 4
  | .unsentLost => 5
  | .ringHalf => 6
  | .ringWrap => 7
  | .memoryError => 8
  | .inputState => 9
  | .pictureDrop => 10
  | .audioOverload => 11
  | .pathChange => 12
  | .pathState => 13
  | .gaugeDone => 14
  | .budgetChange => 15
  | .starved => 16
  | .clipClosed => 17
  | .clipLapsed => 18
  | .triggerFired => 19
  | .supplyWarn => 20
  | .portAbsent => 21
  | .portPresent => 22

/-- The class of a notice kind (Table 66): PART when true, STREAM otherwise. -/
def NoticeKind.isPart : NoticeKind → Bool
  | .refState | .serialWrap | .tcJump | .dayWrap | .inputState | .audioOverload | .budgetChange | .triggerFired
  | .supplyWarn | .portAbsent | .portPresent => true
  | .streamState | .unsentLost | .ringHalf | .ringWrap | .memoryError | .pictureDrop | .pathChange | .pathState
  | .gaugeDone | .starved | .clipClosed | .clipLapsed => false

/-- Outcome codes (Table 77). -/
def Answer.code : Answer → Nat
  | .done => 0
  | .started => 1
  | .denied => 2
  | .badArg => 3
  | .conflict => 4
  | .full => 5
  | .absent => 6
  | .gone => 7
  | .notYet => 8
  | .damaged => 9

/-- Attention modes, in the order of Table 65. -/
def AttentionMode.code : AttentionMode → Nat
  | .pulse => 0
  | .untilAck => 1
  | .untilEmpty => 2

/-- An attention mode by its code. -/
def AttentionMode.ofByte (b : Byte) : Option AttentionMode :=
  [AttentionMode.pulse, .untilAck, .untilEmpty][b.toNat]?

/-- Lamp states, in the order of Table 56. -/
def lampCode : Lamp → Nat
  | .off => 0
  | .red => 1
  | .green => 2
  | .amber => 3

/-- Overrides, in the order of Table 56. -/
def overrideCode : Override → Nat
  | .none => 0
  | .forceOff => 1
  | .forceRed => 2
  | .forceGreen => 3

/-- An override by its code. -/
def overrideOf (b : Byte) : Option Override := [Override.none, .forceOff, .forceRed, .forceGreen][b.toNat]?

/-- The two bytes of a tally source (R195). -/
def tallySourceBytes : TallySource → Bytes
  | .input n => [0, BitVec.ofNat 8 n.val]
  | .path n => [1, BitVec.ofNat 8 n.val]
  | .trigger n => [2, BitVec.ofNat 8 n.val]
  | .none => [3, 0]

/-- A tally source by its two bytes (R163, R195).  The number byte of NONE is not judged (log entry 59). -/
def tallySourceOf (kind number : Byte) : Option TallySource :=
  match kind.toNat with
  | 0 => (below 4 number).map .input
  | 1 => (below 8 number).map .path
  | 2 => (below 4 number).map .trigger
  | 3 => some .none
  | _ => none

/-- The twelve label kinds that a SET SELECTION kind selects: one, or all of them for FFh (R147). -/
def kindsOf (b : Byte) : Option (LabelKind → Bool) :=
  if b = 0xFF then some fun _ => true else (LabelKind.ofCode b.toNat).map fun k k' => k = k'

/-- The label sources that a SET SELECTION source selects. -/
def sourcesOf (b : Byte) : Option (LabelSource → Bool) :=
  if b = 0xFF then some fun _ => true else (LabelSource.ofCode b.toNat).map fun k k' => k = k'

/-- The match source of SET TRIGGER: a source, or ANY for FFh (none of the inner option). -/
def matchSourceOf (b : Byte) : Option (Option LabelSource) :=
  if b = 0xFF then some none else (LabelSource.ofCode b.toNat).map some

/-- The match kind of SET TRIGGER: any label kind except TRIGGER (R149). -/
def matchKindOf (b : Byte) : Option LabelKind :=
  match LabelKind.ofCode b.toNat with
  | some .trigger => none
  | k => k

end Sys2Proof.Machine
end

