-- ==== Sys2Proof/Machine/Flags.lean ====
section
/-! DEFINITION. Flags and masks: the flag byte of a unit (Table 73), membership in stream, path and class masks, and
the comparisons of wrapping numbers (R20, section 7.1). -/

namespace Sys2Proof.Machine

/-- Byte 2 of a unit header: REPEAT, BLACK, DAMAGED, INPUT_ERROR, SOURCE_CHANGE, TC_JUMP in bits 0 to 5. -/
def UnitFlags.byte (f : UnitFlags) : Byte :=
  BitVec.ofNat 8 (f.repeated.toNat + 2 * f.black.toNat + 4 * f.damaged.toNat + 8 * f.inputError.toNat
    + 16 * f.sourceChange.toNat + 32 * f.tcJump.toNat)

/-- The six flags of a unit as six flag fields, in the order of Table 18. -/
def UnitFlags.fields (f : UnitFlags) : Bytes :=
  flagByte f.repeated ++ flagByte f.black ++ flagByte f.damaged ++ flagByte f.inputError ++ flagByte f.sourceChange
    ++ flagByte f.tcJump

/-- The classes of command (Table 61), by their bits in a class mask. -/
inductive CommandClass where
  | time | store | code | mix | link | gauge | log | tally | rights | notice | part
  deriving DecidableEq, Repr

/-- The bit of a class (section 11.7). -/
def CommandClass.bit : CommandClass → Nat
  | .time => 0
  | .store => 1
  | .code => 2
  | .mix => 3
  | .link => 4
  | .gauge => 5
  | .log => 6
  | .tally => 7
  | .rights => 8
  | .notice => 9
  | .part => 10

/-- A word with bit n set. -/
def setBit (w : Word) (n : Nat) : Word := w ||| (1#32 <<< n)

/-- A frame serial (or label number) x at or after y: their difference modulo 2^32 is below 2^31 (section 7.1). -/
def atOrAfter (x y : Word) : Bool := decide ((x - y).toNat < 2147483648)

/-- The distance of a number from a base, modulo 2^32 (R20). -/
def dist (base x : Word) : Nat := (x - base).toNat

/-- The lines of a path: READY, CARRIER, LINK_OK, ALERT. -/
def readyOf (l : BitVec 4) : Bool := l.getLsbD 0

/-- CARRIER of a path's lines. -/
def carrierOf (l : BitVec 4) : Bool := l.getLsbD 1

/-- LINK_OK of a path's lines. -/
def linkOkOf (l : BitVec 4) : Bool := l.getLsbD 2

/-- ALERT of a path's lines. -/
def alertOf (l : BitVec 4) : Bool := l.getLsbD 3

end Sys2Proof.Machine
end

