-- ==== Sys2Proof/Machine/State.lean ====
section
/-! DEFINITION. The state of the model: the queue of waiting commands, the RESET pin, and the part (`Hub`); what a
step can stop with; and the state right after reset. -/

namespace Sys2Proof.Machine

/-- The machine: commands waiting, first in first out; whether the RESET pin holds the part in Part reset (R168); and
everything the part holds. -/
structure State where
  pending : List Instr
  held : Bool
  hub : Hub
  deriving DecidableEq, Repr

/-- What stops the machine: nothing does.  The spec gives every command and event an effect and names no condition in
which the part stops, so no meaning raises a fault. -/
inductive Fault where
  deriving DecidableEq, Repr

/-- Why a command has no meaning. -/
inductive Refusal where
  /-- Raised by an arm of `exec` alone, for a row of the operation table that has no meaning yet; safe, since nothing
  can be proved of what such a command does. -/
  | notModelled (mnemonic : String)
  deriving DecidableEq, Repr

/-- The machine right after Part reset (R168): every block at its Part reset values, frame 0 just begun.  The strap
pins, SUPW and the path status lines are inputs; here all of them are low (log entry 1). -/
def State.reset : State where
  pending := []
  held := false
  hub := Hub.released 0 false {}

end Sys2Proof.Machine
end

