-- ==== Sys2Proof/Machine/Ops.lean ====
section
/-! DEFINITION. The operations every block uses: reading and updating one record of a table, the moment of a command,
giving a notice (chapter 10), and how a meaning becomes an outcome. -/

namespace Sys2Proof.Machine

/-! ### Outcomes -/

/-- A command's effect on everything but the queue.  While the RESET pin is held the part is in Part reset: receivers
ignore their links and nothing runs, so the command finds nothing to act on (R168). -/
def State.run (s : State) (f : Hub → Hub) : Host.Outcome State Fault Refusal :=
  .next (if s.held then s else { s with hub := f s.hub })

/-- The moment of a command: its cycles pass and the outside world is as it shows. -/
def Hub.arrive (h : Hub) (e : Env) : Hub := { h with now := h.now + e.dt, env := e }

/-! ### One record of a table -/

/-- The stream record of stream k. -/
def Hub.stream (h : Hub) (k : Fin 16) : Stream := h.store.streams[k]

/-- Ring r; ring 16 is ring G. -/
def Hub.ring (h : Hub) (r : Fin 17) : Ring := h.store.rings[r]

/-- Changes the record of stream k. -/
def Hub.modStream (h : Hub) (k : Fin 16) (f : Stream → Stream) : Hub :=
  { h with store := { h.store with streams := h.store.streams.set k (f h.store.streams[k]) } }

/-- Changes ring r. -/
def Hub.modRing (h : Hub) (r : Fin 17) (f : Ring → Ring) : Hub :=
  { h with store := { h.store with rings := h.store.rings.set r (f h.store.rings[r]) } }

/-- Changes the context of picture stream k. -/
def Hub.modCoder (h : Hub) (k : Fin 4) (f : Coder → Coder) : Hub :=
  { h with coders := h.coders.set k (f h.coders[k]) }

/-- Changes the record of input i. -/
def Hub.modInput (h : Hub) (i : Fin 4) (f : VideoInput → VideoInput) : Hub :=
  { h with inputs := h.inputs.set i (f h.inputs[i]) }

/-- Changes the record of path p. -/
def Hub.modPath (h : Hub) (p : Fin 8) (f : Path → Path) : Hub :=
  { h with paths := { h.paths with path := h.paths.path.set p (f h.paths.path[p]) } }

/-- Changes the send context of ring r. -/
def Hub.modSend (h : Hub) (r : Fin 17) (f : SendContext → SendContext) : Hub :=
  { h with paths := { h.paths with sends := h.paths.sends.set r (f h.paths.sends[r]) } }

/-- Changes the arbiter of path p. -/
def Hub.modArbiter (h : Hub) (p : Fin 8) (f : Arbiter → Arbiter) : Hub :=
  { h with paths := { h.paths with arbiters := h.paths.arbiters.set p (f h.paths.arbiters[p]) } }

/-- Changes the bond of pair j. -/
def Hub.modBond (h : Hub) (j : Fin 4) (f : Bond → Bond) : Hub :=
  { h with paths := { h.paths with bonds := h.paths.bonds.set j (f h.paths.bonds[j]) } }

/-- Changes the gauge of path p. -/
def Hub.modGauge (h : Hub) (p : Fin 8) (f : Gauge → Gauge) : Hub :=
  { h with gauges := { h.gauges with path := h.gauges.path.set p (f h.gauges.path[p]) } }

/-- Changes the budget's part of picture stream k. -/
def Hub.modShare (h : Hub) (k : Fin 4) (f : PictureBudget → PictureBudget) : Hub :=
  { h with budget := { h.budget with pictures := h.budget.pictures.set k (f h.budget.pictures[k]) } }

/-- Changes the record of channel c. -/
def Hub.modChannel (h : Hub) (c : Fin 64) (f : Channel → Channel) : Hub :=
  { h with mixer := { h.mixer with channels := h.mixer.channels.set c (f h.mixer.channels[c]) } }

/-- Changes the record of bus k. -/
def Hub.modBus (h : Hub) (k : Fin 16) (f : Bus → Bus) : Hub :=
  { h with mixer := { h.mixer with buses := h.mixer.buses.set k (f h.mixer.buses[k]) } }

/-- Changes the pack buffer of sound stream 4 + k. -/
def Hub.modPack (h : Hub) (k : Fin 8) (f : Pack → Pack) : Hub :=
  { h with mixer := { h.mixer with packs := h.mixer.packs.set k (f h.mixer.packs[k]) } }

/-- Changes the Clip Log. -/
def Hub.modLog (h : Hub) (f : ClipLog → ClipLog) : Hub := { h with log := f h.log }

/-- Changes trigger t. -/
def Hub.modTrigger (h : Hub) (t : Fin 4) (f : Trigger → Trigger) : Hub :=
  h.modLog fun l => { l with triggers := l.triggers.set t (f l.triggers[t]) }

/-- Changes the clips of the table. -/
def Hub.mapClips (h : Hub) (f : Clip → Clip) : Hub := h.modLog fun l => { l with clips := l.clips.map f }

/-- Changes the tally map entry of output o. -/
def Hub.modTally (h : Hub) (o : Fin 16) (f : TallyEntry → TallyEntry) : Hub :=
  { h with tally := { h.tally with entries := h.tally.entries.set o (f h.tally.entries[o]) } }

/-- Changes the port record of port p. -/
def Hub.modPort (h : Hub) (p : Fin 4) (f : PortRecord → PortRecord) : Hub :=
  { h with ports := h.ports.set p (f h.ports[p]) }

/-- Changes the notice state of port p. -/
def Hub.modNotice (h : Hub) (p : Fin 4) (f : NoticePort → NoticePort) : Hub :=
  { h with notices := h.notices.set p (f h.notices[p]) }

/-- Does f for every number of a table in rising order (log entry 58). -/
def Hub.forEach (n : Nat) (f : Fin n → Hub → Hub) (h : Hub) : Hub := (List.finRange n).foldl (fun h i => f i h) h

/-- Whether the class mask of port p holds a class. -/
def Hub.hasClass (h : Hub) (p : Fin 4) (c : CommandClass) : Bool := (h.ports[p]).classes.getLsbD c.bit

/-- Whether the stream mask of port p holds stream k. -/
def Hub.hasStream (h : Hub) (p : Fin 4) (k : Nat) : Bool := (h.ports[p]).streams.getLsbD k

/-- Whether the stream mask of port p holds every stream of a mask. -/
def Hub.hasStreams (h : Hub) (p : Fin 4) (mask : BitVec 16) : Bool := mask &&& ~~~ (h.ports[p]).streams == 0

/-! ### Notices (chapter 10) -/

/-- R188, R189, R190: what an entry that joins the queue does to the attention line. -/
def NoticePort.raise (n : NoticePort) : NoticePort :=
  match n.mode with
  | .pulse => { n with owed := min 255 (n.owed + 1) }
  | .untilAck => { n with line := true }
  | .untilEmpty => { n with line := true }

/-- R184 step 3: the entry joins the queue as the newest. -/
def NoticePort.join (n : NoticePort) (x : Notice) : NoticePort := ({ n with queue := n.queue ++ [x] }).raise

/-- R185: a loss is counted and NOTICE_LOST is set. -/
def NoticePort.lose (n : NoticePort) : NoticePort := { n with lost := n.lost + 1, summary := setBit n.summary 23 }

/-- R185: a notice at a queue of 32 entries.  A SUPPLY_WARN takes the place of the oldest entry; any other is
dropped, which asserts the line in LEVEL_UNTIL_ACK alone (R189). -/
def NoticePort.overflow (n : NoticePort) (x : Notice) : NoticePort :=
  if x.kind = .supplyWarn then ({ n.lose with queue := n.queue.drop 1 }).join x
  else { n.lose with line := if n.mode = .untilAck then true else n.line }

/-- R184: the three steps for one port of the audience. -/
def NoticePort.offer (n : NoticePort) (x : Notice) : NoticePort :=
  let n := { n with summary := setBit n.summary x.kind.code }
  if x.kind ≠ .supplyWarn ∧ n.mask.getLsbD x.kind.code = false then n
  else if n.queue.length < 32 then n.join x
  else n.overflow x

/-- Table 66: whether port p is of the audience of a notice. -/
def Hub.audience (h : Hub) (x : Notice) (p : Fin 4) : Bool :=
  match x.kind with
  | .clipClosed | .clipLapsed | .triggerFired => h.hasClass p .log
  | .portAbsent | .portPresent => decide (x.param.toNat ≠ p.val)
  | .refState | .serialWrap | .tcJump | .dayWrap | .streamState | .unsentLost | .ringHalf | .ringWrap | .memoryError
  | .inputState | .pictureDrop | .audioOverload | .pathChange | .pathState | .gaugeDone | .budgetChange | .starved
  | .supplyWarn => true

/-- R184: a notice is offered to each port of its audience, one port independently of the others. -/
def Hub.give (h : Hub) (x : Notice) : Hub :=
  { h with notices := Vector.ofFn fun p => if h.audience x p then (h.notices[p]).offer x else h.notices[p] }

/-- A notice at this moment: its frame serial is that of the running frame (R184). -/
def Hub.notify (h : Hub) (kind : NoticeKind) (param : Nat) : Hub :=
  h.give { kind := kind, param := BitVec.ofNat 32 param, serial := h.tb.frame.serial }

end Sys2Proof.Machine
end

