-- ==== Sys2Proof/Machine/Clips.lean ====
section
/-! DEFINITION. Shared operations of the Clip Log on clips: order of unit numbers (R20), spans, retains (R137), lapse
(R142), the tests at the end of CLOSING (R139, R140), the span limit (R141), opening and closing. -/

namespace Sys2Proof.Machine

/-! ### Rings and unit numbers -/

/-- The ring a stream is bound to. -/
def Hub.boundRing (h : Hub) (k : Fin 16) : Fin 17 := if (h.stream k).global then 16 else k.castSucc

/-- The number by which a ring orders an entry: its G-number in ring G, its unit number in a stream ring. -/
def Entry.key (e : Entry) (r : Fin 17) : Word := if r = 16 then e.g.getD 0 else e.unit

/-- The tail of a ring: the number of its oldest entry, or the head when the index is empty (R31). -/
def Hub.tail (h : Hub) (r : Fin 17) : Word :=
  match (h.ring r).index with
  | [] => (h.ring r).head
  | e :: _ => e.key r

/-- The next unit number of a stream (section 2.1); R26 and R34 keep it in the head of the stream's own ring. -/
def Hub.nextUnit (h : Hub) (k : Fin 16) : Word := (h.ring k.castSucc).head

/-- The number from which the unit numbers of a stream are compared (R20). -/
def Hub.unitBase (h : Hub) (k : Fin 16) : Word :=
  if (h.stream k).global then
    match (h.ring 16).index.find? (fun e => e.stream = k) with
    | some e => e.unit
    | none => h.nextUnit k
  else h.tail k.castSucc

/-! ### Clips -/

/-- Whether a clip covers stream k. -/
def Clip.covers (c : Clip) (k : Fin 16) : Bool := c.mask.getLsbD k.val

/-- A clip is live in OPEN, CLOSING and CLOSED. -/
def Clip.live (c : Clip) : Bool := c.state != .lapsed

/-- A clip that is OPEN or CLOSING. -/
def Clip.active (c : Clip) : Bool := c.state == .opened || c.state == .closing

/-- Whether a frame serial lies in the span of a clip (section 7.1). -/
def Clip.spans (c : Clip) (serial : Word) : Bool :=
  atOrAfter serial c.startSerial &&
    match c.endSerial with
    | none => true
    | some e => !atOrAfter serial e

/-- The number of clips OPEN or CLOSING. -/
def ClipLog.active (l : ClipLog) : Nat := (l.clips.filter Clip.active).length

/-- The descriptor with a clip number. -/
def ClipLog.find (l : ClipLog) (number : Word) : Option Clip := l.clips.find? fun c => c.number = number

/-- Changes the descriptor with a clip number. -/
def Hub.modClip (h : Hub) (number : Word) (f : Clip → Clip) : Hub :=
  h.mapClips fun c => if c.number = number then f c else c

/-- R137: whether a clip retains unit u of stream k. -/
def Hub.retains (h : Hub) (c : Clip) (k : Fin 16) (u : Word) : Bool :=
  c.live && c.covers k &&
    match c.starts[k], (if c.state = .closed then c.ends[k] else some (h.nextUnit k - 1)) with
    | some a, some z =>
      let b := h.unitBase k
      decide (dist b a ≤ dist b u ∧ dist b u ≤ dist b z)
    | _, _ => false

/-- R142: the clip goes to LAPSED, CLIP_LAPSED is given, and the lapse count rises. -/
def Hub.lapse (h : Hub) (number : Word) : Hub :=
  let h := h.modClip number fun c => { c with state := .lapsed, limitDue := false }
  (h.modLog fun l => { l with lapses := l.lapses + 1 }).notify .clipLapsed number.toNat

/-- R32 step 1: of the live clips that retain a unit, the one with the lowest start unit for the stream, and of two with
the same start unit the one with the lower clip number. -/
def Hub.nextToLapse (h : Hub) (k : Fin 16) (u : Word) : Option Clip :=
  let b := h.unitBase k
  (h.log.clips.filter fun c => h.retains c k u).foldl
    (fun best c =>
      match best with
      | none => some c
      | some d => if dist b (c.starts[k].getD 0) < dist b (d.starts[k].getD 0) then some c else some d)
    none

/-- R32 step 1, repeated until no live clip retains the unit; the fuel is the number of clips. -/
def Hub.lapseRetainers (k : Fin 16) (u : Word) : Nat → Hub → Hub
  | 0, h => h
  | n + 1, h =>
    match h.nextToLapse k u with
    | none => h
    | some c => Hub.lapseRetainers k u n (h.lapse c.number)

/-- R43: DAMAGED on every live clip that retains the unit. -/
def Hub.damageClips (h : Hub) (k : Fin 16) (u : Word) : Hub :=
  h.mapClips fun c => if h.retains c k u then { c with damaged := true } else c

/-! ### The end of CLOSING -/

/-- Whether a sound stream still has the unit of an ended frame to offer: its pack state names a frame that is no
longer the running one (R82, R83).  No other stream has. -/
def Hub.unitOwed (h : Hub) (k : Fin 16) : Bool :=
  if hk : 4 ≤ k.val ∧ k.val < 12 then
    let pk := h.mixer.packs[k.val - 4]'(by omega)
    pk.state != .idle && pk.serial != h.tb.frame.serial
  else false

/-- R139, Table 50: whether stream k has passed a clip's end by what the part holds, whatever was last offered.  CLOSING
entered from HELD counts while that hold has not ended (log entry 54). -/
def Hub.passedByState (h : Hub) (c : Clip) (k : Fin 16) : Bool :=
  let st := h.stream k
  if k.val < 4 then
    st.state == .closed || (st.discard && (st.state == .held || (st.state == .closing && st.fromHeld)))
  else
    match c.endSerial with
    | none => false
    | some e => atOrAfter h.tb.frame.serial e && !h.unitOwed k

/-- R139, Table 50: whether a picture unit offered, or a picture dropped or discarded, with this dating passes the end. -/
def Clip.passedByDate (c : Clip) (k : Fin 16) (dated : Option Word) : Bool :=
  match dated, c.endSerial with
  | some d, some e => decide (k.val < 4) && atOrAfter d e
  | _, _ => false

/-- R139: the test of stream k in every clip in CLOSING that covers it and whose passed mark is clear. -/
def Hub.markPassed (h : Hub) (k : Fin 16) (dated : Option Word) : Hub :=
  h.mapClips fun c =>
    if c.state = .closing ∧ c.covers k = true ∧ (c.passedByDate k dated || h.passedByState c k) = true then
      { c with passed := c.passed ||| (1#16 <<< k.val) }
    else c

/-- R140: the end units take the running ends of the streams whose start unit is present. -/
def Clip.finish (c : Clip) : Clip :=
  { c with
    state := .closed
    ends := Vector.ofFn fun k => if c.covers k ∧ (c.starts[k]).isSome then c.running[k] else none }

/-- Whether a clip is in CLOSING with every passed mark set. -/
def Clip.due (c : Clip) : Bool := c.state == .closing && c.mask &&& ~~~ c.passed == 0

/-- R140: every clip whose streams have all passed goes to CLOSED and gives CLIP_CLOSED, in rising clip number (log
entry 58). -/
def Hub.finishClips (h : Hub) : Hub :=
  (h.log.clips.filter Clip.due).foldl
    (fun h c => (h.modClip c.number Clip.finish).notify .clipClosed c.number.toNat) h

/-- R139, R140: the test of stream k, and the end of the clips it completes. -/
def Hub.testClips (h : Hub) (k : Fin 16) (dated : Option Word) : Hub := (h.markPassed k dated).finishClips

/-! ### Commits -/

/-- R136: a commit to stream k sets the start unit and the running end of the clips whose span holds the unit. -/
def Hub.spanCommit (h : Hub) (k : Fin 16) (u : Word) (serial : Word) : Hub :=
  h.mapClips fun c =>
    if c.active = true ∧ c.covers k = true ∧ c.spans serial = true then
      { c with
        starts := c.starts.set k (some (c.starts[k].getD u))
        running := c.running.set k (some u) }
    else c

/-- The entries of a ring that a clip retains there. -/
def Hub.retainedIn (h : Hub) (c : Clip) (r : Fin 17) : List Entry :=
  (h.ring r).index.filter fun e => h.boundRing e.stream == r && h.retains c e.stream e.unit

/-- R141: after a commit to ring r, the limit-due mark of the OPEN clips that hold too much of it. -/
def Hub.measureClips (h : Hub) (r : Fin 17) : Hub :=
  h.mapClips fun c =>
    if c.state = .opened ∧
        (512 < (h.retainedIn c r).length ∨ (h.ring r).size * 8 < 2 * ((h.retainedIn c r).map Entry.len).sum) then
      { c with limitDue := true }
    else c

/-! ### Opening and closing -/

/-- R135 checks 3 to 5, R151: whether a clip can be opened. -/
def ClipLog.canOpen (l : ClipLog) : Bool :=
  decide (l.active < 16) && (decide (l.clips.length < 256) || l.clips.any fun c => c.state == .lapsed)
    && decide (l.nextClip ≤ 4294967295)

/-- R135 check 4: room for a descriptor, by removing the LAPSED one with the lowest clip number when 256 are held. -/
def ClipLog.makeRoom (l : ClipLog) : ClipLog :=
  if l.clips.length < 256 then l else { l with clips := l.clips.eraseP fun c => c.state = .lapsed }

/-- R135: a new descriptor. -/
def Clip.new (number : Nat) (owner : Owner) (mask : BitVec 16) (name : Bytes) (start : Word) : Clip where
  number := BitVec.ofNat 32 number
  state := .opened
  owner := owner
  mask := mask
  starts := Vector.replicate 16 none
  running := Vector.replicate 16 none
  ends := Vector.replicate 16 none
  startSerial := start
  startTc := none
  endSerial := none
  endTc := none
  reason := none
  name := name
  labels := []
  passed := 0
  limitDue := false
  damaged := false
  overloadSeen := false
  tcJump := false
  truncated := false

/-- R135: the effect of an accepted opening; the start serial is the serial that the next tick forms. -/
def Hub.addClip (h : Hub) (owner : Owner) (mask : BitVec 16) (name : Bytes) : Hub :=
  h.modLog fun l =>
    { l.makeRoom with
      clips := l.makeRoom.clips ++ [Clip.new l.nextClip owner mask name (h.tb.frame.serial + 1)]
      nextClip := l.nextClip + 1 }

/-- R138: the way into CLOSING; the end serial is the serial that the next tick forms. -/
def Clip.close (c : Clip) (serial : Word) (reason : EndReason) : Clip :=
  { c with state := .closing, endSerial := some (serial + 1), reason := some reason, limitDue := false }

/-- Every OPEN clip that a test selects goes to CLOSING (R138, R141, R151, R152). -/
def Hub.closeClips (h : Hub) (select : Clip → Bool) (reason : EndReason) : Hub :=
  h.mapClips fun c => if c.state = .opened ∧ select c = true then c.close h.tb.frame.serial reason else c

end Sys2Proof.Machine
end

