-- ==== Sys2Proof/Machine/Budget.lean ====
section
/-! DEFINITION. The Budget's shared operation: the recomputation of R125 to R130. -/

namespace Sys2Proof

/-- Whole frames in a second: 25, 50, 30 or 60 (Table 7; F_up of R128). -/
def Rate.fps : Rate → Nat
  | .r25 => 25
  | .r50 => 50
  | .r2997 => 30
  | .r5994 => 60

end Sys2Proof

namespace Sys2Proof.Machine

/-- A path that is UP or PAUSED. -/
def Path.carrying (p : Path) : Bool := p.state == .up || p.state == .paused

/-- R127: K_bits. -/
def Hub.capacityBits (h : Hub) : Nat :=
  if h.budget.fixedSource then h.budget.fixedCapacity
  else 8 * ((List.finRange 8).map fun p => if (h.paths.path[p]).carrying then (h.gauges.path[p]).e else 0).sum

/-- R127: U, the payload capacity of K_bits. -/
def payloadCapacity (k : Nat) : Nat := k * 1200 / 1232

/-- R127: U', what the headroom h leaves of U. -/
def afterHeadroom (u h : Nat) : Nat := u * (1000 - h) / 1000

/-- R128: the sound reserve of one sound stream. -/
def soundReserveOf (r : Rate) : Nat := 2304000 + 512 * r.fps

/-- A stream that is OPEN (and so not held). -/
def Hub.isOpen (h : Hub) (k : Fin 16) : Bool := (h.stream k).state == .opened

/-- The stream number of picture stream k. -/
def pictureStream (k : Fin 4) : Fin 16 := ⟨k.val, by omega⟩

/-- The stream number of sound stream 4 + k. -/
def soundStream (k : Fin 8) : Fin 16 := ⟨4 + k.val, by omega⟩

/-- The stream number 12 + k of a label or aux stream. -/
def auxStream (k : Fin 4) : Fin 16 := ⟨12 + k.val, by omega⟩

/-- R128: the sum of the sound reserves. -/
def Hub.soundReserve (h : Hub) : Nat :=
  ((List.finRange 8).map fun k => if h.isOpen (soundStream k) then soundReserveOf h.tb.rate else 0).sum

/-- R128: the sum of the reserves of streams 12 to 15 that are OPEN. -/
def Hub.otherReserve (h : Hub) : Nat :=
  ((List.finRange 4).map fun k => if h.isOpen (auxStream k) then h.budget.reserves[k] else 0).sum

/-- R_fix clamped to the stream's R_min to R_max (R128, R129). -/
def Coder.fixedRate (c : Coder) : Nat := clamp c.rMin c.rMax c.rFix

/-- R128: the rates of the counted picture streams whose rate mode is FIXED. -/
def Hub.fixedTotal (h : Hub) : Nat :=
  ((List.finRange 4).map fun k =>
    if h.isOpen (pictureStream k) ∧ (h.coders[k]).fixed then (h.coders[k]).fixedRate else 0).sum

/-- R129: the sum of the weights of the counted AUTO streams. -/
def Hub.autoWeight (h : Hub) : Nat :=
  ((List.finRange 4).map fun k =>
    if h.isOpen (pictureStream k) ∧ ¬ (h.coders[k]).fixed then (h.coders[k]).weight else 0).sum

/-- R129: the record of picture stream k, given the pool and the weights. -/
def Hub.pictureShare (h : Hub) (pool weight : Nat) (k : Fin 4) : PictureBudget :=
  let c := h.coders[k]
  let old := h.budget.pictures[k]
  if h.isOpen (pictureStream k) then
    if c.fixed then { old with assigned := c.fixedRate, counted := true, share := none, starved := false }
    else
      let share := pool * c.weight / weight
      { old with assigned := clamp c.rMin c.rMax share, counted := true, share := some share,
                 starved := decide (share < c.rMin) }
  else { old with assigned := clamp c.rMin c.rMax old.assigned, share := none, starved := false }

/-- The frame serials of the pictures of a context that are in flight. -/
def Coder.inFlight (c : Coder) : List Word := (c.flight.filter fun f => f.subst == none).map fun f => f.frame.serial

/-- R63: a rate assigned while two pictures of the stream are in flight leaves both at the rate they had before.  A picture that
keeps a rate already keeps that one; one that has started no longer reads it.  R125: a rate assigned at the very moment of a
picture start taken first goes to the next picture (log entry 47). -/
def Coder.keptRates (c : Coder) (old : PictureBudget) (assigned now : Nat) : List (Word × Nat) :=
  if old.assigned = assigned then old.kept
  else if old.startedAt = some now then []
  else if 2 ≤ c.inFlight.length then old.kept ++ c.inFlight.map fun s => (s, old.assigned)
  else old.kept

/-- R129, R63: the record of picture stream k, given the pool and the weights. -/
def Hub.pictureBudget (h : Hub) (pool weight : Nat) (k : Fin 4) : PictureBudget :=
  let old := h.budget.pictures[k]
  let new := h.pictureShare pool weight k
  { new with
    kept := (h.coders[k]).keptRates old new.assigned h.now
    changedAt := if old.assigned = new.assigned then old.changedAt else some h.now }

/-- The rates kept for pictures of stream k that are no longer in flight are forgotten (log entry 47). -/
def Hub.forgetRates (h : Hub) (k : Fin 4) : Hub :=
  h.modShare k fun x => { x with kept := x.kept.filter fun y => y.1 ∈ (h.coders[k]).inFlight }

/-- R127 to R129: the budget record as a recomputation makes it. -/
def Hub.budgetNow (h : Hub) : Budget :=
  let kBits := h.capacityBits
  let u := payloadCapacity kBits
  let u' := afterHeadroom u h.budget.headroom
  let need := h.soundReserve + h.otherReserve + h.fixedTotal
  let pool := u' - need
  { h.budget with
    kBits := kBits
    u := u
    u' := u'
    soundReserve := h.soundReserve
    otherReserve := h.otherReserve
    fixedTotal := h.fixedTotal
    pool := pool
    overdrawn := decide (u' < need)
    pictures := Vector.ofFn fun k => h.pictureBudget pool h.autoWeight k
    recomputations := h.budget.recomputations + 1 }

/-- R130: the mask of the picture streams whose assigned rate differs between two records. -/
def changedRates (old new : Budget) : Nat :=
  ((List.finRange 4).map fun k =>
    if (old.pictures[k]).assigned = (new.pictures[k]).assigned then 0 else 2 ^ k.val).sum

/-- R125, R130: a recomputation, with BUDGET_CHANGE for the rates that changed and STARVED for each picture stream whose
starved flag went from clear to set. -/
def Hub.recompute (h : Hub) : Hub :=
  let old := h.budget
  let new := h.budgetNow
  let h := { h with budget := new }
  let h := if changedRates old new = 0 then h else h.notify .budgetChange (changedRates old new)
  h.forEach 4 fun k h =>
    if (old.pictures[k]).starved = false ∧ (new.pictures[k]).starved = true then h.notify .starved k.val else h

end Sys2Proof.Machine
end

