-- ==== Sys2Proof/Machine/Store.lean ====
section
/-! DEFINITION. Shared operations of the Store: the Media Store's bytes, reading a unit (R42, R43), send pointers and
backlog (R36), emptying (R28), offer and commit (R29 to R35), the end of a hold (R23, R25), and changes of stream
state. -/

namespace Sys2Proof.Machine

/-! ### The Media Store: (address, byte) pairs, addresses strictly rising, no byte 0 listed (log entry 2) -/

/-- The canonical form of the memory. -/
def Memory.wf (m : List (Nat × BitVec 8)) : Bool :=
  decide (m.Pairwise fun x y => x.1 < y.1) && m.all fun x => x.2 != 0

/-- The byte at an address; a byte that nothing has written reads as 0 (log entry 2). -/
def Memory.read (m : List (Nat × BitVec 8)) (a : Nat) : Byte :=
  match m.find? fun x => x.1 = a with
  | some x => x.2
  | none => 0

/-- The listed cells of bytes from an address on. -/
def Memory.cells : Nat → Bytes → List (Nat × BitVec 8)
  | _, [] => []
  | a, b :: bs => if b = 0 then Memory.cells (a + 1) bs else (a, b) :: Memory.cells (a + 1) bs

/-- The memory with bytes written from an address on. -/
def Memory.write (m : List (Nat × BitVec 8)) (a : Nat) (bs : Bytes) : List (Nat × BitVec 8) :=
  (m.filter fun x => x.1 < a) ++ Memory.cells a bs ++ m.filter fun x => a + bs.length ≤ x.1

/-- n bytes from an address on, out of cells none of which lies below it. -/
def Memory.walk : List (Nat × BitVec 8) → Nat → Nat → Bytes
  | _, _, 0 => []
  | [], _, n + 1 => zeros (n + 1)
  | (x, b) :: m, a, n + 1 => if x = a then b :: Memory.walk m (a + 1) n else 0 :: Memory.walk ((x, b) :: m) (a + 1) n

/-- n bytes from an address on. -/
def Memory.range (m : List (Nat × BitVec 8)) (a n : Nat) : Bytes := Memory.walk (m.dropWhile fun x => x.1 < a) a n

/-- The sectors of a ring: 8 to a block (section 2.3). -/
def Ring.sectors (r : Ring) : Nat := r.size * 8

/-- The first byte of a ring in the DRAM. -/
def Ring.baseByte (r : Ring) : Nat := r.base * 4096

/-- R34: bytes written from a sector of a ring on, wrapping at the ring's end. -/
def Ring.writeBytes (r : Ring) (m : List (Nat × BitVec 8)) (start : Nat) (bs : Bytes) : List (Nat × BitVec 8) :=
  let room := (r.sectors - start) * 512
  Memory.write (Memory.write m (r.baseByte + start * 512) (bs.take room)) r.baseByte (bs.drop room)

/-- n bytes from a sector of a ring on, wrapping at the ring's end. -/
def Ring.readBytes (r : Ring) (m : List (Nat × BitVec 8)) (start n : Nat) : Bytes :=
  let room := (r.sectors - start) * 512
  Memory.range m (r.baseByte + start * 512) (min n room) ++ Memory.range m r.baseByte (n - room)

/-- The bytes of a unit: its 64-byte header and its payload, without padding (R38, R102). -/
def Entry.bytes (e : Entry) : Nat := 64 + e.payload

/-- A unit's bytes as stored. -/
def Hub.unitBytes (h : Hub) (r : Fin 17) (e : Entry) : Bytes := (h.ring r).readBytes h.store.mem e.start e.bytes

/-- Bytes as a read returns them: as stored when every error was corrected (R42); with those that the read returned
differently put in when a sector could not be corrected (R38: it is returned as read). -/
def asRead (f : ReadFault) (bs : Bytes) : Bytes :=
  if f.uncorrectable then f.asRead.foldl (fun bs x => bs.set x.1 x.2) bs else bs

/-- R42, R43: the errors of one read of an entry of ring r: corrected errors are counted; an uncorrectable error sets
DAMAGED, and when the flag was clear it is counted, MEMORY_ERROR is given and the retaining clips are marked. -/
def Hub.meetErrors (h : Hub) (r : Fin 17) (e : Entry) (f : ReadFault) : Hub :=
  let h := h.modRing r fun g => { g with corrected := g.corrected + BitVec.ofNat 32 f.corrected }
  if f.uncorrectable ∧ ¬ e.flags.damaged then
    let h := h.modRing r fun g =>
      { g with
        damaged := g.damaged + 1
        index := g.index.map fun x => if x = e then { x with flags := { x.flags with damaged := true } } else x }
    (h.notify .memoryError e.stream.val).damageClips e.stream e.unit
  else h

/-- What the next read of the current command meets; the outside world lists the reads in order. -/
def Hub.nextFault (h : Hub) : ReadFault := h.env.ecc.headD {}

/-- The read is done: the next one meets what the outside world lists next. -/
def Hub.dropFault (h : Hub) : Hub := { h with env := { h.env with ecc := h.env.ecc.drop 1 } }

/-! ### Backlog and send pointers -/

/-- A stream that is HELD, or CLOSING from HELD. -/
def Stream.holding (st : Stream) : Bool := st.state == .held || (st.state == .closing && st.fromHeld)

/-- Section 5.4: a ring is backlogged while its send pointer is below its head and, for a stream ring, its stream is
neither HELD nor CLOSING from HELD. -/
def Hub.backlogged (h : Hub) (r : Fin 17) : Bool :=
  (h.ring r).send != (h.ring r).head &&
    if hr : r.val < 16 then !(h.stream ⟨r.val, hr⟩).holding else true

/-- R106: a ring's deficits on every path become 0 when it stops being backlogged. -/
def Hub.calmDeficits (h : Hub) (r : Fin 17) : Hub :=
  if h.backlogged r then h
  else
    { h with
      paths := { h.paths with
        arbiters := Vector.ofFn fun p =>
          let a := h.paths.arbiters[p]
          { a with deficits := a.deficits.set r 0 } } }

/-- R36, R101: the Store moves a send pointer; the context of the ring is emptied. -/
def Hub.moveSend (h : Hub) (r : Fin 17) (w : Word) : Hub :=
  (((h.modRing r fun g => { g with send := w }).modSend r fun c => { c with taken := none })).calmDeficits r

/-- R37: after the ring G tail has moved on from an old tail, every release mark that it passed becomes the new tail. -/
def Hub.carryMarks (h : Hub) (old : Word) : Hub :=
  let new := h.tail 16
  { h with
    store := { h.store with
      streams := Vector.ofFn fun k =>
        let st := h.store.streams[k]
        if dist old st.releaseMark < dist old new then { st with releaseMark := new } else st } }

/-- R28: whether an entry of a ring is at or above its send pointer. -/
def Hub.unsent (h : Hub) (r : Fin 17) (e : Entry) : Bool :=
  decide (dist (h.tail r) (h.ring r).send ≤ dist (h.tail r) (e.key r))

/-- R28: a ring is emptied.  The head keeps its value. -/
def Hub.emptyRing (h : Hub) (r : Fin 17) : Hub :=
  let old := h.tail r
  let lost := (h.ring r).index.filter fun e => h.unsent r e
  let h := lost.foldl (fun h e => h.modStream e.stream fun st => { st with lost := st.lost + 1 }) h
  let h := h.modRing r fun g => { g with index := [], headOff := 0 }
  let h := h.moveSend r (h.ring r).head
  if r = 16 then h.carryMarks old else h

/-! ### Commit -/

/-- The free sectors of a ring (R31). -/
def Ring.free (r : Ring) : Nat := r.sectors - (r.index.map Entry.len).sum

/-- R33: whether some port's queue still holds an UNSENT_LOST entry for a stream. -/
def Hub.unsentLostQueued (h : Hub) (k : Fin 16) : Bool :=
  h.notices.toList.any fun n => n.queue.any fun x => x.kind == .unsentLost && x.param.toNat == k.val

/-- R33: a tail unit at or above the send pointer is lost before send. -/
def Hub.loseUnsent (h : Hub) (r : Fin 17) (e : Entry) : Hub :=
  let h := h.moveSend r (e.key r + 1)
  let h := h.modStream e.stream fun st => { st with lost := st.lost + 1 }
  if h.unsentLostQueued e.stream then h else h.notify .unsentLost e.stream.val

/-- R32 steps 1 to 3: the tail unit leaves. -/
def Hub.removeTail (h : Hub) (r : Fin 17) (e : Entry) : Hub :=
  let h := if h.boundRing e.stream = r then Hub.lapseRetainers e.stream e.unit h.log.clips.length h else h
  let h := if h.unsent r e then h.loseUnsent r e else h
  let h := h.modRing r fun g => { g with index := g.index.drop 1 }
  if r = 16 then h.carryMarks (e.key r) else h

/-- R32: the Store makes room for a unit of len sectors; the fuel is the number of entries. -/
def Hub.makeRoom (r : Fin 17) (len : Nat) : Nat → Hub → Hub
  | 0, h => h
  | n + 1, h =>
    if (h.ring r).free < len ∨ 1024 ≤ (h.ring r).index.length then
      match (h.ring r).index with
      | [] => h
      | e :: _ => Hub.makeRoom r len n (h.removeTail r e)
    else h

/-- The stored length in sectors of a payload with its header (R29). -/
def sectorsOf (payload : Nat) : Nat := (64 + payload + 511) / 512

/-- The 64-byte unit header (Table 73). -/
def Hub.unitHeader (h : Hub) (o : Offer) (flags : UnitFlags) (unit : Word) (g : Option Word) : Bytes :=
  le 1 (strapSlot h.strap) ++ le 1 o.stream.val ++ [flags.byte] ++ le 1 o.frame.phase ++ word4 unit
    ++ word4 (g.getD 0) ++ le 4 o.payload.length ++ word4 o.frame.serial ++ tc4 o.frame.tc ++ le 1 h.tb.rate.code
    ++ zeros 7 ++ (o.producer ++ zeros 32).take 32

/-- R34: the unit is written and indexed, and takes its numbers (R20). -/
def Hub.writeUnit (h : Hub) (r : Fin 17) (o : Offer) (unit : Word) (g : Option Word) : Hub :=
  let flags := { o.flags with damaged := false, tcJump := o.frame.jump }
  let len := sectorsOf o.payload.length
  let ring := h.ring r
  let bytes := h.unitHeader o flags unit g ++ o.payload
  let padded := bytes ++ zeros (len * 512 - bytes.length)
  let entry : Entry :=
    { stream := o.stream, unit := unit, g := g, start := ring.headOff, len := len, payload := o.payload.length,
      serial := o.frame.serial, tc := o.frame.tc, flags := flags }
  let h := { h with store := { h.store with mem := ring.writeBytes h.store.mem ring.headOff padded } }
  let h := h.modRing r fun x =>
    { x with index := x.index ++ [entry], headOff := (x.headOff + len) % x.sectors, head := x.head + 1 }
  let h := h.modStream o.stream fun st => { st with committed := st.committed + 1 }
  if r = 16 then h.modRing o.stream.castSucc fun x => { x with head := x.head + 1, send := x.head + 1 } else h

/-- R35: the notice that a commit of len sectors from a start sector gives. -/
def Hub.ringNotices (h : Hub) (r : Fin 17) (start len : Nat) : Hub :=
  let n := (h.ring r).sectors
  if start < n / 2 ∧ n / 2 < start + len then h.notify .ringHalf r.val
  else if n ≤ start + len then h.notify .ringWrap r.val
  else h

/-- R32, R34, R35, R136, R141: a unit is committed to its stream's bound ring. -/
def Hub.commit (h : Hub) (o : Offer) : Hub × Fate :=
  let r := h.boundRing o.stream
  let len := sectorsOf o.payload.length
  let h := Hub.makeRoom r len (h.ring r).index.length h
  let unit := h.nextUnit o.stream
  let g := if r = 16 then some (h.ring 16).head else none
  let start := (h.ring r).headOff
  let h := h.writeUnit r o unit g
  let h := h.ringNotices r start len
  let h := h.spanCommit o.stream unit o.frame.serial
  (h.measureClips r, .committed unit g)

/-- The units-discarded counter of a stream rises by one. -/
def Hub.countDiscard (h : Hub) (k : Fin 16) : Hub := h.modStream k fun st => { st with discarded := st.discarded + 1 }

/-- R29, R30: the Store decides the fate of an offered unit by the stream's state, its length and the error policy. -/
def Hub.judge (h : Hub) (o : Offer) : Hub × Fate :=
  let st := h.stream o.stream
  let ring := h.ring (h.boundRing o.stream)
  if st.state = .closed then (h, .notTaken)
  else if st.holding ∧ st.discard then (h.countDiscard o.stream, .discarded)
  else if ring.sectors / 2 < sectorsOf o.payload.length then (h.countDiscard o.stream, .tooLarge)
  else if o.flags.inputError ∧ ¬ ring.keep then (h.countDiscard o.stream, .aborted)
  else h.commit o

/-- A producer offers a unit (R29), and the clips in CLOSING that cover its stream are tested (R139). -/
def Hub.offer (h : Hub) (o : Offer) : Hub × Fate :=
  let (h, fate) := h.judge o
  (h.testClips o.stream (some o.frame.serial), fate)

/-! ### Stream states -/

/-- A stream's state changes: STREAM_STATE, the Budget's recomputation (R125) and the test of the clips (R139).  That their
notices enter a queue in this order is the model's choice, at a command as at a tick (log entry 63). -/
def Hub.streamChanged (h : Hub) (k : Fin 16) : Hub :=
  (((h.calmDeficits k.castSucc).notify .streamState k.val).recompute).testClips k none

/-- R23, R25, R44: the hold of a stream ends: an OWN ring's send pointer moves to the head and the units passed are
counted as skipped; a GLOBAL stream's release mark becomes the next G-number.  The hold setter becomes none, and CLOSING is
no longer one that was entered from HELD (log entry 54). -/
def Hub.endHold (h : Hub) (k : Fin 16) : Hub :=
  let h :=
    if (h.stream k).global then h.modStream k fun st => { st with releaseMark := (h.ring 16).head }
    else
      let ring := h.ring k.castSucc
      (h.modStream k fun st => { st with skipped := st.skipped + (ring.head - ring.send) }).moveSend k.castSucc ring.head
  h.modStream k fun st => { st with setter := none, fromHeld := false }

/-- R25: CLOSING ends; a hold that it was entered from ends with it. -/
def Hub.endClosing (h : Hub) (k : Fin 16) : Hub :=
  let h := if (h.stream k).fromHeld then h.endHold k else h
  (h.modStream k fun st => { st with state := .closed, setter := none, fromHeld := false }).streamChanged k

/-- R41: an insert buffer that is not empty is discarded, its builder becomes none, and the loss is counted. -/
def Hub.discardBuffer (h : Hub) (k : Fin 16) : Hub :=
  if (h.stream k).buffer = [] then h
  else (h.modStream k fun st => { st with buffer := [], builder := none }).countDiscard k

end Sys2Proof.Machine
end

