-- ==== Sys2Proof/Machine/Labels.lean ====
section
/-! DEFINITION. Labels and triggers: what a label is on the wire (Table 75), the fire of a trigger (R150, R151), filing
(R144, R145) and linking (R146). -/

namespace Sys2Proof.Machine

/-! ### Texts -/

/-- The decimal digits of a number, by at most `fuel` divisions. -/
def decimal : Nat → Nat → Bytes
  | 0, _ => []
  | fuel + 1, n => (if n < 10 then [] else decimal fuel (n / 10)) ++ [BitVec.ofNat 8 (48 + n % 10)]

/-- The ASCII bytes of START. -/
def textStart : Bytes := [0x53, 0x54, 0x41, 0x52, 0x54]

/-- The ASCII bytes of STOP. -/
def textStop : Bytes := [0x53, 0x54, 0x4F, 0x50]

/-- R150: the text of the TRIGGER label of a START that opened a clip. -/
def startText (clip : Nat) : Bytes := textStart ++ [0x20] ++ decimal 10 clip

/-! ### The label record (Table 75) -/

/-- A label in 84 bytes. -/
def Label.wire (l : Label) : Bytes :=
  word4 l.number ++ le 1 l.kind.code ++ le 1 l.source.code ++ flagByte l.value.isSome ++ le 1 l.text.length
    ++ word4 l.serial ++ tc4 l.tc ++ word4 (l.value.getD 0) ++ (l.text ++ zeros 64).take 64

/-! ### Triggers -/

/-- R150: whether a trigger matches a label. -/
def Trigger.matches (t : Trigger) (d : Draft) : Bool :=
  t.state == .armed && t.kind == some d.kind && (t.source == none || t.source == some d.source)
    && (d.value.getD 0 &&& t.mask) == (t.pattern &&& t.mask)

/-- A fire that takes effect: the count, TRIGGER_FIRED, and the re-arm (R150). -/
def Hub.fired (h : Hub) (t : Fin 4) : Hub :=
  (h.modTrigger t fun x =>
    { x with fires := x.fires + 1, state := if x.auto then .armed else .fired }).notify .triggerFired t.val

/-- The TRIGGER label of a fire, dated by the running frame (R150). -/
def Hub.triggerDraft (h : Hub) (t : Fin 4) (text : Bytes) : Draft :=
  { kind := .trigger, source := .trigger, frame := h.tb.frame, value := some (BitVec.ofNat 32 t.val), text := text }

/-- R151: the fire attempt of a trigger, with the TRIGGER label when it takes effect. -/
def Hub.attemptFire (h : Hub) (t : Fin 4) : Hub × List Draft :=
  match (h.log.triggers[t]).action with
  | .start mask =>
    if h.log.clips.any fun c => c.state == .opened && c.owner == .trigger t then
      (h.modTrigger t fun x => { x with ignored := x.ignored + 1 }, [])
    else if h.log.canOpen then
      let number := h.log.nextClip
      ((h.addClip (.trigger t) mask []).fired t, [h.triggerDraft t (startText number)])
    else (h.modTrigger t fun x => { x with misses := x.misses + 1 }, [])
  | .stop partner =>
    ((h.closeClips (fun c => c.owner == .trigger partner) .trigger).fired t, [h.triggerDraft t textStop])

/-- R145 step 1, R150: a label is offered to the triggers from 0 to 3; the TRIGGER labels of the fires in order. -/
def Hub.offerTriggers (h : Hub) (d : Draft) : Hub × List Draft :=
  (List.finRange 4).foldl
    (fun x t =>
      if (x.1.log.triggers[t]).matches d then ((x.1.attemptFire t).1, x.2 ++ (x.1.attemptFire t).2) else x)
    (h, [])

/-! ### Filing and linking -/

/-- R144: the oldest label leaves the full store, and the lists of the clips that hold it. -/
def ClipLog.dropOldest (l : ClipLog) : ClipLog :=
  match l.labels with
  | [] => l
  | x :: rest =>
    { l with
      labels := rest
      removed := l.removed + 1
      clips := l.clips.map fun c =>
        if x.number ∈ c.labels then { c with labels := c.labels.filter fun n => n ≠ x.number, truncated := true }
        else c }

/-- R144: a label enters the Label Store with the next label number, and is counted as filed. -/
def ClipLog.store (l : ClipLog) (d : Draft) : ClipLog :=
  let l := if l.labels.length < 4096 then l else l.dropOldest
  { l with
    labels := l.labels ++ [{ number := l.nextLabel, kind := d.kind, source := d.source, serial := d.frame.serial,
                             tc := d.frame.tc, value := d.value, text := d.text }]
    nextLabel := l.nextLabel + 1
    filed := l.filed + 1 }

/-- The frame serial of a label in the store. -/
def ClipLog.serialOf (l : ClipLog) (number : Word) : Word :=
  match l.labels.find? fun x => x.number = number with
  | some x => x.serial
  | none => 0

/-- R146: the list with a label placed after every label dated at or before it. -/
def ClipLog.placeIn (l : ClipLog) (number : Word) (list : List Word) : List Word :=
  let before := fun n => atOrAfter (l.serialOf number) (l.serialOf n)
  list.takeWhile before ++ [number] ++ list.dropWhile before

/-- R146: a label reaches a clip. -/
def ClipLog.linkTo (l : ClipLog) (number : Word) (kind : LabelKind) (c : Clip) : Clip :=
  let c := if c.labels.length < 64 then { c with labels := l.placeIn number c.labels } else { c with truncated := true }
  { c with overloadSeen := c.overloadSeen || kind == .overload, tcJump := c.tcJump || kind == .tcJump }

/-- R146, R148: a filed label reaches every OPEN or CLOSING clip whose span holds it, and the live clip it names. -/
def ClipLog.link (l : ClipLog) (number : Word) (d : Draft) (named : Option Word) : ClipLog :=
  { l with
    clips := l.clips.map fun c =>
      if (c.active && c.spans d.frame.serial) || (c.live && named == some c.number) then l.linkTo number d.kind c
      else c }

/-- The entry of the selection table for a kind and source: keep when true. -/
def ClipLog.keeps (l : ClipLog) (kind : LabelKind) (source : LabelSource) : Bool :=
  l.selection.toList.getD (9 * kind.code + source.code) true

/-- R145 step 5: the unit of stream 12 for a filed label. -/
def Hub.offerLabel (h : Hub) (number : Word) (d : Draft) : Hub :=
  if (h.stream 12).state = .opened ∨ (h.stream 12).state = .held then
    (h.offer
      { stream := 12
        payload := Label.wire
          { number := number, kind := d.kind, source := d.source, serial := d.frame.serial, tc := d.frame.tc,
            value := d.value, text := d.text }
        frame := d.frame
        flags := {}
        producer := word4 number ++ le 1 d.kind.code ++ le 1 d.source.code }).1
  else h

/-- R145 steps 2 to 5: a label is judged by the selection table, filed, linked and offered as a unit; the number it
takes when it is filed. -/
def Hub.fileLabel (h : Hub) (d : Draft) (named : Option Word) : Hub × Option Word :=
  if h.log.keeps d.kind d.source then
    let number := h.log.nextLabel
    (((h.modLog fun l => l.store d).modLog fun l => l.link number d named).offerLabel number d, some number)
  else (h.modLog fun l => { l with ignored := l.ignored + 1 }, none)

/-- R145: a label arrives: triggers, filing, then the TRIGGER labels of the fires. -/
def Hub.arriveLabel (h : Hub) (d : Draft) (named : Option Word) : Hub × Option Word :=
  let x := h.offerTriggers d
  let y := x.1.fileLabel d named
  (x.2.foldl (fun h t => (h.fileLabel t none).1) y.1, y.2)

/-- A block hands a label to the Clip Log. -/
def Hub.label (h : Hub) (d : Draft) : Hub := (h.arriveLabel d none).1

end Sys2Proof.Machine
end

