-- ==== Sys2Proof/Machine/Timecode.lean ====
section
/-! DEFINITION. The Timebase's arithmetic: the figures of Tables 7 and 9, counting and legality of timecodes (R10, R12,
R14), the first frame of a new rate (R16), and the frame a tick forms (R7, R8, R9, R13). -/

namespace Sys2Proof

/-- Table 7: the nominal period in cycles. -/
def Rate.nominal : Rate → Nat
  | .r25 => 1080000
  | .r50 => 540000
  | .r2997 => 900900
  | .r5994 => 450450

/-- Table 7: the tolerance in cycles. -/
def Rate.tolerance (r : Rate) : Nat := r.nominal / 2000

/-- Table 7: the half period in cycles. -/
def Rate.half (r : Rate) : Nat := r.nominal / 2

/-- A fractional rate, at which DF counting is allowed (R11). -/
def Rate.fractional : Rate → Bool
  | .r25 | .r50 => false
  | .r2997 | .r5994 => true

/-- R10: the drop count. -/
def Rate.dropCount : Rate → Nat
  | .r25 | .r50 => 0
  | .r2997 => 2
  | .r5994 => 4

/-- Table 9: the samples of a frame. -/
def Rate.samples (r : Rate) (phase : Nat) : Nat :=
  match r with
  | .r25 => 1920
  | .r50 => 960
  | .r2997 => if phase % 2 = 0 then 1602 else 1601
  | .r5994 => if phase = 4 then 800 else 801

namespace Timecode

/-- R10: a label that DF counting skips, by its minutes, seconds and frames. -/
def skippedAt (r : Rate) (df : Bool) (m s f : Nat) : Bool := df && s == 0 && m % 10 != 0 && decide (f < r.dropCount)

/-- R10: the frames field is raised to the drop count when the label would be a skipped one. -/
def raise (r : Rate) (df : Bool) (h m s f : Nat) : Timecode :=
  { hours := h, minutes := m, seconds := s, frames := if skippedAt r df m s f then r.dropCount else f, df := df }

/-- The label one second after h:m:s, with frames 0, and whether the hours wrapped. -/
def nextSecond (r : Rate) (df : Bool) (t : Timecode) : Timecode × Bool :=
  if t.seconds + 1 < 60 then (raise r df t.hours t.minutes (t.seconds + 1) 0, false)
  else if t.minutes + 1 < 60 then (raise r df t.hours (t.minutes + 1) 0 0, false)
  else if t.hours + 1 < 24 then (raise r df (t.hours + 1) 0 0 0, false)
  else (raise r df 0 0 0 0, true)

/-- R10: the increment of a timecode under a rate and counting, and whether it wrapped. -/
def increment (r : Rate) (df : Bool) (t : Timecode) : Timecode × Bool :=
  if t.frames + 1 < r.fps then (raise r df t.hours t.minutes t.seconds (t.frames + 1), false) else nextSecond r df t

/-- R12, R14: whether a value is legal: fields in range, the drop-frame indication of the counting, no skipped label. -/
def legal (r : Rate) (df : Bool) (t : Timecode) : Bool :=
  decide (t.hours < 24) && decide (t.minutes < 60) && decide (t.seconds < 60) && decide (t.frames < r.fps)
    && t.df == df && !skippedAt r df t.minutes t.seconds t.frames

end Timecode

end Sys2Proof

namespace Sys2Proof.Machine

/-- R13: the increment I of the tick, or R16's first-frame value at the tick of a rate change; and whether it wrapped. -/
def Timebase.nextLabel (t : Timebase) : Timecode × Bool :=
  if t.ratePending then Timecode.nextSecond t.rate t.df t.frame.tc else Timecode.increment t.rate t.df t.frame.tc

/-- The frame that the next tick forms (R8, R9, R13, R16). -/
def Timebase.nextFrame (t : Timebase) : Frame where
  serial := t.frame.serial + 1
  tc := t.jam.getD t.nextLabel.1
  phase := if t.ratePending then 0 else (t.frame.phase + 1) % 5
  jump := decide (t.jam.getD t.nextLabel.1 ≠ t.nextLabel.1)

/-- R14: the reader state is set to none when neither this frame period nor the one before it brought a value. -/
def Timebase.readerTimeout (t : Timebase) : Timebase :=
  if t.readerNow || t.readerBefore then t else { t with reader := none }

/-- R16: at the tick of a rate change with source EXTERNAL the state becomes SEEKING afresh. -/
def Timebase.reseek (t : Timebase) : Timebase :=
  if t.ratePending && t.external then { t with ref := .seeking, good := 0, prevPulse := none, lastInterval := 0 } else t

/-- R7, R13, R14, R16: the Timebase after a tick at a moment. -/
def Timebase.tick (t : Timebase) (moment : Nat) : Timebase :=
  let t := t.readerTimeout
  { t.reseek with
    frameRate := t.rate
    ratePending := false
    lastTick := moment
    frame := t.nextFrame
    history := [t.frame] ++ t.history.take 1
    jam := none
    readerNow := false
    readerBefore := t.readerNow }

/-- R7: the record that the Timebase keeps of a frame by its serial: the running frame and the two before it. -/
def Timebase.recall (t : Timebase) (serial : Word) : Option Frame :=
  ([t.frame] ++ t.history).find? fun f => f.serial = serial

/-- The notices and the label of a tick's Timebase part, in the order of sections 1.2 to 1.4; `old` is the Timebase before
the tick. -/
def Hub.timebaseNotices (h : Hub) (old : Timebase) : Hub :=
  let f := h.tb.frame
  let h := if f.serial = 0 then h.notify .serialWrap 0 else h
  let h := if f.jump then (h.notify .tcJump 0).label { kind := .tcJump, source := .timebase, frame := f } else h
  let h := if f.tc = old.nextLabel.1 ∧ old.nextLabel.2 = true then h.notify .dayWrap 0 else h
  if old.ratePending ∧ old.external ∧ (old.ref = .locked ∨ old.ref = .holdover) then
    h.notify .refState (refStateCode .seeking)
  else h

end Sys2Proof.Machine
end

