-- ==== Sys2Proof/Machine/Serve.lean ====
section
/-! DEFINITION. The Port Controller at the taking of a command: the checks of R171, the response and its counts (R170,
R196), and the part of a tick taken as a step of its own. -/

namespace Sys2Proof.Machine

/-! ### Replies -/

/-- A block's answer DONE with results. -/
def Reply.done (data : Bytes) : Reply := { outcome := .done, data := data }

/-- A block's refusal, or an answer without results. -/
def Reply.plain (o : Answer) : Reply := { outcome := o }

/-- A block refuses a command, which then changes nothing. -/
def Hub.refuse (h : Hub) (o : Answer) : Hub × Reply := (h, .plain o)

/-- A block answers DONE without results. -/
def Hub.ok (h : Hub) : Hub × Reply := (h, .done [])

/-! ### Responses -/

/-- R171: the class mask and stream mask that a DENIED response carries. -/
def PortRecord.maskData (p : PortRecord) : Bytes := le 2 p.classes.toNat ++ le 2 p.streams.toNat

/-- R178: the presence state and expected phase that every PRESENCE response carries. -/
def PortRecord.presenceData (p : PortRecord) : Bytes :=
  le 1 (if p.present then 0 else 1) ++ le 1 (if p.expectOdd then 1 else 0)

/-- R196: the result data of a response to a taken command. -/
def PortRecord.resultData (p : PortRecord) (r : Reply) : Bytes :=
  if r.outcome = .denied then p.maskData else r.data

/-- R170, R171: the counts that a response raises. -/
def PortCounts.answer (n : PortCounts) (o : Answer) : PortCounts :=
  { n with
    answered := n.answered + 1
    denied := if o = .denied then n.denied + 1 else n.denied
    absent := if o = .absent then n.absent + 1 else n.absent }

/-- R170: the response goes onto the response link under the command's tag and code, and is counted. -/
def PortRecord.respond (p : PortRecord) (tag code : Byte) (r : Reply) : PortRecord :=
  { p with
    sending := some (false, { tag := tag, code := code, outcome := r.outcome, data := p.resultData r })
    counts := p.counts.answer r.outcome }

/-- R171 steps 1, 3 and 4: the refusal of the Port Controller, if it refuses. -/
def PortRecord.refusal (p : PortRecord) (code : Byte) (cls : Option CommandClass) (stream : Option Byte) :
    Option Answer :=
  if p.present = false ∧ code ≠ 1 then some .absent
  else if (match cls with | none => false | some c => !p.classes.getLsbD c.bit) then some .denied
  else if (match stream with | none => false | some n => decide (n.toNat < 16) && !p.streams.getLsbD n.toNat) then
    some .denied
  else none

/-- R171: a command is taken: refused by the Port Controller, or carried out by its block; then answered. -/
def serve (c : Caller) (code : Byte) (cls : Option CommandClass) (stream : Option Byte) (block : Hub → Hub × Reply)
    (h : Hub) : Hub :=
  let h := h.arrive c.env
  match (h.ports[c.port]).refusal code cls stream with
  | some o => h.modPort c.port fun p => p.respond c.tag code (.plain o)
  | none => (block h).1.modPort c.port fun p => p.respond c.tag code (block h).2

/-! ### A part of a tick as a step of its own -/

/-- The work of one block at the coming tick, taken just ahead of it: the values that the tick forms are in force while
the work is done (R7).  The tick itself then finds that work done. -/
def Hub.atTick (f : Hub → Hub) (h : Hub) : Hub := { f { h with tb := h.tb.tick h.now } with tb := h.tb }

end Sys2Proof.Machine
end

