-- ==== Sys2Proof/Machine/Coding.lean ====
section
/-! DEFINITION. Shared operations of the Picture Coder: input changes (R48, R49), the pictures in flight and the order of
units (R52, R54, R61, R62), rate arithmetic (Table 24, R55, R56), drops (R60), completion (R58) and the coder's part of a
tick. -/

namespace Sys2Proof

/-- Section 3.5: the slices of a picture. -/
def Format.slices : Format → Nat
  | .hd => 68
  | .uhd => 135

/-- R53: the engine load of a stream of a format. -/
def Format.load : Format → Nat
  | .hd => 1
  | .uhd => 4

/-- Table 24: the frame target. -/
def Rate.target (r : Rate) (x : Nat) : Nat :=
  match r with
  | .r25 => x / 25
  | .r50 => x / 50
  | .r2997 => x * 1001 / 30000
  | .r5994 => x * 1001 / 60000

end Sys2Proof

namespace Sys2Proof.Machine

/-- The name of a drop reason. -/
inductive DropReason where
  | ceiling | late | tooLarge
  deriving DecidableEq, Repr

/-- R60: the ASCII bytes of the name of a drop reason. -/
def DropReason.text : DropReason → Bytes
  | .ceiling => [0x43, 0x45, 0x49, 0x4C, 0x49, 0x4E, 0x47]
  | .late => [0x4C, 0x41, 0x54, 0x45]
  | .tooLarge => [0x54, 0x4F, 0x4F, 0x5F, 0x4C, 0x41, 0x52, 0x47, 0x45]

/-- R60: the count of drops for a reason. -/
def CoderCounts.drop (n : CoderCounts) : DropReason → CoderCounts
  | .ceiling => { n with ceiling := n.ceiling + 1 }
  | .late => { n with late := n.late + 1 }
  | .tooLarge => { n with tooLarge := n.tooLarge + 1 }

/-- R53: the engine load of the part. -/
def Hub.engineLoad (h : Hub) : Nat :=
  ((List.finRange 4).map fun k =>
    if (h.stream (pictureStream k)).state = .closed then 0 else (h.coders[k]).format.load).sum

/-! ### Units offered in order -/

/-- The 32 producer bytes of a picture unit (section 11.4). -/
def pictureProducer (f : Format) (source : Fin 4) (first last b : Nat) : Bytes :=
  le 1 f.code ++ le 1 source.val ++ le 1 first ++ le 1 last ++ le 4 b

/-- R62: the fixed payload of a BLACK unit. -/
def blackPayload (f : Format) : Bytes := (List.range 960).map (Config.blackByte f)

/-- R52: the coder offers a unit of stream k, with the SOURCE_CHANGE mark, which is then cleared.  A mark set before the first
unit since the open is offered goes with that unit, whichever capture set it: the model's choice (log entry 56). -/
def Hub.offerPicture (h : Hub) (k : Fin 4) (o : Offer) : Hub × Fate :=
  (h.modCoder k fun c => { c with sourceChange := false }).offer
    { o with flags := { o.flags with sourceChange := (h.coders[k]).sourceChange } }

/-- R62: a substitute unit of stream k is offered and counted. -/
def Hub.offerSubstitute (h : Hub) (k : Fin 4) (f : Flight) (black : Bool) : Hub :=
  let c := h.coders[k]
  let h := h.modCoder k fun c =>
    { c with
      counts := if black then { c.counts with blacks := c.counts.blacks + 1 }
                else { c.counts with repeats := c.counts.repeats + 1 } }
  (h.offerPicture k
    { stream := pictureStream k
      payload := if black then blackPayload c.format else []
      frame := f.frame
      flags := { repeated := !black, black := black }
      producer := pictureProducer c.format f.source 0 0 0 }).1

/-- The substitute units at the front of stream k's order are offered; the fuel is the number in flight. -/
def Hub.flush (k : Fin 4) : Nat → Hub → Hub
  | 0, h => h
  | n + 1, h =>
    match (h.coders[k]).flight with
    | [] => h
    | f :: rest =>
      match f.subst with
      | none => h
      | some black => Hub.flush k n ((h.modCoder k fun c => { c with flight := rest }).offerSubstitute k f black)

/-- R25, Table 16: a picture stream in CLOSING ends when nothing of it is in flight. -/
def Hub.closeIfDone (h : Hub) (k : Fin 4) : Hub :=
  if (h.stream (pictureStream k)).state = .closing ∧ (h.coders[k]).flight = [] then h.endClosing (pictureStream k)
  else h

/-- After a picture of stream k has ended: what waited behind it is offered, and CLOSING may end. -/
def Hub.settle (h : Hub) (k : Fin 4) : Hub := (Hub.flush k (h.coders[k]).flight.length h).closeIfDone k

/-! ### Drops, completion -/

/-- R60: a picture of stream k that has left the flight is dropped for a reason. -/
def Hub.dropPicture (h : Hub) (k : Fin 4) (f : Flight) (why : DropReason) : Hub :=
  let s := pictureStream k
  let h := h.modCoder k fun c => { c with q := min 63 (c.q + 8), counts := c.counts.drop why }
  let h := h.notify .pictureDrop s.val
  let h := h.label
    { kind := .pictureDrop, source := .coder, frame := f.frame, value := some (BitVec.ofNat 32 s.val), text := why.text }
  (h.testClips s (some f.frame.serial))

/-- R58: the completion update of the rate state. -/
def Coder.complete (c : Coder) (b last : Nat) : Coder :=
  { c with
    fullness := c.fullness + b - c.target
    q := last
    counts := { c.counts with
      completed := c.counts.completed + 1
      undershoots := if c.fullness + b < c.target then c.counts.undershoots + 1 else c.counts.undershoots } }

/-- R58: the picture f of stream k, already out of the flight, is complete with coding x. -/
def Hub.completePicture (h : Hub) (k : Fin 4) (f : Flight) (x : Coding) : Hub :=
  let r := h.offerPicture k
    { stream := pictureStream k
      payload := x.coded
      frame := f.frame
      flags := { inputError := f.lineError }
      producer := pictureProducer (h.coders[k]).format f.source x.first x.last x.b }
  match r.2 with
  | .tooLarge => r.1.dropPicture k f .tooLarge
  | .committed _ _ | .discarded | .aborted | .notTaken => r.1.modCoder k fun c => c.complete x.b x.last

/-! ### Rate control -/

/-- R55: the assigned rate that a picture start of stream k reads. -/
def Hub.assignedRate (h : Hub) (k : Fin 4) : Nat :=
  if (h.budget.pictures[k]).counted then (h.budget.pictures[k]).assigned else (h.coders[k]).rMin

/-- R125: the rates that pictures keep at a picture start at a moment: none when the rate was assigned at that very moment
(log entry 47). -/
def PictureBudget.keptAt (x : PictureBudget) (now : Nat) : List (Word × Nat) := if x.changedAt = some now then [] else x.kept

/-- R55, R63: the rate that picture f of stream k starts with: the one it keeps, or the assigned rate (log entry 47). -/
def Hub.pictureRate (h : Hub) (k : Fin 4) (f : Flight) : Nat :=
  match ((h.budget.pictures[k]).keptAt h.now).find? fun x => x.1 = f.frame.serial with
  | some x => x.2
  | none => h.assignedRate k

/-- R55: the rate state at a picture start with rate x. -/
def Coder.start (c : Coder) (r : Rate) (x : Nat) : Coder :=
  let t := r.target x
  let b := t * c.bf
  { c with
    built := true
    rate := x
    target := t
    size := b
    fullness := if c.built then min c.fullness b else b / 2
    q := if c.built then c.q else 24 }

/-- R56: the quantiser of slice i of a picture of N slices with b bits produced. -/
def Coder.quantiser (c : Coder) (i b : Nat) : Nat :=
  let expected : Int := ((c.target * i / c.format.slices : Nat) : Int)
  let d : Int := (b : Int) - expected + ((c.fullness : Int) - ((c.size / 2 : Nat) : Int))
  (max 1 (min 63 ((c.q : Int) + 16 * d / (c.target : Int)))).toNat

/-! ### Inputs -/

/-- Section 3.1: whether a measurement is of the input's expected format at the rate setting. -/
def Hub.matchesInput (h : Hub) (i : Fin 4) (m : Measured) : Bool :=
  m.format == some (h.inputs[i]).expected && m.rate == some h.tb.rate

/-- R48: INPUT_STATE and the label of a change of state of input i. -/
def Hub.inputChanged (h : Hub) (i : Fin 4) (kind : LabelKind) : Hub :=
  (h.notify .inputState i.val).label
    { kind := kind, source := .coder, frame := h.tb.frame, value := some (BitVec.ofNat 32 i.val) }

/-- Whether a flight is a picture whose capture from input i has not ended. -/
def Flight.capturingFrom (f : Flight) (i : Fin 4) : Bool := f.subst == none && !f.captured && f.source == i

/-- R61: a REPEAT unit takes the place of an aborted picture. -/
def Flight.abort (f : Flight) : Flight := { f with subst := some false, aborted := true, coding := none }

/-- R61: the pictures of stream k whose capture from input i has not ended are aborted.  One whose capture has ended codes on, at
a tick too, where R54's last sentence would have it aborted: the model's choice (log entry 65). -/
def Hub.abortFrom (i : Fin 4) (k : Fin 4) (h : Hub) : Hub :=
  let n := ((h.coders[k]).flight.filter fun f => f.capturingFrom i).length
  if n = 0 then h
  else
    (h.modCoder k fun c =>
      { c with
        flight := c.flight.map fun f => if f.capturingFrom i then f.abort else f
        counts := { c.counts with aborted := c.counts.aborted + BitVec.ofNat 32 n } }).settle k

/-- R48, R61: a PRESENT input goes to NO_SIGNAL; its flash phase starts again (R161).  INPUT_STATE and the label come before
what the aborted pictures let go (log entry 63). -/
def Hub.loseInput (h : Hub) (i : Fin 4) : Hub :=
  let h := h.modInput i fun x => { x with present := false, sinceLoss := 0, losses := x.losses + 1 }
  let h := { h with tally := { h.tally with flash := h.tally.flash.set i 0 } }
  (h.inputChanged i .inputLoss).forEach 4 (Hub.abortFrom i)

/-- R48, R49: input i at a tick, whose values are already in force. -/
def Hub.tickInput (i : Fin 4) (h : Hub) : Hub :=
  let x := h.inputs[i]
  let good := x.delivered.any fun m => h.matchesInput i m
  let h := h.modInput i fun x => { x with delivered := [] }
  if x.present then
    if good then h else h.loseInput i
  else if good && x.locked then (h.modInput i fun x => { x with present := true }).inputChanged i .inputReturn
  else
    let h := h.modInput i fun x => { x with sinceLoss := min 4294967295 (x.sinceLoss + 1) }
    { h with tally := { h.tally with flash := h.tally.flash.set i ((h.tally.flash[i] + 1) % 4) } }

/-! ### The coder's part of a tick -/

/-- R59: the oldest picture of stream k is dropped LATE when the running frame is the second after its own. -/
def Hub.lateDrop (k : Fin 4) (h : Hub) : Hub :=
  match (h.coders[k]).flight with
  | [] => h
  | f :: rest =>
    if f.subst = none ∧ 2 ≤ dist f.frame.serial h.tb.frame.serial then
      ((h.modCoder k fun c => { c with flight := rest }).dropPicture k f .late).settle k
    else h

/-- R52, R54: capture of the running frame's picture begins for stream k.  A source that SET PICTURE changed between the open
and the first capture, or before a later one, sets the mark (log entry 56). -/
def Coder.capture (c : Coder) (frame : Frame) : Coder :=
  { c with
    sourceChange := c.sourceChange || c.source != c.remembered
    remembered := c.source
    flight := c.flight ++ [{ frame := frame, source := c.source, subst := none, aborted := false, captured := false,
                             lineError := false, coding := none }]
    counts := { c.counts with captured := c.counts.captured + 1 } }

/-- R54, R62: stream k begins its picture of the running frame, or a substitute unit is made. -/
def Hub.beginPicture (k : Fin 4) (h : Hub) : Hub :=
  let st := (h.stream (pictureStream k)).state
  if st = .opened ∨ st = .held then
    let input := h.inputs[(h.coders[k]).source]
    if input.present then (h.forgetRates k).modCoder k fun c => c.capture h.tb.frame
    else
      (h.modCoder k fun c =>
        { c with
          flight := c.flight ++ [{ frame := h.tb.frame, source := c.source, subst := some (decide (25 ≤ input.sinceLoss)),
                                   aborted := false, captured := false, lineError := false, coding := none }] }).settle k
  else h

/-- The coder's part of a tick: LATE drops, input changes, then the pictures of the new frame. -/
def Hub.tickCoder (h : Hub) : Hub :=
  ((h.forEach 4 Hub.lateDrop).forEach 4 Hub.tickInput).forEach 4 Hub.beginPicture

end Sys2Proof.Machine
end

