-- ==== Sys2Proof/Machine/Mixing.lean ====
section
/-! DEFINITION. Shared operations of the Sound Mixer: the sample (R68 to R70, R75 to R77), the meters (R78 to R81), the
sound units (R82, R83), mute-and-jump (R72) and the mixer's part of a tick. -/

namespace Sys2Proof.Machine

/-! ### One sample -/

/-- Table 27: whether channel c is valid for a sample. -/
def Hub.channelValid (h : Hub) (x : SampleIn) (c : Fin 64) : Bool :=
  if hc : c.val < 32 then (h.inputs[c.val / 8]'(by omega)).present && x.carried.getLsbD c.val
  else !x.portError.getLsbD ((c.val - 32) / 8)

/-- R75: one ramp step. -/
def Gain.step (g : Gain) : Gain :=
  if g.r = 0 then g
  else if g.r = 1 then { g with g := g.target, r := 0 }
  else if g.g ≤ g.target then { g with g := g.g + (g.target - g.g) / g.r, r := g.r - 1 }
  else { g with g := g.g - (g.g - g.target) / g.r, r := g.r - 1 }

/-- R68, R69, R70, R75: a channel takes its input sample, and its crosspoints their ramp steps. -/
def Channel.sample (c : Channel) (valid : Bool) (x : BitVec 24) : Channel :=
  { c with
    valid := valid
    invalid := if valid then c.invalid else c.invalid + 1
    line := ((if valid then x else 0) :: c.line).take 4096
    gains := Vector.ofFn fun k => (c.gains[k]).step }

/-- R70: the channel sample s_c. -/
def Channel.output (c : Channel) : Int :=
  if c.muteEnd.isSome then 0
  else
    let d := (c.line.getD c.delay 0).toInt
    if c.inverted then (if d = -8388608 then 8388607 else -d) else d

/-- R69: whether the channel's sample marks bus k. -/
def Channel.marks (c : Channel) (k : Fin 16) : Bool := !c.valid && c.muteEnd.isNone && (c.gains[k]).g != 0

/-- R77: rounding by a factor of 16384, halves toward plus infinity. -/
def roundGain (x : Int) : Int := (x + 8192) / 16384

/-- R77: the exact sum of bus k. -/
def busSum (channels : Vector Channel 64) (k : Fin 16) : Int :=
  ((List.finRange 64).map fun c => (channels[c]).output * (((channels[c]).gains[k]).g : Int)).sum

/-- R77: the output of a bus before saturation. -/
def busValue (acc : Int) (master : Nat) : Int := roundGain (roundGain acc * master)

/-- R77: saturation to 24 bits. -/
def saturate (y : Int) : Int := max (-8388608) (min 8388607 y)

/-- R76 steps 2 to 5 for a bus, its output y (before saturation) formed with the stepped gain. -/
def Bus.sample (b : Bus) (y : Int) (marked : Bool) : Bus :=
  { b with
    peak := max b.peak (saturate y).natAbs
    overloads := if saturate y = y then b.overloads else b.overloads + 1
    inputError := b.inputError || marked }

/-- R76: the mixer's work for one sample. -/
def Hub.mixSample (h : Hub) (x : SampleIn) : Hub :=
  let channels : Vector Channel 64 := Vector.ofFn fun c =>
    (h.mixer.channels[c]).sample (h.channelValid x c) (x.samples.getD c.val 0)
  let stepped : Vector Bus 16 := Vector.ofFn fun k =>
    { h.mixer.buses[k] with master := (h.mixer.buses[k]).master.step }
  let ys : Vector Int 16 := Vector.ofFn fun k => busValue (busSum channels k) (stepped[k]).master.g
  let buses : Vector Bus 16 := Vector.ofFn fun k =>
    (stepped[k]).sample ys[k] ((List.finRange 64).any fun c => (channels[c]).marks k)
  let packs : Vector Pack 8 := Vector.ofFn fun k =>
    let p := h.mixer.packs[k]
    if p.state = .packing then
      { p with
        buffer := (BitVec.ofInt 24 (saturate (ys[2 * k.val]'(by omega))),
                   BitVec.ofInt 24 (saturate (ys[2 * k.val + 1]'(by omega)))) :: p.buffer }
    else p
  { h with mixer := { channels := channels, buses := buses, packs := packs, sampleNo := h.mixer.sampleNo + 1 } }

/-! ### The tick -/

/-- R78: the running values become the last values. -/
def Bus.closeFrame (b : Bus) : Bus :=
  { b with lastPeak := b.peak, lastOverloads := b.overloads, peak := 0, overloads := 0 }

/-- R79, R81: a label of bus k dated by the ended frame. -/
def busDraft (k : Fin 16) (kind : LabelKind) (ended : Frame) : Draft :=
  { kind := kind, source := .mixer, frame := ended, value := some (BitVec.ofNat 32 k.val) }

/-- R79: an overloaded bus files OVERLOAD and gives AUDIO_OVERLOAD with the serial of the ended frame. -/
def Hub.judgeOverload (ended : Frame) (k : Fin 16) (h : Hub) : Hub :=
  if (h.mixer.buses[k]).lastOverloads = 0 then h
  else
    ((h.modBus k fun b => { b with overloadFrames := b.overloadFrames + 1 }).label (busDraft k .overload ended)).give
      { kind := .audioOverload, param := BitVec.ofNat 32 k.val, serial := ended.serial }

/-- R81: the silence of bus k. -/
def Hub.judgeSilence (ended : Frame) (k : Fin 16) (h : Hub) : Hub :=
  let b := h.mixer.buses[k]
  if b.lastPeak ≤ b.threshold then
    let run := min 65535 (b.run + 1)
    if b.silenceFrames ≤ run ∧ b.silent = false then
      (h.modBus k fun b => { b with run := run, silent := true }).label (busDraft k .silenceStart ended)
    else h.modBus k fun b => { b with run := run }
  else if b.silent then
    (h.modBus k fun b => { b with run := 0, silent := false }).label (busDraft k .silenceEnd ended)
  else h.modBus k fun b => { b with run := 0 }

/-- R83: a 24-bit sample in 3 bytes. -/
def sampleBytes (x : BitVec 24) : Bytes := le 3 x.toNat

/-- The samples of both buses that stand in a frame's places where none was given (log entry 9). -/
def missingSamples (n : Nat) : List (BitVec 24 × BitVec 24) :=
  (List.range n).map fun i => (Config.missingSample (2 * i), Config.missingSample (2 * i + 1))

/-- R83: the payload of a sound unit of n samples per bus, from the samples newest first; the place of a sample that was
never given holds a free value (log entry 9). -/
def soundPayload (n : Nat) (buffer : List (BitVec 24 × BitVec 24)) : Bytes :=
  ((buffer.reverse ++ missingSamples n).take n).flatMap fun x => sampleBytes x.1 ++ sampleBytes x.2

/-- Section 11.4: the producer bytes of a sound unit. -/
def soundProducer (k : Fin 8) (n : Nat) (a b : Bus) : Bytes :=
  le 1 (2 * k.val) ++ zeros 1 ++ le 2 n ++ le 4 a.lastPeak ++ le 2 a.lastOverloads ++ zeros 2 ++ le 4 b.lastPeak
    ++ le 2 b.lastOverloads

/-- The first of the two buses of sound stream 4 + k. -/
def firstBus (k : Fin 8) : Fin 16 := ⟨2 * k.val, by omega⟩

/-- The second of the two buses of sound stream 4 + k. -/
def secondBus (k : Fin 8) : Fin 16 := ⟨2 * k.val + 1, by omega⟩

/-- R83: the unit of sound stream 4 + k for the ended frame of n samples. -/
def Hub.soundOffer (h : Hub) (ended : Frame) (n : Nat) (k : Fin 8) : Offer :=
  let a := h.mixer.buses[firstBus k]
  let b := h.mixer.buses[secondBus k]
  { stream := soundStream k
    payload := soundPayload n (h.mixer.packs[k]).buffer
    frame := ended
    flags := { inputError := a.inputError || b.inputError }
    producer := soundProducer k n a b }

/-- R82: the pack buffer for the frame that the tick begins. -/
def Hub.startPack (h : Hub) (k : Fin 8) : Hub :=
  let st := (h.stream (soundStream k)).state
  h.modPack k fun p =>
    { p with
      state := if st = .opened ∨ st = .held then .packing else .idle
      serial := h.tb.frame.serial
      buffer := [] }

/-- R82, R83: sound stream 4 + k at a tick, and the end of its CLOSING (Table 16). -/
def Hub.tickPack (ended : Frame) (n : Nat) (k : Fin 8) (h : Hub) : Hub :=
  let offer := h.soundOffer ended n k
  let state := (h.mixer.packs[k]).state
  let h := h.startPack k
  let h : Hub := match state with
    | .packing => ((h.modPack k fun p => { p with offered := p.offered + 1 }).offer offer).1
    | .void => h.modPack k fun p => { p with voided := p.voided + 1 }
    | .idle => h
  if (h.stream (soundStream k)).state = .closing then h.endClosing (soundStream k) else h

/-- R72: the end of a mute: the pending delay comes in force. -/
def Channel.endMute (c : Channel) : Channel :=
  { c with delay := c.pendingDelay.getD c.delay, pendingDelay := none, muteEnd := none }

/-- R72: a channel at a tick. -/
def Channel.tick (c : Channel) : Channel :=
  match c.muteEnd with
  | none => c
  | some n => if n ≤ 1 then c.endMute else { c with muteEnd := some (n - 1) }

/-- The mixer's part of a tick that ends the running frame of `old`: bus by bus from 0, OVERLOAD before the label of the
silence, then the units of streams 4 to 11 in rising order (log entry 49). -/
def Hub.tickMixer (h : Hub) (old : Timebase) : Hub :=
  let ended := old.frame
  let h := { h with mixer := { h.mixer with buses := Vector.ofFn fun k => (h.mixer.buses[k]).closeFrame } }
  let h := h.forEach 16 fun k h => (h.judgeOverload ended k).judgeSilence ended k
  let h := h.forEach 8 (Hub.tickPack ended (old.frameRate.samples ended.phase))
  { h with
    mixer := { h.mixer with
      channels := Vector.ofFn fun c => (h.mixer.channels[c]).tick
      buses := Vector.ofFn fun k => { h.mixer.buses[k] with inputError := false }
      sampleNo := 0 } }

end Sys2Proof.Machine
end

