-- ==== Sys2Proof/Machine/Gauging.lean ====
section
/-! DEFINITION. Shared operations of the Gauge: the results of a cycle (R117), aborts (R118, R122), increments (R114,
R116, R121) and the Gauge's part of a tick (R115, R120). -/

namespace Sys2Proof.Machine

/-- The largest cycle count of a VOLUME gauge and the mark of a result that is none (R121, R122, R123). -/
def allOnes : Nat := 4294967295

/-- The step 2 cycle count at a moment; it never passes 4g. -/
def Gauge.step2Count (x : Gauge) (now : Nat) : Nat :=
  if x.phase = .step2 then min (4 * x.g) (now - x.from2) else x.count2

/-- The cycle count of a manual gauge at a moment; it runs for a VOLUME gauge alone (log entry 10). -/
def Gauge.manualCycles (x : Gauge) (now : Nat) : Nat :=
  if x.manual = .running ∧ x.volume then min allOnes (now - x.manualFrom) else x.manualCount

/-- GAUGE_DONE (Table 72): kind 0 AUTO, 1 TIME, 2 VOLUME. -/
def Hub.gaugeDone (h : Hub) (p : Fin 8) (kind : Nat) : Hub := h.notify .gaugeDone (p.val + 256 * kind)

/-- R117: C. -/
def cycleC (v0 g t1 : Nat) : Nat := if v0 = 0 then 0 else min 4294967294 (v0 * 27000000 / max g t1)

/-- R117: S. -/
def cycleS (v0 g t1 : Nat) : Nat := if v0 = 0 then 0 else 1000 * min g t1 / max g t1

/-- R117: the record of a path when a cycle ends with V0 and T1. -/
def Gauge.endCycle (x : Gauge) (v0 t1 : Nat) : Gauge :=
  let c := cycleC v0 x.g t1
  let s := cycleS v0 x.g t1
  { x with
    phase := .idle
    v0 := v0
    lastV0 := v0
    lastT1 := t1
    c := c
    s := s
    e := c * s / 1000
    completed := x.completed + 1 }

/-- R117: a cycle of path p ends: results, GAUGE_DONE, and the Budget recomputes, its notices after GAUGE_DONE (log entry
63). -/
def Hub.endCycle (h : Hub) (p : Fin 8) (v0 t1 : Nat) : Hub :=
  ((h.modGauge p fun x => x.endCycle v0 t1).gaugeDone p 0).recompute

/-- R116: step 2 of path p ends with T1. -/
def Hub.endStep2 (h : Hub) (p : Fin 8) (t1 : Nat) : Hub :=
  (h.modGauge p fun x => { x with count2 := t1 }).endCycle p (h.gauges.path[p]).v0 t1

/-- R122: a manual gauge of path p ends with a result. -/
def Hub.endManual (h : Hub) (p : Fin 8) (result : Nat) : Hub :=
  let x := h.gauges.path[p]
  (h.modGauge p fun y =>
    { y with
      manual := .idle
      manualCount := y.manualCycles h.now
      result := some (y.volume, BitVec.ofNat 32 result) }).gaugeDone p (if x.volume then 2 else 1)

/-- R122: a manual gauge of path p that is WAITING or RUNNING is aborted. -/
def Hub.abortManual (p : Fin 8) (h : Hub) : Hub :=
  if (h.gauges.path[p]).manual = .idle then h else h.endManual p allOnes

/-- A running cycle ends without result; its count stands as it was. -/
def Gauge.abortCycle (x : Gauge) (now : Nat) : Gauge :=
  if x.phase = .idle then x else { x with phase := .idle, count2 := x.step2Count now, aborted := x.aborted + 1 }

/-- R118: a path leaves UP or PAUSED: C, S and E become 0 (log entry 11). -/
def Hub.gaugeLeave (h : Hub) (p : Fin 8) : Hub :=
  Hub.abortManual p (h.modGauge p fun x => { x.abortCycle h.now with c := 0, s := 0, e := 0 })

/-- R114, R116: an increment in the automatic cycle of path p. -/
def Hub.autoIncrement (h : Hub) (p : Fin 8) (n : Nat) : Hub :=
  let x := h.gauges.path[p]
  match x.phase with
  | .idle => h
  | .step1 => h.modGauge p fun y => { y with sum := y.sum + n }
  | .step2 =>
    let h := h.modGauge p fun y => { y with sum := y.sum + n }
    if x.v0 ≤ x.sum + n then h.endStep2 p (x.step2Count h.now) else h

/-- R114, R121: an increment in the manual gauge of path p. -/
def Hub.manualIncrement (h : Hub) (p : Fin 8) (n : Nat) : Hub :=
  let x := h.gauges.path[p]
  if x.manual = .running then
    let h := h.modGauge p fun y => { y with manualSum := y.manualSum + n }
    if x.volume ∧ x.gate ≤ x.manualSum + n then h.endManual p (x.manualCycles h.now) else h
  else h

/-- R114: an increment handed on by the Path Controller. -/
def Hub.increment (h : Hub) (p : Fin 8) (n : Nat) : Hub := (h.autoIncrement p n).manualIncrement p n

/-! ### The tick -/

/-- R115: step 1 of path p begins when the auto flag is on, the phase is IDLE and the path is UP. -/
def Hub.beginStep1 (p : Fin 8) (h : Hub) : Hub :=
  if h.gauges.auto ∧ (h.gauges.path[p]).phase = .idle ∧ (h.paths.path[p]).state = .up then
    h.modGauge p fun x =>
      { x with phase := .step1, g := h.gauges.window * h.tb.rate.nominal, remaining := h.gauges.window, sum := 0 }
  else h

/-- R115: step 1 of path p ends at the tick of the running frame. -/
def Hub.endStep1 (p : Fin 8) (h : Hub) : Hub :=
  let x := h.gauges.path[p]
  let h := h.modGauge p fun x => { x with remaining := 0, v0 := x.sum }
  if x.sum = 0 then h.endCycle p 0 x.g
  else h.modGauge p fun x => { x with phase := .step2, sum := 0, from2 := h.tb.lastTick, count2 := 0 }

/-- R115: the automatic cycle of path p at a tick. -/
def Hub.tickAuto (p : Fin 8) (h : Hub) : Hub :=
  let x := h.gauges.path[p]
  if x.phase = .step1 then
    if x.remaining ≤ 1 then Hub.beginStep1 p (Hub.endStep1 p h)
    else h.modGauge p fun y => { y with remaining := y.remaining - 1 }
  else Hub.beginStep1 p h

/-- R120: the result of a TIME gauge. -/
def Gauge.timeResult (x : Gauge) : Nat := min 4294967294 x.manualSum

/-- R120: whether the next tick completes the gate of a TIME gauge (log entry 12). -/
def Gauge.timeDue (x : Gauge) : Bool := x.manual == .running && !x.volume && decide (x.gate ≤ x.manualTicks + 1)

/-- R120: the manual gauge of path p at a tick. -/
def Hub.tickManual (p : Fin 8) (h : Hub) : Hub :=
  let x := h.gauges.path[p]
  match x.manual with
  | .idle => h
  | .waiting => h.modGauge p fun y => { y with manual := .running, manualSum := 0, manualTicks := 0 }
  | .running =>
    if x.timeDue then h.endManual p x.timeResult
    else h.modGauge p fun y => { y with manualTicks := y.manualTicks + 1 }

end Sys2Proof.Machine
end

