-- ==== Sys2Proof/Machine/Routing.lean ====
section
/-! DEFINITION. Shared operations of the Path Controller: evaluation and changes of path state (R89, R92, R99), the tick
work of a path (R90, R91, R94, R107, R109), the mapping of fragments (R100), take-up (R101), packets (R102 to R104) and
the arbiters (R105, R106). -/

namespace Sys2Proof.Machine

/-! ### Path state -/

/-- Table 38. -/
def Path.evaluate (x : Path) : PathState × DownReason :=
  if x.hold then (.reset, .none)
  else if !x.enabled then (.off, .none)
  else if !carrierOf x.lines then (.down, .carrier)
  else if !linkOkOf x.lines then (.down, .linkOk)
  else if x.loss then (.down, .loss)
  else if x.timeoutMark then (.down, .pauseTimeout)
  else if !readyOf x.lines then (.paused, .none)
  else (.up, .none)

/-- R104: the oldest packet begins its transmission when the path is UP and none is under way. -/
def Path.startTransmission (x : Path) : Path :=
  if x.state = .up ∧ x.fifo ≠ [] ∧ x.transmitting = false then { x with transmitting := true, txRate := x.lineRate }
  else x

/-- R92: what entry into OFF, RESET or DOWN does to the path. -/
def Path.abandon (x : Path) : Path :=
  { x with
    fifo := []
    transmitting := false
    baseline := none
    counts := { x.counts with lostInFlight := x.counts.lostInFlight + BitVec.ofNat 32 x.fifo.length } }

/-- R92, R91: what a change of state in the frame of a serial does to the path itself. -/
def Path.enter (x : Path) (s : PathState) (why : DownReason) (serial : Word) : Path :=
  let y := { x with state := s, reason := why, upAllFrame := x.upAllFrame && (s == PathState.up || s == PathState.paused) }
  match s with
  | .off => { y.abandon with timeoutMark := false }
  | .reset => { y.abandon with timeoutMark := false }
  | .down => y.abandon
  | .up => y.startTransmission
  | .paused => { y with pauseCount := 0, pausedIn := serial }

/-- R92: the ASCII bytes of the name of a path state. -/
def PathState.text : PathState → Bytes
  | .off => [0x4F, 0x46, 0x46]
  | .reset => [0x52, 0x45, 0x53, 0x45, 0x54]
  | .down => [0x44, 0x4F, 0x57, 0x4E]
  | .up => [0x55, 0x50]
  | .paused => [0x50, 0x41, 0x55, 0x53, 0x45, 0x44]

/-- R92: the ASCII bytes of the name of a down reason. -/
def DownReason.text : DownReason → Bytes
  | .none => []
  | .carrier => [0x43, 0x41, 0x52, 0x52, 0x49, 0x45, 0x52]
  | .linkOk => [0x4C, 0x49, 0x4E, 0x4B, 0x5F, 0x4F, 0x4B]
  | .loss => [0x4C, 0x4F, 0x53, 0x53]
  | .pauseTimeout => [0x50, 0x41, 0x55, 0x53, 0x45, 0x5F, 0x54, 0x49, 0x4D, 0x45, 0x4F, 0x55, 0x54]

/-- R92: the text of a PATH_UP or PATH_DOWN label. -/
def pathText (s : PathState) (why : DownReason) : Bytes :=
  if s = .down then s.text ++ [0x20] ++ why.text else s.text

/-- The pair of a path. -/
def pairOf (p : Fin 8) : Fin 4 := ⟨p.val / 2, by omega⟩

/-- R99: the bond in force takes the bond setting; the alternation becomes EVEN when it changes. -/
def Bond.refresh (b : Bond) : Bond := if b.inForce = b.setting then b else { b with inForce := b.setting, odd := false }

/-- R92, R99, R118: a change of state of path p.  A path that goes from OFF to RESET leaves OFF, so its bond takes the
setting there too (log entry 50).  PATH_STATE, what the label brings, GAUGE_DONE and the Budget's notices enter a queue in
this order: the model's choice, at a command as at a tick (log entry 63). -/
def Hub.changePath (h : Hub) (p : Fin 8) (s : PathState) (why : DownReason) : Hub :=
  let old := h.paths.path[p]
  let h := h.modPath p fun x => x.enter s why h.tb.frame.serial
  let h := if old.state = .off ∨ old.state = .reset then h.modBond (pairOf p) Bond.refresh else h
  let h := h.notify .pathState (p.val + 256 * pathStateCode s)
  let h := h.label
    { kind := if s = .up then .pathUp else .pathDown, source := .link, frame := h.tb.frame,
      value := some (BitVec.ofNat 32 p.val), text := pathText s why }
  let h := if old.carrying ∧ s ≠ .up ∧ s ≠ .paused then h.gaugeLeave p else h
  h.recompute

/-- R89: path p is evaluated. -/
def Hub.evaluatePath (p : Fin 8) (h : Hub) : Hub :=
  let x := h.paths.path[p]
  let e := x.evaluate
  if e.1 = x.state then h.modPath p fun y => { y with reason := e.2 } else h.changePath p e.1 e.2

/-! ### The tick work of a path -/

/-- The lines of path p on the pins at this moment. -/
def Hub.pins (h : Hub) (p : Fin 8) : BitVec 4 := pathLines h.env.lines p

/-- R90: the status lines are sampled. -/
def Hub.samplePath (h : Hub) (p : Fin 8) : Hub :=
  let old := (h.paths.path[p]).lines
  let new := h.pins p
  if new = old then h
  else
    (h.modPath p fun x => { x with lines := new, change := true }).notify .pathChange
      (p.val + 256 * old.toNat + 65536 * new.toNat)

/-- R94: whether the tick at this moment finds a break. -/
def Path.breaks (x : Path) : Bool := x.carrying && x.upAllFrame && !x.heard

/-- R94: a break is counted and sets the loss latch. -/
def Path.takeBreak (x : Path) : Path :=
  { x with loss := true, counts := { x.counts with breaks := x.counts.breaks + 1 } }

/-- R91: whether the pause count rises at the tick of a frame whose lines have been sampled: not at the tick at which the
path became PAUSED. -/
def Path.pausing (x : Path) (serial : Word) : Bool :=
  x.state == .paused && x.pausedIn != serial && !readyOf x.lines && carrierOf x.lines && linkOkOf x.lines && !x.loss

/-- R91: the pause is counted at the tick of a frame, after the sampling and the break. -/
def Path.countPause (x : Path) (serial : Word) : Path :=
  let x := if readyOf x.lines then { x with timeoutMark := false } else x
  if x.pausing serial then
    { x with
      pauseCount := min 250 (x.pauseCount + 1)
      timeoutMark := x.timeoutMark || decide (x.pauseLimit ≤ x.pauseCount + 1) }
  else x

/-- R107: the reset count of a path in RESET rises and stops at 4. -/
def Path.countReset (x : Path) : Path := if x.state = .reset then { x with resetCount := min 4 (x.resetCount + 1) } else x

/-- R108, R109: the reset hold ends. -/
def Path.release (x : Path) : Path := { x with hold := false, holder := none, releaseDue := false }

/-- R109: a path with release due is released when its reset count is 4. -/
def Path.dueRelease (x : Path) : Path := if x.hold && x.releaseDue && x.resetCount == 4 then x.release else x

/-- R90, R107, R109: path p at a tick. -/
def Hub.tickPath (p : Fin 8) (h : Hub) : Hub :=
  let h := h.samplePath p
  let h := h.modPath p fun x => if x.breaks then x.takeBreak else x
  let h := h.modPath p fun x => (x.countPause h.tb.frame.serial).countReset.dueRelease
  Hub.evaluatePath p h

/-- R94: the frame that a tick begins: nothing is heard in it yet, and a path that is UP or PAUSED then may stay so
throughout. -/
def Path.openFrame (x : Path) : Path := { x with heard := false, upAllFrame := x.carrying }

/-! ### Mapping (R100) -/

/-- The path mask that serves a stream. -/
def Paths.maskOf (x : Paths) (k : Fin 16) : BitVec 8 :=
  match x.directed.find? fun e => e.1 = k with
  | some e => e.2
  | none => x.spread

/-- Whether the bond of a path's pair is in force. -/
def Paths.bonded (x : Paths) (p : Fin 8) : Bool := (x.bonds[pairOf p]).inForce

/-- R100: the member list M of a stream, a pair standing at its even path. -/
def Paths.members (x : Paths) (k : Fin 16) : List (Fin 8) :=
  (List.finRange 8).filter fun p => (x.maskOf k).getLsbD p.val && (!x.bonded p || p.val % 2 == 0)

/-- Whether path p is UP. -/
def Paths.isUp (x : Paths) (p : Fin 8) : Bool := (x.path[p]).state == .up

/-- The even path of a pair. -/
def evenOf (p : Fin 8) : Fin 8 := ⟨2 * (p.val / 2), by omega⟩

/-- The odd path of a pair. -/
def oddOf (p : Fin 8) : Fin 8 := ⟨2 * (p.val / 2) + 1, by omega⟩

/-- R100: whether a member is UP. -/
def Paths.memberUp (x : Paths) (p : Fin 8) : Bool :=
  if x.bonded p then x.isUp (evenOf p) || x.isUp (oddOf p) else x.isUp p

/-- R100: the path of a member, and whether placing there flips the alternation of its pair. -/
def Paths.pathOf (x : Paths) (p : Fin 8) : Fin 8 × Bool :=
  if x.bonded p then
    if x.isUp (evenOf p) && x.isUp (oddOf p) then
      (if (x.bonds[pairOf p]).odd then oddOf p else evenOf p, true)
    else (if x.isUp (evenOf p) then evenOf p else oddOf p, false)
  else (p, false)

/-- A list read cyclically from position n. -/
def rotateFrom {α : Type} (n : Nat) (xs : List α) : List α := xs.drop n ++ xs.take n

/-- R100: the path that fragment f of unit u of stream k maps to, and whether its placement flips an alternation. -/
def Paths.mapTo (x : Paths) (k : Fin 16) (u : Word) (f : Nat) : Option (Fin 8 × Bool) :=
  let m := x.members k
  ((rotateFrom ((u.toNat + f) % m.length) m).find? fun p => x.memberUp p).map x.pathOf

/-! ### Take-up (R37, R101) -/

/-- R37: whether a ring G unit is passed over. -/
def Hub.passedOver (h : Hub) (k : Fin 16) (g : Word) : Bool :=
  let st := h.stream k
  st.holding || decide (dist (h.tail 16) g < dist (h.tail 16) st.releaseMark)

/-- R36: the send pointer of ring r advances by one. -/
def Hub.advance (h : Hub) (r : Fin 17) : Hub := h.moveSend r ((h.ring r).send + 1)

/-- R37: the unit at the send pointer of ring G is passed. -/
def Hub.passUnit (h : Hub) (r : Fin 17) (k : Fin 16) : Hub :=
  (h.modStream k fun st => { st with skipped := st.skipped + 1 }).advance r

/-- R101: a unit is passed unsent as damaged. -/
def Hub.passDamaged (h : Hub) (r : Fin 17) : Hub :=
  (h.modSend r fun c => { c with passedDamaged := c.passedDamaged + 1 }).advance r

/-- The entry at the send pointer of ring r. -/
def Hub.atSend (h : Hub) (r : Fin 17) : Option Entry := (h.ring r).index.find? fun e => e.key r = (h.ring r).send

/-- R101: the context of ring r takes an entry up. -/
def Hub.hold (h : Hub) (r : Fin 17) (e : Entry) : Hub :=
  h.modSend r fun c =>
    { c with
      taken := some { stream := e.stream, unit := e.unit, g := e.g, bytes := h.unitBytes r e, next := 0,
                      serial := e.serial, flags := e.flags } }

/-- R36, R101: whether the Path Controller acts on the unit at the send pointer of ring r, whose entry is e: the context is
empty, or holds that unit, flagged DAMAGED since its take-up, with none of its fragments placed (log entry 46). -/
def Hub.actsOn (h : Hub) (r : Fin 17) (e : Entry) : Bool :=
  match (h.paths.sends[r]).taken with
  | none => true
  | some t => t.next == 0 && e.flags.damaged

/-- R36, R101: ring r takes up the unit at its send pointer, passing those that are not sent; a unit flagged DAMAGED
already is passed without a read (log entry 51).  The fuel is the number of entries. -/
def Hub.takeUp (r : Fin 17) : Nat → Hub → Hub
  | 0, h => h
  | n + 1, h =>
    if h.backlogged r then
      match h.atSend r with
      | none => h
      | some e =>
        if h.actsOn r e = false then h
        else if r = 16 ∧ h.passedOver e.stream (e.key r) = true then Hub.takeUp r n (h.passUnit r e.stream)
        else if e.flags.damaged then Hub.takeUp r n (h.passDamaged r)
        else
          let f := h.nextFault
          let h := (h.meetErrors r e f).dropFault
          if f.uncorrectable then Hub.takeUp r n (h.passDamaged r) else h.hold r e
    else h

/-- R36, R37, R101: before a fragment of ring r is placed, a ring G unit that now fails the tests of R37 is passed, so is a
unit that FETCH has flagged DAMAGED before its first fragment was placed, and an empty context takes a unit up.  A unit of
which fragments are placed already goes on being placed when FETCH flags it (log entry 46). -/
def Hub.prepare (r : Fin 17) (h : Hub) : Hub :=
  let h := match (h.paths.sends[r]).taken with
    | some t => if r = 16 ∧ h.passedOver t.stream (t.g.getD 0) = true then h.passUnit r t.stream else h
    | none => h
  Hub.takeUp r ((h.ring r).index.length + 1) h

/-! ### Packets (R102, R103) -/

/-- R102: the number of fragments of a unit. -/
def Taken.fragments (t : Taken) : Nat := (t.bytes.length + 1199) / 1200

/-- R102: the bytes of the next fragment. -/
def Taken.payload (t : Taken) : Bytes := (t.bytes.drop (1200 * t.next)).take 1200

/-- Table 74: bytes 0 to 27 of the packet header. -/
def Hub.packetFields (h : Hub) (p : Fin 8) (t : Taken) : Bytes :=
  le 1 (strapSlot h.strap) ++ le 1 p.val ++ le 1 t.stream.val ++ [t.flags.byte] ++ word4 (h.paths.path[p]).seq
    ++ word4 t.unit ++ word4 (t.g.getD 0) ++ word4 t.serial ++ le 2 t.payload.length ++ le 2 t.next
    ++ le 2 t.fragments ++ zeros 2

/-- R102: the packet of the next fragment on path p. -/
def Hub.packet (h : Hub) (p : Fin 8) (t : Taken) : Bytes :=
  let fields := h.packetFields p t
  fields ++ word4 (crc32 fields) ++ t.payload

/-- R103: a packet enters the FIFO of a path. -/
def Path.put (x : Path) (packet : Bytes) : Path :=
  ({ x with
     fifo := x.fifo ++ [packet]
     seq := x.seq + 1
     counts := { x.counts with placed := x.counts.placed + 1 } }).startTransmission

/-- R103: the last fragment has been placed: the unit is sent, and a picture stream has its sent mark set (R159). -/
def Hub.unitSent (h : Hub) (r : Fin 17) (k : Fin 16) : Hub :=
  let h := h.modSend r fun c => { c with sent := c.sent + 1 }
  let h :=
    if hk : k.val < 4 then { h with tally := { h.tally with sent := h.tally.sent.set k.val true hk } } else h
  h.advance r

/-- R102, R103: the next fragment of ring r is placed on path p; `flip` flips the alternation of the path's pair. -/
def Hub.place (h : Hub) (p : Fin 8) (r : Fin 17) (t : Taken) (flip : Bool) : Hub :=
  let packet := h.packet p t
  let h := h.modPath p fun x => x.put packet
  let h := if flip then h.modBond (pairOf p) fun b => { b with odd := !b.odd } else h
  let h := h.modSend r fun c => { c with taken := some { t with next := t.next + 1 } }
  if t.fragments ≤ t.next + 1 then h.unitSent r t.stream else h

/-! ### The arbiters (R105, R106) -/

/-- A ring that can supply path p: its unit in progress, and whether the placement flips an alternation. -/
def Hub.candidate (h : Hub) (p : Fin 8) (r : Fin 17) : Option (Taken × Bool) :=
  if h.backlogged r then
    match (h.paths.sends[r]).taken with
    | none => none
    | some t =>
      match h.paths.mapTo t.stream t.unit t.next with
      | none => none
      | some m => if m.1 = p then some (t, m.2) else none
  else none

/-- Section 5.5: a stream of class 0. -/
def classZero (k : Fin 16) : Bool := decide (4 ≤ k.val) && decide (k.val ≤ 12)

/-- R105: the order of class 0. -/
def order0 : List (Fin 17) := [4, 5, 6, 7, 8, 9, 10, 11, 12, 16]

/-- R106: the order of class 1. -/
def order1 : List (Fin 17) := [0, 1, 2, 3, 13, 14, 15, 16]

/-- The order that begins after a ring and ends with it. -/
def orderAfter (order : List (Fin 17)) (r : Fin 17) : List (Fin 17) := rotateFrom (order.findIdx (· == r) + 1) order

/-- The first ring of an order that can supply path p with a fragment of a class (class 0 when true). -/
def Hub.firstOf (h : Hub) (p : Fin 8) (zero : Bool) (order : List (Fin 17)) : Option (Fin 17 × Taken × Bool) :=
  order.findSome? fun r =>
    match h.candidate p r with
    | none => none
    | some x => if classZero x.1.stream = zero then some (r, x) else none

/-- R106: the quantum of ring r. -/
def Hub.quantum (h : Hub) (r : Fin 17) : Nat := if hr : r.val < 4 then 1200 * (h.coders[r.val]'hr).weight else 1200

/-- The deficit of ring r on path p. -/
def Hub.deficit (h : Hub) (p : Fin 8) (r : Fin 17) : Nat := (h.paths.arbiters[p]).deficits[r]

/-- Writes the deficit of ring r on path p, which becomes the current class-1 ring. -/
def Hub.setDeficit (h : Hub) (p : Fin 8) (r : Fin 17) (n : Nat) : Hub :=
  h.modArbiter p fun a => { a with cur1 := some r, deficits := a.deficits.set r n }

/-- R105: class 0 is served. -/
def Hub.serve0 (h : Hub) (p : Fin 8) (x : Fin 17 × Taken × Bool) : Hub :=
  (h.modArbiter p fun a => { a with last0 := x.1 }).place p x.1 x.2.1 x.2.2

/-- R106: the candidate that is the current class-1 ring of path p and whose deficit suffices. -/
def Hub.current1 (h : Hub) (p : Fin 8) : Option (Fin 17 × Taken × Bool) :=
  match (h.paths.arbiters[p]).cur1 with
  | none => none
  | some r =>
    match h.firstOf p false [r] with
    | none => none
    | some x => if x.2.1.payload.length ≤ h.deficit p r then some x else none

/-- R106: class 1 is served, with what is added to the deficit first.  The deficit follows this arithmetic alone: section
5.5 calls it a count up to 78,000, R106 gives no cap, and the model sets none.  DESIGN CHOICE, unsafe (log entry 61). -/
def Hub.serve1 (h : Hub) (p : Fin 8) (x : Fin 17 × Taken × Bool) (add : Nat) : Hub :=
  (h.setDeficit p x.1 (h.deficit p x.1 + add - x.2.1.payload.length)).place p x.1 x.2.1 x.2.2

/-- R105, R106: the arbiter of path p places one fragment, if it has a candidate. -/
def Hub.arbitrate (h : Hub) (p : Fin 8) : Hub :=
  match h.firstOf p true (orderAfter order0 (h.paths.arbiters[p]).last0) with
  | some x => h.serve0 p x
  | none =>
    match h.current1 p with
    | some x => h.serve1 p x 0
    | none =>
      match h.firstOf p false (orderAfter order1 ((h.paths.arbiters[p]).cur1.getD 16)) with
      | some x => h.serve1 p x (h.quantum x.1)
      | none => h

end Sys2Proof.Machine
end

