-- ==== Sys2Proof/Machine/Absence.lean ====
section
/-! DEFINITION. Presence: the timers at a tick (R177), and what the blocks do for a port that goes ABSENT (R44, R109,
R153, R165, R179). -/

namespace Sys2Proof.Machine

/-- R23: a HELD stream is released. -/
def Hub.releaseHold (h : Hub) (k : Fin 16) : Hub :=
  ((h.endHold k).modStream k fun st => { st with state := .opened }).streamChanged k

/-- R44: the Store acts for stream k when port p goes ABSENT. -/
def Hub.absentStream (p : Fin 4) (k : Fin 16) (h : Hub) : Hub :=
  let st := h.stream k
  let h :=
    if st.setter = some p then
      match st.state with
      | .held => h.releaseHold k
      | .closing => h.endHold k
      | .opened => h.modStream k fun x => { x with setter := none }
      | .closed => h.modStream k fun x => { x with setter := none }
    else h
  if st.builder = some p then h.discardBuffer k else h

/-- R109: the Path Controller acts for path q when port p goes ABSENT. -/
def Hub.absentPath (p : Fin 4) (q : Fin 8) (h : Hub) : Hub :=
  let x := h.paths.path[q]
  if x.holder = some p then
    if x.resetCount = 4 then Hub.evaluatePath q (h.modPath q Path.release)
    else h.modPath q fun y => { y with holder := none, releaseDue := true }
  else h

/-- R153: the Clip Log acts for port p. -/
def Hub.absentClips (p : Fin 4) (h : Hub) : Hub :=
  (h.closeClips (fun c => c.owner == .port p) .portLost).mapClips fun c =>
    if c.owner = .port p then { c with owner := .none } else c

/-- R165: the overrides that port p holds are cleared. -/
def Hub.absentTally (p : Fin 4) (h : Hub) : Hub :=
  { h with
    tally := { h.tally with
      entries := Vector.ofFn fun o =>
        let x := h.tally.entries[o]
        if x.holder = some p then { x with override := .none, holder := none } else x } }

/-- R179: the port record of a port that goes ABSENT at a moment; the timer stands at the period.  Half a pair stays
completed for that moment alone (R177, log entry 55). -/
def PortRecord.goAbsent (x : PortRecord) (period moment : Nat) : PortRecord :=
  { x with present := false, expectOdd := false, half := if x.expectOdd then some moment else none, timer := period,
           counts := { x.counts with absences := x.counts.absences + 1 } }

/-- R179: port p goes ABSENT; the blocks act for it in a fixed order before PORT_ABSENT is given (log entry 63). -/
def Hub.goAbsent (p : Fin 4) (period : Nat) (h : Hub) : Hub :=
  let h := h.modPort p fun x => x.goAbsent period h.tb.lastTick
  let h := h.forEach 16 (Hub.absentStream p)
  let h := h.forEach 8 (Hub.absentPath p)
  (Hub.absentTally p (Hub.absentClips p h)).notify .portAbsent p.val

/-- R177: whether the coming tick brings the timer of a PRESENT port to the period. -/
def PortRecord.expiring (x : PortRecord) (period : Nat) : Bool := x.present && decide (period ≤ x.timer + 1)

/-- R177: port p at a tick. -/
def Hub.tickPort (p : Fin 4) (h : Hub) : Hub :=
  match strapPeriod h.strap with
  | none => h
  | some n =>
    let x := h.ports[p]
    if x.expiring n then Hub.goAbsent p n h
    else if x.present then h.modPort p fun y => { y with timer := y.timer + 1 }
    else h

end Sys2Proof.Machine
end

