-- ==== Sys2Proof/Machine/Lamps.lean ====
section
/-! DEFINITION. The lamps of the Tally Unit: what an output shows (R158), the computed lamp of a source (R160 to R162),
and the Tally Unit's part of a tick (R159). -/

namespace Sys2Proof.Machine

/-- R158: the lamp shown by an output. -/
def TallyEntry.shown (x : TallyEntry) : Lamp :=
  match x.override with
  | .none => x.lamp
  | .forceOff => .off
  | .forceRed => .red
  | .forceGreen => .green

/-- Table 57: the red drive of a lamp. -/
def Lamp.redDrive : Lamp → Bool
  | .off | .green => false
  | .red | .amber => true

/-- Table 57: the green drive of a lamp. -/
def Lamp.greenDrive : Lamp → Bool
  | .off | .red => false
  | .green | .amber => true

/-- R158: the drives of output o on the TAL pins; both are off while RESET is held. -/
def State.drives (s : State) (o : Fin 16) : Bool × Bool :=
  if s.held then (false, false)
  else ((s.hub.tally.entries[o]).shown.redDrive, (s.hub.tally.entries[o]).shown.greenDrive)

/-- R160: the lamp of input n before the flash. -/
def Hub.inputLamp (h : Hub) (n : Fin 4) : Lamp :=
  if (List.finRange 4).any fun k => (h.coders[k]).source == n && h.isOpen (pictureStream k) && h.tally.sent[k] then .red
  else if h.log.clips.any fun c =>
      c.active && (List.finRange 4).any fun k => (h.coders[k]).source == n && c.covers (pictureStream k) then .green
  else .off

/-- R161: the flash of a lost input. -/
def flashLamp (phase : Nat) (lamp : Lamp) : Lamp := if phase < 2 then (if lamp = .off then .amber else lamp) else .off

/-- R162: the lamp of a path in a state. -/
def PathState.lamp : PathState → Lamp
  | .up => .green
  | .paused => .amber
  | .down => .red
  | .reset => .red
  | .off => .off

/-- R162: the lamp of trigger n. -/
def Hub.triggerLamp (h : Hub) (n : Fin 4) : Lamp :=
  if h.log.clips.any fun c => c.active && c.owner == .trigger n then .red
  else if (h.log.triggers[n]).state = .armed then .green
  else .off

/-- R160, R161, R162: the computed lamp of a source. -/
def Hub.lampOf (h : Hub) : TallySource → Lamp
  | .input n => if (h.inputs[n]).present then h.inputLamp n else flashLamp h.tally.flash[n] (h.inputLamp n)
  | .path n => (h.paths.path[n]).state.lamp
  | .trigger n => h.triggerLamp n
  | .none => .off

/-- Every computed lamp is formed. -/
def Hub.formLamps (h : Hub) : Hub :=
  { h with
    tally := { h.tally with
      entries := Vector.ofFn fun o =>
        let x := h.tally.entries[o]
        { x with lamp := h.lampOf x.source } } }

/-- R159: the Tally Unit at a tick. -/
def Hub.tickTally (h : Hub) : Hub :=
  let h := h.formLamps
  { h with tally := { h.tally with sent := Vector.replicate 4 false } }

end Sys2Proof.Machine
end

