-- ==== Sys2Proof/Machine/Ticking.lean ====
section
/-! DEFINITION. The tick (R7): the Timebase forms the new frame, then every block does its tick work. -/

namespace Sys2Proof.Machine

/-- R135, R138: a clip's start and end timecode at the tick that forms its start or end serial. -/
def Clip.date (c : Clip) (f : Frame) : Clip :=
  { c with
    startTc := if c.startTc = none ∧ c.startSerial = f.serial then some f.tc else c.startTc
    endTc := if c.endTc = none ∧ c.endSerial = some f.serial then some f.tc else c.endTc }

/-- The timecodes of all clips at a tick. -/
def Hub.dateClips (h : Hub) : Hub := h.mapClips fun c => c.date h.tb.frame

/-- R141: every OPEN clip whose limit-due mark is set goes to CLOSING. -/
def Hub.closeLimits (h : Hub) : Hub := h.closeClips (fun c => c.limitDue) .limit

/-- The Clip Log's tests of a tick (R139). -/
def Hub.tickTests (h : Hub) : Hub := h.forEach 16 fun k h => h.testClips k none

/-- R7: a tick at a moment.  The blocks' tick work is taken in this order (log entry 13). -/
def Hub.tick (moment : Nat) (h : Hub) : Hub :=
  let old := h.tb
  let h := { h with tb := old.tick moment }
  let h := h.dateClips.closeLimits.timebaseNotices old
  let h := (h.tickMixer old).tickCoder
  let h := h.forEach 8 Hub.tickPath
  let h := h.forEach 8 fun p h => Hub.tickManual p (Hub.tickAuto p h)
  let h := (h.forEach 4 Hub.tickPort).forEach 8 fun p h => h.modPath p Path.openFrame
  h.tickTests.tickTally

end Sys2Proof.Machine
end

