-- ==== Sys2Proof/Machine/Resetting.lean ====
section
/-! DEFINITION. What the resets by command do to each block: CODER RESET (R64), MIXER RESET (R85), LOG RESET (R154), and
the parts of HUB RESET (R19, R47, R67, R88, R112, R133, R157, R167, R181, R194). -/

namespace Sys2Proof.Machine

/-! ### Job resets -/

/-- R64, R62: a substitute unit that a tick made in its own right, not a REPEAT unit in place of an aborted picture. -/
def Flight.waits (f : Flight) : Bool := f.subst != none && !f.aborted

/-- R64: CODER RESET on stream k: pictures and the REPEAT units of aborted ones leave the flight; the substitute units that
ticks made behind them are then offered (section 3.4), and CLOSING may end.  Pictures alone are counted (log entry 37). -/
def Hub.resetCoder (k : Fin 4) (h : Hub) : Hub :=
  let s := pictureStream k
  let st := (h.stream s).state
  let pictures := (h.coders[k]).flight.filter fun f => f.subst == none
  let h := h.modCoder k fun c =>
    let c : Coder := { c with
      flight := c.flight.filter Flight.waits
      counts := { c.counts with discarded := c.counts.discarded + BitVec.ofNat 32 pictures.length } }
    if c.built ∧ (st = .opened ∨ st = .held) then { c with fullness := c.size / 2, q := 24 } else c
  let h := pictures.foldl (fun h f => h.testClips s (some f.frame.serial)) h
  h.settle k

/-- R85: a gain at the end of its ramp. -/
def Gain.settle (g : Gain) : Gain := { g with g := g.target, r := 0 }

/-- R85: MIXER RESET on a channel. -/
def Channel.quiet (c : Channel) : Channel :=
  { c.endMute with line := [], gains := Vector.ofFn fun k => (c.gains[k]).settle }

/-- R85: MIXER RESET on a bus. -/
def Bus.quiet (b : Bus) : Bus :=
  { b with master := b.master.settle, peak := 0, overloads := 0, lastPeak := 0, lastOverloads := 0, run := 0,
           silent := false, inputError := false }

/-- R85: a frame being packed is voided. -/
def Pack.cancel (p : Pack) : Pack := if p.state = .packing then { p with state := .void, buffer := [] } else p

/-- R85: MIXER RESET. -/
def Mixer.quiet (m : Mixer) : Mixer :=
  { m with
    channels := Vector.ofFn fun c => (m.channels[c]).quiet
    buses := Vector.ofFn fun k => (m.buses[k]).quiet
    packs := Vector.ofFn fun k => (m.packs[k]).cancel }

/-- R154: LOG RESET. -/
def ClipLog.empty (l : ClipLog) : ClipLog :=
  { l with clips := [], labels := [], triggers := Vector.ofFn fun t => { l.triggers[t] with state := .disarmed } }

/-! ### The parts of HUB RESET -/

/-- R19. -/
def Timebase.hubReset (t : Timebase) : Timebase :=
  { t with frame := { t.frame with serial := 0, phase := 0 }, jam := none, reader := none }

/-- R47: a stream. -/
def Stream.hubReset (x : Stream) : Stream :=
  { x with state := .closed, setter := none, fromHeld := false, releaseMark := 0, committed := 0, discarded := 0,
           lost := 0, skipped := 0, buffer := [], builder := none }

/-- R47: a ring. -/
def Ring.hubReset (x : Ring) : Ring :=
  { x with headOff := 0, index := [], head := 0, send := 0, corrected := 0, damaged := 0 }

/-- R47. -/
def Store.hubReset (x : Store) : Store :=
  { x with
    streams := Vector.ofFn fun k => (x.streams[k]).hubReset
    rings := Vector.ofFn fun r => (x.rings[r]).hubReset }

/-- R67. -/
def Coder.hubReset (c : Coder) : Coder :=
  { c with built := false, rate := 0, target := 0, size := 0, fullness := 0, q := 0, sourceChange := false, flight := [],
           counts := {} }

/-- R88. -/
def Mixer.hubReset (m : Mixer) : Mixer :=
  { m.quiet with
    channels := Vector.ofFn fun c => { (m.channels[c]).quiet with invalid := 0 }
    buses := Vector.ofFn fun k => { (m.buses[k]).quiet with overloadFrames := 0 }
    packs := Vector.ofFn fun k => { m.packs[k] with state := .idle, buffer := [], offered := 0, voided := 0 } }

/-- R112: a path, with its lines as sampled at the reset, in frame 0 (R19). -/
def Path.hubReset (x : Path) (lines : BitVec 4) : Path :=
  let y := { x with
    lines := lines, change := false, loss := false, pauseCount := 0, pausedIn := 0, timeoutMark := false, hold := false,
    holder := none, resetCount := 0, releaseDue := false, fifo := [], transmitting := false, seq := 0, baseline := none,
    counts := {}, upAllFrame := false }
  { y with state := y.evaluate.1, reason := y.evaluate.2 }

/-- R112. -/
def Paths.hubReset (x : Paths) (lines : BitVec 32) : Paths :=
  { x with
    path := Vector.ofFn fun p => (x.path[p]).hubReset (pathLines lines p)
    bonds := Vector.ofFn fun j => { x.bonds[j] with inForce := (x.bonds[j]).setting, odd := false }
    sends := Vector.replicate 17 .released
    arbiters := Vector.replicate 8 .released }

/-- R133: the gauge of a path. -/
def Gauge.hubReset (x : Gauge) : Gauge :=
  { x with phase := .idle, g := 0, remaining := 0, sum := 0, v0 := 0, count2 := 0, lastV0 := 0, lastT1 := 0, c := 0,
           s := 0, e := 0, completed := 0, aborted := 0, manual := .idle, manualSum := 0, manualCount := 0,
           manualTicks := 0, result := none }

/-- R133: the budget record; each assigned rate becomes the R_min of its stream. -/
def Budget.hubReset (b : Budget) (coders : Vector Coder 4) : Budget :=
  { b with
    kBits := 0, u := 0, u' := 0, soundReserve := 0, otherReserve := 0, fixedTotal := 0, pool := 0, overdrawn := false,
    pictures := Vector.ofFn fun k =>
      { assigned := (coders[k]).rMin, counted := false, share := none, starved := false, kept := [],
        changedAt := none, startedAt := none },
    recomputations := 0 }

/-- R157. -/
def ClipLog.hubReset (l : ClipLog) : ClipLog :=
  { l.empty with
    filed := 0, ignored := 0, removed := 0, lapses := 0,
    triggers := Vector.ofFn fun t =>
      { l.triggers[t] with state := .disarmed, fires := 0, ignored := 0, misses := 0 } }

/-- R167: overrides, holders and sent marks are cleared. -/
def Tally.hubReset (t : Tally) : Tally :=
  { t with
    entries := Vector.ofFn fun o => { t.entries[o] with override := .none, holder := none }
    sent := Vector.replicate 4 false }

/-- R181: a port record; queue, FULL list, link and rights are kept. -/
def PortRecord.hubReset (x : PortRecord) : PortRecord :=
  { x with present := true, expectOdd := false, half := none, timer := 0, counts := {} }

/-- R194: the notice state of a port; mask and mode are kept. -/
def NoticePort.hubReset (x : NoticePort) : NoticePort :=
  { x with queue := [], summary := 0, lost := 0, line := false, owed := 0, pulse := .idle }

/-- R181: HUB RESET: every block does its part, and the lamps are formed from what the blocks then hold (R167). -/
def Hub.reset (h : Hub) : Hub :=
  ({ h with
     tb := h.tb.hubReset
     store := h.store.hubReset
     coders := Vector.ofFn fun k => (h.coders[k]).hubReset
     mixer := h.mixer.hubReset
     paths := h.paths.hubReset h.env.lines
     gauges := { h.gauges with path := Vector.ofFn fun p => (h.gauges.path[p]).hubReset }
     budget := h.budget.hubReset h.coders
     log := h.log.hubReset
     tally := h.tally.hubReset
     ports := Vector.ofFn fun p => (h.ports[p]).hubReset
     notices := Vector.ofFn fun p => (h.notices[p]).hubReset }).formLamps

end Sys2Proof.Machine
end

