-- ==== Sys2Proof/Machine/Timebase.lean ====
section
/-! DEFINITION. Meanings of the Timebase family: Part reset and its release (R168), the events that give ticks (R2 to R6),
the timecode reader (R14), and the commands of class TIME (R1, R11, R12, R15, R17). -/

namespace Sys2Proof.Machine

/-! ### Part reset (R168) -/

/-- The RESET pin is held low: the part is in Part reset until its release. -/
def execPartReset (_e : Env) (s : State) : Host.Outcome State Fault Refusal := .next { s with held := true }

/-- The RESET pin is released: the strap word is sampled, every block takes its Part reset values and frame 0 begins. -/
def execResetRelease (e : Env) (strap : BitVec 16) (supw : Bool) (s : State) : Host.Outcome State Fault Refusal :=
  .next { s with held := false, hub := Hub.released strap supw e }

/-! ### Ticks (section 1.1) -/

/-- R1: a change of reference state; no interval has been measured since (R17). -/
def Hub.setRef (h : Hub) (r : RefState) (good : Nat) (prev : Option Nat) : Hub :=
  ({ h with tb := { h.tb with ref := r, good := good, prevPulse := prev, lastInterval := 0 } }).notify .refState
    (refStateCode r)

/-- R3: at an entry into FREE or HOLDOVER from LOCKED, a tick is given at once when the running frame is overdue. -/
def Hub.overdueTick (h : Hub) (moment : Nat) : Hub :=
  if h.tb.lastTick + h.tb.frameRate.nominal ≤ moment then h.tick moment else h

/-- R5: LOCKED gives HOLDOVER at a moment. -/
def Hub.toHoldover (h : Hub) (moment : Nat) (prev : Option Nat) : Hub := (h.setRef .holdover 0 prev).overdueTick moment

/-- R3: the moment at which the divider expires. -/
def Timebase.expiry (t : Timebase) : Nat := t.lastTick + t.frameRate.nominal

/-- R5: the moment of the pulse timeout after a pulse. -/
def Timebase.timeout (t : Timebase) (prev : Nat) : Nat := prev + t.frameRate.nominal + t.frameRate.tolerance + 1

/-- R2: whether an interval is in tolerance. -/
def Timebase.inTolerance (t : Timebase) (interval : Nat) : Bool :=
  decide (t.frameRate.nominal - t.frameRate.tolerance ≤ interval)
    && decide (interval ≤ t.frameRate.nominal + t.frameRate.tolerance)

/-- R3: the divider expires.  In LOCKED it gives no tick. -/
def Hub.dividerExpiry (e : Env) (h : Hub) : Hub :=
  let h := h.arrive e
  match h.tb.ref with
  | .locked => h
  | .free | .seeking | .holdover =>
    let due := h.tb.expiry
    ({ h with now := max h.now due }).tick due

/-- R5: the pulse timeout, at its moment after the previous pulse. -/
def Hub.timeoutAt (h : Hub) (prev : Nat) : Hub := h.toHoldover (h.tb.timeout prev) (some prev)

/-- R5: the pulse timeout expires. -/
def Hub.pulseTimeout (e : Env) (h : Hub) : Hub :=
  let h := h.arrive e
  match h.tb.ref, h.tb.prevPulse with
  | .locked, some prev => ({ h with now := max h.now (h.tb.timeout prev) }).timeoutAt prev
  | _, _ => h

/-- R2: a pulse of SEEKING or HOLDOVER that does not bring the count to 8. -/
def Hub.countPulse (h : Hub) (good interval : Nat) : Hub :=
  { h with tb := { h.tb with good := good, prevPulse := some h.now, lastInterval := interval } }

/-- R2, R4, R6: a pulse measured in SEEKING or HOLDOVER against the previous one. -/
def Hub.measurePulse (h : Hub) (prev : Nat) : Hub :=
  let interval := h.now - prev
  if h.tb.inTolerance interval then
    if h.tb.good + 1 < 8 then h.countPulse (h.tb.good + 1) interval
    else
      let realign := h.tb.ref == .holdover && decide (h.tb.frameRate.half ≤ h.now - h.tb.lastTick)
      let h := h.setRef .locked 8 (some h.now)
      if realign then h.tick h.now else h
  else h.countPulse 0 interval

/-- R2: a pulse of SEEKING or HOLDOVER.  Without a previous pulse it is not measured and becomes the previous pulse. -/
def Hub.seekingPulse (h : Hub) : Hub :=
  match h.tb.prevPulse with
  | none => { h with tb := { h.tb with prevPulse := some h.now } }
  | some prev => h.measurePulse prev

/-- R5: a pulse of LOCKED.  One that comes after the moment of the timeout finds the timeout taken, and is a pulse of the
state that the timeout has left: HOLDOVER, or SEEKING without a previous pulse when the tick at the timeout took a new rate
(R16). -/
def Hub.lockedPulse (h : Hub) (prev : Nat) : Hub :=
  let interval := h.now - prev
  if interval < h.tb.frameRate.nominal - h.tb.frameRate.tolerance then h.toHoldover h.now (some h.now)
  else if h.now ≤ h.tb.timeout prev then
    ({ h with tb := { h.tb with prevPulse := some h.now, lastInterval := interval } }).tick h.now
  else (h.timeoutAt prev).seekingPulse

/-- R2 to R6: a reference pulse. -/
def Hub.referencePulse (e : Env) (h : Hub) : Hub :=
  let h := h.arrive e
  match h.tb.ref, h.tb.prevPulse with
  | .free, _ => h
  | .seeking, _ => h.seekingPulse
  | .holdover, _ => h.seekingPulse
  | .locked, none => { h with tb := { h.tb with prevPulse := some h.now } }
  | .locked, some prev => h.lockedPulse prev

/-- The divider count reaches the nominal period (R3). -/
def execDividerExpiry (e : Env) (s : State) : Host.Outcome State Fault Refusal := s.run (Hub.dividerExpiry e)

/-- An external reference pulse (R2). -/
def execReferencePulse (e : Env) (s : State) : Host.Outcome State Fault Refusal := s.run (Hub.referencePulse e)

/-- The pulse timeout expires in LOCKED (R5). -/
def execPulseTimeout (e : Env) (s : State) : Host.Outcome State Fault Refusal := s.run (Hub.pulseTimeout e)

/-! ### The timecode reader (R14) -/

/-- R14: an arrival of the reader; none is a value that cannot be decoded. -/
def Timebase.readerArrival (t : Timebase) (value : Option Timecode) : Timebase :=
  let t := { t with readerNow := true }
  match value with
  | none => { t with reader := none }
  | some v =>
    if v.legal t.rate t.df then
      let pair := match t.reader with
        | none => false
        | some last => v == (last.increment t.rate t.df).1
      { t with
        reader := some v
        jam := if t.follow && pair then some (v.increment t.rate t.df).1 else t.jam }
    else { t with reader := none }

/-- The timecode reader delivers a value (R14). -/
def execReaderArrival (e : Env) (value : Option Timecode) (s : State) : Host.Outcome State Fault Refusal :=
  s.run fun h => { h.arrive e with tb := h.tb.readerArrival value }

/-- The coming tick finds two frame periods without a reader value (R14). -/
def execReaderStateTimeout (e : Env) (s : State) : Host.Outcome State Fault Refusal :=
  s.run fun h => { h.arrive e with tb := h.tb.readerTimeout }

/-! ### Commands of class TIME -/

/-- R1: SET REFERENCE. -/
def Hub.setReference (h : Hub) (source : Byte) : Hub × Reply :=
  match twoWay source with
  | none => h.refuse .badArg
  | some true =>
    match h.tb.ref with
    | .free => (({ h with tb := { h.tb with external := true } }).setRef .seeking 0 none).ok
    | .seeking | .locked | .holdover => h.ok
  | some false =>
    let g := ({ h with tb := { h.tb with external := false } }).setRef .free h.tb.good h.tb.prevPulse
    match h.tb.ref with
    | .free => h.ok
    | .seeking | .holdover => g.ok
    | .locked => (g.overdueTick h.now).ok

/-- SET REFERENCE at its taking. -/
def cmdSetReference (c : Caller) (source : Byte) : Hub → Hub :=
  serve c 0x10 (some .time) none fun h => h.setReference source

/-- SET REFERENCE (R1). -/
def execSetReference (c : Caller) (source : Byte) (s : State) : Host.Outcome State Fault Refusal :=
  s.run (cmdSetReference c source)

/-- R11: SET TIMECODE MODE.  The next tick is the first to count by a new counting; the checks of a jam (R12) and of reader
values (R14) use it from the acceptance on, which R11's reason for emptying the slot and the reader state suggests.
DEDUCED, unsafe (log entry 60). -/
def Hub.setTimecodeMode (h : Hub) (mode counting : Byte) : Hub × Reply :=
  match twoWay mode, twoWay counting with
  | some follow, some df =>
    if df ∧ ¬ h.tb.rate.fractional then h.refuse .badArg
    else
      let t := { h.tb with follow := follow }
      let t := if df = t.df then t else { t with df := df, jam := none, reader := none }
      ({ h with tb := t }).ok
  | _, _ => h.refuse .badArg

/-- SET TIMECODE MODE at its taking. -/
def cmdSetTimecodeMode (c : Caller) (mode counting : Byte) : Hub → Hub :=
  serve c 0x11 (some .time) none fun h => h.setTimecodeMode mode counting

/-- SET TIMECODE MODE (R11). -/
def execSetTimecodeMode (c : Caller) (mode counting : Byte) (s : State) : Host.Outcome State Fault Refusal :=
  s.run (cmdSetTimecodeMode c mode counting)

/-- R12: JAM TIMECODE. -/
def Hub.jamTimecode (h : Hub) (w : BitVec 32) : Hub × Reply :=
  let v := timecodeOf w
  if v.legal h.tb.rate h.tb.df then ({ h with tb := { h.tb with jam := some v } }).ok else h.refuse .badArg

/-- JAM TIMECODE at its taking. -/
def cmdJamTimecode (c : Caller) (w : BitVec 32) : Hub → Hub := serve c 0x12 (some .time) none fun h => h.jamTimecode w

/-- JAM TIMECODE (R12). -/
def execJamTimecode (c : Caller) (w : BitVec 32) (s : State) : Host.Outcome State Fault Refusal :=
  s.run (cmdJamTimecode c w)

/-- R15: SET RATE. -/
def Hub.setRate (h : Hub) (rate : Byte) : Hub × Reply :=
  match Rate.ofByte rate with
  | none => h.refuse .badArg
  | some r =>
    if (List.finRange 16).any fun k => (h.stream k).state != .closed then h.refuse .conflict
    else if r = h.tb.rate then h.ok
    else
      ({ h with
         tb := { h.tb with rate := r, ratePending := true, df := h.tb.df && r.fractional, jam := none,
                           reader := none } }).ok

/-- SET RATE at its taking. -/
def cmdSetRate (c : Caller) (rate : Byte) : Hub → Hub := serve c 0x13 (some .time) none fun h => h.setRate rate

/-- SET RATE (R15). -/
def execSetRate (c : Caller) (rate : Byte) (s : State) : Host.Outcome State Fault Refusal := s.run (cmdSetRate c rate)

/-- R17: what READ TIMEBASE returns. -/
def Timebase.report (t : Timebase) : Bytes :=
  le 1 t.rate.code ++ flagByte t.ratePending ++ flagByte t.external ++ le 1 (refStateCode t.ref) ++ le 1 t.good
    ++ word4 (if t.lastInterval < 4294967296 then BitVec.ofNat 32 t.lastInterval else Config.wideInterval t.lastInterval)
    ++ word4 t.frame.serial ++ tc4 t.frame.tc ++ flagByte t.frame.tc.df ++ le 1 t.frame.phase ++ flagByte t.follow
    ++ optField 4 tc4 t.jam ++ optField 4 tc4 t.reader

/-- READ TIMEBASE at its taking. -/
def cmdReadTimebase (c : Caller) : Hub → Hub := serve c 0x14 (some .time) none fun h => (h, .done h.tb.report)

/-- READ TIMEBASE (R17). -/
def execReadTimebase (c : Caller) (s : State) : Host.Outcome State Fault Refusal := s.run (cmdReadTimebase c)

end Sys2Proof.Machine
end

