-- ==== Sys2Proof/Machine/Coder.lean ====
section
/-! DEFINITION. Meanings of the Picture Coder family: receiver reports (R48), capture (R54), slices and rate control (R55 to
R58), LATE drops (R59), and the commands of class CODE (R50, R51, R64, R65). -/

namespace Sys2Proof.Machine

/-! ### Receivers -/

/-- R48: the receiver of input i reports a loss of lock. -/
def Hub.lossOfLock (i : Fin 4) (h : Hub) : Hub :=
  let was := (h.inputs[i]).present
  let h := h.modInput i fun x => { x with locked := false }
  if was then h.loseInput i else h

/-- A video receiver reports a loss of lock (R48). -/
def execReceiverLossOfLock (e : Env) (i : Fin 4) (s : State) : Host.Outcome State Fault Refusal :=
  s.run fun h => Hub.lossOfLock i (h.arrive e)

/-- R48: the receiver of input i reports the format of a picture; it has lock (log entry 16).  In NO_SIGNAL too the report is the
last measured format, which READ INPUT returns: DESIGN CHOICE, unsafe, where R48 has such a report change nothing (log entry
64). -/
def Hub.formatReport (i : Fin 4) (m : Measured) (h : Hub) : Hub :=
  let bad := (h.inputs[i]).present && !h.matchesInput i m
  let h := h.modInput i fun x => { x with measured := some m, locked := true }
  if bad then h.loseInput i else h

/-- A video receiver reports a measured format (R48). -/
def execReceiverFormatReport (e : Env) (i : Fin 4) (m : Measured) (s : State) : Host.Outcome State Fault Refusal :=
  s.run fun h => Hub.formatReport i m (h.arrive e)

/-- R48, section 3.4: a failed line check is counted and marks the pictures in capture from the input. -/
def Hub.lineCheck (i : Fin 4) (h : Hub) : Hub :=
  let h := h.modInput i fun x => { x with lineErrors := x.lineErrors + 1 }
  { h with
    coders := Vector.ofFn fun k =>
      let c := h.coders[k]
      { c with flight := c.flight.map fun f => if f.capturingFrom i then { f with lineError := true } else f } }

/-- A line check fails (R48). -/
def execLineCheckFailure (e : Env) (i : Fin 4) (s : State) : Host.Outcome State Fault Refusal :=
  s.run fun h => Hub.lineCheck i (h.arrive e)

/-- R54, section 3.1: the last line of input i's picture is received: capture ends, and the picture is delivered.  Without
lock no picture is received whole (log entry 16).  The picture then codes on, even if SET INPUT changes the expected format
and the next tick finds no good picture delivered: R61 before R54's last sentence, the model's choice (log entry 65). -/
def Hub.captureEnd (i : Fin 4) (h : Hub) : Hub :=
  if (h.inputs[i]).locked then
    let h := h.modInput i fun x => { x with delivered := x.delivered ++ x.measured.toList }
    { h with
      coders := Vector.ofFn fun k =>
        let c := h.coders[k]
        { c with flight := c.flight.map fun f => if f.capturingFrom i then { f with captured := true } else f } }
  else h

/-- The last line of an input's picture is received (R54). -/
def execCaptureEnd (e : Env) (i : Fin 4) (s : State) : Host.Outcome State Fault Refusal :=
  s.run fun h => Hub.captureEnd i (h.arrive e)

/-! ### Coding -/

/-- R55: the coding record of a picture that starts on a context whose rate state has just been formed. -/
def Coder.beginCoding (c : Coder) : Coding :=
  { i := 0, b := 0, cPic := c.size - c.fullness + c.target, first := 0, last := 0, slice := none, coded := [] }

/-- R55: the picture at the front of stream k's order starts; the sender gives the event once its first lines are
captured.  It reads the stream's assigned rate, but for a picture that keeps an older one (R63, R125, log entry 47). -/
def Hub.pictureStart (k : Fin 4) (h : Hub) : Hub :=
  match (h.coders[k]).flight with
  | [] => h
  | f :: rest =>
    if f.subst = none ∧ f.coding = none then
      let c := (h.coders[k]).start h.tb.rate (h.pictureRate k f)
      (h.modCoder k fun _ => { c with flight := { f with coding := some c.beginCoding } :: rest }).modShare k fun x =>
        { x with kept := x.keptAt h.now, startedAt := some h.now }
    else h

/-- A picture starts (R55). -/
def execPictureStart (e : Env) (k : Fin 4) (s : State) : Host.Outcome State Fault Refusal :=
  s.run fun h => Hub.pictureStart k (h.arrive e)

/-- R56: slice i of the picture being coded begins with its quantiser. -/
def Hub.sliceStart (k : Fin 4) (h : Hub) : Hub :=
  let c := h.coders[k]
  match c.flight with
  | [] => h
  | f :: rest =>
    match f.coding with
    | none => h
    | some x =>
      if x.slice = none ∧ x.i < c.format.slices then
        h.modCoder k fun c =>
          { c with flight := { f with coding := some { x with slice := some (c.quantiser x.i x.b) } } :: rest }
      else h

/-- A slice starts (R56). -/
def execSliceStart (e : Env) (k : Fin 4) (s : State) : Host.Outcome State Fault Refusal :=
  s.run fun h => Hub.sliceStart k (h.arrive e)

/-- R56, R57: the coding record after a slice of quantiser q has ended with its coded bytes. -/
def Coding.afterSlice (x : Coding) (q : Nat) (coded : Bytes) : Coding :=
  { x with
    i := x.i + 1
    b := x.b + 8 * coded.length
    first := if x.i = 0 then q else x.first
    last := q
    slice := none
    coded := x.coded ++ coded }

/-- R57, R58: the slice being coded on stream k ends with its bytes. -/
def Hub.sliceEnd (k : Fin 4) (coded : Bytes) (h : Hub) : Hub :=
  let c := h.coders[k]
  match c.flight with
  | [] => h
  | f :: rest =>
    match f.coding with
    | none => h
    | some x =>
      match x.slice with
      | none => h
      | some q =>
        let y := x.afterSlice q coded
        if x.cPic < y.b then ((h.modCoder k fun c => { c with flight := rest }).dropPicture k f .ceiling).settle k
        else if c.format.slices ≤ y.i then
          ((h.modCoder k fun c => { c with flight := rest }).completePicture k f y).settle k
        else h.modCoder k fun c => { c with flight := { f with coding := some y } :: rest }

/-- A slice ends (R57). -/
def execSliceEnd (e : Env) (k : Fin 4) (coded : Bytes) (s : State) : Host.Outcome State Fault Refusal :=
  s.run fun h => Hub.sliceEnd k coded (h.arrive e)

/-- The LATE drop of stream k at the coming tick (R59). -/
def execLateDrop (e : Env) (k : Fin 4) (s : State) : Host.Outcome State Fault Refusal :=
  s.run fun h => (h.arrive e).atTick (Hub.lateDrop k)

/-! ### Commands of class CODE -/

/-- R50: SET INPUT. -/
def Hub.setInput (h : Hub) (input format : Byte) : Hub × Reply :=
  match below 4 input, Format.ofByte format with
  | some i, some f => (h.modInput i fun x => { x with expected := f }).ok
  | _, _ => h.refuse .badArg

/-- SET INPUT at its taking. -/
def cmdSetInput (c : Caller) (input format : Byte) : Hub → Hub :=
  serve c 0x30 (some .code) none fun h => h.setInput input format

/-- SET INPUT (R50). -/
def execSetInput (c : Caller) (input format : Byte) (s : State) : Host.Outcome State Fault Refusal :=
  s.run (cmdSetInput c input format)

/-- The eight settings of Table 22 as carried. -/
structure PictureArgs where
  source : Byte
  format : Byte
  mode : Byte
  rFix : Word
  rMin : Word
  rMax : Word
  weight : Byte
  bf : Byte

/-- Table 22: a rate setting clamped into its range. -/
def clampRate (x : Word) : Nat := clamp 1000000 400000000 x.toNat

/-- R51: the settings written, clamped. -/
def Coder.write (c : Coder) (a : PictureArgs) (source : Fin 4) (format : Format) (fixed : Bool) : Coder :=
  { c with
    source := source
    format := format
    fixed := fixed
    rFix := clampRate a.rFix
    rMin := clampRate a.rMin
    rMax := clampRate a.rMax
    weight := clamp 1 64 a.weight.toNat
    bf := clamp 2 16 a.bf.toNat }

/-- The eight settings of a picture stream in a record. -/
def Coder.settings (c : Coder) : Bytes :=
  le 1 c.source.val ++ le 1 c.format.code ++ flagByte c.fixed ++ le 4 c.rFix ++ le 4 c.rMin ++ le 4 c.rMax
    ++ le 1 c.weight ++ le 1 c.bf

/-- R51: SET PICTURE. -/
def Hub.setPicture (h : Hub) (stream : Byte) (a : PictureArgs) : Hub × Reply :=
  match below 4 stream, below 4 a.source, Format.ofByte a.format, twoWay a.mode with
  | some k, some source, some format, some fixed =>
    if a.rMax.toNat < a.rMin.toNat then h.refuse .badArg
    else if format ≠ (h.coders[k]).format ∧ (h.stream (pictureStream k)).state ≠ .closed then h.refuse .conflict
    else
      let c := (h.coders[k]).write a source format fixed
      ((h.modCoder k fun _ => c).recompute, .done c.settings)
  | _, _, _, _ => h.refuse .badArg

/-- SET PICTURE at its taking. -/
def cmdSetPicture (c : Caller) (stream : Byte) (a : PictureArgs) : Hub → Hub :=
  serve c 0x31 (some .code) (some stream) fun h => h.setPicture stream a

/-- SET PICTURE (R51). -/
def execSetPicture (c : Caller) (stream source format mode : Byte) (rFix rMin rMax : Word) (weight bf : Byte) (s : State) :
    Host.Outcome State Fault Refusal :=
  s.run (cmdSetPicture c stream
    { source := source, format := format, mode := mode, rFix := rFix, rMin := rMin, rMax := rMax, weight := weight,
      bf := bf })

/-- R64: CODER RESET. -/
def Hub.coderReset (h : Hub) : Hub × Reply := (h.forEach 4 Hub.resetCoder).ok

/-- CODER RESET at its taking. -/
def cmdCoderReset (c : Caller) : Hub → Hub := serve c 0x32 (some .code) none Hub.coderReset

/-- CODER RESET (R64). -/
def execCoderReset (c : Caller) (s : State) : Host.Outcome State Fault Refusal := s.run (cmdCoderReset c)

/-- R65: the format last measured: the format's code and the rate's code. -/
def Measured.report (m : Measured) : Bytes :=
  [(match m.format with | some f => BitVec.ofNat 8 f.code | none => Config.otherFormatCode),
   (match m.rate with | some r => BitVec.ofNat 8 r.code | none => Config.otherRateCode)]

/-- R65: what READ INPUT returns. -/
def VideoInput.report (x : VideoInput) : Bytes :=
  le 1 x.expected.code ++ flagByte x.present ++ le 4 x.sinceLoss ++ word4 x.lineErrors ++ word4 x.losses
    ++ optField 2 Measured.report x.measured

/-- R65: READ INPUT; an input above 3 is refused (log entry 14). -/
def Hub.readInput (h : Hub) (input : Byte) : Hub × Reply :=
  match below 4 input with
  | none => h.refuse .badArg
  | some i => (h, .done (h.inputs[i]).report)

/-- READ INPUT at its taking. -/
def cmdReadInput (c : Caller) (input : Byte) : Hub → Hub := serve c 0x33 (some .code) none fun h => h.readInput input

/-- READ INPUT (R65). -/
def execReadInput (c : Caller) (input : Byte) (s : State) : Host.Outcome State Fault Refusal := s.run (cmdReadInput c input)

/-- R65: a picture in flight.  Until its coding begins i, b and C_pic do not exist; they are sent as 0 (log entry
48).  The spec states no range for them: i is 1 byte, b and C_pic 4 bytes each (log entry 45). -/
def Flight.report (f : Flight) : Bytes :=
  word4 f.frame.serial ++ flagByte f.captured ++ flagByte f.coding.isSome
    ++ le 1 ((f.coding.map Coding.i).getD 0) ++ le 4 ((f.coding.map Coding.b).getD 0)
    ++ le 4 ((f.coding.map Coding.cPic).getD 0)

/-- R65: the ten counts of a context. -/
def CoderCounts.report (n : CoderCounts) : Bytes :=
  word4 n.captured ++ word4 n.completed ++ word4 n.ceiling ++ word4 n.late ++ word4 n.tooLarge ++ word4 n.aborted
    ++ word4 n.discarded ++ word4 n.repeats ++ word4 n.blacks ++ word4 n.undershoots

/-- R65: what READ PICTURE returns; `load` is the engine load of the part.  The spec states no range for T, B and F, which are
4 bytes each (log entry 45). -/
def Coder.report (c : Coder) (load : Nat) : Bytes :=
  c.settings ++ le 1 load ++ flagByte c.built ++ le 4 c.rate ++ le 4 c.target ++ le 4 c.size ++ le 4 c.fullness
    ++ le 1 c.q ++ le 1 c.remembered.val ++ flagByte c.sourceChange
    ++ listField 1 Flight.report (c.flight.filter fun f => f.subst == none) ++ c.counts.report

/-- R65: READ PICTURE; a stream above 3 is refused (log entry 14). -/
def Hub.readPicture (h : Hub) (stream : Byte) : Hub × Reply :=
  match below 4 stream with
  | none => h.refuse .badArg
  | some k => (h, .done ((h.coders[k]).report h.engineLoad))

/-- READ PICTURE at its taking. -/
def cmdReadPicture (c : Caller) (stream : Byte) : Hub → Hub :=
  serve c 0x34 (some .code) (some stream) fun h => h.readPicture stream

/-- READ PICTURE (R65). -/
def execReadPicture (c : Caller) (stream : Byte) (s : State) : Host.Outcome State Fault Refusal :=
  s.run (cmdReadPicture c stream)

end Sys2Proof.Machine
end

