-- ==== Sys2Proof/Machine/Streams.lean ====
section
/-! DEFINITION. Meanings of the commands of class STORE: stream states (R21 to R26), rings (R27), FETCH (R38), INSERT (R39,
R40) and the reads (R45). -/

namespace Sys2Proof.Machine

/-! ### Stream states -/

/-- The number of a picture stream among 0 to 3. -/
def pictureOf (k : Fin 16) : Option (Fin 4) := if hk : k.val < 4 then some ⟨k.val, hk⟩ else none

/-- R53: whether OPEN STREAM passes the engine-load check. -/
def Hub.loadAllows (h : Hub) (k : Fin 16) : Bool :=
  match pictureOf k with
  | none => true
  | some j => decide (h.engineLoad + (h.coders[j]).format.load ≤ 4)

/-- R52, R63, R126: what an open does to a picture stream's context and budget record. -/
def Hub.openPicture (h : Hub) (k : Fin 16) : Hub :=
  match pictureOf k with
  | none => h
  | some j =>
    let h := h.modCoder j fun c => { c with built := false, sourceChange := false, remembered := c.source }
    { h with budget := { h.budget with pictures := h.budget.pictures.set j { h.budget.pictures[j] with counted := false } } }

/-- R21: OPEN STREAM. -/
def Hub.openStream (h : Hub) (stream : Byte) : Hub × Reply :=
  match below 16 stream with
  | none => h.refuse .badArg
  | some k =>
    if (h.stream k).state ≠ .closed ∨ ¬ (h.ring (h.boundRing k)).enabled ∨ ¬ h.loadAllows k then h.refuse .conflict
    else
      (((h.modStream k fun st => { st with state := .opened, setter := none }).openPicture k).streamChanged k).ok

/-- OPEN STREAM at its taking. -/
def cmdOpenStream (c : Caller) (stream : Byte) : Hub → Hub :=
  serve c 0x20 (some .store) (some stream) fun h => h.openStream stream

/-- OPEN STREAM (R21). -/
def execOpenStream (c : Caller) (stream : Byte) (s : State) : Host.Outcome State Fault Refusal :=
  s.run (cmdOpenStream c stream)

/-- R22: HOLD STREAM from port p. -/
def Hub.holdStream (h : Hub) (p : Fin 4) (stream policy : Byte) : Hub × Reply :=
  match below 16 stream, twoWay policy with
  | some k, some discard =>
    if (h.stream k).state ≠ .opened then h.refuse .conflict
    else
      ((h.modStream k fun st => { st with state := .held, discard := discard, setter := some p }).streamChanged k).ok
  | _, _ => h.refuse .badArg

/-- HOLD STREAM at its taking. -/
def cmdHoldStream (c : Caller) (stream policy : Byte) : Hub → Hub :=
  serve c 0x21 (some .store) (some stream) fun h => h.holdStream c.port stream policy

/-- HOLD STREAM (R22). -/
def execHoldStream (c : Caller) (stream policy : Byte) (s : State) : Host.Outcome State Fault Refusal :=
  s.run (cmdHoldStream c stream policy)

/-- R23: RELEASE STREAM. -/
def Hub.releaseStream (h : Hub) (stream : Byte) : Hub × Reply :=
  match below 16 stream with
  | none => h.refuse .badArg
  | some k => if (h.stream k).state ≠ .held then h.refuse .conflict else (h.releaseHold k).ok

/-- RELEASE STREAM at its taking. -/
def cmdReleaseStream (c : Caller) (stream : Byte) : Hub → Hub :=
  serve c 0x22 (some .store) (some stream) fun h => h.releaseStream stream

/-- RELEASE STREAM (R23). -/
def execReleaseStream (c : Caller) (stream : Byte) (s : State) : Host.Outcome State Fault Refusal :=
  s.run (cmdReleaseStream c stream)

/-- Table 16: whether CLOSING of stream k ends at once. -/
def Hub.closesAtOnce (h : Hub) (k : Fin 16) : Bool :=
  match pictureOf k with
  | some j => (h.coders[j]).flight == []
  | none => decide (12 ≤ k.val)

/-- R24: CLOSE STREAM. -/
def Hub.closeStream (h : Hub) (stream : Byte) : Hub × Reply :=
  match below 16 stream with
  | none => h.refuse .badArg
  | some k =>
    let st := h.stream k
    if st.state = .opened ∨ st.state = .held then
      let h := (h.modStream k fun x => { x with state := .closing, fromHeld := st.state == .held }).discardBuffer k
      if h.closesAtOnce k then (h.endClosing k).ok else (h.streamChanged k, .plain .started)
    else h.refuse .conflict

/-- CLOSE STREAM at its taking. -/
def cmdCloseStream (c : Caller) (stream : Byte) : Hub → Hub :=
  serve c 0x23 (some .store) (some stream) fun h => h.closeStream stream

/-- CLOSE STREAM (R24). -/
def execCloseStream (c : Caller) (stream : Byte) (s : State) : Host.Outcome State Fault Refusal :=
  s.run (cmdCloseStream c stream)

/-- Whether a live clip covers a stream (R26, R27). -/
def Hub.coveredLive (h : Hub) (k : Fin 16) : Bool := h.log.clips.any fun c => c.live && c.covers k

/-- R26: SET STREAM. -/
def Hub.setStream (h : Hub) (stream binding : Byte) : Hub × Reply :=
  match below 16 stream, twoWay binding with
  | some k, some global =>
    if global ∧ k.val < 12 then h.refuse .badArg
    else if (h.stream k).state ≠ .closed ∨ h.coveredLive k then h.refuse .conflict
    else if global = (h.stream k).global then h.ok
    else
      let h := if global then h.emptyRing k.castSucc else h
      (h.modStream k fun st => { st with global := global }).ok
  | _, _ => h.refuse .badArg

/-- SET STREAM at its taking. -/
def cmdSetStream (c : Caller) (stream binding : Byte) : Hub → Hub :=
  serve c 0x24 (some .store) (some stream) fun h => h.setStream stream binding

/-- SET STREAM (R26). -/
def execSetStream (c : Caller) (stream binding : Byte) (s : State) : Host.Outcome State Fault Refusal :=
  s.run (cmdSetStream c stream binding)

/-! ### Rings -/

/-- R27 check 1: a power of two from 64 to 65,536. -/
def ringSizeOk (n : Nat) : Bool := [64, 128, 256, 512, 1024, 2048, 4096, 8192, 16384, 32768, 65536].contains n

/-- R27: the streams of ring r: its own, or those bound GLOBAL. -/
def Hub.streamOfRing (h : Hub) (r : Fin 17) (k : Fin 16) : Bool :=
  if r = 16 then (h.stream k).global else decide (k.castSucc = r)

/-- R27 check 4: whether blocks from base on share one with another enabled ring. -/
def Hub.overlaps (h : Hub) (r : Fin 17) (base size : Nat) : Bool :=
  (List.finRange 17).any fun q =>
    decide (q ≠ r) && (h.ring q).enabled && decide (base < (h.ring q).base + (h.ring q).size)
      && decide ((h.ring q).base < base + size)

/-- R27: a port needs the rights to streams 12 to 15 for ring G. -/
def Hub.deniedRing (h : Hub) (p : Fin 4) (r : Fin 17) : Bool := decide (r = 16) && !h.hasStreams p 0xF000

/-- R27: SET RING from port p. -/
def Hub.setRing (h : Hub) (p : Fin 4) (ring : Byte) (base size : Word) (enabled : Bool) (policy : Byte) : Hub × Reply :=
  match below 17 ring with
  | none => h.refuse .badArg
  | some r =>
    if h.deniedRing p r then h.refuse .denied
    else
      match twoWay policy with
      | none => h.refuse .badArg
      | some keep =>
        if ¬ ringSizeOk size.toNat ∨ strapBlocks h.strap < base.toNat + size.toNat then h.refuse .badArg
        else if (List.finRange 16).any fun k => h.streamOfRing r k && (h.stream k).state != .closed then h.refuse .conflict
        else if (List.finRange 16).any fun k => h.streamOfRing r k && h.coveredLive k then h.refuse .conflict
        else if enabled && h.overlaps r base.toNat size.toNat then h.refuse .conflict
        else
          ((h.emptyRing r).modRing r fun x =>
            { x with base := base.toNat, size := size.toNat, enabled := enabled, keep := keep }).ok

/-- SET RING at its taking. -/
def cmdSetRing (c : Caller) (ring : Byte) (base size : Word) (enabled : Bool) (policy : Byte) : Hub → Hub :=
  serve c 0x25 (some .store) (some ring) fun h => h.setRing c.port ring base size enabled policy

/-- SET RING (R27). -/
def execSetRing (c : Caller) (ring : Byte) (base size : Word) (enabled : Bool) (policy : Byte) (s : State) :
    Host.Outcome State Fault Refusal :=
  s.run (cmdSetRing c ring base size enabled policy)

/-! ### FETCH and INSERT -/

/-- R38: the entry of unit u of stream k in the stream's bound ring. -/
def Hub.present (h : Hub) (k : Fin 16) (u : Word) : Option Entry :=
  (h.ring (h.boundRing k)).index.find? fun e => e.stream = k ∧ e.unit = u

/-- R38 case 3: the answer for a unit that is not present. -/
def Hub.missing (h : Hub) (k : Fin 16) (u : Word) : Answer := if atOrAfter u (h.nextUnit k) then .notYet else .gone

/-- R38: FETCH. -/
def Hub.fetch (h : Hub) (stream : Byte) (u offset : Word) (length : BitVec 16) : Hub × Reply :=
  match below 16 stream with
  | none => h.refuse .badArg
  | some k =>
    if length = 0 ∨ 4096 < length.toNat then h.refuse .badArg
    else
      match h.present k u with
      | none => h.refuse (h.missing k u)
      | some e =>
        if e.bytes ≤ offset.toNat then h.refuse .badArg
        else
          let r := h.boundRing k
          let f := h.nextFault
          let data := ((asRead f (h.unitBytes r e)).drop offset.toNat).take length.toNat
          ((h.meetErrors r e f).dropFault,
            { outcome := if e.flags.damaged || f.uncorrectable then .damaged else .done
              data := le 2 data.length ++ data })

/-- FETCH at its taking. -/
def cmdFetch (c : Caller) (stream : Byte) (u offset : Word) (length : BitVec 16) : Hub → Hub :=
  serve c 0x26 (some .store) (some stream) fun h => h.fetch stream u offset length

/-- FETCH (R38). -/
def execFetch (c : Caller) (stream : Byte) (u offset : Word) (length : BitVec 16) (s : State) :
    Host.Outcome State Fault Refusal :=
  s.run (cmdFetch c stream u offset length)

/-- The number of an aux stream. -/
def auxOf (stream : Byte) : Option (Fin 16) :=
  match below 16 stream with
  | none => none
  | some k => if 13 ≤ k.val then some k else none

/-- R40: the unit and G-number of a committed unit, as optional results (R196). -/
def Fate.report : Fate → Bytes
  | .committed u g => optField 4 word4 (some u) ++ optField 4 word4 g
  | .discarded | .tooLarge | .aborted | .notTaken => optField 4 word4 none ++ optField 4 word4 none

/-- R40: the final INSERT of stream k completes the unit. -/
def Hub.insertFinal (h : Hub) (k : Fin 16) (payload : Bytes) : Hub × Reply :=
  let r := (h.modStream k fun st => { st with buffer := [], builder := none }).offer
    { stream := k, payload := payload, frame := h.tb.frame, flags := {}, producer := [] }
  (r.1, .done r.2.report)

/-- R39: INSERT from port p. -/
def Hub.insert (h : Hub) (p : Fin 4) (stream : Byte) (data : Bytes) (final : Bool) : Hub × Reply :=
  match auxOf stream with
  | none => h.refuse .badArg
  | some k =>
    let st := h.stream k
    if data.length = 0 ∨ 4096 < data.length then h.refuse .badArg
    else if st.state = .closed ∨ st.state = .closing then h.refuse .conflict
    else if st.buffer ≠ [] ∧ st.builder ≠ some p then h.refuse .conflict
    else if 65536 < st.buffer.length + data.length then
      ((h.modStream k fun x => { x with buffer := [], builder := none }).countDiscard k).refuse .badArg
    else if final then h.insertFinal k (st.buffer ++ data)
    else
      (h.modStream k fun x => { x with buffer := st.buffer ++ data, builder := some p },
        .done (le 4 (st.buffer ++ data).length))

/-- INSERT at its taking. -/
def cmdInsert (c : Caller) (stream : Byte) (data : Bytes) (final : Bool) : Hub → Hub :=
  serve c 0x27 (some .store) (some stream) fun h => h.insert c.port stream data final

/-- INSERT (R39). -/
def execInsert (c : Caller) (stream : Byte) (data : Bytes) (final : Bool) (s : State) :
    Host.Outcome State Fault Refusal :=
  s.run (cmdInsert c stream data final)

/-! ### Reads (R45) -/

/-- R45: what READ STREAM returns; `next` is the next unit number. -/
def Stream.report (x : Stream) (next : Word) : Bytes :=
  le 1 (streamStateCode x.state) ++ flagByte x.discard ++ optPort x.setter ++ flagByte x.global ++ word4 next
    ++ word4 x.releaseMark ++ word4 x.committed ++ word4 x.discarded ++ word4 x.lost ++ word4 x.skipped
    ++ le 4 x.buffer.length ++ optPort x.builder

/-- R45: READ STREAM. -/
def Hub.readStream (h : Hub) (stream : Byte) : Hub × Reply :=
  match below 16 stream with
  | none => h.refuse .badArg
  | some k => (h, .done ((h.stream k).report (h.nextUnit k)))

/-- READ STREAM at its taking. -/
def cmdReadStream (c : Caller) (stream : Byte) : Hub → Hub :=
  serve c 0x28 (some .store) (some stream) fun h => h.readStream stream

/-- READ STREAM (R45). -/
def execReadStream (c : Caller) (stream : Byte) (s : State) : Host.Outcome State Fault Refusal :=
  s.run (cmdReadStream c stream)

/-- R45: what READ RING returns; `tail` is the ring's tail. -/
def Ring.report (x : Ring) (tail : Word) : Bytes :=
  le 4 x.base ++ le 4 x.size ++ flagByte x.enabled ++ flagByte x.keep ++ word4 tail ++ word4 x.send ++ word4 x.head
    ++ le 2 x.index.length ++ le 4 x.free ++ le 4 x.headOff ++ word4 x.corrected ++ word4 x.damaged

/-- R45: READ RING from port p. -/
def Hub.readRing (h : Hub) (p : Fin 4) (ring : Byte) : Hub × Reply :=
  match below 17 ring with
  | none => h.refuse .badArg
  | some r => if h.deniedRing p r then h.refuse .denied else (h, .done ((h.ring r).report (h.tail r)))

/-- READ RING at its taking. -/
def cmdReadRing (c : Caller) (ring : Byte) : Hub → Hub :=
  serve c 0x29 (some .store) (some ring) fun h => h.readRing c.port ring

/-- READ RING (R45). -/
def execReadRing (c : Caller) (ring : Byte) (s : State) : Host.Outcome State Fault Refusal := s.run (cmdReadRing c ring)

/-- R45: an index entry as READ UNIT returns it (Table 18). -/
def Entry.report (e : Entry) : Bytes :=
  le 1 e.stream.val ++ word4 e.unit ++ optField 4 word4 e.g ++ le 4 e.start ++ le 4 e.len ++ word4 e.serial ++ tc4 e.tc
    ++ e.flags.fields

/-- R45: READ UNIT. -/
def Hub.readUnit (h : Hub) (stream : Byte) (u : Word) : Hub × Reply :=
  match below 16 stream with
  | none => h.refuse .badArg
  | some k =>
    match h.present k u with
    | none => h.refuse (h.missing k u)
    | some e => (h, .done e.report)

/-- READ UNIT at its taking. -/
def cmdReadUnit (c : Caller) (stream : Byte) (u : Word) : Hub → Hub :=
  serve c 0x2A (some .store) (some stream) fun h => h.readUnit stream u

/-- READ UNIT (R45). -/
def execReadUnit (c : Caller) (stream : Byte) (u : Word) (s : State) : Host.Outcome State Fault Refusal :=
  s.run (cmdReadUnit c stream u)

end Sys2Proof.Machine
end

