-- ==== Sys2Proof/Machine/Mixer.lean ====
section
/-! DEFINITION. Meanings of the Sound Mixer family: the sample (R76), the end of a mute (R72), and the commands of class MIX
(R71, R73, R74, R80, R85, R86). -/

namespace Sys2Proof.Machine

/-- R9: whether the word clock on the pin WCLK runs; it is held low while the RESET pin is held, and runs through every
other reset and in every reference state.  Its edges are the sample periods, which are rows (log entry 20). -/
def State.wordClock (s : State) : Bool := !s.held

/-- R76: one sample of the running frame, which holds no more than Table 9 gives (log entry 9). -/
def Hub.mixerSample (x : SampleIn) (h : Hub) : Hub :=
  if h.mixer.sampleNo < h.tb.frameRate.samples h.tb.frame.phase then h.mixSample x else h

/-- One sample period of the mixer (R76). -/
def execMixerSample (e : Env) (x : SampleIn) (s : State) : Host.Outcome State Fault Refusal :=
  s.run fun h => Hub.mixerSample x (h.arrive e)

/-- R72: the coming tick ends the mute of channel c. -/
def Hub.muteEnd (c : Fin 64) (h : Hub) : Hub :=
  if (h.mixer.channels[c]).muteEnd = some 1 then h.modChannel c Channel.endMute else h

/-- The end of a mute at the coming tick (R72). -/
def execMuteEnd (e : Env) (c : Fin 64) (s : State) : Host.Outcome State Fault Refusal :=
  s.run fun h => Hub.muteEnd c (h.arrive e)

/-! ### Commands of class MIX -/

/-- R71: the delay that the channel is headed for. -/
def Channel.headed (x : Channel) : Nat := x.pendingDelay.getD x.delay

/-- R71, R72: polarity and delay are written. -/
def Channel.write (x : Channel) (d : Nat) (inverted : Bool) : Channel :=
  let y := { x with inverted := inverted }
  if d = x.headed then y else { y with pendingDelay := some d, muteEnd := some 2 }

/-- R71: SET CHANNEL. -/
def Hub.setChannel (h : Hub) (channel : Byte) (delay : BitVec 16) (polarity : Byte) : Hub × Reply :=
  match below 64 channel, twoWay polarity with
  | some c, some inverted =>
    let d := min 4095 delay.toNat
    (h.modChannel c fun x => x.write d inverted, .done (le 2 d ++ flagByte inverted))
  | _, _ => h.refuse .badArg

/-- SET CHANNEL at its taking. -/
def cmdSetChannel (c : Caller) (channel : Byte) (delay : BitVec 16) (polarity : Byte) : Hub → Hub :=
  serve c 0x40 (some .mix) none fun h => h.setChannel channel delay polarity

/-- SET CHANNEL (R71). -/
def execSetChannel (c : Caller) (channel : Byte) (delay : BitVec 16) (polarity : Byte) (s : State) :
    Host.Outcome State Fault Refusal :=
  s.run (cmdSetChannel c channel delay polarity)

/-- R73: a gain heads for a target over L samples. -/
def Gain.head (g : Gain) (target ramp : BitVec 16) : Gain :=
  { g with target := target.toNat, r := if ramp = 0 then 1 else ramp.toNat }

/-- R73, R74: the target and the ramp length in a response. -/
def gainData (target ramp : BitVec 16) : Bytes := le 2 target.toNat ++ le 2 ramp.toNat

/-- R73: SET GAIN. -/
def Hub.setGain (h : Hub) (channel bus : Byte) (target ramp : BitVec 16) : Hub × Reply :=
  match below 64 channel, below 16 bus with
  | some c, some k =>
    (h.modChannel c fun x => { x with gains := x.gains.set k (x.gains[k].head target ramp) },
      .done (gainData target ramp))
  | _, _ => h.refuse .badArg

/-- SET GAIN at its taking. -/
def cmdSetGain (c : Caller) (channel bus : Byte) (target ramp : BitVec 16) : Hub → Hub :=
  serve c 0x41 (some .mix) none fun h => h.setGain channel bus target ramp

/-- SET GAIN (R73). -/
def execSetGain (c : Caller) (channel bus : Byte) (target ramp : BitVec 16) (s : State) :
    Host.Outcome State Fault Refusal :=
  s.run (cmdSetGain c channel bus target ramp)

/-- R74: SET BUS GAIN. -/
def Hub.setBusGain (h : Hub) (bus : Byte) (target ramp : BitVec 16) : Hub × Reply :=
  match below 16 bus with
  | some k => (h.modBus k fun b => { b with master := b.master.head target ramp }, .done (gainData target ramp))
  | none => h.refuse .badArg

/-- SET BUS GAIN at its taking. -/
def cmdSetBusGain (c : Caller) (bus : Byte) (target ramp : BitVec 16) : Hub → Hub :=
  serve c 0x42 (some .mix) none fun h => h.setBusGain bus target ramp

/-- SET BUS GAIN (R74). -/
def execSetBusGain (c : Caller) (bus : Byte) (target ramp : BitVec 16) (s : State) :
    Host.Outcome State Fault Refusal :=
  s.run (cmdSetBusGain c bus target ramp)

/-- R80: SET METER. -/
def Hub.setMeter (h : Hub) (bus : Byte) (threshold : Word) (frames : Byte) : Hub × Reply :=
  match below 16 bus with
  | some k =>
    let t := min 8388607 threshold.toNat
    let n := clamp 1 250 frames.toNat
    (h.modBus k fun b => { b with threshold := t, silenceFrames := n }, .done (le 4 t ++ le 1 n))
  | none => h.refuse .badArg

/-- SET METER at its taking. -/
def cmdSetMeter (c : Caller) (bus : Byte) (threshold : Word) (frames : Byte) : Hub → Hub :=
  serve c 0x43 (some .mix) none fun h => h.setMeter bus threshold frames

/-- SET METER (R80). -/
def execSetMeter (c : Caller) (bus : Byte) (threshold : Word) (frames : Byte) (s : State) :
    Host.Outcome State Fault Refusal :=
  s.run (cmdSetMeter c bus threshold frames)

/-- R85: MIXER RESET. -/
def Hub.mixerReset (h : Hub) : Hub × Reply := ({ h with mixer := h.mixer.quiet }).ok

/-- MIXER RESET at its taking. -/
def cmdMixerReset (c : Caller) : Hub → Hub := serve c 0x44 (some .mix) none Hub.mixerReset

/-- MIXER RESET (R85). -/
def execMixerReset (c : Caller) (s : State) : Host.Outcome State Fault Refusal := s.run (cmdMixerReset c)

/-- The three fields of a gain record (Table 29). -/
def Gain.report (g : Gain) : Bytes := le 2 g.g ++ le 2 g.target ++ le 2 g.r

/-- R86: what READ CHANNEL returns. -/
def Channel.report (x : Channel) : Bytes :=
  le 2 x.delay ++ optField 2 (le 2) x.pendingDelay ++ optField 1 (le 1) x.muteEnd ++ flagByte x.inverted
    ++ flagByte x.valid ++ word4 x.invalid ++ tableField Gain.report x.gains

/-- R86: READ CHANNEL. -/
def Hub.readChannel (h : Hub) (channel : Byte) : Hub × Reply :=
  match below 64 channel with
  | none => h.refuse .badArg
  | some c => (h, .done (h.mixer.channels[c]).report)

/-- READ CHANNEL at its taking. -/
def cmdReadChannel (c : Caller) (channel : Byte) : Hub → Hub :=
  serve c 0x45 (some .mix) none fun h => h.readChannel channel

/-- READ CHANNEL (R86). -/
def execReadChannel (c : Caller) (channel : Byte) (s : State) : Host.Outcome State Fault Refusal :=
  s.run (cmdReadChannel c channel)

/-- R86: the bus fields that READ BUS returns: master gain, meter record, input-error mark. -/
def Bus.report (b : Bus) : Bytes :=
  b.master.report ++ le 4 b.peak ++ le 2 b.overloads ++ le 4 b.lastPeak ++ le 2 b.lastOverloads ++ le 4 b.threshold
    ++ le 1 b.silenceFrames ++ le 2 b.run ++ flagByte b.silent ++ word4 b.overloadFrames ++ flagByte b.inputError

/-- R86: the pack fields that READ BUS returns; IDLE carries no frame serial (R196). -/
def Pack.report (p : Pack) : Bytes :=
  le 1 (packStateCode p.state) ++ optField 4 word4 (if p.state = .idle then none else some p.serial) ++ word4 p.offered
    ++ word4 p.voided

/-- The sound stream that carries a bus. -/
def packOf (k : Fin 16) : Fin 8 := ⟨k.val / 2, by omega⟩

/-- R86: READ BUS. -/
def Hub.readBus (h : Hub) (bus : Byte) : Hub × Reply :=
  match below 16 bus with
  | none => h.refuse .badArg
  | some k => (h, .done ((h.mixer.buses[k]).report ++ (h.mixer.packs[packOf k]).report))

/-- READ BUS at its taking. -/
def cmdReadBus (c : Caller) (bus : Byte) : Hub → Hub := serve c 0x46 (some .mix) none fun h => h.readBus bus

/-- READ BUS (R86). -/
def execReadBus (c : Caller) (bus : Byte) (s : State) : Host.Outcome State Fault Refusal := s.run (cmdReadBus c bus)

end Sys2Proof.Machine
end

