-- ==== Sys2Proof/Machine/Paths.lean ====
section
/-! DEFINITION. Meanings of the Path Controller family: the path parts of a tick (R91, R94, R109), the back channel (R94,
R96), take-up, placement and transmission (R101, R104, R105), and the commands of class LINK (R93, R95, R97 to R99, R107,
R108, R110). -/

namespace Sys2Proof.Machine

/-! ### Parts of the coming tick -/

/-- R91: the pause timeout of path p at the coming tick, after the sampling of its lines. -/
def Hub.pauseTimeout (p : Fin 8) (h : Hub) : Hub :=
  let g := h.samplePath p
  let x := g.paths.path[p]
  if x.pausing h.tb.frame.serial ∧ ¬ x.breaks ∧ x.pauseLimit ≤ x.pauseCount + 1 then
    Hub.evaluatePath p (g.modPath p fun y => y.countPause h.tb.frame.serial)
  else h

/-- The pause timeout (R91). -/
def execPauseTimeout (e : Env) (p : Fin 8) (s : State) : Host.Outcome State Fault Refusal :=
  s.run fun h => (h.arrive e).atTick (Hub.pauseTimeout p)

/-- R94: the break that the coming tick finds on path p, after the sampling of its lines. -/
def Hub.backChannelBreak (p : Fin 8) (h : Hub) : Hub :=
  if (h.paths.path[p]).breaks then Hub.evaluatePath p ((h.samplePath p).modPath p Path.takeBreak) else h

/-- A break of the back channel (R94). -/
def execBackChannelBreak (e : Env) (p : Fin 8) (s : State) : Host.Outcome State Fault Refusal :=
  s.run fun h => (h.arrive e).atTick (Hub.backChannelBreak p)

/-- R109: the release that falls due at the coming tick. -/
def Hub.releaseDue (p : Fin 8) (h : Hub) : Hub :=
  let x := h.paths.path[p]
  if x.hold ∧ x.releaseDue ∧ 3 ≤ x.resetCount then
    Hub.evaluatePath p ((h.samplePath p).modPath p fun y => y.countReset.dueRelease)
  else h

/-- A release that is due (R109). -/
def execReleaseDue (e : Env) (p : Fin 8) (s : State) : Host.Outcome State Fault Refusal :=
  s.run fun h => (h.arrive e).atTick (Hub.releaseDue p)

/-! ### The back channel -/

/-- R94: a framing error on the back channel of path p. -/
def Hub.framingError (p : Fin 8) (h : Hub) : Hub :=
  let h := h.modPath p fun x => { x with counts := { x.counts with framing := x.counts.framing + 1 } }
  if (h.paths.path[p]).carrying then Hub.evaluatePath p (h.modPath p fun x => { x with loss := true }) else h

/-- A framing error on the back channel (R94). -/
def execFramingError (e : Env) (p : Fin 8) (s : State) : Host.Outcome State Fault Refusal :=
  s.run fun h => Hub.framingError p (h.arrive e)

/-- An idle fill word arrives (R94). -/
def execIdleFill (e : Env) (p : Fin 8) (s : State) : Host.Outcome State Fault Refusal :=
  s.run fun h => (h.arrive e).modPath p fun x => { x with heard := true }

/-- Section 11.5: bytes 0 to 7 of a receipt report. -/
def reportFields (unused : BitVec 24) (count : Word) : Bytes := [1] ++ le 3 unused.toNat ++ word4 count

/-- R96: a report whose check is right, on a path that is UP or PAUSED. -/
def Hub.takeReport (p : Fin 8) (count : Word) (h : Hub) : Hub :=
  let h := h.modPath p fun x => { x with counts := { x.counts with reports := x.counts.reports + 1 } }
  match (h.paths.path[p]).baseline with
  | none => h.modPath p fun x => { x with baseline := some count }
  | some b =>
    let n := (count - b).toNat
    if 2147483648 < n then h.modPath p fun x => { x with counts := { x.counts with stale := x.counts.stale + 1 } }
    else (h.modPath p fun x => { x with baseline := some count }).increment p n

/-- R94, R96: a receipt report arrives on path p. -/
def Hub.receiptReport (p : Fin 8) (unused : BitVec 24) (count check : Word) (h : Hub) : Hub :=
  let h := h.modPath p fun x => { x with heard := true }
  if (h.paths.path[p]).carrying then
    if crc32 (reportFields unused count) = check then Hub.takeReport p count h
    else h.modPath p fun x => { x with counts := { x.counts with bad := x.counts.bad + 1 } }
  else h

/-- A receipt report arrives (R96). -/
def execReceiptReport (e : Env) (p : Fin 8) (unused : BitVec 24) (count check : Word) (s : State) :
    Host.Outcome State Fault Refusal :=
  s.run fun h => Hub.receiptReport p unused count check (h.arrive e)

/-! ### Sending -/

/-- A ring takes a unit up (R101). -/
def execUnitTakeUp (e : Env) (r : Fin 17) (s : State) : Host.Outcome State Fault Refusal :=
  s.run fun h => Hub.takeUp r ((h.ring r).index.length + 1) (h.arrive e)

/-- R103, R105: whether path p takes another packet. -/
def Path.hasRoom (x : Path) : Bool := x.state == .up && decide (x.fifo.length < 64)

/-- R105: one placement by the arbiter of path p, the rings first taking units up. -/
def Hub.fragmentPlacement (p : Fin 8) (h : Hub) : Hub :=
  if (h.paths.path[p]).hasRoom then (h.forEach 17 Hub.prepare).arbitrate p else h

/-- A fragment is placed on a path (R105). -/
def execFragmentPlacement (e : Env) (p : Fin 8) (s : State) : Host.Outcome State Fault Refusal :=
  s.run fun h => Hub.fragmentPlacement p (h.arrive e)

/-- R104: the packet being transmitted leaves, and the next one begins while the path is UP. -/
def Path.endTransmission (x : Path) : Path :=
  if x.transmitting then
    ({ x with
       fifo := x.fifo.drop 1
       transmitting := false
       counts := { x.counts with
         sent := x.counts.sent + 1
         bytes := x.counts.bytes + BitVec.ofNat 32 (x.fifo.headD []).length } }).startTransmission
  else x

/-- A packet's transmission ends (R104). -/
def execTransmissionEnd (e : Env) (p : Fin 8) (s : State) : Host.Outcome State Fault Refusal :=
  s.run fun h => (h.arrive e).modPath p Path.endTransmission

/-! ### Commands of class LINK -/

/-- R93: the three settings of a path in a record. -/
def Path.settings (x : Path) : Bytes := flagByte x.enabled ++ le 1 x.pauseLimit ++ le 2 x.lineRate

/-- R93: SET PATH. -/
def Hub.setPath (h : Hub) (path : Byte) (enabled : Bool) (pauseLimit : Byte) (lineRate : BitVec 16) : Hub × Reply :=
  match below 8 path with
  | none => h.refuse .badArg
  | some p =>
    let h := h.modPath p fun x =>
      { x with enabled := enabled, pauseLimit := clamp 1 250 pauseLimit.toNat, lineRate := clamp 1 1000 lineRate.toNat }
    (Hub.evaluatePath p h, .done (h.paths.path[p]).settings)

/-- SET PATH at its taking. -/
def cmdSetPath (c : Caller) (path : Byte) (enabled : Bool) (pauseLimit : Byte) (lineRate : BitVec 16) : Hub → Hub :=
  serve c 0x50 (some .link) none fun h => h.setPath path enabled pauseLimit lineRate

/-- SET PATH (R93). -/
def execSetPath (c : Caller) (path : Byte) (enabled : Bool) (pauseLimit : Byte) (lineRate : BitVec 16) (s : State) :
    Host.Outcome State Fault Refusal :=
  s.run (cmdSetPath c path enabled pauseLimit lineRate)

/-- R95: the latches that a selector clears: loss, then change. -/
def latchesOf (selector : Byte) : Option (Bool × Bool) :=
  [(true, false), (false, true), (true, true)][selector.toNat]?

/-- R95: CLEAR LOSS. -/
def Hub.clearLoss (h : Hub) (path selector : Byte) : Hub × Reply :=
  match below 8 path, latchesOf selector with
  | some p, some z =>
    (Hub.evaluatePath p
      (h.modPath p fun x => { x with loss := x.loss && !z.1, change := x.change && !z.2 })).ok
  | _, _ => h.refuse .badArg

/-- CLEAR LOSS at its taking. -/
def cmdClearLoss (c : Caller) (path selector : Byte) : Hub → Hub :=
  serve c 0x51 (some .link) none fun h => h.clearLoss path selector

/-- CLEAR LOSS (R95). -/
def execClearLoss (c : Caller) (path selector : Byte) (s : State) : Host.Outcome State Fault Refusal :=
  s.run (cmdClearLoss c path selector)

/-- SET SPREAD at its taking (R97). -/
def cmdSetSpread (c : Caller) (mask : Byte) : Hub → Hub :=
  serve c 0x52 (some .link) none fun h => ({ h with paths := { h.paths with spread := mask } }).ok

/-- SET SPREAD (R97). -/
def execSetSpread (c : Caller) (mask : Byte) (s : State) : Host.Outcome State Fault Refusal := s.run (cmdSetSpread c mask)

/-- R98: ADD DIRECTED. -/
def Hub.addDirected (h : Hub) (stream mask : Byte) : Hub × Reply :=
  match below 16 stream with
  | none => h.refuse .badArg
  | some k =>
    if h.paths.directed.any fun e => e.1 == k then h.refuse .conflict
    else if 8 ≤ h.paths.directed.length then h.refuse .full
    else ({ h with paths := { h.paths with directed := h.paths.directed ++ [(k, mask)] } }).ok

/-- ADD DIRECTED at its taking. -/
def cmdAddDirected (c : Caller) (stream mask : Byte) : Hub → Hub :=
  serve c 0x53 (some .link) (some stream) fun h => h.addDirected stream mask

/-- ADD DIRECTED (R98). -/
def execAddDirected (c : Caller) (stream mask : Byte) (s : State) : Host.Outcome State Fault Refusal :=
  s.run (cmdAddDirected c stream mask)

/-- R98: REMOVE DIRECTED. -/
def Hub.removeDirected (h : Hub) (stream : Byte) : Hub × Reply :=
  match below 16 stream with
  | none => h.refuse .badArg
  | some k =>
    ({ h with paths := { h.paths with directed := h.paths.directed.filter fun e => e.1 != k } }).ok

/-- REMOVE DIRECTED at its taking. -/
def cmdRemoveDirected (c : Caller) (stream : Byte) : Hub → Hub :=
  serve c 0x54 (some .link) (some stream) fun h => h.removeDirected stream

/-- REMOVE DIRECTED (R98). -/
def execRemoveDirected (c : Caller) (stream : Byte) (s : State) : Host.Outcome State Fault Refusal :=
  s.run (cmdRemoveDirected c stream)

/-- R99: whether a path is OFF or RESET. -/
def Path.idle (x : Path) : Bool := x.state == .off || x.state == .reset

/-- R99: SET BOND. -/
def Hub.setBond (h : Hub) (pair : Byte) (bonded : Bool) : Hub × Reply :=
  match below 4 pair with
  | none => h.refuse .badArg
  | some j =>
    if (List.finRange 8).any fun p => pairOf p == j && !(h.paths.path[p]).idle then h.refuse .conflict
    else (h.modBond j fun b => { b with setting := bonded }).ok

/-- SET BOND at its taking. -/
def cmdSetBond (c : Caller) (pair : Byte) (bonded : Bool) : Hub → Hub :=
  serve c 0x55 (some .link) none fun h => h.setBond pair bonded

/-- SET BOND (R99). -/
def execSetBond (c : Caller) (pair : Byte) (bonded : Bool) (s : State) : Host.Outcome State Fault Refusal :=
  s.run (cmdSetBond c pair bonded)

/-- R107: PATH RESET from port q. -/
def Hub.pathReset (h : Hub) (q : Fin 4) (path : Byte) : Hub × Reply :=
  match below 8 path with
  | none => h.refuse .badArg
  | some p =>
    if (h.paths.path[p]).state = .reset then h.refuse .conflict
    else
      (Hub.evaluatePath p
        (h.modPath p fun x =>
          { x with hold := true, holder := some q, resetCount := 0, releaseDue := false, loss := false })).ok

/-- PATH RESET at its taking. -/
def cmdPathReset (c : Caller) (path : Byte) : Hub → Hub :=
  serve c 0x56 (some .link) none fun h => h.pathReset c.port path

/-- PATH RESET (R107). -/
def execPathReset (c : Caller) (path : Byte) (s : State) : Host.Outcome State Fault Refusal := s.run (cmdPathReset c path)

/-- R108: PATH RELEASE. -/
def Hub.pathRelease (h : Hub) (path : Byte) : Hub × Reply :=
  match below 8 path with
  | none => h.refuse .badArg
  | some p =>
    if (h.paths.path[p]).state ≠ .reset ∨ (h.paths.path[p]).resetCount < 4 then h.refuse .conflict
    else (Hub.evaluatePath p (h.modPath p Path.release)).ok

/-- PATH RELEASE at its taking. -/
def cmdPathRelease (c : Caller) (path : Byte) : Hub → Hub :=
  serve c 0x57 (some .link) none fun h => h.pathRelease path

/-- PATH RELEASE (R108). -/
def execPathRelease (c : Caller) (path : Byte) (s : State) : Host.Outcome State Fault Refusal :=
  s.run (cmdPathRelease c path)

/-- Four status lines as four flags, 1 for high (log entry 45). -/
def linesData (l : BitVec 4) : Bytes :=
  flagByte (readyOf l) ++ flagByte (carrierOf l) ++ flagByte (linkOkOf l) ++ flagByte (alertOf l)

/-- The nine counters of a path, in the order of Table 37. -/
def PathCounts.report (n : PathCounts) : Bytes :=
  word4 n.placed ++ word4 n.sent ++ word4 n.bytes ++ word4 n.lostInFlight ++ word4 n.framing ++ word4 n.breaks
    ++ word4 n.reports ++ word4 n.stale ++ word4 n.bad

/-- R110: what READ PATH returns. -/
def Path.report (x : Path) : Bytes :=
  x.settings ++ le 1 (pathStateCode x.state) ++ le 1 (downReasonCode x.reason) ++ linesData x.lines ++ flagByte x.change
    ++ flagByte x.loss ++ le 1 x.pauseCount ++ flagByte x.timeoutMark ++ optPort x.holder ++ le 1 x.resetCount
    ++ flagByte x.releaseDue ++ le 1 x.fifo.length ++ word4 x.seq ++ optField 4 word4 x.baseline ++ x.counts.report

/-- R110: READ PATH. -/
def Hub.readPath (h : Hub) (path : Byte) : Hub × Reply :=
  match below 8 path with
  | none => h.refuse .badArg
  | some p => (h, .done (h.paths.path[p]).report)

/-- READ PATH at its taking. -/
def cmdReadPath (c : Caller) (path : Byte) : Hub → Hub := serve c 0x58 (some .link) none fun h => h.readPath path

/-- READ PATH (R110). -/
def execReadPath (c : Caller) (path : Byte) (s : State) : Host.Outcome State Fault Refusal := s.run (cmdReadPath c path)

/-- R110: what READ SPREAD returns. -/
def Paths.spreadReport (x : Paths) : Bytes :=
  le 1 x.spread.toNat ++ listField 1 (fun e : Fin 16 × BitVec 8 => le 1 e.1.val ++ le 1 e.2.toNat) x.directed
    ++ tableField (fun b : Bond => flagByte b.setting ++ flagByte b.inForce ++ flagByte b.odd) x.bonds

/-- READ SPREAD at its taking. -/
def cmdReadSpread (c : Caller) : Hub → Hub :=
  serve c 0x59 (some .link) none fun h => (h, .done h.paths.spreadReport)

/-- READ SPREAD (R110). -/
def execReadSpread (c : Caller) (s : State) : Host.Outcome State Fault Refusal := s.run (cmdReadSpread c)

/-- R110: a unit in a send context: stream, unit number, G-number, fragment count and next fragment. -/
def Taken.report (t : Taken) : Bytes :=
  le 1 t.stream.val ++ word4 t.unit ++ optField 4 word4 t.g ++ le 2 t.fragments ++ le 2 t.next

/-- A deficit in 4 bytes; a free word where it does not fit them (log entry 61). -/
def deficitField (n : Nat) : Bytes := word4 (if n < 4294967296 then BitVec.ofNat 32 n else Config.wideDeficit n)

/-- R110: what READ SEND returns for ring r.  Section 5.5 gives a deficit to class-1 rings alone; for rings 4 to 12 the
eight deficit fields are there all the same and read 0.  DESIGN CHOICE, unsafe (log entry 62). -/
def Hub.sendReport (h : Hub) (r : Fin 17) : Bytes :=
  let c := h.paths.sends[r]
  optField 14 Taken.report c.taken ++ flagByte (h.backlogged r) ++ word4 c.sent ++ word4 c.passedDamaged
    ++ ((List.finRange 8).flatMap fun p => deficitField (h.deficit p r))
    ++ ((List.finRange 8).flatMap fun p =>
         le 1 (h.paths.arbiters[p]).last0.val
           ++ optField 1 (fun q : Fin 17 => le 1 q.val) (h.paths.arbiters[p]).cur1)

/-- R110: READ SEND. -/
def Hub.readSend (h : Hub) (ring : Byte) : Hub × Reply :=
  match below 17 ring with
  | none => h.refuse .badArg
  | some r => (h, .done (h.sendReport r))

/-- READ SEND at its taking. -/
def cmdReadSend (c : Caller) (ring : Byte) : Hub → Hub := serve c 0x5A (some .link) none fun h => h.readSend ring

/-- READ SEND (R110). -/
def execReadSend (c : Caller) (ring : Byte) (s : State) : Host.Outcome State Fault Refusal := s.run (cmdReadSend c ring)

end Sys2Proof.Machine
end

