-- ==== Sys2Proof/Machine/Gauge.lean ====
section
/-! DEFINITION. Meanings of the Gauge and Budget family: ends of steps and gauges (R115, R116, R120, R121) and the commands
of class GAUGE (R113, R119, R123, R124, R131). -/

namespace Sys2Proof.Machine

/-! ### Ends -/

/-- R115: step 1 of path p ends at the coming tick. -/
def Hub.step1End (p : Fin 8) (h : Hub) : Hub :=
  if (h.gauges.path[p]).phase = .step1 ∧ (h.gauges.path[p]).remaining ≤ 1 then Hub.endStep1 p h else h

/-- Step 1 of a cycle ends (R115). -/
def execStep1End (e : Env) (p : Fin 8) (s : State) : Host.Outcome State Fault Refusal :=
  s.run fun h => (h.arrive e).atTick (Hub.step1End p)

/-- R116: the step 2 cycle count of path p reaches 4g. -/
def Hub.step2Expiry (p : Fin 8) (h : Hub) : Hub :=
  let x := h.gauges.path[p]
  if x.phase = .step2 then ({ h with now := max h.now (x.from2 + 4 * x.g) }).endStep2 p (4 * x.g) else h

/-- The step 2 cycle count expires (R116). -/
def execStep2Expiry (e : Env) (p : Fin 8) (s : State) : Host.Outcome State Fault Refusal :=
  s.run fun h => Hub.step2Expiry p (h.arrive e)

/-- R120: the coming tick completes the gate of a TIME gauge. -/
def Hub.timeGaugeEnd (p : Fin 8) (h : Hub) : Hub :=
  if (h.gauges.path[p]).timeDue then h.endManual p (h.gauges.path[p]).timeResult else h

/-- A TIME gauge ends (R120). -/
def execTimeGaugeEnd (e : Env) (p : Fin 8) (s : State) : Host.Outcome State Fault Refusal :=
  s.run fun h => (h.arrive e).atTick (Hub.timeGaugeEnd p)

/-- R121: the cycle count of a VOLUME gauge reaches its largest value. -/
def Hub.volumeExpiry (p : Fin 8) (h : Hub) : Hub :=
  let x := h.gauges.path[p]
  if x.manual = .running ∧ x.volume then ({ h with now := max h.now (x.manualFrom + allOnes) }).endManual p allOnes else h

/-- A VOLUME gauge expires (R121). -/
def execVolumeGaugeExpiry (e : Env) (p : Fin 8) (s : State) : Host.Outcome State Fault Refusal :=
  s.run fun h => Hub.volumeExpiry p (h.arrive e)

/-! ### Commands of class GAUGE -/

/-- R113: every running cycle is abandoned when the auto flag goes off. -/
def Hub.abandonCycles (h : Hub) : Hub :=
  h.forEach 8 fun p h => h.modGauge p fun x => x.abortCycle h.now

/-- R113: SET GAUGE. -/
def Hub.setGauge (h : Hub) (auto : Bool) (window : Byte) : Hub × Reply :=
  let w := clamp 1 250 window.toNat
  let was := h.gauges.auto
  let h := { h with gauges := { h.gauges with auto := auto, window := w } }
  let h :=
    if auto ∧ ¬ was then h.forEach 8 Hub.abortManual
    else if was ∧ ¬ auto then h.abandonCycles
    else h
  (h, .done (flagByte auto ++ le 1 w))

/-- SET GAUGE at its taking. -/
def cmdSetGauge (c : Caller) (auto : Bool) (window : Byte) : Hub → Hub :=
  serve c 0x60 (some .gauge) none fun h => h.setGauge auto window

/-- SET GAUGE (R113). -/
def execSetGauge (c : Caller) (auto : Bool) (window : Byte) (s : State) : Host.Outcome State Fault Refusal :=
  s.run (cmdSetGauge c auto window)

/-- R119: the gate of a manual gauge, none when it is refused. -/
def gateOf (volume : Bool) (gate : Word) : Option Nat :=
  if volume then (if gate = 0 ∨ 2147483648 < gate.toNat then none else some gate.toNat) else some (clamp 1 250 gate.toNat)

/-- R119: an accepted START GAUGE on a path's gauge at a moment. -/
def Gauge.start (x : Gauge) (volume : Bool) (gate now : Nat) : Gauge :=
  if volume then
    { x with result := none, volume := true, gate := gate, manual := .running, manualSum := 0, manualCount := 0,
             manualFrom := now }
  else { x with result := none, volume := false, gate := gate, manual := .waiting }

/-- R119: START GAUGE. -/
def Hub.startGauge (h : Hub) (path mode : Byte) (gate : Word) : Hub × Reply :=
  match below 8 path, twoWay mode with
  | some p, some volume =>
    match gateOf volume gate with
    | none => h.refuse .badArg
    | some n =>
      if h.gauges.auto ∨ ¬ (h.paths.path[p]).carrying ∨ (h.gauges.path[p]).manual ≠ .idle then h.refuse .conflict
      else (h.modGauge p fun x => x.start volume n h.now, .plain .started)
  | _, _ => h.refuse .badArg

/-- START GAUGE at its taking. -/
def cmdStartGauge (c : Caller) (path mode : Byte) (gate : Word) : Hub → Hub :=
  serve c 0x61 (some .gauge) none fun h => h.startGauge path mode gate

/-- START GAUGE (R119). -/
def execStartGauge (c : Caller) (path mode : Byte) (gate : Word) (s : State) : Host.Outcome State Fault Refusal :=
  s.run (cmdStartGauge c path mode gate)

/-- R123: a field that a path in RESET shows as all ones. -/
def veil (reset : Bool) (n : Nat) : Nat := if reset then allOnes else n

/-- R123: the gauge state of a path as READ GAUGE returns it; `reset` while the path is in RESET.  The manual sum, which has no
stated range, is 8 bytes (log entry 45). -/
def Gauge.report (x : Gauge) (reset : Bool) (now : Nat) : Bytes :=
  le 1 (autoPhaseCode x.phase) ++ le 4 x.g ++ le 1 x.remaining ++ le 8 x.sum ++ le 8 x.v0 ++ le 4 (x.step2Count now)
    ++ le 8 (if reset then allOnes else x.lastV0) ++ le 4 (veil reset x.lastT1) ++ le 4 (veil reset x.c)
    ++ le 2 (if reset then 65535 else x.s) ++ le 4 (veil reset x.e) ++ word4 x.completed ++ word4 x.aborted
    ++ le 1 (manualStateCode x.manual) ++ flagByte x.volume ++ le 4 x.gate ++ le 8 x.manualSum
    ++ le 4 (x.manualCycles now)
    ++ optField 5 (fun r : Bool × Word => le 4 (veil reset r.2.toNat) ++ flagByte r.1) x.result

/-- R123: READ GAUGE. -/
def Hub.readGauge (h : Hub) (path : Byte) : Hub × Reply :=
  match below 8 path with
  | none => h.refuse .badArg
  | some p =>
    (h, .done (flagByte h.gauges.auto ++ le 1 h.gauges.window
      ++ (h.gauges.path[p]).report ((h.paths.path[p]).state == .reset) h.now))

/-- READ GAUGE at its taking. -/
def cmdReadGauge (c : Caller) (path : Byte) : Hub → Hub := serve c 0x62 (some .gauge) none fun h => h.readGauge path

/-- READ GAUGE (R123). -/
def execReadGauge (c : Caller) (path : Byte) (s : State) : Host.Outcome State Fault Refusal := s.run (cmdReadGauge c path)

/-- The six values of SET BUDGET after the capacity source, as carried. -/
structure BudgetArgs where
  fixed : BitVec 64
  headroom : BitVec 16
  res12 : Word
  res13 : Word
  res14 : Word
  res15 : Word

/-- R124: a reserve clamped. -/
def clampReserve (x : Word) : Nat := min 10000000 x.toNat

/-- R124: the settings written. -/
def Budget.write (b : Budget) (fixedSource : Bool) (a : BudgetArgs) : Budget :=
  { b with
    fixedSource := fixedSource
    fixedCapacity := min 8000000000 a.fixed.toNat
    headroom := min 500 a.headroom.toNat
    reserves := #v[clampReserve a.res12, clampReserve a.res13, clampReserve a.res14, clampReserve a.res15] }

/-- The seven settings of the budget in a record. -/
def Budget.settings (b : Budget) : Bytes :=
  flagByte b.fixedSource ++ le 8 b.fixedCapacity ++ le 2 b.headroom ++ tableField (le 4) b.reserves

/-- R124: SET BUDGET. -/
def Hub.setBudget (h : Hub) (source : Byte) (a : BudgetArgs) : Hub × Reply :=
  match twoWay source with
  | none => h.refuse .badArg
  | some fixed =>
    let b := h.budget.write fixed a
    (({ h with budget := b }).recompute, .done b.settings)

/-- SET BUDGET at its taking. -/
def cmdSetBudget (c : Caller) (source : Byte) (a : BudgetArgs) : Hub → Hub :=
  serve c 0x63 (some .gauge) none fun h => h.setBudget source a

/-- SET BUDGET (R124). -/
def execSetBudget (c : Caller) (source : Byte) (fixed : BitVec 64) (headroom : BitVec 16) (res12 res13 res14 res15 : Word)
    (s : State) : Host.Outcome State Fault Refusal :=
  s.run (cmdSetBudget c source
    { fixed := fixed, headroom := headroom, res12 := res12, res13 := res13, res14 := res14, res15 := res15 })

/-- R131: the part of the record that belongs to a picture stream.  The share, which has no stated range, is 8 bytes (log entry
45). -/
def PictureBudget.report (x : PictureBudget) : Bytes :=
  le 4 x.assigned ++ flagByte x.counted ++ optField 8 (le 8) x.share ++ flagByte x.starved

/-- R131: what READ BUDGET returns.  K_bits, U, U', the three totals and P, which have no stated range, are 8 bytes each (log
entry 45). -/
def Budget.report (b : Budget) : Bytes :=
  b.settings ++ le 8 b.kBits ++ le 8 b.u ++ le 8 b.u' ++ le 8 b.soundReserve ++ le 8 b.otherReserve ++ le 8 b.fixedTotal
    ++ le 8 b.pool ++ flagByte b.overdrawn ++ tableField PictureBudget.report b.pictures ++ word4 b.recomputations

/-- READ BUDGET at its taking. -/
def cmdReadBudget (c : Caller) : Hub → Hub := serve c 0x64 (some .gauge) none fun h => (h, .done h.budget.report)

/-- READ BUDGET (R131). -/
def execReadBudget (c : Caller) (s : State) : Host.Outcome State Fault Refusal := s.run (cmdReadBudget c)

end Sys2Proof.Machine
end

