-- ==== Sys2Proof/Machine/ClipLog.lean ====
section
/-! DEFINITION. Meanings of the Clip Log family: the span limit (R141), the supply warning (R152), and the commands of class
LOG (R135, R138, R143, R147 to R149, R154, R155). -/

namespace Sys2Proof.Machine

/-! ### Events -/

/-- The span limit closes a clip at the coming tick (R141). -/
def execLimitClose (e : Env) (clip : Word) (s : State) : Host.Outcome State Fault Refusal :=
  s.run fun h => (h.arrive e).atTick fun h => h.closeClips (fun c => c.number == clip && c.limitDue) .limit

/-- R152: SUPW is asserted; SUPPLY_WARN is given after what the clips give (log entry 63). -/
def Hub.supplyAssert (h : Hub) : Hub :=
  if h.log.supply then h
  else
    let h := h.closeClips (fun _ => true) .supply
    (h.modLog fun l =>
      { l with supply := true, triggers := Vector.ofFn fun t => { l.triggers[t] with state := .disarmed } }).notify
      .supplyWarn 1

/-- SUPW is asserted (R152). -/
def execSupplyWarningAssert (e : Env) (s : State) : Host.Outcome State Fault Refusal :=
  s.run fun h => (h.arrive e).supplyAssert

/-- R152: SUPW is deasserted. -/
def Hub.supplyDeassert (h : Hub) : Hub :=
  if h.log.supply then (h.modLog fun l => { l with supply := false }).notify .supplyWarn 0 else h

/-- SUPW is deasserted (R152). -/
def execSupplyWarningDeassert (e : Env) (s : State) : Host.Outcome State Fault Refusal :=
  s.run fun h => (h.arrive e).supplyDeassert

/-! ### Clips -/

/-- R135: the name of a clip, none when it is longer than 64 bytes; empty when none is given. -/
def nameOf : Option TextArg → Option Bytes
  | none => some []
  | some t => t.text

/-- R135: OPEN CLIP from port p. -/
def Hub.openClip (h : Hub) (p : Fin 4) (mask : BitVec 16) (name : Option TextArg) : Hub × Reply :=
  match nameOf name with
  | none => h.refuse .badArg
  | some text =>
    if mask = 0 then h.refuse .badArg
    else if ¬ h.hasStreams p mask then h.refuse .denied
    else if ¬ h.log.canOpen then h.refuse .full
    else (h.addClip (.port p) mask text, .done (le 4 h.log.nextClip ++ word4 (h.tb.frame.serial + 1)))

/-- OPEN CLIP at its taking. -/
def cmdOpenClip (c : Caller) (mask : BitVec 16) (name : Option TextArg) : Hub → Hub :=
  serve c 0x70 (some .log) none fun h => h.openClip c.port mask name

/-- OPEN CLIP (R135). -/
def execOpenClip (c : Caller) (mask : BitVec 16) (name : Option TextArg) (s : State) :
    Host.Outcome State Fault Refusal :=
  s.run (cmdOpenClip c mask name)

/-- R138, R143, R148, R155: the descriptor of a clip number, or the refusal that the number draws. -/
def ClipLog.named (l : ClipLog) (clip : Word) : Except Answer Clip :=
  if clip = 0 ∨ l.nextClip ≤ clip.toNat then .error .badArg
  else
    match l.find clip with
    | none => .error .gone
    | some c => .ok c

/-- R138: whether a clip's owner is a port other than p. -/
def Clip.ownedByOther (c : Clip) (p : Fin 4) : Bool :=
  match c.owner with
  | .port q => decide (q ≠ p)
  | .trigger _ => false
  | .none => false

/-- R138: CLOSE CLIP from port p. -/
def Hub.closeClip (h : Hub) (p : Fin 4) (clip : Word) : Hub × Reply :=
  match h.log.named clip with
  | .error o => h.refuse o
  | .ok c =>
    if c.ownedByOther p then h.refuse .denied
    else if c.state ≠ .opened then h.refuse .conflict
    else (h.closeClips (fun x => x.number == clip) .portClose, .plain .started)

/-- CLOSE CLIP at its taking. -/
def cmdCloseClip (c : Caller) (clip : Word) : Hub → Hub :=
  serve c 0x71 (some .log) none fun h => h.closeClip c.port clip

/-- CLOSE CLIP (R138). -/
def execCloseClip (c : Caller) (clip : Word) (s : State) : Host.Outcome State Fault Refusal := s.run (cmdCloseClip c clip)

/-- R143: RELEASE CLIP from port p. -/
def Hub.releaseClip (h : Hub) (p : Fin 4) (clip : Word) : Hub × Reply :=
  match h.log.named clip with
  | .error o => h.refuse o
  | .ok c =>
    if ¬ h.hasStreams p c.mask then h.refuse .denied
    else if c.active then h.refuse .conflict
    else (h.modLog fun l => { l with clips := l.clips.filter fun x => x.number != clip }).ok

/-- RELEASE CLIP at its taking. -/
def cmdReleaseClip (c : Caller) (clip : Word) : Hub → Hub :=
  serve c 0x72 (some .log) none fun h => h.releaseClip c.port clip

/-- RELEASE CLIP (R143). -/
def execReleaseClip (c : Caller) (clip : Word) (s : State) : Host.Outcome State Fault Refusal :=
  s.run (cmdReleaseClip c clip)

/-! ### Labels -/

/-- R148: NOTE or NAME. -/
def portKindOf (b : Byte) : Option LabelKind := if b = 0 then some .note else if b = 1 then some .name else none

/-- R148: the refusal that the clip named by an ADD LABEL draws, if any. -/
def Hub.labelRefusal (h : Hub) (p : Fin 4) : Option Word → Option Answer
  | none => none
  | some clip =>
    match h.log.named clip with
    | .error o => some o
    | .ok c => if ¬ h.hasStreams p c.mask then some .denied else if c.state = .lapsed then some .conflict else none

/-- R148: a NAME label sets the name of the clip it names. -/
def Hub.rename (h : Hub) (kind : LabelKind) (clip : Option Word) (text : Bytes) : Hub :=
  match kind, clip with
  | .name, some n => h.modClip n fun c => { c with name := text }
  | _, _ => h

/-- R148: ADD LABEL from port p. -/
def Hub.addLabel (h : Hub) (p : Fin 4) (kind : Byte) (value : Option Word) (text : TextArg) (clip : Option Word) :
    Hub × Reply :=
  match portKindOf kind, text.text with
  | some k, some bytes =>
    match h.labelRefusal p clip with
    | some o => h.refuse o
    | none =>
      let r := (h.rename k clip bytes).arriveLabel
        { kind := k, source := .port p, frame := h.tb.frame, value := value, text := bytes } clip
      (r.1, .done (optField 4 word4 r.2))
  | _, _ => h.refuse .badArg

/-- ADD LABEL at its taking. -/
def cmdAddLabel (c : Caller) (kind : Byte) (value : Option Word) (text : TextArg) (clip : Option Word) : Hub → Hub :=
  serve c 0x73 (some .log) none fun h => h.addLabel c.port kind value text clip

/-- ADD LABEL (R148). -/
def execAddLabel (c : Caller) (kind : Byte) (value : Option Word) (text : TextArg) (clip : Option Word) (s : State) :
    Host.Outcome State Fault Refusal :=
  s.run (cmdAddLabel c kind value text clip)

/-- The kind of row n of the selection table. -/
def rowKind (n : Nat) : LabelKind := (LabelKind.ofCode (n / 9)).getD .note

/-- The source of column n of the selection table. -/
def columnSource (n : Nat) : LabelSource := (LabelSource.ofCode (n % 9)).getD .timebase

/-- R147: SET SELECTION. -/
def Hub.setSelection (h : Hub) (kind source setting : Byte) : Hub × Reply :=
  match kindsOf kind, sourcesOf source, twoWay setting with
  | some ks, some ss, some ignore =>
    (h.modLog fun l =>
      { l with
        selection := Vector.ofFn fun n =>
          if ks (rowKind n.val) && ss (columnSource n.val) then !ignore else l.selection[n] }).ok
  | _, _, _ => h.refuse .badArg

/-- SET SELECTION at its taking. -/
def cmdSetSelection (c : Caller) (kind source setting : Byte) : Hub → Hub :=
  serve c 0x74 (some .log) none fun h => h.setSelection kind source setting

/-- SET SELECTION (R147). -/
def execSetSelection (c : Caller) (kind source setting : Byte) (s : State) : Host.Outcome State Fault Refusal :=
  s.run (cmdSetSelection c kind source setting)

/-! ### Triggers -/

/-- R149: the action of SET TRIGGER, none when it is refused with BAD_ARG. -/
def actionOf : ActionArg → Option Action
  | .start mask => if mask = 0 then none else some (.start mask)
  | .stop partner => (below 4 partner).map .stop
  | .unknown => none

/-- R149: whether an action names a stream outside the rights of port p. -/
def Hub.deniedAction (h : Hub) (p : Fin 4) : Action → Bool
  | .start mask => !h.hasStreams p mask
  | .stop _ => false

/-- R149: SET TRIGGER from port p. -/
def Hub.setTrigger (h : Hub) (p : Fin 4) (trigger kind source : Byte) (pattern mask : Word) (action : ActionArg)
    (rearm : Byte) : Hub × Reply :=
  match below 4 trigger, matchKindOf kind, matchSourceOf source, actionOf action, twoWay rearm with
  | some t, some k, some s, some a, some auto =>
    if h.deniedAction p a then h.refuse .denied
    else if (h.log.triggers[t]).state = .armed then h.refuse .conflict
    else
      (h.modTrigger t fun x =>
        { x with kind := some k, source := s, pattern := pattern, mask := mask, action := a, auto := auto,
                 state := .disarmed }).ok
  | _, _, _, _, _ => h.refuse .badArg

/-- SET TRIGGER at its taking. -/
def cmdSetTrigger (c : Caller) (trigger kind source : Byte) (pattern mask : Word) (action : ActionArg) (rearm : Byte) :
    Hub → Hub :=
  serve c 0x75 (some .log) none fun h => h.setTrigger c.port trigger kind source pattern mask action rearm

/-- SET TRIGGER (R149). -/
def execSetTrigger (c : Caller) (trigger kind source : Byte) (pattern mask : Word) (action : ActionArg) (rearm : Byte)
    (s : State) : Host.Outcome State Fault Refusal :=
  s.run (cmdSetTrigger c trigger kind source pattern mask action rearm)

/-- R149: ARM TRIGGER. -/
def Hub.armTrigger (h : Hub) (trigger : Byte) : Hub × Reply :=
  match below 4 trigger with
  | none => h.refuse .badArg
  | some t =>
    if (h.log.triggers[t]).kind = none ∨ h.log.supply then h.refuse .conflict
    else (h.modTrigger t fun x => { x with state := .armed }).ok

/-- ARM TRIGGER at its taking. -/
def cmdArmTrigger (c : Caller) (trigger : Byte) : Hub → Hub :=
  serve c 0x76 (some .log) none fun h => h.armTrigger trigger

/-- ARM TRIGGER (R149). -/
def execArmTrigger (c : Caller) (trigger : Byte) (s : State) : Host.Outcome State Fault Refusal :=
  s.run (cmdArmTrigger c trigger)

/-- R149: DISARM TRIGGER. -/
def Hub.disarmTrigger (h : Hub) (trigger : Byte) : Hub × Reply :=
  match below 4 trigger with
  | none => h.refuse .badArg
  | some t => (h.modTrigger t fun x => { x with state := .disarmed }).ok

/-- DISARM TRIGGER at its taking. -/
def cmdDisarmTrigger (c : Caller) (trigger : Byte) : Hub → Hub :=
  serve c 0x77 (some .log) none fun h => h.disarmTrigger trigger

/-- DISARM TRIGGER (R149). -/
def execDisarmTrigger (c : Caller) (trigger : Byte) (s : State) : Host.Outcome State Fault Refusal :=
  s.run (cmdDisarmTrigger c trigger)

/-- R154: LOG RESET. -/
def Hub.logReset (h : Hub) : Hub × Reply := (h.modLog ClipLog.empty).ok

/-- LOG RESET at its taking. -/
def cmdLogReset (c : Caller) : Hub → Hub := serve c 0x78 (some .log) none Hub.logReset

/-- LOG RESET (R154). -/
def execLogReset (c : Caller) (s : State) : Host.Outcome State Fault Refusal := s.run (cmdLogReset c)

/-! ### Reads -/

/-- Presence bits, the first flag in bit 0. -/
def presenceBits (a b c : Bool) : Bytes := le 1 (a.toNat + 2 * b.toNat + 4 * c.toNat)

/-- An optional word as four bytes, 0 when absent (section 11.7). -/
def wordOr0 (w : Option Word) : Bytes := word4 (w.getD 0)

/-- An optional timecode as four bytes, 0 when absent. -/
def tcOr0 (t : Option Timecode) : Bytes :=
  match t with
  | none => zeros 4
  | some x => tc4 x

/-- Byte 6 of a descriptor: 0 for absent, the codes shifted up by one. -/
def reasonByte (r : Option EndReason) : Nat :=
  match r with
  | none => 0
  | some x => endReasonCode x + 1

/-- Byte 7 of a descriptor. -/
def Clip.flagBits (c : Clip) : Nat :=
  c.damaged.toNat + 2 * c.overloadSeen.toNat + 4 * c.tcJump.toNat + 8 * c.truncated.toNat + 16 * c.limitDue.toNat

/-- The covered streams in ascending order. -/
def Clip.covered (c : Clip) : List (Fin 16) := (List.finRange 16).filter fun k => c.covers k

/-- The 16-byte entry of a covered stream. -/
def Clip.entry (c : Clip) (k : Fin 16) : Bytes :=
  le 1 k.val ++ presenceBits c.starts[k].isSome c.running[k].isSome c.ends[k].isSome ++ zeros 2 ++ wordOr0 c.starts[k]
    ++ wordOr0 c.running[k] ++ wordOr0 c.ends[k]

/-- Section 11.7: the descriptor as READ CLIP returns it. -/
def Clip.report (c : Clip) : Bytes :=
  word4 c.number ++ le 1 (clipStateCode c.state) ++ le 1 (ownerCode c.owner) ++ le 1 (reasonByte c.reason)
    ++ le 1 c.flagBits ++ le 2 c.mask.toNat ++ le 2 c.passed.toNat
    ++ presenceBits c.startTc.isSome c.endSerial.isSome c.endTc.isSome ++ le 1 c.name.length ++ le 1 c.labels.length
    ++ le 1 c.covered.length ++ word4 c.startSerial ++ tcOr0 c.startTc ++ wordOr0 c.endSerial ++ tcOr0 c.endTc
    ++ (c.name ++ zeros 64).take 64 ++ c.covered.flatMap c.entry ++ c.labels.flatMap word4

/-- R155: READ CLIP. -/
def Hub.readClip (h : Hub) (clip : Word) : Hub × Reply :=
  match h.log.named clip with
  | .error o => h.refuse o
  | .ok c => (h, .done c.report)

/-- READ CLIP at its taking. -/
def cmdReadClip (c : Caller) (clip : Word) : Hub → Hub := serve c 0x79 (some .log) none fun h => h.readClip clip

/-- READ CLIP (R155). -/
def execReadClip (c : Caller) (clip : Word) (s : State) : Host.Outcome State Fault Refusal := s.run (cmdReadClip c clip)

/-- R155: the oldest label number; the next label number when the store is empty. -/
def ClipLog.oldest (l : ClipLog) : Word :=
  match l.labels with
  | [] => l.nextLabel
  | x :: _ => x.number

/-- R155: READ LABELS.  A number that is both at or after the next one and older than the oldest by difference, as 2^31 away
from a store with labels can be, is answered NOT_YET (log entry 52). -/
def Hub.readLabels (h : Hub) (first : Word) (count : Byte) : Hub × Reply :=
  if count = 0 ∨ 8 < count.toNat then h.refuse .badArg
  else if atOrAfter first h.log.nextLabel then h.refuse .notYet
  else if ¬ atOrAfter first h.log.oldest then h.refuse .gone
  else
    (h, .done (listField 1 Label.wire ((h.log.labels.drop (dist h.log.oldest first)).take count.toNat)))

/-- READ LABELS at its taking. -/
def cmdReadLabels (c : Caller) (first : Word) (count : Byte) : Hub → Hub :=
  serve c 0x7A (some .log) none fun h => h.readLabels first count

/-- READ LABELS (R155). -/
def execReadLabels (c : Caller) (first : Word) (count : Byte) (s : State) : Host.Outcome State Fault Refusal :=
  s.run (cmdReadLabels c first count)

/-- The action of a trigger in a record, as SET TRIGGER carries it. -/
def Action.report : Action → Bytes
  | .start mask => le 1 0 ++ le 2 mask.toNat
  | .stop partner => le 1 1 ++ le 1 partner.val

/-- R155: a trigger record (Table 54). -/
def Trigger.report (t : Trigger) : Bytes :=
  optField 1 (fun k : LabelKind => le 1 k.code) t.kind
    ++ le 1 (match t.source with | none => 255 | some s => s.code) ++ word4 t.pattern ++ word4 t.mask ++ t.action.report
    ++ flagByte t.auto ++ le 1 (triggerStateCode t.state) ++ word4 t.fires ++ word4 t.ignored ++ word4 t.misses

/-- R155: the next clip number in four bytes; none follows 4,294,967,295 (R134), and the field then holds a free value (log
entry 53). -/
def ClipLog.nextClipField (l : ClipLog) : Bytes :=
  word4 (if l.nextClip < 4294967296 then BitVec.ofNat 32 l.nextClip else Config.spentClips)

/-- R155: what READ LOG returns; keep is 0 and ignore 1, asserted 0 and clear 1 (log entry 15); its counts are 4
bytes each (log entry 57).  The 108 entries of the selection table stand by kind and, within a kind, by source (log entry
45). -/
def ClipLog.report (l : ClipLog) : Bytes :=
  l.nextClipField ++ le 2 l.clips.length ++ le 1 l.active ++ listField 2 (fun c : Clip => word4 c.number) l.clips
    ++ word4 l.oldest ++ word4 l.nextLabel ++ word4 l.filed ++ word4 l.ignored ++ word4 l.removed ++ word4 l.lapses
    ++ flagByte (!l.supply) ++ tableField (fun b : Bool => flagByte (!b)) l.selection
    ++ tableField Trigger.report l.triggers

/-- READ LOG at its taking. -/
def cmdReadLog (c : Caller) : Hub → Hub := serve c 0x7B (some .log) none fun h => (h, .done h.log.report)

/-- READ LOG (R155). -/
def execReadLog (c : Caller) (s : State) : Host.Outcome State Fault Refusal := s.run (cmdReadLog c)

end Sys2Proof.Machine
end

