-- ==== Sys2Proof/Machine/Tally.lean ====
section
/-! DEFINITION. Meanings of the commands of class TALLY (R163, R164, R166). -/

namespace Sys2Proof.Machine

/-- R163: SET TALLY. -/
def Hub.setTally (h : Hub) (output kind number : Byte) : Hub × Reply :=
  match below 16 output, tallySourceOf kind number with
  | some o, some src => (h.modTally o fun x => { x with source := src }).ok
  | _, _ => h.refuse .badArg

/-- SET TALLY at its taking. -/
def cmdSetTally (c : Caller) (output kind number : Byte) : Hub → Hub :=
  serve c 0x80 (some .tally) none fun h => h.setTally output kind number

/-- SET TALLY (R163). -/
def execSetTally (c : Caller) (output kind number : Byte) (s : State) : Host.Outcome State Fault Refusal :=
  s.run (cmdSetTally c output kind number)

/-- R164: an override written by port p. -/
def TallyEntry.force (x : TallyEntry) (p : Fin 4) (v : Override) : TallyEntry :=
  { x with override := v, holder := if v = .none then none else some p }

/-- R164: SET OVERRIDE from port p. -/
def Hub.setOverride (h : Hub) (p : Fin 4) (output value : Byte) : Hub × Reply :=
  match below 16 output, overrideOf value with
  | some o, some v => (h.modTally o fun x => x.force p v).ok
  | _, _ => h.refuse .badArg

/-- SET OVERRIDE at its taking. -/
def cmdSetOverride (c : Caller) (output value : Byte) : Hub → Hub :=
  serve c 0x81 (some .tally) none fun h => h.setOverride c.port output value

/-- SET OVERRIDE (R164). -/
def execSetOverride (c : Caller) (output value : Byte) (s : State) : Host.Outcome State Fault Refusal :=
  s.run (cmdSetOverride c output value)

/-- R166: a map entry as READ TALLY returns it. -/
def TallyEntry.report (x : TallyEntry) : Bytes :=
  tallySourceBytes x.source ++ le 1 (overrideCode x.override) ++ optPort x.holder ++ le 1 (lampCode x.lamp)
    ++ le 1 (lampCode x.shown)

/-- R166: what READ TALLY returns. -/
def Tally.report (t : Tally) : Bytes :=
  tableField TallyEntry.report t.entries ++ tableField (le 1) t.flash ++ tableField flagByte t.sent

/-- READ TALLY at its taking. -/
def cmdReadTally (c : Caller) : Hub → Hub := serve c 0x82 (some .tally) none fun h => (h, .done h.tally.report)

/-- READ TALLY (R166). -/
def execReadTally (c : Caller) (s : State) : Host.Outcome State Fault Refusal := s.run (cmdReadTally c)

end Sys2Proof.Machine
end

