-- ==== Sys2Proof/Machine/Notices.lean ====
section
/-! DEFINITION. Meanings of the Notice Unit family: the attention line (R188 to R191), TAKE NOTICES (R192) and the commands of
class NOTICE (R186, R187, R193). -/

namespace Sys2Proof.Machine

/-! ### Pulses (R190) -/

/-- R190: a pulse begins when none is under way and one is owed. -/
def NoticePort.beginPulse (n : NoticePort) : NoticePort :=
  if n.mode = .pulse ∧ n.pulse = .idle ∧ 0 < n.owed then { n with owed := n.owed - 1, line := true, pulse := .asserted }
  else n

/-- R190: the asserted microsecond of a pulse is over. -/
def NoticePort.dropPulse (n : NoticePort) : NoticePort :=
  if n.pulse = .asserted then { n with line := false, pulse := .interval } else n

/-- R190: the pulse and its deasserted microsecond are over. -/
def NoticePort.endPulse (n : NoticePort) : NoticePort :=
  if n.pulse = .idle then n else { n with line := false, pulse := .idle }

/-- A pulse of the attention line begins (R190). -/
def execAttentionPulse (e : Env) (p : Fin 4) (s : State) : Host.Outcome State Fault Refusal :=
  s.run fun h => (h.arrive e).modNotice p NoticePort.beginPulse

/-- The line is deasserted 1 µs after a pulse began (R190). -/
def execPulseLineDeasserted (e : Env) (p : Fin 4) (s : State) : Host.Outcome State Fault Refusal :=
  s.run fun h => (h.arrive e).modNotice p NoticePort.dropPulse

/-- A pulse and the interval after it end (R190). -/
def execAttentionPulseEnd (e : Env) (p : Fin 4) (s : State) : Host.Outcome State Fault Refusal :=
  s.run fun h => (h.arrive e).modNotice p NoticePort.endPulse

/-- The attention line on the pin ATN of port p; it is off while RESET is held (R168, R194). -/
def State.attention (s : State) (p : Fin 4) : Bool := !s.held && (s.hub.notices[p]).line

/-! ### TAKE NOTICES and ACK ATTENTION -/

/-- Table 71: a notice entry as returned. -/
def Notice.wire (x : Notice) : Bytes :=
  le 1 x.kind.code ++ flagByte x.kind.isPart ++ zeros 2 ++ word4 x.param ++ word4 x.serial

/-- R192: what a selector passes. -/
def selectorOf (b : Byte) : Option (Notice → Bool) :=
  if b = 0 then some fun _ => true
  else if b = 1 then some fun x => !x.kind.isPart
  else if b = 2 then some fun x => x.kind.isPart
  else none

/-- R192: the first n entries that a test passes, and the entries left behind. -/
def takeFirst (pass : Notice → Bool) : Nat → List Notice → List Notice × List Notice
  | _, [] => ([], [])
  | n, x :: xs =>
    if n ≠ 0 ∧ pass x = true then (x :: (takeFirst pass (n - 1) xs).1, (takeFirst pass (n - 1) xs).2)
    else ((takeFirst pass n xs).1, x :: (takeFirst pass n xs).2)

/-- R192: the queue after entries have been taken; the line follows it in LEVEL_UNTIL_EMPTY (R188). -/
def NoticePort.leave (n : NoticePort) (rest : List Notice) : NoticePort :=
  { n with queue := rest, line := if n.mode = .untilEmpty then rest != [] else n.line }

/-- R192: TAKE NOTICES from port p. -/
def Hub.takeNotices (h : Hub) (p : Fin 4) (selector : Byte) : Hub × Reply :=
  match selectorOf selector with
  | none => h.refuse .badArg
  | some pass =>
    let n := h.notices[p]
    let r := takeFirst pass 8 n.queue
    (h.modNotice p fun n => n.leave r.2, .done (listField 1 Notice.wire r.1 ++ le 1 r.2.length ++ word4 n.lost))

/-- TAKE NOTICES at its taking. -/
def cmdTakeNotices (c : Caller) (selector : Byte) : Hub → Hub :=
  serve c 0x02 none none fun h => h.takeNotices c.port selector

/-- TAKE NOTICES (R192). -/
def execTakeNotices (c : Caller) (selector : Byte) (s : State) : Host.Outcome State Fault Refusal :=
  s.run (cmdTakeNotices c selector)

/-- R188, R189, R190: ACK ATTENTION. -/
def NoticePort.ack (n : NoticePort) : NoticePort := if n.mode = .untilAck then { n with line := false } else n

/-- ACK ATTENTION at its taking. -/
def cmdAckAttention (c : Caller) : Hub → Hub :=
  serve c 0x03 none none fun h => (h.modNotice c.port NoticePort.ack).ok

/-- ACK ATTENTION (R189). -/
def execAckAttention (c : Caller) (s : State) : Host.Outcome State Fault Refusal := s.run (cmdAckAttention c)

/-! ### Commands of class NOTICE -/

/-- R186: a mask as written: the flags of the 23 kinds, SUPPLY_WARN always set. -/
def maskWritten (mask : Word) : Word := setBit (mask &&& 0x7FFFFF) 20

/-- SET NOTICE MASK at its taking (R186). -/
def cmdSetNoticeMask (c : Caller) (mask : Word) : Hub → Hub :=
  serve c 0xA0 (some .notice) none fun h =>
    (h.modNotice c.port fun n => { n with mask := maskWritten mask }, .done (word4 (maskWritten mask)))

/-- SET NOTICE MASK (R186). -/
def execSetNoticeMask (c : Caller) (mask : Word) (s : State) : Host.Outcome State Fault Refusal :=
  s.run (cmdSetNoticeMask c mask)

/-- READ SUMMARY at its taking (R187). -/
def cmdReadSummary (c : Caller) : Hub → Hub :=
  serve c 0xA1 (some .notice) none fun h =>
    (h.modNotice c.port fun n => { n with summary := 0 }, .done (word4 (h.notices[c.port]).summary))

/-- READ SUMMARY (R187). -/
def execReadSummary (c : Caller) (s : State) : Host.Outcome State Fault Refusal := s.run (cmdReadSummary c)

/-- R191: the mode is written, the pulse under way cut off, and the line set for the new mode. -/
def NoticePort.setMode (n : NoticePort) (m : AttentionMode) : NoticePort :=
  { n with mode := m, owed := 0, pulse := .idle, line := m != .pulse && n.queue != [] }

/-- R191: SET ATTENTION from port p. -/
def Hub.setAttention (h : Hub) (p : Fin 4) (mode : Byte) : Hub × Reply :=
  match AttentionMode.ofByte mode with
  | none => h.refuse .badArg
  | some m => (h.modNotice p fun n => n.setMode m).ok

/-- SET ATTENTION at its taking. -/
def cmdSetAttention (c : Caller) (mode : Byte) : Hub → Hub :=
  serve c 0xA2 (some .notice) none fun h => h.setAttention c.port mode

/-- SET ATTENTION (R191). -/
def execSetAttention (c : Caller) (mode : Byte) (s : State) : Host.Outcome State Fault Refusal :=
  s.run (cmdSetAttention c mode)

/-- R193: what READ NOTICES returns: the entries, then those of class STREAM and of class PART, mask, lost count, mode,
line (asserted 0, deasserted 1: log entry 15) and pulses owed. -/
def NoticePort.report (n : NoticePort) : Bytes :=
  le 1 n.queue.length ++ le 1 (n.queue.filter fun x => !x.kind.isPart).length
    ++ le 1 (n.queue.filter fun x => x.kind.isPart).length ++ word4 n.mask ++ word4 n.lost ++ le 1 n.mode.code
    ++ flagByte (!n.line) ++ le 1 n.owed

/-- READ NOTICES at its taking. -/
def cmdReadNotices (c : Caller) : Hub → Hub :=
  serve c 0xA3 (some .notice) none fun h => (h, .done (h.notices[c.port]).report)

/-- READ NOTICES (R193). -/
def execReadNotices (c : Caller) (s : State) : Host.Outcome State Fault Refusal := s.run (cmdReadNotices c)

end Sys2Proof.Machine
end

