-- ==== Sys2Proof/Machine/Ports.lean ====
section
/-! DEFINITION. Meanings of the Port Controller family: presence (R177 to R180), rights (R174, R176), HUB RESET (R181) and
READ PART (R182). -/

namespace Sys2Proof.Machine

/-! ### Presence -/

/-- R177: port p goes ABSENT at the coming tick. -/
def Hub.portAbsent (p : Fin 4) (h : Hub) : Hub :=
  match strapPeriod h.strap with
  | none => h
  | some n => if (h.ports[p]).expiring n then Hub.goAbsent p n h else h

/-- A port goes ABSENT (R179). -/
def execPortAbsent (e : Env) (p : Fin 4) (s : State) : Host.Outcome State Fault Refusal :=
  s.run fun h => (h.arrive e).atTick (Hub.portAbsent p)

/-- R178: the answer to a PRESENCE carries the port's presence data as they stand after it. -/
def Hub.presenceReply (h : Hub) (p : Fin 4) (o : Answer) : Hub × Reply :=
  (h, { outcome := o, data := (h.ports[p]).presenceData })

/-- R178: the pair of port p is complete. -/
def PortRecord.completePair (x : PortRecord) : PortRecord :=
  { x with present := true, expectOdd := false, half := none, timer := 0,
           counts := { x.counts with pairs := x.counts.pairs + 1 } }

/-- R178, R180: ODD while ODD is expected. -/
def Hub.completePair (h : Hub) (p : Fin 4) : Hub :=
  let g := h.modPort p PortRecord.completePair
  if (h.ports[p]).present then g else g.notify .portPresent p.val

/-- R178: whether a phase is the one expected.  ODD is also the one expected at the very moment at which the tick made the
port ABSENT with ODD expected (R177, log entry 55). -/
def PortRecord.expects (x : PortRecord) (odd : Bool) (now : Nat) : Bool := odd == x.expectOdd || odd && x.half == some now

/-- R178: PRESENCE on port p. -/
def Hub.presence (h : Hub) (p : Fin 4) (phase : Byte) : Hub × Reply :=
  match twoWay phase with
  | none => h.presenceReply p .badArg
  | some odd =>
    if strapPeriod h.strap = none then h.presenceReply p .done
    else if (h.ports[p]).expects odd h.now = false then
      (h.modPort p fun x => { x with counts := { x.counts with wrongPhase := x.counts.wrongPhase + 1 } }).presenceReply p
        .conflict
    else if odd then (h.completePair p).presenceReply p .done
    else (h.modPort p fun x => { x with expectOdd := true, half := none }).presenceReply p .done

/-- PRESENCE at its taking. -/
def cmdPresence (c : Caller) (phase : Byte) : Hub → Hub := serve c 0x01 none none fun h => h.presence c.port phase

/-- PRESENCE (R178). -/
def execPresence (c : Caller) (phase : Byte) (s : State) : Host.Outcome State Fault Refusal := s.run (cmdPresence c phase)

/-! ### Rights -/

/-- R174: a class mask as written for port q: the eleven classes, RIGHTS as the editor mask has it. -/
def classesWritten (strap : BitVec 16) (q : Fin 4) (classes : BitVec 16) : BitVec 16 :=
  if strapEditor strap q then (classes &&& 0x6FF) ||| 0x100 else classes &&& 0x6FF

/-- R174: SET RIGHTS from port p. -/
def Hub.setRights (h : Hub) (p : Fin 4) (port : Byte) (classes streams : BitVec 16) : Hub × Reply :=
  if ¬ strapEditor h.strap p then h.refuse .denied
  else
    match below 4 port with
    | none => h.refuse .badArg
    | some q =>
      let w := classesWritten h.strap q classes
      (h.modPort q fun x => { x with classes := w, streams := streams }, .done (le 2 w.toNat ++ le 2 streams.toNat))

/-- SET RIGHTS at its taking. -/
def cmdSetRights (c : Caller) (port : Byte) (classes streams : BitVec 16) : Hub → Hub :=
  serve c 0x90 (some .rights) none fun h => h.setRights c.port port classes streams

/-- SET RIGHTS (R174). -/
def execSetRights (c : Caller) (port : Byte) (classes streams : BitVec 16) (s : State) :
    Host.Outcome State Fault Refusal :=
  s.run (cmdSetRights c port classes streams)

/-- R176: what READ RIGHTS returns: profile, editor mask, and the masks of each port.  Table 68 lists no port mask: the editor
mask is one byte, bit n for port n, by the model's reading of R195 (log entry 45). -/
def Hub.rightsReport (h : Hub) : Bytes :=
  flagByte (strapSplit h.strap) ++ le 1 (h.strap.toNat / 8 % 16) ++ tableField PortRecord.maskData h.ports

/-- READ RIGHTS at its taking. -/
def cmdReadRights (c : Caller) : Hub → Hub := serve c 0x91 (some .rights) none fun h => (h, .done h.rightsReport)

/-- READ RIGHTS (R176). -/
def execReadRights (c : Caller) (s : State) : Host.Outcome State Fault Refusal := s.run (cmdReadRights c)

/-! ### Class PART -/

/-- HUB RESET at its taking (R181). -/
def cmdHubReset (c : Caller) : Hub → Hub := serve c 0xB0 (some .part) none fun h => h.reset.ok

/-- HUB RESET (R181). -/
def execHubReset (c : Caller) (s : State) : Host.Outcome State Fault Refusal := s.run (cmdHubReset c)

/-- The ten counts of a port record, in the order of Table 60. -/
def PortCounts.report (n : PortCounts) : Bytes :=
  word4 n.takenIn ++ word4 n.bad ++ word4 n.overrun ++ word4 n.answered ++ word4 n.full ++ word4 n.denied
    ++ word4 n.absent ++ word4 n.wrongPhase ++ word4 n.pairs ++ word4 n.absences

/-- R182: a port as READ PART returns it. -/
def PortRecord.report (x : PortRecord) : Bytes :=
  x.presenceData ++ le 1 x.timer ++ le 1 x.queue.length ++ le 1 x.fullList.length ++ x.counts.report

/-- R182: what READ PART returns; the presence period is sent by its strap value (log entry 15). -/
def Hub.partReport (h : Hub) : Bytes :=
  le 2 0x4D4E ++ le 2 0x7240 ++ le 1 1 ++ le 2 h.strap.toNat ++ le 1 (strapSlot h.strap) ++ le 1 (h.strap.toNat % 4)
    ++ tableField PortRecord.report h.ports

/-- READ PART at its taking. -/
def cmdReadPart (c : Caller) : Hub → Hub := serve c 0xB1 (some .part) none fun h => (h, .done h.partReport)

/-- READ PART (R182). -/
def execReadPart (c : Caller) (s : State) : Host.Outcome State Fault Refusal := s.run (cmdReadPart c)

end Sys2Proof.Machine
end

