-- ==== Sys2Proof/Machine/Link.lean ====
section
/-! DEFINITION. The command link of a port (section 9.2): reading a command record (R195, Tables 68, 69 and 76), its arrival
(R169), the taking of commands and the FULL answers (R170), and the response record (Table 70). -/

namespace Sys2Proof.Machine

/-! ### Reading a command record -/

/-- A flag byte as an argument. -/
def takeFlag (x : Bytes) : Option (Bool × Bytes) := (take1 x).map fun y => (flagOf y.1, y.2)

/-- R195: the arguments must end where their reading ends. -/
def whole {α : Type} (rest : Bytes) (a : α) : Option α := if rest = [] then some a else none

/-- The command of a code and its arguments: the codes of no class (Tables 68 and 76). -/
def parseNone (c : Caller) (code : Byte) (x : Bytes) : Option (Hub → Hub) :=
  match code.toNat with
  | 0x01 => do
    let (a, x) ← take1 x
    whole x (cmdPresence c a)
  | 0x02 => do
    let (a, x) ← take1 x
    whole x (cmdTakeNotices c a)
  | 0x03 => whole x (cmdAckAttention c)
  | _ => none

/-- The command of a code and its arguments: class TIME (Tables 68 and 76). -/
def parseTime (c : Caller) (code : Byte) (x : Bytes) : Option (Hub → Hub) :=
  match code.toNat with
  | 0x10 => do
    let (a, x) ← take1 x
    whole x (cmdSetReference c a)
  | 0x11 => do
    let (a, x) ← take1 x
    let (b, x) ← take1 x
    whole x (cmdSetTimecodeMode c a b)
  | 0x12 => do
    let (a, x) ← take4 x
    whole x (cmdJamTimecode c a)
  | 0x13 => do
    let (a, x) ← take1 x
    whole x (cmdSetRate c a)
  | 0x14 => whole x (cmdReadTimebase c)
  | _ => none

/-- The command of a code and its arguments: class STORE (Tables 68 and 76). -/
def parseStore (c : Caller) (code : Byte) (x : Bytes) : Option (Hub → Hub) :=
  match code.toNat with
  | 0x20 => do
    let (a, x) ← take1 x
    whole x (cmdOpenStream c a)
  | 0x21 => do
    let (a, x) ← take1 x
    let (b, x) ← take1 x
    whole x (cmdHoldStream c a b)
  | 0x22 => do
    let (a, x) ← take1 x
    whole x (cmdReleaseStream c a)
  | 0x23 => do
    let (a, x) ← take1 x
    whole x (cmdCloseStream c a)
  | 0x24 => do
    let (a, x) ← take1 x
    let (b, x) ← take1 x
    whole x (cmdSetStream c a b)
  | 0x25 => do
    let (a, x) ← take1 x
    let (b, x) ← take4 x
    let (d, x) ← take4 x
    let (e, x) ← takeFlag x
    let (f, x) ← take1 x
    whole x (cmdSetRing c a b d e f)
  | 0x26 => do
    let (a, x) ← take1 x
    let (b, x) ← take4 x
    let (d, x) ← take4 x
    let (e, x) ← take2 x
    whole x (cmdFetch c a b d e)
  | 0x27 => do
    let (a, x) ← take1 x
    let (b, x) ← takeData x
    let (d, x) ← takeFlag x
    whole x (cmdInsert c a b d)
  | 0x28 => do
    let (a, x) ← take1 x
    whole x (cmdReadStream c a)
  | 0x29 => do
    let (a, x) ← take1 x
    whole x (cmdReadRing c a)
  | 0x2A => do
    let (a, x) ← take1 x
    let (b, x) ← take4 x
    whole x (cmdReadUnit c a b)
  | _ => none

/-- The command of a code and its arguments: class CODE (Tables 68 and 76). -/
def parseCode (c : Caller) (code : Byte) (x : Bytes) : Option (Hub → Hub) :=
  match code.toNat with
  | 0x30 => do
    let (a, x) ← take1 x
    let (b, x) ← take1 x
    whole x (cmdSetInput c a b)
  | 0x31 => do
    let (s, x) ← take1 x
    let (source, x) ← take1 x
    let (format, x) ← take1 x
    let (mode, x) ← take1 x
    let (rFix, x) ← take4 x
    let (rMin, x) ← take4 x
    let (rMax, x) ← take4 x
    let (weight, x) ← take1 x
    let (bf, x) ← take1 x
    whole x (cmdSetPicture c s
      { source := source, format := format, mode := mode, rFix := rFix, rMin := rMin, rMax := rMax, weight := weight,
        bf := bf })
  | 0x32 => whole x (cmdCoderReset c)
  | 0x33 => do
    let (a, x) ← take1 x
    whole x (cmdReadInput c a)
  | 0x34 => do
    let (a, x) ← take1 x
    whole x (cmdReadPicture c a)
  | _ => none

/-- The command of a code and its arguments: class MIX (Tables 68 and 76). -/
def parseMix (c : Caller) (code : Byte) (x : Bytes) : Option (Hub → Hub) :=
  match code.toNat with
  | 0x40 => do
    let (a, x) ← take1 x
    let (b, x) ← take2 x
    let (d, x) ← take1 x
    whole x (cmdSetChannel c a b d)
  | 0x41 => do
    let (a, x) ← take1 x
    let (b, x) ← take1 x
    let (d, x) ← take2 x
    let (e, x) ← take2 x
    whole x (cmdSetGain c a b d e)
  | 0x42 => do
    let (a, x) ← take1 x
    let (b, x) ← take2 x
    let (d, x) ← take2 x
    whole x (cmdSetBusGain c a b d)
  | 0x43 => do
    let (a, x) ← take1 x
    let (b, x) ← take4 x
    let (d, x) ← take1 x
    whole x (cmdSetMeter c a b d)
  | 0x44 => whole x (cmdMixerReset c)
  | 0x45 => do
    let (a, x) ← take1 x
    whole x (cmdReadChannel c a)
  | 0x46 => do
    let (a, x) ← take1 x
    whole x (cmdReadBus c a)
  | _ => none

/-- The command of a code and its arguments: class LINK (Tables 68 and 76). -/
def parseLink (c : Caller) (code : Byte) (x : Bytes) : Option (Hub → Hub) :=
  match code.toNat with
  | 0x50 => do
    let (a, x) ← take1 x
    let (b, x) ← takeFlag x
    let (d, x) ← take1 x
    let (e, x) ← take2 x
    whole x (cmdSetPath c a b d e)
  | 0x51 => do
    let (a, x) ← take1 x
    let (b, x) ← take1 x
    whole x (cmdClearLoss c a b)
  | 0x52 => do
    let (a, x) ← take1 x
    whole x (cmdSetSpread c a)
  | 0x53 => do
    let (a, x) ← take1 x
    let (b, x) ← take1 x
    whole x (cmdAddDirected c a b)
  | 0x54 => do
    let (a, x) ← take1 x
    whole x (cmdRemoveDirected c a)
  | 0x55 => do
    let (a, x) ← take1 x
    let (b, x) ← takeFlag x
    whole x (cmdSetBond c a b)
  | 0x56 => do
    let (a, x) ← take1 x
    whole x (cmdPathReset c a)
  | 0x57 => do
    let (a, x) ← take1 x
    whole x (cmdPathRelease c a)
  | 0x58 => do
    let (a, x) ← take1 x
    whole x (cmdReadPath c a)
  | 0x59 => whole x (cmdReadSpread c)
  | 0x5A => do
    let (a, x) ← take1 x
    whole x (cmdReadSend c a)
  | _ => none

/-- The command of a code and its arguments: class GAUGE (Tables 68 and 76). -/
def parseGauge (c : Caller) (code : Byte) (x : Bytes) : Option (Hub → Hub) :=
  match code.toNat with
  | 0x60 => do
    let (a, x) ← takeFlag x
    let (b, x) ← take1 x
    whole x (cmdSetGauge c a b)
  | 0x61 => do
    let (a, x) ← take1 x
    let (b, x) ← take1 x
    let (d, x) ← take4 x
    whole x (cmdStartGauge c a b d)
  | 0x62 => do
    let (a, x) ← take1 x
    whole x (cmdReadGauge c a)
  | 0x63 => do
    let (source, x) ← take1 x
    let (fixed, x) ← take8 x
    let (headroom, x) ← take2 x
    let (r12, x) ← take4 x
    let (r13, x) ← take4 x
    let (r14, x) ← take4 x
    let (r15, x) ← take4 x
    whole x (cmdSetBudget c source
      { fixed := fixed, headroom := headroom, res12 := r12, res13 := r13, res14 := r14, res15 := r15 })
  | 0x64 => whole x (cmdReadBudget c)
  | _ => none

/-- The command of a code and its arguments: class LOG (Tables 68 and 76). -/
def parseLog (c : Caller) (code : Byte) (x : Bytes) : Option (Hub → Hub) :=
  match code.toNat with
  | 0x70 => do
    let (a, x) ← take2 x
    let (b, x) ← takeOpt takeText x
    whole x (cmdOpenClip c a b)
  | 0x71 => do
    let (a, x) ← take4 x
    whole x (cmdCloseClip c a)
  | 0x72 => do
    let (a, x) ← take4 x
    whole x (cmdReleaseClip c a)
  | 0x73 => do
    let (a, x) ← take1 x
    let (b, x) ← takeOpt take4 x
    let (d, x) ← takeText x
    let (e, x) ← takeOpt take4 x
    whole x (cmdAddLabel c a b d e)
  | 0x74 => do
    let (a, x) ← take1 x
    let (b, x) ← take1 x
    let (d, x) ← take1 x
    whole x (cmdSetSelection c a b d)
  | 0x75 => do
    let (a, x) ← take1 x
    let (b, x) ← take1 x
    let (d, x) ← take1 x
    let (e, x) ← take4 x
    let (f, x) ← take4 x
    let (g, x) ← takeAction x
    let (h, x) ← take1 x
    whole x (cmdSetTrigger c a b d e f g h)
  | 0x76 => do
    let (a, x) ← take1 x
    whole x (cmdArmTrigger c a)
  | 0x77 => do
    let (a, x) ← take1 x
    whole x (cmdDisarmTrigger c a)
  | 0x78 => whole x (cmdLogReset c)
  | 0x79 => do
    let (a, x) ← take4 x
    whole x (cmdReadClip c a)
  | 0x7A => do
    let (a, x) ← take4 x
    let (b, x) ← take1 x
    whole x (cmdReadLabels c a b)
  | 0x7B => whole x (cmdReadLog c)
  | _ => none

/-- The command of a code and its arguments: class TALLY (Tables 68 and 76). -/
def parseTally (c : Caller) (code : Byte) (x : Bytes) : Option (Hub → Hub) :=
  match code.toNat with
  | 0x80 => do
    let (a, x) ← take1 x
    let (b, x) ← take1 x
    let (d, x) ← take1 x
    whole x (cmdSetTally c a b d)
  | 0x81 => do
    let (a, x) ← take1 x
    let (b, x) ← take1 x
    whole x (cmdSetOverride c a b)
  | 0x82 => whole x (cmdReadTally c)
  | _ => none

/-- The command of a code and its arguments: class RIGHTS (Tables 68 and 76). -/
def parseRights (c : Caller) (code : Byte) (x : Bytes) : Option (Hub → Hub) :=
  match code.toNat with
  | 0x90 => do
    let (a, x) ← take1 x
    let (b, x) ← take2 x
    let (d, x) ← take2 x
    whole x (cmdSetRights c a b d)
  | 0x91 => whole x (cmdReadRights c)
  | _ => none

/-- The command of a code and its arguments: class NOTICE (Tables 68 and 76). -/
def parseNotice (c : Caller) (code : Byte) (x : Bytes) : Option (Hub → Hub) :=
  match code.toNat with
  | 0xA0 => do
    let (a, x) ← take4 x
    whole x (cmdSetNoticeMask c a)
  | 0xA1 => whole x (cmdReadSummary c)
  | 0xA2 => do
    let (a, x) ← take1 x
    whole x (cmdSetAttention c a)
  | 0xA3 => whole x (cmdReadNotices c)
  | _ => none

/-- The command of a code and its arguments: class PART (Tables 68 and 76). -/
def parsePart (c : Caller) (code : Byte) (x : Bytes) : Option (Hub → Hub) :=
  match code.toNat with
  | 0xB0 => whole x (cmdHubReset c)
  | 0xB1 => whole x (cmdReadPart c)
  | _ => none

/-- The command of a code and its arguments; none for an unknown code and for arguments whose length does not fit (R171
step 2). -/
def parseCommand (c : Caller) (code : Byte) (x : Bytes) : Option (Hub → Hub) :=
  match code.toNat / 16 with
  | 0x0 => parseNone c code x
  | 0x1 => parseTime c code x
  | 0x2 => parseStore c code x
  | 0x3 => parseCode c code x
  | 0x4 => parseMix c code x
  | 0x5 => parseLink c code x
  | 0x6 => parseGauge c code x
  | 0x7 => parseLog c code x
  | 0x8 => parseTally c code x
  | 0x9 => parseRights c code x
  | 0xA => parseNotice c code x
  | 0xB => parsePart c code x
  | _ => none

/-- R171 step 2: a record that cannot be read is refused with BAD_ARG, after the check of step 1. -/
def cmdUnread (c : Caller) (code : Byte) : Hub → Hub :=
  serve c code none none fun h => if code = 1 then h.presenceReply c.port .badArg else h.refuse .badArg

/-- R171: a command record of good form is carried out. -/
def runRecord (c : Caller) (code : Byte) (args : Bytes) : Hub → Hub := (parseCommand c code args).getD (cmdUnread c code)

/-- Table 69: the tag of a record. -/
def recordTag (r : Bytes) : Byte := r.getD 2 0

/-- Table 69: the command code of a record. -/
def recordCode (r : Bytes) : Byte := r.getD 3 0

/-- Table 69: the arguments of a record. -/
def recordArgs (r : Bytes) : Bytes := (r.take (r.length - 4)).drop 4

/-- R169, R197: whether a record that kept the link's framing is good: its length, and its CRC-32. -/
def recordGood (r : Bytes) : Bool :=
  decide (8 ≤ r.length) && decide (r.length ≤ 4108) && decide (ofLe (r.take 2) = r.length)
    && r.drop (r.length - 4) == word4 (crc32 (r.take (r.length - 4)))

/-- Table 70: the response record on the response link. -/
def Response.wire (x : Response) : Bytes :=
  let body := le 2 (12 + x.data.length) ++ [x.tag, x.code] ++ le 1 x.outcome.code ++ zeros 3 ++ x.data
  body ++ word4 (crc32 body)

/-! ### The queue and the link (R169, R170) -/

/-- R169: a good record is judged against the queue. -/
def PortRecord.judge (x : PortRecord) (r : Bytes) : PortRecord :=
  let x := { x with counts := { x.counts with takenIn := x.counts.takenIn + 1 } }
  if x.queue.length < 16 then { x with queue := x.queue ++ [r] }
  else if x.fullList.length < 16 then
    { x with fullList := x.fullList ++ [(recordTag r, recordCode r)],
             counts := { x.counts with full := x.counts.full + 1 } }
  else { x with counts := { x.counts with overrun := x.counts.overrun + 1 } }

/-- R170, R196: the FULL answer to a record turned away; one to PRESENCE carries the presence data. -/
def PortRecord.answerFull (x : PortRecord) (t : Byte × Byte) : PortRecord :=
  { x with
    sending := some (true, { tag := t.1, code := t.2, outcome := .full,
                             data := if t.2 = 1 then x.presenceData else [] }) }

/-- R170: with the response link of port p free, the oldest FULL answer is sent, or else the oldest command is taken. -/
def Hub.pump (h : Hub) (p : Fin 4) (e : Env) : Hub :=
  let x := h.ports[p]
  match x.sending with
  | some _ => h
  | none =>
    match x.fullList with
    | t :: _ => h.modPort p fun y => y.answerFull t
    | [] =>
      match x.queue with
      | [] => h
      | r :: rest =>
        runRecord { env := { e with dt := 0 }, port := p, tag := recordTag r } (recordCode r) (recordArgs r)
          (h.modPort p fun y => { y with queue := rest })

/-- R169: a record arrives on the command link of port p; `framed` when it kept the link's framing. -/
def Hub.recordArrival (e : Env) (p : Fin 4) (framed : Bool) (r : Bytes) (h : Hub) : Hub :=
  let h := h.arrive e
  if framed ∧ recordGood r then (h.modPort p fun x => x.judge r).pump p e
  else h.modPort p fun x => { x with counts := { x.counts with bad := x.counts.bad + 1 } }

/-- A command record arrives whole (R169). -/
def execCommandRecordArrival (e : Env) (p : Fin 4) (framed : Bool) (r : Bytes) (s : State) :
    Host.Outcome State Fault Refusal :=
  s.run (Hub.recordArrival e p framed r)

/-- R170: the response link of port p is free again; a FULL answer sent whole leaves the FULL list. -/
def PortRecord.linkFree (x : PortRecord) (full : Bool) : PortRecord :=
  { x with sending := none, fullList := if full then x.fullList.drop 1 else x.fullList }

/-- R170: the response of port p has been sent whole. -/
def Hub.responseEnd (e : Env) (p : Fin 4) (h : Hub) : Hub :=
  let h := h.arrive e
  match (h.ports[p]).sending with
  | none => h
  | some r => (h.modPort p fun x => x.linkFree r.1).pump p e

/-- A response finishes sending (R170). -/
def execResponseEnd (e : Env) (p : Fin 4) (s : State) : Host.Outcome State Fault Refusal := s.run (Hub.responseEnd e p)

end Sys2Proof.Machine
end

