-- ==== Sys2Proof/Machine/Dispatch.lean ====
section
/-! DEFINITION. One arm per command: the direct call of its meaning. -/

namespace Sys2Proof.Machine

/-- A command's effect on everything but the queue. -/
def exec (i : Instr) (s : State) : Host.Outcome State Fault Refusal :=
  match i with
  | .partReset e => Sys2Proof.Machine.execPartReset e s
  | .resetRelease e strap supw => Sys2Proof.Machine.execResetRelease e strap supw s
  | .dividerExpiry e => Sys2Proof.Machine.execDividerExpiry e s
  | .referencePulse e => Sys2Proof.Machine.execReferencePulse e s
  | .pulseTimeout e => Sys2Proof.Machine.execPulseTimeout e s
  | .readerArrival e value => Sys2Proof.Machine.execReaderArrival e value s
  | .readerStateTimeout e => Sys2Proof.Machine.execReaderStateTimeout e s
  | .receiverLossOfLock e input => Sys2Proof.Machine.execReceiverLossOfLock e input s
  | .receiverFormatReport e input measured => Sys2Proof.Machine.execReceiverFormatReport e input measured s
  | .lineCheckFailure e input => Sys2Proof.Machine.execLineCheckFailure e input s
  | .captureEnd e input => Sys2Proof.Machine.execCaptureEnd e input s
  | .pictureStart e stream => Sys2Proof.Machine.execPictureStart e stream s
  | .sliceStart e stream => Sys2Proof.Machine.execSliceStart e stream s
  | .sliceEnd e stream coded => Sys2Proof.Machine.execSliceEnd e stream coded s
  | .lateDrop e stream => Sys2Proof.Machine.execLateDrop e stream s
  | .limitClose e clip => Sys2Proof.Machine.execLimitClose e clip s
  | .mixerSample e x => Sys2Proof.Machine.execMixerSample e x s
  | .muteEnd e channel => Sys2Proof.Machine.execMuteEnd e channel s
  | .pauseTimeout e path => Sys2Proof.Machine.execPauseTimeout e path s
  | .backChannelBreak e path => Sys2Proof.Machine.execBackChannelBreak e path s
  | .framingError e path => Sys2Proof.Machine.execFramingError e path s
  | .idleFill e path => Sys2Proof.Machine.execIdleFill e path s
  | .receiptReport e path unused count check => Sys2Proof.Machine.execReceiptReport e path unused count check s
  | .unitTakeUp e ring => Sys2Proof.Machine.execUnitTakeUp e ring s
  | .fragmentPlacement e path => Sys2Proof.Machine.execFragmentPlacement e path s
  | .transmissionEnd e path => Sys2Proof.Machine.execTransmissionEnd e path s
  | .releaseDue e path => Sys2Proof.Machine.execReleaseDue e path s
  | .step1End e path => Sys2Proof.Machine.execStep1End e path s
  | .step2Expiry e path => Sys2Proof.Machine.execStep2Expiry e path s
  | .timeGaugeEnd e path => Sys2Proof.Machine.execTimeGaugeEnd e path s
  | .volumeGaugeExpiry e path => Sys2Proof.Machine.execVolumeGaugeExpiry e path s
  | .supplyWarningAssert e => Sys2Proof.Machine.execSupplyWarningAssert e s
  | .supplyWarningDeassert e => Sys2Proof.Machine.execSupplyWarningDeassert e s
  | .commandRecordArrival e port framed record => Sys2Proof.Machine.execCommandRecordArrival e port framed record s
  | .responseEnd e port => Sys2Proof.Machine.execResponseEnd e port s
  | .portAbsent e port => Sys2Proof.Machine.execPortAbsent e port s
  | .attentionPulse e port => Sys2Proof.Machine.execAttentionPulse e port s
  | .attentionPulseEnd e port => Sys2Proof.Machine.execAttentionPulseEnd e port s
  | .presence c phase => Sys2Proof.Machine.execPresence c phase s
  | .takeNotices c selector => Sys2Proof.Machine.execTakeNotices c selector s
  | .ackAttention c => Sys2Proof.Machine.execAckAttention c s
  | .setReference c source => Sys2Proof.Machine.execSetReference c source s
  | .setTimecodeMode c mode counting => Sys2Proof.Machine.execSetTimecodeMode c mode counting s
  | .jamTimecode c timecode => Sys2Proof.Machine.execJamTimecode c timecode s
  | .setRate c rate => Sys2Proof.Machine.execSetRate c rate s
  | .readTimebase c => Sys2Proof.Machine.execReadTimebase c s
  | .openStream c stream => Sys2Proof.Machine.execOpenStream c stream s
  | .holdStream c stream policy => Sys2Proof.Machine.execHoldStream c stream policy s
  | .releaseStream c stream => Sys2Proof.Machine.execReleaseStream c stream s
  | .closeStream c stream => Sys2Proof.Machine.execCloseStream c stream s
  | .setStream c stream binding => Sys2Proof.Machine.execSetStream c stream binding s
  | .setRing c ring base size enabled policy => Sys2Proof.Machine.execSetRing c ring base size enabled policy s
  | .fetch c stream unit offset length => Sys2Proof.Machine.execFetch c stream unit offset length s
  | .insert c stream data final => Sys2Proof.Machine.execInsert c stream data final s
  | .readStream c stream => Sys2Proof.Machine.execReadStream c stream s
  | .readRing c ring => Sys2Proof.Machine.execReadRing c ring s
  | .readUnit c stream unit => Sys2Proof.Machine.execReadUnit c stream unit s
  | .setInput c input format => Sys2Proof.Machine.execSetInput c input format s
  | .setPicture c stream source format mode rFix rMin rMax weight bf => Sys2Proof.Machine.execSetPicture c stream source format mode rFix rMin rMax weight bf s
  | .coderReset c => Sys2Proof.Machine.execCoderReset c s
  | .readInput c input => Sys2Proof.Machine.execReadInput c input s
  | .readPicture c stream => Sys2Proof.Machine.execReadPicture c stream s
  | .setChannel c channel delay polarity => Sys2Proof.Machine.execSetChannel c channel delay polarity s
  | .setGain c channel bus target ramp => Sys2Proof.Machine.execSetGain c channel bus target ramp s
  | .setBusGain c bus target ramp => Sys2Proof.Machine.execSetBusGain c bus target ramp s
  | .setMeter c bus threshold frames => Sys2Proof.Machine.execSetMeter c bus threshold frames s
  | .mixerReset c => Sys2Proof.Machine.execMixerReset c s
  | .readChannel c channel => Sys2Proof.Machine.execReadChannel c channel s
  | .readBus c bus => Sys2Proof.Machine.execReadBus c bus s
  | .setPath c path enabled pauseLimit lineRate => Sys2Proof.Machine.execSetPath c path enabled pauseLimit lineRate s
  | .clearLoss c path selector => Sys2Proof.Machine.execClearLoss c path selector s
  | .setSpread c mask => Sys2Proof.Machine.execSetSpread c mask s
  | .addDirected c stream mask => Sys2Proof.Machine.execAddDirected c stream mask s
  | .removeDirected c stream => Sys2Proof.Machine.execRemoveDirected c stream s
  | .setBond c pair bonded => Sys2Proof.Machine.execSetBond c pair bonded s
  | .pathReset c path => Sys2Proof.Machine.execPathReset c path s
  | .pathRelease c path => Sys2Proof.Machine.execPathRelease c path s
  | .readPath c path => Sys2Proof.Machine.execReadPath c path s
  | .readSpread c => Sys2Proof.Machine.execReadSpread c s
  | .readSend c ring => Sys2Proof.Machine.execReadSend c ring s
  | .setGauge c auto window => Sys2Proof.Machine.execSetGauge c auto window s
  | .startGauge c path mode gate => Sys2Proof.Machine.execStartGauge c path mode gate s
  | .readGauge c path => Sys2Proof.Machine.execReadGauge c path s
  | .setBudget c source fixed headroom res12 res13 res14 res15 => Sys2Proof.Machine.execSetBudget c source fixed headroom res12 res13 res14 res15 s
  | .readBudget c => Sys2Proof.Machine.execReadBudget c s
  | .openClip c mask name => Sys2Proof.Machine.execOpenClip c mask name s
  | .closeClip c clip => Sys2Proof.Machine.execCloseClip c clip s
  | .releaseClip c clip => Sys2Proof.Machine.execReleaseClip c clip s
  | .addLabel c kind value text clip => Sys2Proof.Machine.execAddLabel c kind value text clip s
  | .setSelection c kind source setting => Sys2Proof.Machine.execSetSelection c kind source setting s
  | .setTrigger c trigger kind source pattern mask action rearm => Sys2Proof.Machine.execSetTrigger c trigger kind source pattern mask action rearm s
  | .armTrigger c trigger => Sys2Proof.Machine.execArmTrigger c trigger s
  | .disarmTrigger c trigger => Sys2Proof.Machine.execDisarmTrigger c trigger s
  | .logReset c => Sys2Proof.Machine.execLogReset c s
  | .readClip c clip => Sys2Proof.Machine.execReadClip c clip s
  | .readLabels c first count => Sys2Proof.Machine.execReadLabels c first count s
  | .readLog c => Sys2Proof.Machine.execReadLog c s
  | .setTally c output kind number => Sys2Proof.Machine.execSetTally c output kind number s
  | .setOverride c output value => Sys2Proof.Machine.execSetOverride c output value s
  | .readTally c => Sys2Proof.Machine.execReadTally c s
  | .setRights c port classes streams => Sys2Proof.Machine.execSetRights c port classes streams s
  | .readRights c => Sys2Proof.Machine.execReadRights c s
  | .setNoticeMask c mask => Sys2Proof.Machine.execSetNoticeMask c mask s
  | .readSummary c => Sys2Proof.Machine.execReadSummary c s
  | .setAttention c mode => Sys2Proof.Machine.execSetAttention c mode s
  | .readNotices c => Sys2Proof.Machine.execReadNotices c s
  | .hubReset c => Sys2Proof.Machine.execHubReset c s
  | .readPart c => Sys2Proof.Machine.execReadPart c s
  | .pulseLineDeasserted e port => Sys2Proof.Machine.execPulseLineDeasserted e port s

end Sys2Proof.Machine
end

