-- ==== Sys2Proof/Machine/Spelling.lean ====
section
/-! DEFINITION. How a master spells a command (Tables 68 and 76): the port, code, class and stream argument of each
command, and its arguments as the bytes of a command record. -/

namespace Sys2Proof.Machine

/-- What Table 76 and Table 61 give of a command: who sends it, its code, its class (none for the three commands of no
class), and the byte that names the stream whose right it needs. -/
structure Header where
  caller : Caller
  code : Byte
  cls : Option CommandClass
  stream : Option Byte

/-- The header of a command of a master port; an event has none. -/
def header : Instr → Option Header
  | .presence c _ => some ⟨c, 0x01, none, none⟩
  | .takeNotices c _ => some ⟨c, 0x02, none, none⟩
  | .ackAttention c => some ⟨c, 0x03, none, none⟩
  | .setReference c _ => some ⟨c, 0x10, some .time, none⟩
  | .setTimecodeMode c _ _ => some ⟨c, 0x11, some .time, none⟩
  | .jamTimecode c _ => some ⟨c, 0x12, some .time, none⟩
  | .setRate c _ => some ⟨c, 0x13, some .time, none⟩
  | .readTimebase c => some ⟨c, 0x14, some .time, none⟩
  | .openStream c k => some ⟨c, 0x20, some .store, some k⟩
  | .holdStream c k _ => some ⟨c, 0x21, some .store, some k⟩
  | .releaseStream c k => some ⟨c, 0x22, some .store, some k⟩
  | .closeStream c k => some ⟨c, 0x23, some .store, some k⟩
  | .setStream c k _ => some ⟨c, 0x24, some .store, some k⟩
  | .setRing c r _ _ _ _ => some ⟨c, 0x25, some .store, some r⟩
  | .fetch c k _ _ _ => some ⟨c, 0x26, some .store, some k⟩
  | .insert c k _ _ => some ⟨c, 0x27, some .store, some k⟩
  | .readStream c k => some ⟨c, 0x28, some .store, some k⟩
  | .readRing c r => some ⟨c, 0x29, some .store, some r⟩
  | .readUnit c k _ => some ⟨c, 0x2A, some .store, some k⟩
  | .setInput c _ _ => some ⟨c, 0x30, some .code, none⟩
  | .setPicture c k _ _ _ _ _ _ _ _ => some ⟨c, 0x31, some .code, some k⟩
  | .coderReset c => some ⟨c, 0x32, some .code, none⟩
  | .readInput c _ => some ⟨c, 0x33, some .code, none⟩
  | .readPicture c k => some ⟨c, 0x34, some .code, some k⟩
  | .setChannel c _ _ _ => some ⟨c, 0x40, some .mix, none⟩
  | .setGain c _ _ _ _ => some ⟨c, 0x41, some .mix, none⟩
  | .setBusGain c _ _ _ => some ⟨c, 0x42, some .mix, none⟩
  | .setMeter c _ _ _ => some ⟨c, 0x43, some .mix, none⟩
  | .mixerReset c => some ⟨c, 0x44, some .mix, none⟩
  | .readChannel c _ => some ⟨c, 0x45, some .mix, none⟩
  | .readBus c _ => some ⟨c, 0x46, some .mix, none⟩
  | .setPath c _ _ _ _ => some ⟨c, 0x50, some .link, none⟩
  | .clearLoss c _ _ => some ⟨c, 0x51, some .link, none⟩
  | .setSpread c _ => some ⟨c, 0x52, some .link, none⟩
  | .addDirected c k _ => some ⟨c, 0x53, some .link, some k⟩
  | .removeDirected c k => some ⟨c, 0x54, some .link, some k⟩
  | .setBond c _ _ => some ⟨c, 0x55, some .link, none⟩
  | .pathReset c _ => some ⟨c, 0x56, some .link, none⟩
  | .pathRelease c _ => some ⟨c, 0x57, some .link, none⟩
  | .readPath c _ => some ⟨c, 0x58, some .link, none⟩
  | .readSpread c => some ⟨c, 0x59, some .link, none⟩
  | .readSend c _ => some ⟨c, 0x5A, some .link, none⟩
  | .setGauge c _ _ => some ⟨c, 0x60, some .gauge, none⟩
  | .startGauge c _ _ _ => some ⟨c, 0x61, some .gauge, none⟩
  | .readGauge c _ => some ⟨c, 0x62, some .gauge, none⟩
  | .setBudget c _ _ _ _ _ _ _ => some ⟨c, 0x63, some .gauge, none⟩
  | .readBudget c => some ⟨c, 0x64, some .gauge, none⟩
  | .openClip c _ _ => some ⟨c, 0x70, some .log, none⟩
  | .closeClip c _ => some ⟨c, 0x71, some .log, none⟩
  | .releaseClip c _ => some ⟨c, 0x72, some .log, none⟩
  | .addLabel c _ _ _ _ => some ⟨c, 0x73, some .log, none⟩
  | .setSelection c _ _ _ => some ⟨c, 0x74, some .log, none⟩
  | .setTrigger c _ _ _ _ _ _ _ => some ⟨c, 0x75, some .log, none⟩
  | .armTrigger c _ => some ⟨c, 0x76, some .log, none⟩
  | .disarmTrigger c _ => some ⟨c, 0x77, some .log, none⟩
  | .logReset c => some ⟨c, 0x78, some .log, none⟩
  | .readClip c _ => some ⟨c, 0x79, some .log, none⟩
  | .readLabels c _ _ => some ⟨c, 0x7A, some .log, none⟩
  | .readLog c => some ⟨c, 0x7B, some .log, none⟩
  | .setTally c _ _ _ => some ⟨c, 0x80, some .tally, none⟩
  | .setOverride c _ _ => some ⟨c, 0x81, some .tally, none⟩
  | .readTally c => some ⟨c, 0x82, some .tally, none⟩
  | .setRights c _ _ _ => some ⟨c, 0x90, some .rights, none⟩
  | .readRights c => some ⟨c, 0x91, some .rights, none⟩
  | .setNoticeMask c _ => some ⟨c, 0xA0, some .notice, none⟩
  | .readSummary c => some ⟨c, 0xA1, some .notice, none⟩
  | .setAttention c _ => some ⟨c, 0xA2, some .notice, none⟩
  | .readNotices c => some ⟨c, 0xA3, some .notice, none⟩
  | .hubReset c => some ⟨c, 0xB0, some .part, none⟩
  | .readPart c => some ⟨c, 0xB1, some .part, none⟩
  | .partReset _ | .resetRelease _ _ _ | .dividerExpiry _ | .referencePulse _ | .pulseTimeout _ | .readerArrival _ _
  | .readerStateTimeout _ | .receiverLossOfLock _ _ | .receiverFormatReport _ _ _ | .lineCheckFailure _ _
  | .captureEnd _ _ | .pictureStart _ _ | .sliceStart _ _ | .sliceEnd _ _ _ | .lateDrop _ _ | .limitClose _ _
  | .mixerSample _ _ | .muteEnd _ _ | .pauseTimeout _ _ | .backChannelBreak _ _ | .framingError _ _ | .idleFill _ _
  | .receiptReport _ _ _ _ _ | .unitTakeUp _ _ | .fragmentPlacement _ _ | .transmissionEnd _ _ | .releaseDue _ _
  | .step1End _ _ | .step2Expiry _ _ | .timeGaugeEnd _ _ | .volumeGaugeExpiry _ _ | .supplyWarningAssert _
  | .supplyWarningDeassert _ | .commandRecordArrival _ _ _ _ | .responseEnd _ _ | .portAbsent _ _
  | .attentionPulse _ _ | .attentionPulseEnd _ _ | .pulseLineDeasserted _ _ => none

/-- A text field: its length byte and its 64 bytes (Table 68). -/
def textField (t : TextArg) : Bytes := t.len :: t.bytes

/-- A two-byte field. -/
def word2 (w : BitVec 16) : Bytes := le 2 w.toNat

/-- The action of SET TRIGGER as it is carried (R195); code 2 stands for every action that Table 54 does not give. -/
def actionField : ActionArg → Bytes
  | .start mask => 0 :: word2 mask
  | .stop partner => [1, partner]
  | .unknown => [2]

/-- The arguments of a command as the bytes of its record (Table 68); an event has none. -/
def arguments : Instr → Bytes
  | .presence _ a => [a]
  | .takeNotices _ a => [a]
  | .setReference _ a => [a]
  | .setTimecodeMode _ a b => [a, b]
  | .jamTimecode _ w => word4 w
  | .setRate _ a => [a]
  | .openStream _ k => [k]
  | .holdStream _ k a => [k, a]
  | .releaseStream _ k => [k]
  | .closeStream _ k => [k]
  | .setStream _ k a => [k, a]
  | .setRing _ r base size enabled policy => r :: (word4 base ++ (word4 size ++ (flagByte enabled ++ [policy])))
  | .fetch _ k u offset length => k :: (word4 u ++ (word4 offset ++ word2 length))
  | .insert _ k data final => k :: (le 2 data.length ++ (data ++ flagByte final))
  | .readStream _ k => [k]
  | .readRing _ r => [r]
  | .readUnit _ k u => k :: word4 u
  | .setInput _ i f => [i, f]
  | .setPicture _ k source format mode rFix rMin rMax weight bf =>
    k :: source :: format :: mode :: (word4 rFix ++ (word4 rMin ++ (word4 rMax ++ [weight, bf])))
  | .readInput _ i => [i]
  | .readPicture _ k => [k]
  | .setChannel _ ch delay polarity => ch :: (word2 delay ++ [polarity])
  | .setGain _ ch bus target ramp => ch :: bus :: (word2 target ++ word2 ramp)
  | .setBusGain _ bus target ramp => bus :: (word2 target ++ word2 ramp)
  | .setMeter _ bus threshold frames => bus :: (word4 threshold ++ [frames])
  | .readChannel _ ch => [ch]
  | .readBus _ bus => [bus]
  | .setPath _ p enabled pauseLimit lineRate => p :: (flagByte enabled ++ (pauseLimit :: word2 lineRate))
  | .clearLoss _ p sel => [p, sel]
  | .setSpread _ mask => [mask]
  | .addDirected _ k mask => [k, mask]
  | .removeDirected _ k => [k]
  | .setBond _ pair bonded => pair :: flagByte bonded
  | .pathReset _ p => [p]
  | .pathRelease _ p => [p]
  | .readPath _ p => [p]
  | .readSend _ r => [r]
  | .setGauge _ auto window => flagByte auto ++ [window]
  | .startGauge _ p mode gate => p :: mode :: word4 gate
  | .readGauge _ p => [p]
  | .setBudget _ source fixed headroom r12 r13 r14 r15 =>
    source :: (le 8 fixed.toNat ++ (word2 headroom ++ (word4 r12 ++ (word4 r13 ++ (word4 r14 ++ word4 r15)))))
  | .openClip _ mask name => word2 mask ++ optField 65 textField name
  | .closeClip _ clip => word4 clip
  | .releaseClip _ clip => word4 clip
  | .addLabel _ kind value text clip =>
    kind :: (optField 4 word4 value ++ (textField text ++ optField 4 word4 clip))
  | .setSelection _ kind source setting => [kind, source, setting]
  | .setTrigger _ t kind source pattern mask action rearm =>
    t :: kind :: source :: (word4 pattern ++ (word4 mask ++ (actionField action ++ [rearm])))
  | .armTrigger _ t => [t]
  | .disarmTrigger _ t => [t]
  | .readClip _ clip => word4 clip
  | .readLabels _ first count => word4 first ++ [count]
  | .setTally _ output kind number => [output, kind, number]
  | .setOverride _ output value => [output, value]
  | .setRights _ port classes streams => port :: (word2 classes ++ word2 streams)
  | .setNoticeMask _ mask => word4 mask
  | .setAttention _ mode => [mode]
  | .ackAttention _ | .readTimebase _ | .coderReset _ | .mixerReset _ | .readSpread _ | .readBudget _ | .logReset _
  | .readLog _ | .readTally _ | .readRights _ | .readSummary _ | .readNotices _ | .hubReset _ | .readPart _ => []
  | .partReset _ | .resetRelease _ _ _ | .dividerExpiry _ | .referencePulse _ | .pulseTimeout _ | .readerArrival _ _
  | .readerStateTimeout _ | .receiverLossOfLock _ _ | .receiverFormatReport _ _ _ | .lineCheckFailure _ _
  | .captureEnd _ _ | .pictureStart _ _ | .sliceStart _ _ | .sliceEnd _ _ _ | .lateDrop _ _ | .limitClose _ _
  | .mixerSample _ _ | .muteEnd _ _ | .pauseTimeout _ _ | .backChannelBreak _ _ | .framingError _ _ | .idleFill _ _
  | .receiptReport _ _ _ _ _ | .unitTakeUp _ _ | .fragmentPlacement _ _ | .transmissionEnd _ _ | .releaseDue _ _
  | .step1End _ _ | .step2Expiry _ _ | .timeGaugeEnd _ _ | .volumeGaugeExpiry _ _ | .supplyWarningAssert _
  | .supplyWarningDeassert _ | .commandRecordArrival _ _ _ _ | .responseEnd _ _ | .portAbsent _ _
  | .attentionPulse _ _ | .attentionPulseEnd _ _ | .pulseLineDeasserted _ _ => []

/-- A command record as a master sends it (Table 69): length, tag, code, arguments and CRC-32. -/
def recordOf (tag code : Byte) (args : Bytes) : Bytes :=
  let body := le 2 (8 + args.length) ++ [tag, code] ++ args
  body ++ word4 (crc32 body)

end Sys2Proof.Machine
end

