-- ==== Sys2Proof/WellFormed.lean ====
section
/-! DEFINITION. Which commands a sender can form: the lengths that Table 68 and Table 27 fix and that the types of
Syntax.lean leave open.  A meaning does not ask for well-formedness; it is total on every term. -/

namespace Sys2Proof

/-- A text field is a length byte and exactly 64 text bytes (Table 68); a length byte above 64 is still a field that
a master can send, and the command's rule refuses it. -/
def TextArg.wellFormed (t : TextArg) : Bool := t.bytes.length == 64

/-- The reads of one unit return at most a whole unit, so a byte read wrong lies within 64 header bytes and the
largest payload of section 11.5 (34,000,000 bytes). -/
def ReadFault.wellFormed (f : ReadFault) : Bool := f.asRead.all fun x => decide (x.1 < 34000064)

/-- Every fault of the outside world's read list is well formed. -/
def Env.wellFormed (e : Env) : Bool := e.ecc.all ReadFault.wellFormed

/-- A command that a sender can form: data fit the two-byte count of Table 68, a sample period brings 64 samples
(Table 27), text fields are whole, and the reads of the commands that read units are well formed. -/
def Instr.wellFormed : Instr → Bool
  | .mixerSample _ x => x.samples.length == 64
  | .insert _ _ data _ => decide (data.length < 65536)
  | .openClip _ _ (some t) => t.wellFormed
  | .addLabel _ _ _ t _ => t.wellFormed
  | .fetch c _ _ _ _ => c.env.wellFormed
  | .unitTakeUp e _ => e.wellFormed
  | .fragmentPlacement e _ => e.wellFormed
  | .commandRecordArrival e _ _ _ => e.wellFormed
  | .responseEnd e _ => e.wellFormed
  | _ => true

end Sys2Proof
end

