-- ==== Sys2Proof/Safety.lean ====
section
/-! DEFINITION. The terms in which claims about the MN7240 are stated: when a command reaches its block, what a response
is, which parts of the hub a step leaves alone, and the properties that every step keeps. -/

namespace Sys2Proof.Machine

/-! ### Taking a command -/

/-- The part is out of Part reset and the port may give the command: it is PRESENT, its class mask holds the command's
class and its stream mask the stream that the command names (R171).  Then the command reaches its block.  Nothing is asked
of the response link: a response that finds it busy takes the place of the one on it (log entry 23). -/
def State.Serves (s : State) (c : Caller) (cls : Option CommandClass) (stream : Option (Fin 16)) : Prop :=
  s.held = false ∧ (s.hub.ports[c.port]).present = true ∧
    (∀ x, cls = some x → s.hub.hasClass c.port x = true) ∧ ∀ k, stream = some k → s.hub.hasStream c.port k.val = true

/-- The hub with a response on the link of the caller's port: outcome and result data under the command's tag and code, and
the counts raised (R170, R171).  A response that the link still carries is replaced (log entry 23). -/
def Hub.answer (h : Hub) (c : Caller) (code : Byte) (o : Answer) (data : Bytes) : Hub :=
  { h with
    ports := h.ports.set c.port
      { h.ports[c.port] with
        sending := some (false, { tag := c.tag, code := code, outcome := o, data := data })
        counts := (h.ports[c.port]).counts.answer o } }

/-- The outcome of a command that changes the hub alone: the queue and the RESET pin stay. -/
def State.became (s : State) (h : Hub) : Host.Outcome State Fault Refusal := .next { s with hub := h }

/-- A number as an argument byte. -/
def byte (n : Nat) : Byte := BitVec.ofNat 8 n

/-- R75: what one ramp step makes of a gain, in exact integers; the quotient is truncated toward zero. -/
def Gain.Ramped (a b : Gain) : Prop :=
  b.target = a.target ∧ (a.r = 0 → b = a) ∧ (a.r = 1 → b.g = a.target ∧ b.r = 0) ∧
    (2 ≤ a.r → b.r = a.r - 1 ∧ (b.g : Int) = a.g + ((a.target : Int) - a.g).tdiv a.r)

/-! ### Frames -/

/-- The parts of the hub for frames: the Store in three (streams, rings, memory), the Path Controller in three (the path
records, the settings that map streams to paths, the arbiters), every other block whole. -/
inductive Part where
  | strap | timebase | streams | rings | memory | inputs | coders | mixer | pathRecords | mapping | sending | gauges
  | budget | log | tally | ports | notices
  deriving DecidableEq, Repr

/-- Whether two hubs agree on a part. -/
def Part.same (x : Part) (g h : Hub) : Prop :=
  match x with
  | .strap => g.strap = h.strap
  | .timebase => g.tb = h.tb
  | .streams => g.store.streams = h.store.streams
  | .rings => g.store.rings = h.store.rings
  | .memory => g.store.mem = h.store.mem
  | .inputs => g.inputs = h.inputs
  | .coders => g.coders = h.coders
  | .mixer => g.mixer = h.mixer
  | .pathRecords => g.paths.path = h.paths.path
  | .mapping => g.paths.spread = h.paths.spread ∧ g.paths.directed = h.paths.directed ∧ g.paths.bonds = h.paths.bonds
  | .sending => g.paths.sends = h.paths.sends ∧ g.paths.arbiters = h.paths.arbiters
  | .gauges => g.gauges = h.gauges
  | .budget => g.budget = h.budget
  | .log => g.log = h.log
  | .tally => g.tally = h.tally
  | .ports => g.ports = h.ports
  | .notices => g.notices = h.notices

/-- Nothing outside the listed parts differs. -/
def Hub.OnlyChanges (parts : List Part) (g h : Hub) : Prop := ∀ x, x ∉ parts → x.same g h

/-! ### Paths -/

/-- Table 38: the state and down reason of a path follow its hold, enabled flag, lines, loss latch and pause-timeout mark,
the first row that applies. -/
def Path.Table38 (x : Path) : Prop :=
  (x.hold = true → x.state = .reset ∧ x.reason = .none) ∧
    (x.hold = false → x.enabled = false → x.state = .off ∧ x.reason = .none) ∧
    (x.hold = false → x.enabled = true →
      (x.lines.getLsbD 1 = false → x.state = .down ∧ x.reason = .carrier) ∧
        (x.lines.getLsbD 1 = true →
          (x.lines.getLsbD 2 = false → x.state = .down ∧ x.reason = .linkOk) ∧
            (x.lines.getLsbD 2 = true →
              (x.loss = true → x.state = .down ∧ x.reason = .loss) ∧
                (x.loss = false →
                  (x.timeoutMark = true → x.state = .down ∧ x.reason = .pauseTimeout) ∧
                    (x.timeoutMark = false →
                      x.state = (if x.lines.getLsbD 0 then .up else .paused) ∧ x.reason = .none)))))

/-- R92: what an entry into OFF, RESET or DOWN leaves of a path: an empty FIFO, its packets lost in flight, and no
baseline. -/
def Path.Emptied (old new : Path) : Prop :=
  new.fifo = [] ∧ new.transmitting = false ∧ new.baseline = none ∧
    new.counts.lostInFlight = old.counts.lostInFlight + BitVec.ofNat 32 old.fifo.length

/-- R92, R104: what an entry into its new state makes of a path.  OFF, RESET and DOWN empty it, OFF and RESET clear the
pause-timeout mark too; PAUSED and UP keep its FIFO, its baseline and a transmission under way, PAUSED with its pause count at
0, UP with the oldest packet beginning to leave. -/
def Path.Entered (old new : Path) : Prop :=
  let kept := new.fifo = old.fifo ∧ new.baseline = old.baseline ∧ new.counts.lostInFlight = old.counts.lostInFlight
  (new.state = .off ∨ new.state = .reset ∨ new.state = .down → old.Emptied new) ∧
    (new.state = .off ∨ new.state = .reset → new.timeoutMark = false) ∧
    (new.state = .paused → kept ∧ new.transmitting = old.transmitting ∧ new.pauseCount = 0) ∧
    (new.state = .up → kept ∧ new.transmitting = (old.transmitting || decide (old.fifo ≠ [])))

/-- What a path keeps while its state stays. -/
def Path.Unmoved (old new : Path) : Prop :=
  new.fifo = old.fifo ∧ new.baseline = old.baseline ∧ new.transmitting = old.transmitting ∧
    new.counts.lostInFlight = old.counts.lostInFlight

/-- The ASCII bytes of a text. -/
def ascii (s : String) : Bytes := s.toList.map fun c => BitVec.ofNat 8 c.toNat

/-- R92: the text of the label that tells a path's state. -/
def Path.labelText (x : Path) : Bytes :=
  match x.state with
  | .off => ascii "OFF"
  | .reset => ascii "RESET"
  | .up => ascii "UP"
  | .paused => ascii "PAUSED"
  | .down => ascii "DOWN " ++
    match x.reason with
    | .none => []
    | .carrier => ascii "CARRIER"
    | .linkOk => ascii "LINK_OK"
    | .loss => ascii "LOSS"
    | .pauseTimeout => ascii "PAUSE_TIMEOUT"

/-- Every port has the summary flag of a notice raised since an earlier hub, and the notice in its queue if its mask asks for
it and the queue is not full. -/
def Hub.Told (g h : Hub) (x : Notice) : Prop :=
  ∀ q : Fin 4, (h.notices[q]).summary.getLsbD x.kind.code = true ∧
    ((g.notices[q]).mask.getLsbD x.kind.code = true → (h.notices[q]).queue.length < 32 → x ∈ (h.notices[q]).queue)

/-- R92: the labels of path p filed between two hubs, those with source LINK and its number as value: one where its state
changed and the selection keeps it, PATH_UP or PATH_DOWN, dated by a frame; else none. -/
def Hub.PathLabelled (g h : Hub) (p : Fin 8) (frame : Frame) : Prop :=
  let x := h.paths.path[p]
  let kind := if x.state = .up then LabelKind.pathUp else .pathDown
  ∃ new, h.log.labels = g.log.labels ++ new ∧
    ((new.filter fun y => y.source == .link && y.value == some (BitVec.ofNat 32 p.val)).map fun y =>
        (y.kind, y.serial, y.tc, y.text)) =
      if x.state ≠ (g.paths.path[p]).state ∧ g.log.keeps kind .link = true then [(kind, frame.serial, frame.tc, x.labelText)]
      else []

/-- R92, R99: pair j between two hubs.  When one of its paths has left OFF or RESET (OFF for RESET too: log entry 50) the bond
in force takes the setting, and the alternation becomes EVEN if that changes it; else the bond is as it was. -/
def Hub.BondFollows (g h : Hub) (j : Fin 4) : Prop :=
  let b := g.paths.bonds[j]
  let leaves := ∃ p : Fin 8, p.val / 2 = j.val ∧ (h.paths.path[p]).state ≠ (g.paths.path[p]).state ∧
    ((g.paths.path[p]).state = .off ∨ (g.paths.path[p]).state = .reset)
  (leaves → h.paths.bonds[j] = { b with inForce := b.setting, odd := if b.inForce = b.setting then b.odd else false }) ∧
    (¬ leaves → h.paths.bonds[j] = b)

/-- R92, R99: what the changes of path states between two hubs did, each path's at most one, in a frame: the path entered its
state, PATH_STATE was given, the label was filed where the Label Store has room (2048 free places hold every label of a tick),
and the bonds of the pairs follow. -/
def Hub.PathsMoved (g h : Hub) (frame : Frame) : Prop :=
  (∀ p : Fin 8,
    let x := g.paths.path[p]
    let y := h.paths.path[p]
    let code := match y.state with
      | .off => 0
      | .reset => 1
      | .down => 2
      | .up => 3
      | .paused => 4
    (y.state = x.state → x.Unmoved y) ∧
      (y.state ≠ x.state → x.Entered y ∧
        g.Told h { kind := .pathState, param := BitVec.ofNat 32 (p.val + 256 * code), serial := frame.serial })) ∧
    (g.log.labels.length ≤ 2048 → ∀ p : Fin 8, g.PathLabelled h p frame) ∧ ∀ j : Fin 4, g.BondFollows h j

/-- R90: the lines of path p were sampled between two hubs, in a frame of a serial: the copy holds them, and a line that differs
set the change latch and gave PATH_CHANGE with the old and the new values. -/
def Hub.Sampled (g h : Hub) (p : Fin 8) (lines : BitVec 4) (serial : Word) : Prop :=
  let x := g.paths.path[p]
  let y := h.paths.path[p]
  y.lines = lines ∧ y.change = (x.change || decide (lines ≠ x.lines)) ∧
    (lines ≠ x.lines →
      g.Told h { kind := .pathChange, param := BitVec.ofNat 32 (p.val + 256 * x.lines.toNat + 65536 * lines.toNat),
                 serial := serial })

/-- The parts of the hub that a change of a path's state can change: its record and bond, what the Gauge and the Budget
make of it, the label and the unit that carries it, and the notices. -/
def pathParts : List Part :=
  [.streams, .rings, .memory, .pathRecords, .mapping, .sending, .gauges, .budget, .log, .notices]

/-- R118, R122: what is left of a path's gauge when the path leaves UP or PAUSED.  A running cycle is aborted and counted, a
manual gauge is aborted with all ones for its result, and C, S and E are 0 (C and S with no cycle running too: log entry 11);
the last V0 and T1 and the count of completed cycles stay. -/
def Gauge.Left (old new : Gauge) : Prop :=
  new.phase = .idle ∧ new.aborted = (if old.phase = .idle then old.aborted else old.aborted + 1) ∧
    new.completed = old.completed ∧ new.lastV0 = old.lastV0 ∧ new.lastT1 = old.lastT1 ∧ new.c = 0 ∧ new.s = 0 ∧ new.e = 0 ∧
    new.manual = .idle ∧ new.volume = old.volume ∧
    new.result = (if old.manual = .idle then old.result else some (old.volume, 4294967295))

/-- R118, R122: between two hubs path p, and no other path, left UP or PAUSED: its gauge is left as the rules say, the abort of
a manual gauge gives GAUGE_DONE and that of a cycle does not, and the Budget recomputed once. -/
def Hub.GaugeLeft (g h : Hub) (p : Fin 8) : Prop :=
  (g.gauges.path[p]).Left h.gauges.path[p] ∧ (∀ q, q ≠ p → h.gauges.path[q] = g.gauges.path[q]) ∧
    h.gauges.auto = g.gauges.auto ∧ h.gauges.window = g.gauges.window ∧
    (∀ q : Fin 4, (h.notices[q]).summary.getLsbD 14 =
      ((g.notices[q]).summary.getLsbD 14 || decide ((g.gauges.path[p]).manual ≠ .idle))) ∧
    h.budget.recomputations = g.budget.recomputations + 1

/-- R105: ring r can supply path p: it is backlogged, holds a unit, and the unit's next fragment maps to p; `flip` when
the placement flips the alternation of the path's pair. -/
def Hub.Supplies (h : Hub) (p : Fin 8) (r : Fin 17) (x : Taken) (flip : Bool) : Prop :=
  h.backlogged r = true ∧ (h.paths.sends[r]).taken = some x ∧ h.paths.mapTo x.stream x.unit x.next = some (p, flip)

/-- Section 5.5: class 0 is streams 4 to 12. -/
def Taken.IsClass0 (x : Taken) : Prop := 4 ≤ x.stream.val ∧ x.stream.val ≤ 12

/-- R37: the unit of ring G with a G-number, of stream k, is passed and not sent: its stream is HELD or CLOSING from HELD, or
its G-number lies below the stream's release mark, counted from the ring's tail. -/
def Hub.PassesOver (h : Hub) (k : Fin 16) (n : Word) : Prop :=
  let st := h.stream k
  let tail := (((h.ring 16).index.head?).map fun x => x.g.getD 0).getD (h.ring 16).head
  st.state = .held ∨ (st.state = .closing ∧ st.fromHeld = true) ∨ (n - tail).toNat < (st.releaseMark - tail).toNat

/-- Ring r holds a unit, with none of its fragments placed, whose entry at the send pointer has been flagged DAMAGED since it
was taken up. -/
def Hub.HoldsFlagged (h : Hub) (r : Fin 17) (x : Taken) (y : Entry) : Prop :=
  (h.paths.sends[r]).taken = some x ∧ x.next = 0 ∧ y.flags.damaged = true ∧
    (h.ring r).index.find? (fun z => (if r = 16 then z.g.getD 0 else z.unit) = (h.ring r).send) = some y

/-- Ring r neither takes a unit up nor passes one before a placement: it holds a unit if it is backlogged, a unit that it
holds and has not begun is not flagged, and one that ring G holds meets the tests of R37. -/
def Hub.Ready (h : Hub) (r : Fin 17) : Prop :=
  (h.backlogged r = true → (h.paths.sends[r]).taken ≠ none) ∧ (∀ x y, ¬ h.HoldsFlagged r x y) ∧
    ∀ x, r = 16 → (h.paths.sends[r]).taken = some x → ¬ h.PassesOver x.stream (x.g.getD 0)

/-- No ring takes a unit up or passes one before a placement. -/
def Hub.TakenUp (h : Hub) : Prop := ∀ r, h.Ready r

/-- R36, R37, R101, R106: the hub in which ring r has passed the unit at its send pointer unsent: counted to its stream as
skipped when R37 passes it, to the ring as damaged otherwise; the context is empty, and the ring's deficits are 0 on every
path if that ended its backlog. -/
def Hub.passing (h : Hub) (r : Fin 17) (skips : Option (Fin 16)) : Hub :=
  let c := h.paths.sends[r]
  let g : Hub :=
    { h with
      store := { h.store with
        streams := Vector.ofFn fun k =>
          if skips = some k then { h.store.streams[k] with skipped := (h.store.streams[k]).skipped + 1 }
          else h.store.streams[k]
        rings := h.store.rings.set r { h.store.rings[r] with send := (h.store.rings[r]).send + 1 } }
      paths := { h.paths with
        sends := h.paths.sends.set r
          { c with taken := none, passedDamaged := if skips = none then c.passedDamaged + 1 else c.passedDamaged } } }
  if g.backlogged r then g
  else { g with paths := { g.paths with
    arbiters := g.paths.arbiters.map fun a => { a with deficits := a.deficits.set r 0 } } }

/-- R102, R103: between two hubs the next fragment of ring r's unit was placed in path p's FIFO as one packet: a header
(Table 74) with its check, and up to 1200 bytes of the unit; after the last fragment the unit is sent, which sets the sent
mark of a picture stream (R159).  The tally is unchanged otherwise. -/
def Hub.Placed (g h : Hub) (p : Fin 8) (r : Fin 17) (x : Taken) : Prop :=
  let old := g.paths.path[p]
  let new := h.paths.path[p]
  let data := (x.bytes.drop (1200 * x.next)).take 1200
  let count := (x.bytes.length + 1199) / 1200
  let header := le 1 (g.strap.toNat / 4096) ++ le 1 p.val ++ le 1 x.stream.val ++ [x.flags.byte] ++ le 4 old.seq.toNat ++
    le 4 x.unit.toNat ++ le 4 (x.g.getD 0).toNat ++ le 4 x.serial.toNat ++ le 2 data.length ++ le 2 x.next ++ le 2 count ++
    zeros 2
  new.fifo = old.fifo ++ [header ++ le 4 (crc32 header).toNat ++ data] ∧ new.seq = old.seq + 1 ∧
    new.counts = { old.counts with placed := old.counts.placed + 1 } ∧ new.state = old.state ∧
    (∀ q, q ≠ p → h.paths.path[q] = g.paths.path[q]) ∧
    (x.next + 1 < count →
      (h.paths.sends[r]).taken = some { x with next := x.next + 1 } ∧ (h.paths.sends[r]).sent = (g.paths.sends[r]).sent ∧
        h.store = g.store) ∧
    (count ≤ x.next + 1 →
      (h.paths.sends[r]).taken = none ∧ (h.paths.sends[r]).sent = (g.paths.sends[r]).sent + 1 ∧
        (h.ring r).send = (g.ring r).send + 1 ∧ (h.ring r).head = (g.ring r).head ∧ (h.ring r).index = (g.ring r).index) ∧
    (∀ q, q ≠ r → h.paths.sends[q] = g.paths.sends[q]) ∧
    h.tally.entries = g.tally.entries ∧ h.tally.flash = g.tally.flash ∧
    ∀ k : Fin 4, h.tally.sent[k] = (g.tally.sent[k] || decide (count ≤ x.next + 1 ∧ x.stream = pictureStream k))

/-! ### Units in the Media Store -/

/-- Table 73: the unit header of an indexed unit whose dated frame has a cadence phase, with its producer fields. -/
def Hub.headerOf (h : Hub) (e : Entry) (phase : Nat) (producer : Bytes) : Bytes :=
  le 1 (h.strap.toNat / 4096) ++ le 1 e.stream.val ++ [e.flags.byte] ++ le 1 phase ++ le 4 e.unit.toNat ++
    le 4 (e.g.getD 0).toNat ++ le 4 e.payload ++ le 4 e.serial.toNat ++ tc4 e.tc ++ le 1 h.tb.rate.code ++ zeros 7 ++
    producer ++ zeros (32 - producer.length)

/-- R34: the sectors of an entry of ring r, read across the ring's end, hold the unit's header, its payload and zeros. -/
def Hub.Stores (h : Hub) (r : Fin 17) (e : Entry) (phase : Nat) (producer payload : Bytes) : Prop :=
  (h.ring r).readBytes h.store.mem e.start (512 * e.len) =
    h.headerOf e phase producer ++ payload ++ zeros (512 * e.len - (64 + payload.length))

/-- A byte of the DRAM outside `len` sectors of a ring, counted from a sector on and wrapped at the ring's end. -/
def Ring.Outside (x : Ring) (start len a : Nat) : Prop :=
  ∀ i, i < 512 * len → a ≠ 4096 * x.base + (512 * start + i) % (4096 * x.size)

/-! ### Clips -/

/-- R139, Table 50: stream k has passed the end of a clip in CLOSING by what the part holds, whatever was last offered.  A
stream that is CLOSING from HELD with DISCARD counts while that hold has not ended (log entry 54); a sound stream that still
has the unit of an ended frame to offer has not passed. -/
def Hub.HasPassed (h : Hub) (x : Clip) (k : Fin 16) : Prop :=
  let st := h.stream k
  if k.val < 4 then
    st.state = .closed ∨ (st.discard = true ∧ (st.state = .held ∨ (st.state = .closing ∧ st.fromHeld = true)))
  else
    (∃ w, x.endSerial = some w ∧ (h.tb.frame.serial - w).toNat < 2147483648) ∧
      ∀ j : Fin 8, k.val = 4 + j.val →
        (h.mixer.packs[j]).state = .idle ∨ (h.mixer.packs[j]).serial = h.tb.frame.serial

/-! ### Properties that every step keeps -/

/-- The memory is in its canonical form. -/
def Hub.MemoryOk (h : Hub) : Prop := Memory.wf h.store.mem = true

/-- R31: no ring holds more than 1024 units or more sectors than it has. -/
def Hub.RingsFit (h : Hub) : Prop :=
  ∀ r : Fin 17, (h.ring r).index.length ≤ 1024 ∧ ((h.ring r).index.map Entry.len).sum ≤ (h.ring r).sectors

/-- R31, R36: the order of ring r.  Its send pointer lies from the tail to the head; its index carries every number from the
tail to the head minus one, in order, G-numbers in ring G alone, and in a stream ring the units of its stream; and its units
lie back to back, the last one ending just before the head sector offset. -/
def Ring.Ordered (x : Ring) (r : Fin 17) : Prop :=
  x.headOff < x.sectors ∧ (x.head - x.send).toNat ≤ x.index.length ∧
    ∀ i e, x.index[i]? = some e →
      e.key r = x.head - BitVec.ofNat 32 (x.index.length - i) ∧ (e.g ≠ none ↔ r = 16) ∧
        (∀ k : Fin 16, r = k.castSucc → e.stream = k) ∧ e.start < x.sectors ∧
        (e.start + ((x.index.drop i).map Entry.len).sum) % x.sectors = x.headOff

/-- R31, R36, R37: every ring is in order, and one that has a unit taken up is not at its head; the own ring of a GLOBAL stream
holds no units, and every release mark lies from the ring G tail to the ring G head. -/
def Hub.RingsOrdered (h : Hub) : Prop :=
  (∀ r : Fin 17, (h.ring r).Ordered r ∧ ((h.paths.sends[r]).taken ≠ none → (h.ring r).send ≠ (h.ring r).head)) ∧
    ∀ k : Fin 16, ((h.stream k).global = true → (h.ring k.castSucc).index = []) ∧
      ((h.ring 16).head - (h.stream k).releaseMark).toNat ≤ (h.ring 16).index.length

/-- R89: the state and down reason of every path are what Table 38 gives. -/
def Hub.PathsEvaluated (h : Hub) : Prop := ∀ p : Fin 8, (h.paths.path[p]).Table38

/-- R44, R109, R153, R165: a port that is ABSENT is no stream's hold setter, builds no insert buffer, holds no path in
reset, owns no OPEN clip and holds no tally override. -/
def Hub.AbsentHoldNothing (h : Hub) : Prop :=
  ∀ q : Fin 4, (h.ports[q]).present = false →
    (∀ k : Fin 16, (h.stream k).setter ≠ some q) ∧ (∀ k : Fin 16, (h.stream k).buffer ≠ [] → (h.stream k).builder ≠ some q) ∧
      (∀ p : Fin 8, (h.paths.path[p]).holder ≠ some q) ∧
      (∀ c ∈ h.log.clips, c.state = .opened → c.owner ≠ .port q) ∧
      ∀ o : Fin 16, (h.tally.entries[o]).holder ≠ some q

/-- The bounds of the lists: command queue and FULL list 16 (R169), notice queue 32 (R185), pulses owed 255 (R190), Clip
Table 256 (R135), Label Store 4096 (R144), and the insert buffers 65,536 bytes for streams 13 to 15 and none for any other
(R39). -/
def Hub.ListsFit (h : Hub) : Prop :=
  (∀ p : Fin 4, (h.ports[p]).queue.length ≤ 16 ∧ (h.ports[p]).fullList.length ≤ 16) ∧
    (∀ p : Fin 4, (h.notices[p]).queue.length ≤ 32 ∧ (h.notices[p]).owed ≤ 255) ∧
    h.log.clips.length ≤ 256 ∧ h.log.labels.length ≤ 4096 ∧
    ∀ k : Fin 16, (h.stream k).buffer.length ≤ if 13 ≤ k.val then 65536 else 0

/-- R172 to R174: the RIGHTS class of every port is what the editor mask of the strap word says, and R186: no mask of a
notice queue leaves SUPPLY_WARN out. -/
def Hub.FixedRights (h : Hub) : Prop :=
  ∀ p : Fin 4, (h.ports[p]).classes.getLsbD 8 = strapEditor h.strap p ∧ (h.notices[p]).mask.getLsbD 20 = true

/-- R53: the engine load never exceeds 4. -/
def Hub.EnginesFit (h : Hub) : Prop := h.engineLoad ≤ 4

/-- R134: the clips of the table stand in rising order of their numbers, all of them given. -/
def Hub.ClipsOrdered (h : Hub) : Prop :=
  h.log.clips.Pairwise (fun a b => a.number.toNat < b.number.toNat) ∧ h.log.nextClip ≤ 4294967296 ∧
    ∀ c ∈ h.log.clips, c.number.toNat < h.log.nextClip

/-- R103, R107: a path that is OFF, in RESET or DOWN has an empty FIFO, and no path's FIFO holds more than 64 packets. -/
def Hub.FifosFit (h : Hub) : Prop :=
  ∀ p : Fin 8, (h.paths.path[p]).fifo.length ≤ 64 ∧ ((h.paths.path[p]).carrying = false → (h.paths.path[p]).fifo = [])

/-- R55 to R58 for one context: a built context's fullness is at most its size, and a picture being coded, which is the
oldest in flight, has not passed its ceiling, which is formed with the fullness still in force. -/
def Coder.BufferOk (c : Coder) : Prop :=
  (c.built = true → c.fullness ≤ c.size) ∧
    (∀ f ∈ c.flight.drop 1, f.coding = none) ∧
    ∀ f ∈ c.flight.head?, ∀ x, f.coding = some x → x.cPic + c.fullness = c.size + c.target ∧ x.b ≤ x.cPic

/-- R55, R57: the virtual buffer of every picture stream never passes B. -/
def Hub.BuffersFit (h : Hub) : Prop := ∀ k : Fin 4, (h.coders[k]).BufferOk

end Sys2Proof.Machine
end

