-- ==== Sys2Proof/Certificates/Slice0/Obligations.lean ====
section
/-! DEFINITION. The statements for the provers.  A hub written `g` is the part's state at the moment of the command: its
cycles have passed and the outside world is as the command shows (`Hub.arrive`). -/

open Sys2Proof Sys2Proof.Machine

/-! ### The machine -/

/-- A step carries out the command at the front of the queue with the queue's rest (00_scope.md: commands are taken one at
a time). -/
def Obligations.StepTakesFront : Prop :=
  ∀ (c : Instr) (rest : List Instr) (s : State),
    step { s with pending := c :: rest } = exec c { s with pending := rest }

/-- R168, R9: while the RESET pin is held nothing but its release has an effect, the attention lines and tally drives are off
and the word clock is low; the word clock runs otherwise.  No command touches the queue.  The release leaves every block at
its Part reset values: R18, R46, R66, R87, R111, R132, R156, R167, R173, R183, R194.  That every other row is without effect
while the pin is held, and that a release acts in a state that is not held, is the model's choice (log entry 21); the valid
flag of a channel is left out (log entry 3). -/
def Obligations.PartResetHoldsAndReleases : Prop :=
  (∀ (i : Instr) (s : State), s.held = true → (∀ e strap supw, i ≠ .resetRelease e strap supw) → exec i s = .next s) ∧
  (∀ (i : Instr) (s t : State), exec i s = .next t → t.pending = s.pending) ∧
  (∀ s : State, s.wordClock = !s.held) ∧
  (∀ s : State, s.held = true → (∀ o : Fin 16, s.drives o = (false, false)) ∧ ∀ p : Fin 4, s.attention p = false) ∧
  (∀ (e : Env) (s : State), exec (.partReset e) s = .next { s with held := true }) ∧
  ∀ (e : Env) (strap : BitVec 16) (supw : Bool) (s : State), ∃ t, exec (.resetRelease e strap supw) s = .next t ∧
    t.held = false ∧ t.pending = s.pending ∧ t.hub.strap = strap ∧
    (let b := t.hub.tb
     b.rate.code = strap.toNat / 256 % 4 ∧ b.frameRate = b.rate ∧ b.external = strap.getLsbD 7 ∧
       b.ref = (if strap.getLsbD 7 then .seeking else .free) ∧ b.good = 0 ∧ b.prevPulse = none ∧ b.ratePending = false ∧
       b.frame = { serial := 0, tc := { hours := 0, minutes := 0, seconds := 0, frames := 0, df := false }, phase := 0,
                   jump := false } ∧
       b.lastTick = t.hub.now ∧ b.df = false ∧ b.follow = false ∧ b.jam = none ∧ b.reader = none) ∧
    (∀ k : Fin 16, t.hub.stream k =
      { state := .closed, discard := false, setter := none, global := false, fromHeld := false, releaseMark := 0,
        committed := 0, discarded := 0, lost := 0, skipped := 0, buffer := [], builder := none }) ∧
    (∀ r : Fin 17, t.hub.ring r =
      { base := 0, size := 64, enabled := false, keep := false, headOff := 0, index := [], head := 0, send := 0,
        corrected := 0, damaged := 0 }) ∧
    (∀ i : Fin 4, (t.hub.inputs[i]).expected = .hd ∧ (t.hub.inputs[i]).present = false ∧ (t.hub.inputs[i]).sinceLoss = 0 ∧
      (t.hub.inputs[i]).lineErrors = 0 ∧ (t.hub.inputs[i]).losses = 0 ∧ (t.hub.inputs[i]).measured = none ∧
      (t.hub.inputs[i]).delivered = []) ∧
    (∀ k : Fin 4,
      let x := t.hub.coders[k]
      x.source = 0 ∧ x.format = .hd ∧ x.fixed = false ∧ x.rFix = 2000000 ∧ x.rMin = 2000000 ∧ x.rMax = 100000000 ∧
        x.weight = 1 ∧ x.bf = 4 ∧ x.built = false ∧ x.rate = 0 ∧ x.target = 0 ∧ x.size = 0 ∧ x.fullness = 0 ∧ x.q = 0 ∧
        x.remembered = 0 ∧ x.sourceChange = false ∧ x.flight = [] ∧ x.counts = {}) ∧
    (∀ c : Fin 64,
      let x := t.hub.mixer.channels[c]
      x.delay = 0 ∧ x.pendingDelay = none ∧ x.muteEnd = none ∧ x.inverted = false ∧ x.invalid = 0 ∧ x.line = [] ∧
        ∀ k : Fin 16, x.gains[k] = { g := 0, target := 0, r := 0 }) ∧
    (∀ k : Fin 16, t.hub.mixer.buses[k] =
      { master := { g := 16384, target := 16384, r := 0 }, peak := 0, overloads := 0, lastPeak := 0, lastOverloads := 0,
        threshold := 0, silenceFrames := 50, run := 0, silent := false, overloadFrames := 0, inputError := false }) ∧
    (∀ k : Fin 8, (t.hub.mixer.packs[k]).state = .idle ∧ (t.hub.mixer.packs[k]).buffer = [] ∧
      (t.hub.mixer.packs[k]).offered = 0 ∧ (t.hub.mixer.packs[k]).voided = 0) ∧
    (∀ p : Fin 8,
      let x := t.hub.paths.path[p]
      x.enabled = false ∧ x.pauseLimit = 12 ∧ x.lineRate = 100 ∧ x.state = .off ∧ x.reason = .none ∧
        x.lines = BitVec.ofNat 4 (e.lines.toNat / 16 ^ p.val) ∧ x.change = false ∧ x.loss = false ∧ x.pauseCount = 0 ∧
        x.timeoutMark = false ∧ x.hold = false ∧ x.holder = none ∧ x.resetCount = 0 ∧ x.releaseDue = false ∧ x.fifo = [] ∧
        x.seq = 0 ∧ x.baseline = none ∧ x.counts = {} ∧ x.pausedIn = 0 ∧
        (t.hub.paths.arbiters[p]).last0 = 16 ∧ (t.hub.paths.arbiters[p]).cur1 = none ∧
        ∀ r : Fin 17, (t.hub.paths.arbiters[p]).deficits[r] = 0) ∧
    t.hub.paths.spread = 0 ∧ t.hub.paths.directed = [] ∧
    (∀ j : Fin 4, t.hub.paths.bonds[j] = { setting := false, inForce := false, odd := false }) ∧
    (∀ r : Fin 17, t.hub.paths.sends[r] = { taken := none, sent := 0, passedDamaged := 0 }) ∧
    t.hub.gauges.auto = strap.getLsbD 11 ∧ t.hub.gauges.window = 25 ∧
    (∀ p : Fin 8,
      let x := t.hub.gauges.path[p]
      x.phase = .idle ∧ x.g = 0 ∧ x.remaining = 0 ∧ x.sum = 0 ∧ x.v0 = 0 ∧ x.count2 = 0 ∧ x.lastV0 = 0 ∧ x.lastT1 = 0 ∧
        x.c = 0 ∧ x.s = 0 ∧ x.e = 0 ∧ x.completed = 0 ∧ x.aborted = 0 ∧ x.manual = .idle ∧ x.volume = false ∧ x.gate = 1 ∧
        x.manualSum = 0 ∧ x.manualCount = 0 ∧ x.result = none) ∧
    (let b := t.hub.budget
     b.fixedSource = false ∧ b.fixedCapacity = 0 ∧ b.headroom = 100 ∧ (∀ k : Fin 4, b.reserves[k] = 0) ∧ b.kBits = 0 ∧
       b.u = 0 ∧ b.u' = 0 ∧ b.soundReserve = 0 ∧ b.otherReserve = 0 ∧ b.fixedTotal = 0 ∧ b.pool = 0 ∧ b.overdrawn = false ∧
       b.recomputations = 0 ∧
       ∀ k : Fin 4, b.pictures[k] =
         { assigned := 2000000, counted := false, share := none, starved := false, kept := [], changedAt := none,
           startedAt := none }) ∧
    (let l := t.hub.log
     l.clips = [] ∧ l.labels = [] ∧ (∀ kind source, l.keeps kind source = true) ∧ l.supply = supw ∧ l.nextClip = 1 ∧
       l.nextLabel = 0 ∧ l.filed = 0 ∧ l.ignored = 0 ∧ l.removed = 0 ∧ l.lapses = 0 ∧
       ∀ k : Fin 4, l.triggers[k] =
         { kind := none, source := none, pattern := 0, mask := 0, action := .start 0, auto := false, state := .disarmed,
           fires := 0, ignored := 0, misses := 0 }) ∧
    (∀ o : Fin 16, t.hub.tally.entries[o] = { source := .none, lamp := .off, override := .none, holder := none }) ∧
    (∀ i : Fin 4, t.hub.tally.flash[i] = 0 ∧ t.hub.tally.sent[i] = false) ∧
    (∀ p : Fin 4,
      let x := t.hub.ports[p]
      x.queue = [] ∧ x.fullList = [] ∧ x.sending = none ∧ x.present = true ∧ x.expectOdd = false ∧ x.half = none ∧
        x.timer = 0 ∧ x.streams = 0xFFFF ∧ x.counts = {} ∧
        x.classes = (if strap.getLsbD 2 then (#v[0x6C6#16, 0x24A#16, 0x633#16, 0x2C2#16])[p] else 0x6FF#16) |||
          (if strap.getLsbD (3 + p.val) then 0x100#16 else 0#16)) ∧
    ∀ p : Fin 4, t.hub.notices[p] =
      { queue := [], mask := 0x7FFFFF, summary := 0, lost := 0, mode := .untilEmpty, line := false, owed := 0,
        pulse := .idle }

/-- R171 steps 1, 3 and 4 for every command of a master port: ABSENT from a port that is ABSENT (PRESENCE excepted), DENIED
without the class, DENIED without the stream; nothing changes but the port's link and counts, and a DENIED response
carries the two masks. -/
def Obligations.RightsAreChecked : Prop :=
  ∀ (i : Instr) (H : Header) (s : State), header i = some H → s.held = false →
    let g := s.hub.arrive H.caller.env
    let p := s.hub.ports[H.caller.port]
    (p.present = false → H.code ≠ 1 → exec i s = s.became (g.answer H.caller H.code .absent [])) ∧
    (p.present = true → (∃ k, H.cls = some k ∧ s.hub.hasClass H.caller.port k = false) →
      exec i s = s.became (g.answer H.caller H.code .denied (le 2 p.classes.toNat ++ le 2 p.streams.toNat))) ∧
    (p.present = true → (∀ k, H.cls = some k → s.hub.hasClass H.caller.port k = true) →
      (∃ n : Byte, H.stream = some n ∧ n.toNat < 16 ∧ s.hub.hasStream H.caller.port n.toNat = false) →
      exec i s = s.became (g.answer H.caller H.code .denied (le 2 p.classes.toNat ++ le 2 p.streams.toNat)))

/-- R195 with Table 68 (section 11.1) and Table 76 (section 11.7): the record that spells a well-formed command is carried out
as that command.  A trigger action that Table 54 does not give is spelled by its code alone, which is the model's choice
(log entry 26). -/
def Obligations.RecordsSpellCommands : Prop :=
  ∀ (i : Instr) (H : Header) (s : State), i.wellFormed = true → header i = some H →
    exec i s = s.run (runRecord H.caller H.code (arguments i))

/-! ### Chapter 1: Timebase -/

/-- R3, R7 to R10, R13, R14, R16: the divider's expiry outside LOCKED ends the running frame at the nominal period and forms the
next one; in LOCKED it gives no tick.  The tick of a rate change with EXTERNAL makes the state SEEKING afresh, any other keeps
it.  SERIAL_WRAP is given when the serial wraps, TC_JUMP and its label when the timecode is not the one that the count gives,
DAY_WRAP when it is and that wrapped, and REF_STATE when a rate change takes the state out of HOLDOVER.  The label is told where
the Label Store has room for every label that a tick can bring, the entries in a queue where nothing else can come before
them. -/
def Obligations.DividerGivesTick : Prop :=
  ∀ (e : Env) (s : State), s.held = false →
    let b := s.hub.tb
    (b.ref = .locked → exec (.dividerExpiry e) s = s.became (s.hub.arrive e)) ∧
    (b.ref ≠ .locked →
      ∃ t, exec (.dividerExpiry e) s = .next t ∧
        let moved := if b.ratePending then Timecode.nextSecond b.rate b.df b.frame.tc
                     else Timecode.increment b.rate b.df b.frame.tc
        let next := moved.1
        let jumps := b.jam.getD next ≠ next
        let seeks := b.ratePending = true ∧ b.external = true
        let log := s.hub.log
        let alone := log.clips = [] ∧ (∀ x : Fin 4, (log.triggers[x]).state ≠ .armed) ∧ (s.hub.stream 12).state = .closed
        let gives := fun (kind : NoticeKind) (code param : Nat) (given : Prop) =>
          ∀ p : Fin 4,
            ((t.hub.notices[p]).summary.getLsbD code = true ↔
              (s.hub.notices[p]).summary.getLsbD code = true ∨ given) ∧
            (given → alone → (s.hub.notices[p]).mask.getLsbD code = true → (s.hub.notices[p]).queue.length ≤ 28 →
              { kind := kind, param := BitVec.ofNat 32 param, serial := b.frame.serial + 1 } ∈ (t.hub.notices[p]).queue)
        t.hub.tb.frame = { serial := b.frame.serial + 1, tc := b.jam.getD next,
                           phase := if b.ratePending then 0 else (b.frame.phase + 1) % 5,
                           jump := decide (b.jam.getD next ≠ next) } ∧
          t.hub.tb.lastTick = b.lastTick + b.frameRate.nominal ∧ t.hub.tb.frameRate = b.rate ∧
          t.hub.tb.ratePending = false ∧ t.hub.tb.jam = none ∧ t.hub.tb.history = [b.frame] ++ b.history.take 1 ∧
          t.hub.tb.rate = b.rate ∧ t.hub.tb.external = b.external ∧ t.hub.tb.df = b.df ∧ t.hub.tb.follow = b.follow ∧
          t.hub.tb.reader = (if b.readerNow = true ∨ b.readerBefore = true then b.reader else none) ∧
          (seeks → t.hub.tb.ref = .seeking ∧ t.hub.tb.good = 0 ∧ t.hub.tb.prevPulse = none) ∧
          (¬ seeks → t.hub.tb.ref = b.ref ∧ t.hub.tb.good = b.good ∧ t.hub.tb.prevPulse = b.prevPulse ∧
            t.hub.tb.lastInterval = b.lastInterval) ∧
          gives .refState 0 1 (seeks ∧ b.ref = .holdover) ∧ gives .serialWrap 1 0 (b.frame.serial + 1 = 0) ∧
          gives .tcJump 2 0 jumps ∧ gives .dayWrap 3 0 (¬ jumps ∧ moved.2 = true) ∧
          (log.labels.length ≤ 2048 → ∃ new, t.hub.log.labels = log.labels ++ new ∧
            ((new.filter fun x => x.kind == .tcJump && x.source == .timebase).map fun x =>
                (x.serial, x.tc, x.value, x.text)) =
              if jumps ∧ log.keeps .tcJump .timebase = true then [(b.frame.serial + 1, b.jam.getD next, none, [])] else []) ∧
          t.hub.strap = s.hub.strap)

/-- R2: a pulse in FREE is not kept; in SEEKING and HOLDOVER a pulse without a previous one becomes the previous pulse, an
interval in tolerance that leaves the count below 8 raises it by one, and one out of tolerance sets it to 0; nothing else
changes.  R4, R6: the pulse that brings the count to 8 gives LOCKED and REF_STATE.  From SEEKING, and from HOLDOVER less
than half a period after the last tick, it gives no tick; from HOLDOVER at half a period or more it gives the tick at the
pulse.  The last interval (R17) is 0 at the change to LOCKED, which is the model's choice (log entry 22). -/
def Obligations.PulsesAreCounted : Prop :=
  (∀ (e : Env) (s : State), s.held = false →
      let g := s.hub.arrive e
      let b := s.hub.tb
      (b.ref = .free → exec (.referencePulse e) s = s.became g) ∧
      (b.ref = .seeking ∨ b.ref = .holdover →
        (b.prevPulse = none →
          exec (.referencePulse e) s = s.became { g with tb := { b with prevPulse := some g.now } }) ∧
        ∀ prev, b.prevPulse = some prev →
          let d := g.now - prev
          (d < b.frameRate.nominal - b.frameRate.tolerance ∨ b.frameRate.nominal + b.frameRate.tolerance < d →
            exec (.referencePulse e) s =
              s.became { g with tb := { b with good := 0, prevPulse := some g.now, lastInterval := d } }) ∧
          (b.frameRate.nominal - b.frameRate.tolerance ≤ d → d ≤ b.frameRate.nominal + b.frameRate.tolerance →
            b.good < 7 →
            exec (.referencePulse e) s =
              s.became { g with tb := { b with good := b.good + 1, prevPulse := some g.now, lastInterval := d } }))) ∧
  (∀ (e : Env) (s : State) (prev : Nat), s.held = false → s.hub.tb.prevPulse = some prev → 7 ≤ s.hub.tb.good →
      let g := s.hub.arrive e
      let b := s.hub.tb
      let locked := { b with ref := RefState.locked, good := 8, prevPulse := some g.now, lastInterval := 0 }
      b.frameRate.nominal - b.frameRate.tolerance ≤ g.now - prev →
      g.now - prev ≤ b.frameRate.nominal + b.frameRate.tolerance →
      (b.ref = .seeking ∨ (b.ref = .holdover ∧ g.now - b.lastTick < b.frameRate.half) →
        exec (.referencePulse e) s = s.became (({ g with tb := locked }).notify .refState 2)) ∧
      (b.ref = .holdover → b.frameRate.half ≤ g.now - b.lastTick →
        ∃ t, exec (.referencePulse e) s = .next t ∧ t.hub.tb = locked.tick g.now ∧
          ∀ p : Fin 4, (t.hub.notices[p]).summary.getLsbD 0 = true))

/-- R5, R3: in LOCKED a pulse in tolerance, the cycle of the pulse timeout included, gives the tick and stays LOCKED; an
early pulse gives HOLDOVER with the count at 0, and a tick only when the running frame is overdue; the pulse timeout
gives HOLDOVER with the count at 0 and the previous pulse kept, at nominal period plus tolerance plus 1 cycle after the
pulse, and a tick there when the running frame is overdue.  A pulse after that moment finds the timeout taken: it is out of
tolerance in HOLDOVER (R2), or the first pulse of SEEKING when the tick at the timeout took a new rate (R16).  Model's
choices: the tick of an overdue frame on every way from LOCKED, and the last interval of 0 at a change of state (log entry
22); in the other states there is no pulse timeout, and a pulse may come after one that was not sent (log entry 18). -/
def Obligations.LockedFollowsPulses : Prop :=
  (∀ (e : Env) (s : State) (prev : Nat), s.held = false → s.hub.tb.ref = .locked → s.hub.tb.prevPulse = some prev →
      let g := s.hub.arrive e
      let b := s.hub.tb
      let d := g.now - prev
      let held := { b with ref := RefState.holdover, good := 0, prevPulse := some g.now, lastInterval := 0 }
      (b.frameRate.nominal - b.frameRate.tolerance ≤ d →
        g.now ≤ prev + b.frameRate.nominal + b.frameRate.tolerance + 1 →
        ∃ t, exec (.referencePulse e) s = .next t ∧
          t.hub.tb = ({ b with prevPulse := some g.now, lastInterval := d }).tick g.now) ∧
      (d < b.frameRate.nominal - b.frameRate.tolerance →
        (g.now < b.lastTick + b.frameRate.nominal →
          exec (.referencePulse e) s = s.became (({ g with tb := held }).notify .refState 3)) ∧
        (b.lastTick + b.frameRate.nominal ≤ g.now →
          ∃ t, exec (.referencePulse e) s = .next t ∧ t.hub.tb = held.tick g.now)) ∧
      let due := prev + b.frameRate.nominal + b.frameRate.tolerance + 1
      let lost := { held with prevPulse := some prev }
      (due < g.now → due < b.lastTick + b.frameRate.nominal →
        exec (.referencePulse e) s =
          s.became (({ g with tb := { held with lastInterval := d } }).notify .refState 3)) ∧
      (due < g.now → b.lastTick + b.frameRate.nominal ≤ due →
        (b.ratePending = false → b.rate = b.frameRate →
          ∃ t, exec (.referencePulse e) s = .next t ∧
            t.hub.tb = { lost.tick due with good := 0, prevPulse := some g.now, lastInterval := d }) ∧
        (b.ratePending = true → b.external = true →
          ∃ t, exec (.referencePulse e) s = .next t ∧
            t.hub.tb = { lost.tick due with prevPulse := some g.now }))) ∧
  (∀ (e : Env) (s : State), s.held = false →
      let b := s.hub.tb
      (b.ref ≠ .locked → exec (.pulseTimeout e) s = s.became (s.hub.arrive e)) ∧
      ∀ prev, b.ref = .locked → b.prevPulse = some prev →
        let due := prev + b.frameRate.nominal + b.frameRate.tolerance + 1
        let g := { s.hub.arrive e with now := max (s.hub.now + e.dt) due }
        let held := { b with ref := RefState.holdover, good := 0, prevPulse := some prev, lastInterval := 0 }
        (b.lastTick + b.frameRate.nominal ≤ due →
          ∃ t, exec (.pulseTimeout e) s = .next t ∧ t.hub.tb = held.tick due) ∧
        (due < b.lastTick + b.frameRate.nominal →
          exec (.pulseTimeout e) s = s.became (({ g with tb := held }).notify .refState 3)))

/-- R14: an arrival that is missing or illegal sets the reader state to none; a legal one becomes the reader state, and in
FOLLOW_READER, when it is the increment of the reader value before it, places its own increment in the jam slot.  The
reader state is lost at a tick when two frame periods brought no arrival; READER STATE TIMEOUT does that part of the coming
tick ahead of it (log entry 13). -/
def Obligations.ReaderIsFollowed : Prop :=
  ∀ (e : Env) (s : State), s.held = false →
    let g := s.hub.arrive e
    let b := { s.hub.tb with readerNow := true }
    (exec (.readerArrival e none) s = s.became { g with tb := { b with reader := none } }) ∧
    (∀ v : Timecode, v.legal b.rate b.df = false →
      exec (.readerArrival e (some v)) s = s.became { g with tb := { b with reader := none } }) ∧
    (∀ v last : Timecode, v.legal b.rate b.df = true → b.reader = some last → b.follow = true →
      v = (last.increment b.rate b.df).1 →
      exec (.readerArrival e (some v)) s =
        s.became { g with tb := { b with reader := some v, jam := some (v.increment b.rate b.df).1 } }) ∧
    (∀ v : Timecode, v.legal b.rate b.df = true →
      (b.follow = false ∨ ∀ last, b.reader = some last → v ≠ (last.increment b.rate b.df).1) →
      exec (.readerArrival e (some v)) s = s.became { g with tb := { b with reader := some v } }) ∧
    (s.hub.tb.readerNow = false → s.hub.tb.readerBefore = false →
      exec (.readerStateTimeout e) s = s.became { g with tb := { s.hub.tb with reader := none } })

/-- R1, R3, R11: SET REFERENCE and SET TIMECODE MODE.  Model's choices (log entry 22): INTERNAL keeps the good-interval count
and the previous pulse, the last interval is 0 at a change of state, and the overdue tick is given on the way from LOCKED to
FREE too.  A change of counting stands from its acceptance on, so the checks of R12 and R14 before the next tick use it: the
model's reading (log entry 60). -/
def Obligations.TimebaseSettings : Prop :=
  ∀ (c : Caller) (s : State), s.Serves c (some .time) none →
    let g := s.hub.arrive c.env
    let b := s.hub.tb
    (∀ a : Byte, 1 < a.toNat → exec (.setReference c a) s = s.became (g.answer c 0x10 .badArg [])) ∧
    (b.ref = .free → exec (.setReference c 0) s = s.became (g.answer c 0x10 .done [])) ∧
    (b.ref ≠ .free → exec (.setReference c 1) s = s.became (g.answer c 0x10 .done [])) ∧
    (b.ref = .free →
      exec (.setReference c 1) s =
        s.became ((({ g with tb := { b with external := true, ref := .seeking, good := 0, prevPulse := none,
                                            lastInterval := 0 } }).notify .refState 1).answer c 0x10 .done [])) ∧
    (b.ref ≠ .free → (b.ref = .locked → g.now < b.lastTick + b.frameRate.nominal) →
      exec (.setReference c 0) s =
        s.became ((({ g with tb := { b with external := false, ref := .free, lastInterval := 0 } }).notify .refState
          0).answer c 0x10 .done [])) ∧
    (b.ref = .locked → b.lastTick + b.frameRate.nominal ≤ g.now →
      ∃ t, exec (.setReference c 0) s = .next t ∧
        t.hub.tb = { b with external := false, ref := RefState.free, lastInterval := 0 }.tick g.now ∧
        (t.hub.ports[c.port]).sending =
          some (false, { tag := c.tag, code := 0x10, outcome := .done, data := [] })) ∧
    (∀ m k : Byte, 1 < m.toNat ∨ 1 < k.toNat ∨ (k = 1 ∧ (b.rate = .r25 ∨ b.rate = .r50)) →
      exec (.setTimecodeMode c m k) s = s.became (g.answer c 0x11 .badArg [])) ∧
    (∀ follow df : Bool, (df = true → b.rate = .r2997 ∨ b.rate = .r5994) →
      exec (.setTimecodeMode c (byte follow.toNat) (byte df.toNat)) s =
        s.became (({ g with
          tb := { b with follow := follow, df := df, jam := if df = b.df then b.jam else none,
                         reader := if df = b.df then b.reader else none } }).answer c 0x11 .done []))

/-- R12: JAM TIMECODE checks its timecode against the rate setting and the counting, in both timecode modes; an illegal one
is refused and the slot kept, a legal one stands in the slot.  R15: SET RATE, with its refusals in their order; the new rate
waits for the next tick. -/
def Obligations.JamAndRateAreChecked : Prop :=
  (∀ (c : Caller) (w : BitVec 32) (s : State), s.Serves c (some .time) none →
      let g := s.hub.arrive c.env
      let v := timecodeOf w
      let legal := v.hours < 24 ∧ v.minutes < 60 ∧ v.seconds < 60 ∧ v.frames < s.hub.tb.rate.fps ∧ v.df = s.hub.tb.df ∧
        ¬ (s.hub.tb.df = true ∧ v.seconds = 0 ∧ v.minutes % 10 ≠ 0 ∧ v.frames < s.hub.tb.rate.dropCount)
      (legal → exec (.jamTimecode c w) s =
        s.became (({ g with tb := { s.hub.tb with jam := some v } }).answer c 0x12 .done [])) ∧
      (¬ legal → exec (.jamTimecode c w) s = s.became (g.answer c 0x12 .badArg []))) ∧
  (∀ (c : Caller) (a : Byte) (s : State), s.Serves c (some .time) none →
      let g := s.hub.arrive c.env
      let b := s.hub.tb
      (3 < a.toNat → exec (.setRate c a) s = s.became (g.answer c 0x13 .badArg [])) ∧
      ∀ r : Rate, a.toNat = r.code →
        ((∃ k : Fin 16, (s.hub.stream k).state ≠ .closed) →
          exec (.setRate c a) s = s.became (g.answer c 0x13 .conflict [])) ∧
        ((∀ k : Fin 16, (s.hub.stream k).state = .closed) →
          (r = b.rate → exec (.setRate c a) s = s.became (g.answer c 0x13 .done [])) ∧
          (r ≠ b.rate →
            exec (.setRate c a) s =
              s.became (({ g with
                tb := { b with rate := r, ratePending := true, df := b.df && r.fractional, jam := none,
                               reader := none } }).answer c 0x13 .done []))))

/-! ### Chapter 2: Streams and the Media Store -/

/-- Section 2.2: a stream number above 15 is refused with BAD_ARG and changes nothing. -/
def Obligations.StreamNumberIsChecked : Prop :=
  ∀ (c : Caller) (n a : Byte) (u offset : Word) (length : BitVec 16) (s : State), s.Serves c (some .store) none →
    15 < n.toNat →
    let g := s.hub.arrive c.env
    exec (.openStream c n) s = s.became (g.answer c 0x20 .badArg []) ∧
    exec (.holdStream c n a) s = s.became (g.answer c 0x21 .badArg []) ∧
    exec (.releaseStream c n) s = s.became (g.answer c 0x22 .badArg []) ∧
    exec (.closeStream c n) s = s.became (g.answer c 0x23 .badArg []) ∧
    exec (.setStream c n a) s = s.became (g.answer c 0x24 .badArg []) ∧
    exec (.fetch c n u offset length) s = s.became (g.answer c 0x26 .badArg []) ∧
    exec (.readStream c n) s = s.became (g.answer c 0x28 .badArg []) ∧
    exec (.readUnit c n u) s = s.became (g.answer c 0x2A .badArg [])

/-- R21, R53, R126: OPEN STREAM.  Refused when the stream is not CLOSED, its bound ring not enabled, or the engines would be
overloaded; else the stream is OPEN without a hold setter, and nothing changes but what follows from a change of stream
state: the context of a picture stream, the budget, clip marks, deficits, the notices, STREAM_STATE among them, and the
answer. -/
def Obligations.OpenStreamOpens : Prop :=
  ∀ (c : Caller) (k : Fin 16) (s : State), s.Serves c (some .store) (some k) →
    let g := s.hub.arrive c.env
    let ring : Fin 17 := if (s.hub.stream k).global then 16 else k.castSucc
    let overload := ∃ j : Fin 4, j.val = k.val ∧ 4 < s.hub.engineLoad + (s.hub.coders[j]).format.load
    ((s.hub.stream k).state ≠ .closed ∨ (s.hub.ring ring).enabled = false ∨ overload →
      exec (.openStream c (byte k.val)) s = s.became (g.answer c 0x20 .conflict [])) ∧
    ((s.hub.stream k).state = .closed → (s.hub.ring ring).enabled = true → ¬ overload →
      ∃ t, exec (.openStream c (byte k.val)) s = .next t ∧
        t.hub.stream k = { s.hub.stream k with state := .opened, setter := none } ∧
        (∀ j, j ≠ k → t.hub.stream j = s.hub.stream j) ∧
        (∀ j : Fin 4, t.hub.coders[j] =
          if j.val = k.val then
            { s.hub.coders[j] with built := false, sourceChange := false, remembered := (s.hub.coders[j]).source }
          else s.hub.coders[j]) ∧
        (t.hub.ports[c.port]).sending =
          some (false, { tag := c.tag, code := 0x20, outcome := .done, data := [] }) ∧
        (∀ p : Fin 4, (t.hub.notices[p]).summary.getLsbD 4 = true) ∧
        Hub.OnlyChanges [.streams, .coders, .sending, .budget, .log, .ports, .notices] s.hub t.hub)

/-- R22: HOLD STREAM is taken from OPEN alone; it records policy and setter and gives STREAM_STATE.  No ring, send pointer or
send context moves. -/
def Obligations.HoldStreamHolds : Prop :=
  ∀ (c : Caller) (k : Fin 16) (a : Byte) (s : State), s.Serves c (some .store) (some k) →
    let g := s.hub.arrive c.env
    (1 < a.toNat → exec (.holdStream c (byte k.val) a) s = s.became (g.answer c 0x21 .badArg [])) ∧
    (a.toNat ≤ 1 → (s.hub.stream k).state ≠ .opened →
      exec (.holdStream c (byte k.val) a) s = s.became (g.answer c 0x21 .conflict [])) ∧
    (a.toNat ≤ 1 → (s.hub.stream k).state = .opened →
      ∃ t, exec (.holdStream c (byte k.val) a) s = .next t ∧
        t.hub.stream k = { s.hub.stream k with state := .held, discard := decide (a = 1), setter := some c.port } ∧
        (∀ j, j ≠ k → t.hub.stream j = s.hub.stream j) ∧ t.hub.paths.sends = s.hub.paths.sends ∧
        (t.hub.ports[c.port]).sending =
          some (false, { tag := c.tag, code := 0x21, outcome := .done, data := [] }) ∧
        (∀ p : Fin 4, (t.hub.notices[p]).summary.getLsbD 4 = true) ∧
        Hub.OnlyChanges [.streams, .sending, .budget, .log, .ports, .notices] s.hub t.hub)

/-- R23: RELEASE STREAM is taken from HELD alone, from any port.  Of a stream bound OWN the send pointer moves to the head and
the units passed are skipped units; of a stream bound GLOBAL the release mark becomes the next G-number.  STREAM_STATE is given. -/
def Obligations.ReleaseStreamReleases : Prop :=
  ∀ (c : Caller) (k : Fin 16) (s : State), s.Serves c (some .store) (some k) →
    let g := s.hub.arrive c.env
    let x := s.hub.stream k
    let ring := s.hub.ring k.castSucc
    (x.state ≠ .held → exec (.releaseStream c (byte k.val)) s = s.became (g.answer c 0x22 .conflict [])) ∧
    (x.state = .held →
      ∃ t, exec (.releaseStream c (byte k.val)) s = .next t ∧
        t.hub.stream k =
          (if x.global then
             { x with state := .opened, setter := none, fromHeld := false, releaseMark := (s.hub.ring 16).head }
           else
             { x with state := .opened, setter := none, fromHeld := false,
                      skipped := x.skipped + (ring.head - ring.send) }) ∧
        (∀ j, j ≠ k → t.hub.stream j = s.hub.stream j) ∧
        t.hub.ring k.castSucc = (if x.global then ring else { ring with send := ring.head }) ∧
        (∀ r, r ≠ k.castSucc → t.hub.ring r = s.hub.ring r) ∧
        (t.hub.ports[c.port]).sending =
          some (false, { tag := c.tag, code := 0x22, outcome := .done, data := [] }) ∧
        (∀ p : Fin 4, (t.hub.notices[p]).summary.getLsbD 4 = true) ∧
        Hub.OnlyChanges [.streams, .rings, .sending, .budget, .log, .ports, .notices] s.hub t.hub)

/-- R24, R25, R41, Table 16: CLOSE STREAM is taken from OPEN and HELD.  A label or aux stream, and a picture stream with no
picture in flight, is CLOSED at once, answered DONE; any other is CLOSING, answered STARTED.  A partly built unit is
discarded and counted.  Either change of state gives STREAM_STATE. -/
def Obligations.CloseStreamCloses : Prop :=
  ∀ (c : Caller) (k : Fin 16) (s : State), s.Serves c (some .store) (some k) →
    let g := s.hub.arrive c.env
    let x := s.hub.stream k
    let atOnce := 12 ≤ k.val ∨ ∃ j : Fin 4, j.val = k.val ∧ (s.hub.coders[j]).flight = []
    (x.state = .closed ∨ x.state = .closing →
      exec (.closeStream c (byte k.val)) s = s.became (g.answer c 0x23 .conflict [])) ∧
    (x.state = .opened ∨ x.state = .held →
      ∃ t, exec (.closeStream c (byte k.val)) s = .next t ∧
        (t.hub.stream k).buffer = [] ∧
        (t.hub.stream k).discarded = (if x.buffer = [] then x.discarded else x.discarded + 1) ∧
        (t.hub.stream k).discard = x.discard ∧ (t.hub.stream k).global = x.global ∧
        (∀ j, j ≠ k → t.hub.stream j = s.hub.stream j) ∧
        (atOnce →
          (t.hub.stream k).state = .closed ∧ (t.hub.stream k).setter = none ∧
          (x.state = .held → x.global = false →
            (t.hub.ring k.castSucc).send = (s.hub.ring k.castSucc).head ∧
            (t.hub.stream k).skipped = x.skipped + ((s.hub.ring k.castSucc).head - (s.hub.ring k.castSucc).send)) ∧
          (x.state = .held → x.global = true → (t.hub.stream k).releaseMark = (s.hub.ring 16).head) ∧
          (t.hub.ports[c.port]).sending =
            some (false, { tag := c.tag, code := 0x23, outcome := .done, data := [] })) ∧
        (¬ atOnce →
          (t.hub.stream k).state = .closing ∧ (t.hub.stream k).fromHeld = decide (x.state = .held) ∧
          (t.hub.stream k).setter = x.setter ∧ t.hub.store.rings = s.hub.store.rings ∧
          (t.hub.ports[c.port]).sending =
            some (false, { tag := c.tag, code := 0x23, outcome := .started, data := [] })) ∧
        (∀ p : Fin 4, (t.hub.notices[p]).summary.getLsbD 4 = true) ∧
        Hub.OnlyChanges [.streams, .rings, .sending, .budget, .log, .ports, .notices] s.hub t.hub)

/-- R26, R28: SET STREAM.  A change to OWN writes the binding alone; a change to GLOBAL also empties the stream's own ring,
whose head keeps its value: every unit at or above its send pointer is lost before send to its stream. -/
def Obligations.SetStreamBinds : Prop :=
  ∀ (c : Caller) (k : Fin 16) (s : State), s.Serves c (some .store) (some k) →
    let g := s.hub.arrive c.env
    let x := s.hub.stream k
    let ring := s.hub.ring k.castSucc
    let covered := ∃ clip ∈ s.hub.log.clips, clip.state ≠ .lapsed ∧ clip.mask.getLsbD k.val = true
    (∀ a : Byte, 1 < a.toNat ∨ (a = 1 ∧ k.val < 12) →
      exec (.setStream c (byte k.val) a) s = s.became (g.answer c 0x24 .badArg [])) ∧
    ∀ global : Bool, (global = true → 12 ≤ k.val) →
      (x.state ≠ .closed ∨ covered →
        exec (.setStream c (byte k.val) (byte global.toNat)) s = s.became (g.answer c 0x24 .conflict [])) ∧
      (x.state = .closed → ¬ covered →
        (global = x.global →
          exec (.setStream c (byte k.val) (byte global.toNat)) s = s.became (g.answer c 0x24 .done [])) ∧
        (global = false → x.global = true →
          exec (.setStream c (byte k.val) 0) s =
            s.became ((g.modStream k fun y => { y with global := false }).answer c 0x24 .done [])) ∧
        (global = true → x.global = false →
          ∃ t, exec (.setStream c (byte k.val) 1) s = .next t ∧ (t.hub.stream k).global = true ∧
            t.hub.ring k.castSucc = { ring with index := [], headOff := 0, send := ring.head } ∧
            (∀ r, r ≠ k.castSucc → t.hub.ring r = s.hub.ring r) ∧
            (∀ j, (t.hub.stream j).state = (s.hub.stream j).state ∧
              (t.hub.stream j).committed = (s.hub.stream j).committed ∧
              (t.hub.stream j).skipped = (s.hub.stream j).skipped ∧
              (t.hub.stream j).lost = (s.hub.stream j).lost +
                BitVec.ofNat 32 ((ring.index.filter fun e => e.stream == j && s.hub.unsent k.castSucc e).length)) ∧
            (t.hub.ports[c.port]).sending =
              some (false, { tag := c.tag, code := 0x24, outcome := .done, data := [] }) ∧
            Hub.OnlyChanges [.streams, .rings, .sending, .ports] s.hub t.hub))

/-- R27, R28: SET RING, with its checks in their order (a ring number above 16, the rights, an unknown policy or a size that
the part does not take, a ring in use), and the emptying: every unit at or above the send pointer is lost
before send to its stream, send pointer and tail become the head, and the head keeps its value.  A ring's streams are
its own stream, or for ring G (16) those bound GLOBAL; the rights needed are those to its own stream, or for ring G to
streams 12 to 15. -/
def Obligations.SetRingEmpties : Prop :=
  ∀ (c : Caller) (q : Fin 17) (base size : Word) (enabled keep : Bool) (s : State), s.Serves c (some .store) none →
    (∀ k : Fin 16, k.castSucc = q → s.hub.hasStream c.port k.val = true) →
    let g := s.hub.arrive c.env
    let cmd := Instr.setRing c (byte q.val) base size enabled (byte keep.toNat)
    let denied := q = 16 ∧ ∃ k : Fin 16, 12 ≤ k.val ∧ s.hub.hasStream c.port k.val = false
    let belongs := fun k : Fin 16 => if q = 16 then (s.hub.stream k).global = true else k.castSucc = q
    let badSize := (∀ n, n ≤ 10 → size.toNat ≠ 64 * 2 ^ n) ∨ strapBlocks s.hub.strap < base.toNat + size.toNat
    let busy := ∃ k, belongs k ∧ (s.hub.stream k).state ≠ .closed
    let covered := ∃ k, belongs k ∧ ∃ clip ∈ s.hub.log.clips, clip.state ≠ .lapsed ∧ clip.mask.getLsbD k.val = true
    let shared := enabled = true ∧ ∃ p : Fin 17, p ≠ q ∧ (s.hub.ring p).enabled = true ∧
      base.toNat < (s.hub.ring p).base + (s.hub.ring p).size ∧ (s.hub.ring p).base < base.toNat + size.toNat
    (∀ n b : Byte, 16 < n.toNat → exec (.setRing c n base size enabled b) s = s.became (g.answer c 0x25 .badArg [])) ∧
    (denied → exec cmd s = s.became (g.answer c 0x25 .denied (s.hub.ports[c.port]).maskData)) ∧
    (∀ b : Byte, 1 < b.toNat → ¬ denied →
      exec (.setRing c (byte q.val) base size enabled b) s = s.became (g.answer c 0x25 .badArg [])) ∧
    (¬ denied → badSize → exec cmd s = s.became (g.answer c 0x25 .badArg [])) ∧
    (¬ denied → ¬ badSize → busy ∨ covered ∨ shared → exec cmd s = s.became (g.answer c 0x25 .conflict [])) ∧
    (¬ denied → ¬ badSize → ¬ busy → ¬ covered → ¬ shared →
      ∃ t, exec cmd s = .next t ∧
        t.hub.ring q = { s.hub.ring q with base := base.toNat, size := size.toNat, enabled := enabled, keep := keep,
                                           index := [], headOff := 0, send := (s.hub.ring q).head } ∧
        (∀ p, p ≠ q → t.hub.ring p = s.hub.ring p) ∧
        (∀ k, (t.hub.stream k).lost = (s.hub.stream k).lost +
          BitVec.ofNat 32 (((s.hub.ring q).index.filter fun e => e.stream == k && s.hub.unsent q e).length)) ∧
        (∀ k, (t.hub.stream k).state = (s.hub.stream k).state ∧ (t.hub.stream k).committed = (s.hub.stream k).committed ∧
          (t.hub.stream k).skipped = (s.hub.stream k).skipped) ∧
        (t.hub.ports[c.port]).sending =
          some (false, { tag := c.tag, code := 0x25, outcome := .done, data := [] }) ∧
        Hub.OnlyChanges [.streams, .rings, .sending, .ports] s.hub t.hub)

/-- R38, R42, R43: FETCH, when the read meets no error or one that the code corrects.  The cases are judged in their order;
the data are the unit's header and payload as stored, cut to what the unit holds, and only the count of corrected
errors and the caller's link change. -/
def Obligations.FetchReturnsUnit : Prop :=
  ∀ (c : Caller) (k : Fin 16) (u offset : Word) (length : BitVec 16) (s : State),
    s.Serves c (some .store) (some k) →
    let g := s.hub.arrive c.env
    let ring : Fin 17 := if (s.hub.stream k).global then 16 else k.castSucc
    let found := (s.hub.ring ring).index.find? fun e => e.stream = k ∧ e.unit = u
    let cmd := Instr.fetch c (byte k.val) u offset length
    (length = 0 ∨ 4096 < length.toNat → exec cmd s = s.became (g.answer c 0x26 .badArg [])) ∧
    (length ≠ 0 → length.toNat ≤ 4096 →
      (found = none →
        exec cmd s = s.became (g.answer c 0x26
          (if (u - (s.hub.ring k.castSucc).head).toNat < 2147483648 then .notYet else .gone) [])) ∧
      ∀ e, found = some e →
        (64 + e.payload ≤ offset.toNat → exec cmd s = s.became (g.answer c 0x26 .badArg [])) ∧
        (offset.toNat < 64 + e.payload → (∀ f ∈ c.env.ecc.head?, f.uncorrectable = false) →
          ∃ t, exec cmd s = .next t ∧
            (let unit := (s.hub.ring ring).readBytes s.hub.store.mem e.start (64 + e.payload)
             let data := (unit.drop offset.toNat).take length.toNat
             (t.hub.ports[c.port]).sending =
               some (false, { tag := c.tag, code := 0x26, outcome := if e.flags.damaged then .damaged else .done,
                              data := le 2 data.length ++ data })) ∧
            t.hub.ring ring = { s.hub.ring ring with
              corrected := (s.hub.ring ring).corrected + BitVec.ofNat 32 (c.env.ecc.headD {}).corrected } ∧
            (∀ r, r ≠ ring → t.hub.ring r = s.hub.ring r) ∧
            Hub.OnlyChanges [.rings, .ports] s.hub t.hub))

/-- R38, R42, R43: FETCH whose read meets an uncorrectable error answers DAMAGED with the bytes as the read returned them;
when the unit was not yet flagged, its flag is set, the ring's damaged unit count rises, MEMORY_ERROR is given with the unit's
stream and the running frame's serial, and every live clip that retains the unit is marked DAMAGED. -/
def Obligations.UncorrectableReadDamages : Prop :=
  ∀ (c : Caller) (k : Fin 16) (u offset : Word) (length : BitVec 16) (s : State) (e : Entry) (f : ReadFault),
    s.Serves c (some .store) (some k) → length ≠ 0 → length.toNat ≤ 4096 →
    let ring : Fin 17 := if (s.hub.stream k).global then 16 else k.castSucc
    (s.hub.ring ring).index.find? (fun e => e.stream = k ∧ e.unit = u) = some e →
    offset.toNat < 64 + e.payload → c.env.ecc.head? = some f → f.uncorrectable = true →
    let old := s.hub.ring ring
    let unit := f.asRead.foldl (fun bs x => bs.set x.1 x.2) (old.readBytes s.hub.store.mem e.start (64 + e.payload))
    let data := (unit.drop offset.toNat).take length.toNat
    let corrected := old.corrected + BitVec.ofNat 32 f.corrected
    ∃ t, exec (.fetch c (byte k.val) u offset length) s = .next t ∧
      (t.hub.ports[c.port]).sending =
        some (false, { tag := c.tag, code := 0x26, outcome := .damaged, data := le 2 data.length ++ data }) ∧
      (∀ r, r ≠ ring → t.hub.ring r = s.hub.ring r) ∧
      (e.flags.damaged = true →
        t.hub.ring ring = { old with corrected := corrected } ∧ Hub.OnlyChanges [.rings, .ports] s.hub t.hub) ∧
      (e.flags.damaged = false →
        t.hub.ring ring =
          { old with
            corrected := corrected
            damaged := old.damaged + 1
            index := old.index.map fun x => if x = e then { x with flags := { x.flags with damaged := true } } else x } ∧
        t.hub.log = { s.hub.log with
          clips := s.hub.log.clips.map fun clip => if s.hub.retains clip k u then { clip with damaged := true } else clip } ∧
        (∀ p : Fin 4, (t.hub.notices[p]).summary.getLsbD 8 = true ∧
          ((s.hub.notices[p]).mask.getLsbD 8 = true → (s.hub.notices[p]).queue.length < 32 →
            (t.hub.notices[p]).queue = (s.hub.notices[p]).queue ++
              [{ kind := .memoryError, param := BitVec.ofNat 32 k.val, serial := s.hub.tb.frame.serial }])) ∧
        Hub.OnlyChanges [.rings, .log, .ports, .notices] s.hub t.hub)

/-- R39: INSERT without the final flag, and every INSERT that is refused, in the order of the checks; a stream byte above 15 is
refused like every stream that is not aux. -/
def Obligations.InsertBuildsUnit : Prop :=
  ∀ (c : Caller) (k : Fin 16) (data : Bytes) (final : Bool) (s : State), s.Serves c (some .store) (some k) →
    let g := s.hub.arrive c.env
    let x := s.hub.stream k
    let cmd := Instr.insert c (byte k.val) data final
    (∀ n : Byte, 15 < n.toNat → exec (.insert c n data final) s = s.became (g.answer c 0x27 .badArg [])) ∧
    (k.val < 13 ∨ data.length = 0 ∨ 4096 < data.length → exec cmd s = s.became (g.answer c 0x27 .badArg [])) ∧
    (13 ≤ k.val → data.length ≠ 0 → data.length ≤ 4096 →
      (x.state = .closed ∨ x.state = .closing ∨ (x.buffer ≠ [] ∧ x.builder ≠ some c.port) →
        exec cmd s = s.became (g.answer c 0x27 .conflict [])) ∧
      (x.state = .opened ∨ x.state = .held → (x.buffer = [] ∨ x.builder = some c.port) →
        (65536 < x.buffer.length + data.length →
          exec cmd s = s.became
            ((g.modStream k fun y => { y with buffer := [], builder := none, discarded := y.discarded + 1 }).answer c 0x27
              .badArg [])) ∧
        (x.buffer.length + data.length ≤ 65536 → final = false →
          exec cmd s = s.became
            ((g.modStream k fun y => { y with buffer := x.buffer ++ data, builder := some c.port }).answer c 0x27 .done
              (le 4 (x.buffer.length + data.length))))))

/-- R40, R34, R20: the final INSERT of an aux stream that is OPEN, or HELD with STORE, commits the whole buffer as the
stream's next unit, dated by the running frame, and answers its numbers; HELD with DISCARD it takes no number.  The bytes of
the DRAM change in the unit's sectors alone, which then hold its header, its data and zeros.  R32: the
units that leave make just room for it, oldest first.  R35: a commit that starts below the ring's middle and reaches past it
gives RING_HALF, and one that reaches the ring's end RING_WRAP (that a commit which ends just before the middle gives no
RING_HALF is the model's reading, log entry 33); the entry in a queue is told where no unit leaves.  R33, R37, R142: one unit that leaves takes the send pointer, an unsent
count, UNSENT_LOST and the release marks with it, and lapses the clips that retained it.  R136, R141: where none leaves, the
OPEN clips take the unit into their spans and are measured.  That ring G's tail takes the release marks of all streams along
is the model's reading (log entry 32). -/
def Obligations.FinalInsertCommits : Prop :=
  ∀ (c : Caller) (k : Fin 16) (data : Bytes) (s : State), s.Serves c (some .store) (some k) → 13 ≤ k.val →
    data.length ≠ 0 → data.length ≤ 4096 → (s.hub.stream k).buffer.length + data.length ≤ 65536 →
    ((s.hub.stream k).buffer = [] ∨ (s.hub.stream k).builder = some c.port) →
    let x := s.hub.stream k
    let ring : Fin 17 := if x.global then 16 else k.castSucc
    let unit := (s.hub.ring k.castSucc).head
    let cmd := Instr.insert c (byte k.val) data true
    let old := s.hub.ring ring
    let len := (64 + (x.buffer.length + data.length) + 511) / 512
    let fits := fun l : List Entry => (l.map Entry.len).sum + len ≤ 8 * old.size ∧ l.length < 1024
    let number := fun e : Entry => if x.global then e.g.getD 0 else e.unit
    (x.state = .held → x.discard = true →
      ∃ t, exec cmd s = .next t ∧
        t.hub.stream k = { x with buffer := [], builder := none, discarded := x.discarded + 1 } ∧
        (t.hub.ports[c.port]).sending = some (false, { tag := c.tag, code := 0x27, outcome := .done, data := zeros 10 }) ∧
        Hub.OnlyChanges [.streams, .log, .ports, .notices] s.hub t.hub) ∧
    (x.state = .opened ∨ (x.state = .held ∧ x.discard = false) → 512 ≤ (s.hub.ring ring).sectors →
      ∃ t e, exec cmd s = .next t ∧ (t.hub.ring ring).index.getLast? = some e ∧
        e.stream = k ∧ e.unit = unit ∧ e.g = (if x.global then some (s.hub.ring 16).head else none) ∧
        e.payload = x.buffer.length + data.length ∧ e.serial = s.hub.tb.frame.serial ∧ e.tc = s.hub.tb.frame.tc ∧
        (t.hub.ring k.castSucc).head = unit + 1 ∧ (t.hub.ring ring).head = (s.hub.ring ring).head + 1 ∧
        (t.hub.stream k).buffer = [] ∧ (t.hub.stream k).builder = none ∧
        (t.hub.stream k).committed = x.committed + 1 ∧ (t.hub.stream k).state = x.state ∧
        (t.hub.ports[c.port]).sending =
          some (false, { tag := c.tag, code := 0x27, outcome := .done,
                         data := 1 :: word4 unit ++ optField 4 word4 e.g }) ∧
        e.flags = { tcJump := s.hub.tb.frame.jump } ∧ e.start = old.headOff ∧ e.len = len ∧
        (old.headOff < 8 * old.size →
          (∀ a, old.Outside old.headOff len a → Memory.read t.hub.store.mem a = Memory.read s.hub.store.mem a) ∧
          (s.hub.MemoryOk → t.hub.Stores ring e s.hub.tb.frame.phase [] (x.buffer ++ data))) ∧
        (let n := 8 * old.size
         let half := old.headOff < n / 2 ∧ n / 2 < old.headOff + len
         let wrap := ¬ half ∧ n ≤ old.headOff + len
         let gives := fun (kind : NoticeKind) (code : Nat) (given : Prop) =>
           ∀ p : Fin 4,
             ((t.hub.notices[p]).summary.getLsbD code = true ↔
               (s.hub.notices[p]).summary.getLsbD code = true ∨ given) ∧
             (given → fits old.index → (s.hub.notices[p]).mask.getLsbD code = true →
               (s.hub.notices[p]).queue.length < 32 →
               { kind := kind, param := BitVec.ofNat 32 ring.val, serial := s.hub.tb.frame.serial } ∈
                 (t.hub.notices[p]).queue)
         gives .ringHalf 6 half ∧ gives .ringWrap 7 wrap) ∧
        (∃ n, t.hub.ring ring = { old with
            index := old.index.drop n ++ [e], head := old.head + 1, headOff := (old.headOff + len) % (8 * old.size),
            send := (t.hub.ring ring).send } ∧
          fits (old.index.drop n) ∧ ∀ m, m < n → ¬ fits (old.index.drop m)) ∧
        (∀ (y : Entry) (rest : List Entry), old.index = y :: rest → ¬ fits (y :: rest) → fits rest →
          let unsent := old.send = number y
          let told := ∃ p : Fin 4, ∃ z ∈ (s.hub.notices[p]).queue, z.kind = .unsentLost ∧ z.param.toNat = y.stream.val
          let tail := match rest with
            | [] => old.head
            | z :: _ => number z
          (unsent → (t.hub.ring ring).send = number y + 1 ∧ (t.hub.paths.sends[ring]).taken = none) ∧
          (¬ unsent → (t.hub.ring ring).send = old.send) ∧
          (∀ j, (t.hub.stream j).lost =
            (if unsent ∧ y.stream = j then (s.hub.stream j).lost + 1 else (s.hub.stream j).lost)) ∧
          (unsent → ¬ told → ∀ p : Fin 4, (t.hub.notices[p]).summary.getLsbD 5 = true) ∧
          (told ∨ ¬ unsent → ∀ p : Fin 4,
            (t.hub.notices[p]).summary.getLsbD 5 = (s.hub.notices[p]).summary.getLsbD 5) ∧
          (∀ j, (t.hub.stream j).releaseMark =
            (if x.global ∧ ((s.hub.stream j).releaseMark - number y).toNat < (tail - number y).toNat then tail
             else (s.hub.stream j).releaseMark)) ∧
          (s.hub.ClipsOrdered → s.hub.boundRing y.stream = ring →
            t.hub.log.lapses = s.hub.log.lapses +
              BitVec.ofNat 32 (s.hub.log.clips.filter fun clip => s.hub.retains clip y.stream y.unit).length ∧
            ∀ clip ∈ s.hub.log.clips, s.hub.retains clip y.stream y.unit = true →
              { clip with state := .lapsed, limitDue := false } ∈ t.hub.log.clips ∧
              ∀ p : Fin 4, s.hub.hasClass p .log = true → (t.hub.notices[p]).summary.getLsbD 18 = true)) ∧
        (fits old.index → s.hub.ClipsOrdered → t.hub.log.lapses = s.hub.log.lapses ∧
          ∀ clip ∈ s.hub.log.clips, clip.state = .opened → clip.endSerial = none →
            let covered := clip.mask.getLsbD k.val = true ∧ (s.hub.tb.frame.serial - clip.startSerial).toNat < 2147483648
            let new := if covered then
                { clip with
                  starts := clip.starts.set k (some (clip.starts[k].getD unit))
                  running := clip.running.set k (some unit) }
              else clip
            let held := (t.hub.ring ring).index.filter fun z =>
              t.hub.boundRing z.stream == ring && t.hub.retains new z.stream z.unit
            (if 512 < held.length ∨ 8 * old.size < 2 * (held.map Entry.len).sum then { new with limitDue := true }
             else new) ∈ t.hub.log.clips) ∧
        Hub.OnlyChanges [.streams, .rings, .memory, .sending, .log, .ports, .notices] s.hub t.hub)

/-- R34: what is written into a ring reads back: the bytes of the entry that a write adds are the unit header and the payload,
across the ring's end too.  Under it lie the memory's own laws: a write is read back where it was written and nowhere
else, and keeps the canonical form. -/
def Obligations.StoredBytesReadBack : Prop :=
  (∀ (h : Hub) (r : Fin 17) (o : Offer) (unit : Word) (g : Option Word), h.MemoryOk →
      (h.ring r).headOff < (h.ring r).sectors → sectorsOf o.payload.length ≤ (h.ring r).sectors →
      ∃ e, ((h.writeUnit r o unit g).ring r).index.getLast? = some e ∧ e.start = (h.ring r).headOff ∧
        (h.writeUnit r o unit g).unitBytes r e =
          h.unitHeader o { o.flags with damaged := false, tcJump := o.frame.jump } unit g ++ o.payload) ∧
  (∀ (m : List (Nat × BitVec 8)) (a x : Nat) (bs : Bytes), Memory.wf m = true →
      Memory.wf (Memory.write m a bs) = true ∧
      Memory.read (Memory.write m a bs) x =
        if a ≤ x ∧ x < a + bs.length then bs.getD (x - a) 0 else Memory.read m x)

/-! ### Chapter 3: Picture Coder -/

/-- R48, R54, R61: a loss of lock, or a picture reported in a wrong format or rate, takes a PRESENT input to NO_SIGNAL: frames
since loss 0, losses raised by one, INPUT_STATE, and no picture still being captured from the input stays in flight as
one.  An input in NO_SIGNAL, and a right picture, change the receiver's record alone.  A failed line check is counted and
marks the pictures being captured; the last line of a picture received under lock ends their capture and delivers it.  That a
report gives lock, and that capture ends only under lock, is the model's choice (log entry 16), and so is it that a report in
NO_SIGNAL becomes the last measured format (log entry 64).  R48, R49, R54, R62: at a tick
an input that delivered a good picture in the ended frame is or stays PRESENT, one that delivered none loses its signal or
counts another frame; then each picture stream that is OPEN or HELD begins the capture of its source's picture, or makes a
REPEAT unit, or a BLACK unit from 25 frames without signal on, which waits behind pictures in flight; the order of the blocks
in a tick is the model's (log entry 13).  Model's choices too: a capture is marked SOURCE_CHANGE when SET PICTURE named another
source since the open, and the next unit offered has the flag, be it the first after the open (log entry 56); and a substitute
unit neither sets that mark nor changes the remembered source (log entry 35); and a picture whose capture has ended stays in
flight when the tick takes its input to NO_SIGNAL (log entry 65). -/
def Obligations.ReceiversJudgeInputs : Prop :=
  (∀ (e : Env) (i : Fin 4) (m : Measured) (s : State), s.held = false →
      let g := s.hub.arrive e
      let x := s.hub.inputs[i]
      let good := m.format = some x.expected ∧ m.rate = some s.hub.tb.rate
      let lost := fun (t : State) (y : VideoInput) =>
        t.hub.inputs[i] = { y with present := false, sinceLoss := 0, losses := y.losses + 1 } ∧
          (∀ j, j ≠ i → t.hub.inputs[j] = s.hub.inputs[j]) ∧
          (∀ k : Fin 4, ∀ f ∈ (t.hub.coders[k]).flight, f.capturingFrom i = false) ∧
          (∀ k : Fin 4, (t.hub.coders[k]).fullness = (s.hub.coders[k]).fullness ∧
            (t.hub.coders[k]).q = (s.hub.coders[k]).q ∧
            (t.hub.coders[k]).counts.aborted = (s.hub.coders[k]).counts.aborted +
              BitVec.ofNat 32 ((s.hub.coders[k]).flight.filter fun f => f.capturingFrom i).length) ∧
          t.hub.tally.flash[i] = 0 ∧ (∀ p : Fin 4, (t.hub.notices[p]).summary.getLsbD 9 = true) ∧
          t.hub.tb = s.hub.tb ∧ t.hub.mixer = s.hub.mixer ∧ t.hub.paths.path = s.hub.paths.path ∧
          t.hub.gauges = s.hub.gauges ∧ t.hub.ports = s.hub.ports
      (x.present = true →
        ∃ t, exec (.receiverLossOfLock e i) s = .next t ∧ lost t { x with locked := false }) ∧
      (x.present = false →
        exec (.receiverLossOfLock e i) s = s.became (g.modInput i fun y => { y with locked := false })) ∧
      (x.present = true → ¬ good →
        ∃ t, exec (.receiverFormatReport e i m) s = .next t ∧ lost t { x with measured := some m, locked := true }) ∧
      (x.present = false ∨ good →
        exec (.receiverFormatReport e i m) s =
          s.became (g.modInput i fun y => { y with measured := some m, locked := true }))) ∧
  (∀ (e : Env) (i : Fin 4) (s : State), s.held = false →
      let g := s.hub.arrive e
      (exec (.lineCheckFailure e i) s = s.became
        { g with
          inputs := g.inputs.set i { g.inputs[i] with lineErrors := (g.inputs[i]).lineErrors + 1 }
          coders := Vector.ofFn fun k => { g.coders[k] with
            flight := (g.coders[k]).flight.map fun f => if f.capturingFrom i then { f with lineError := true } else f } }) ∧
      ((s.hub.inputs[i]).locked = true →
        exec (.captureEnd e i) s = s.became
          { g with
            inputs := g.inputs.set i { g.inputs[i] with
              delivered := (g.inputs[i]).delivered ++ (g.inputs[i]).measured.toList }
            coders := Vector.ofFn fun k => { g.coders[k] with
              flight := (g.coders[k]).flight.map fun f => if f.capturingFrom i then { f with captured := true } else f } }) ∧
      ((s.hub.inputs[i]).locked = false → exec (.captureEnd e i) s = s.became g)) ∧
  ∀ (e : Env) (s : State), s.held = false → s.hub.tb.ref ≠ .locked →
    ∃ t, exec (.dividerExpiry e) s = .next t ∧
      (∀ i : Fin 4,
        let x := s.hub.inputs[i]
        let y := { x with delivered := [] }
        let good := ∃ m ∈ x.delivered, m.format = some x.expected ∧ m.rate = some s.hub.tb.rate
        let told := ∀ p : Fin 4, (t.hub.notices[p]).summary.getLsbD 9 = true
        (x.present = true → good → t.hub.inputs[i] = y ∧ t.hub.tally.flash[i] = s.hub.tally.flash[i]) ∧
        (x.present = true → ¬ good →
          t.hub.inputs[i] = { y with present := false, sinceLoss := 0, losses := y.losses + 1 } ∧
            t.hub.tally.flash[i] = 0 ∧ told) ∧
        (x.present = false → good → x.locked = true →
          t.hub.inputs[i] = { y with present := true } ∧ t.hub.tally.flash[i] = s.hub.tally.flash[i] ∧ told) ∧
        (x.present = false → ¬ good ∨ x.locked = false →
          t.hub.inputs[i] = { y with sinceLoss := min 4294967295 (y.sinceLoss + 1) } ∧
            t.hub.tally.flash[i] = (s.hub.tally.flash[i] + 1) % 4)) ∧
      ∀ k : Fin 4,
        let c := s.hub.coders[k]
        let st := s.hub.stream (pictureStream k)
        let frame := t.hub.tb.frame
        let input := t.hub.inputs[c.source]
        let black := decide (25 ≤ input.sinceLoss)
        let flight : Flight := { frame := frame, source := c.source, subst := none, aborted := false, captured := false,
                                 lineError := false, coding := none }
        (∀ f ∈ c.flight, f.subst = none ∧ f.captured = true ∧ (frame.serial - f.frame.serial).toNat < 2) →
          (st.state = .closed ∨ st.state = .closing → t.hub.coders[k] = c) ∧
          (st.state = .opened ∨ st.state = .held →
            (input.present = true →
              t.hub.coders[k] =
                { c with
                  sourceChange := c.sourceChange || decide (c.source ≠ c.remembered)
                  remembered := c.source
                  flight := c.flight ++ [flight]
                  counts := { c.counts with captured := c.counts.captured + 1 } }) ∧
            (input.present = false → c.flight ≠ [] →
              t.hub.coders[k] = { c with flight := c.flight ++ [{ flight with subst := some black }] }) ∧
            (input.present = false → c.flight = [] →
              t.hub.coders[k] =
                { c with
                  sourceChange := false
                  counts := if black then { c.counts with blacks := c.counts.blacks + 1 }
                            else { c.counts with repeats := c.counts.repeats + 1 } } ∧
              (st.state = .opened → st.global = false → 4 ≤ (s.hub.ring (pictureStream k).castSucc).sectors →
                ∃ u, (t.hub.ring (pictureStream k).castSucc).index.getLast? = some u ∧ u.stream = pictureStream k ∧
                  u.unit = (s.hub.ring (pictureStream k).castSucc).head ∧ u.serial = frame.serial ∧ u.tc = frame.tc ∧
                  u.payload = (if black then 960 else 0) ∧
                  u.flags = { repeated := !black, black := black, inputError := false, sourceChange := c.sourceChange,
                              damaged := false, tcJump := frame.jump } ∧
                  (t.hub.stream (pictureStream k)).committed = st.committed + 1)))

/-- R55, R56: a picture start reads the assigned rate, or the one that the picture keeps (R63; when it keeps one is the model's
choice, log entry 47); a rate assigned at this very moment it always reads, and no picture keeps another (R125).  It forms T, B, F and q_pic and fixes the ceiling B − F + T; the quantiser
of slice i is q_pic + floor(16 d / T) clamped to 1 to 63, with d = b − floor(T i / N) + (F − floor(B / 2)), for a target
above 0 (R_min is at least 1,000,000 b/s). -/
def Obligations.RateControl : Prop :=
  (∀ (e : Env) (k : Fin 4) (f : Flight) (rest : List Flight) (s : State), s.held = false →
      (s.hub.coders[k]).flight = f :: rest → f.subst = none → f.coding = none →
      let g := s.hub.arrive e
      let c := s.hub.coders[k]
      let share := s.hub.budget.pictures[k]
      let kept := if share.changedAt = some g.now then [] else share.kept
      let rate := match kept.find? fun x => x.1 = f.frame.serial with
        | some x => x.2
        | none => if share.counted then share.assigned else c.rMin
      let target := match s.hub.tb.rate with
        | .r25 => rate / 25
        | .r50 => rate / 50
        | .r2997 => rate * 1001 / 30000
        | .r5994 => rate * 1001 / 60000
      let size := target * c.bf
      let fullness := if c.built then min c.fullness size else size / 2
      exec (.pictureStart e k) s = s.became
        ((g.modCoder k fun _ =>
          { c with
            built := true, rate := rate, target := target, size := size, fullness := fullness,
            q := if c.built then c.q else 24,
            flight := { f with coding := some { i := 0, b := 0, cPic := size - fullness + target, first := 0, last := 0,
                                                slice := none, coded := [] } } :: rest }).modShare k fun x =>
          { x with kept := kept, startedAt := some g.now })) ∧
  (∀ (e : Env) (k : Fin 4) (f : Flight) (x : Coding) (rest : List Flight) (s : State), s.held = false →
      (s.hub.coders[k]).flight = f :: rest → f.coding = some x → x.slice = none →
      let c := s.hub.coders[k]
      let slices := match c.format with
        | .hd => 68
        | .uhd => 135
      x.i < slices → 0 < c.target →
      ∃ q : Nat,
        (let d : Int := (x.b : Int) - ((c.target * x.i / slices : Nat) : Int) + ((c.fullness : Int) - ((c.size / 2 : Nat) : Int))
         (q : Int) = max 1 (min 63 ((c.q : Int) + Int.floor ((16 * d : Rat) / (c.target : Rat))))) ∧
        exec (.sliceStart e k) s = s.became
          ((s.hub.arrive e).modCoder k fun _ =>
            { c with flight := { f with coding := some { x with slice := some q } } :: rest }))

/-- R56 to R60: the end of a slice.  Within the ceiling and before the last slice, b rises by the slice's bits and the
picture goes on; past the ceiling the picture is dropped, F unchanged and q_pic raised by 8 up to 63; at the last slice
F becomes max(0, F + b − T) and q_pic the last quantiser, whether the Store commits, discards or aborts the unit, but for a
unit longer than half its ring, whose picture is dropped TOO_LARGE.  That the hold with DISCARD is judged first, then the
length, then the ring's policy on input errors, is the model's reading (log entry 34).  A committed unit has the dating of the picture's tick, its
flags, the producer fields and the coded slices in order (R34, R52, R58, Table 73); it carries a SOURCE_CHANGE mark that
stands, even as the first after an open (the model's choice, log entry 56).  A picture that ends leaves the
flight with the substitute units that waited behind it.  At the tick that begins the second frame after its own, a picture
that has not completed is dropped LATE; LATE DROP does that part of the coming tick ahead of it (log entry 13). -/
def Obligations.PicturesEnd : Prop :=
  (∀ (e : Env) (k : Fin 4) (f : Flight) (x : Coding) (q : Nat) (rest : List Flight) (coded : Bytes) (s : State),
      s.held = false → (s.hub.coders[k]).flight = f :: rest → f.coding = some x → x.slice = some q →
      let c := s.hub.coders[k]
      let b := x.b + 8 * coded.length
      let st := s.hub.stream (pictureStream k)
      let r : Fin 17 := if st.global then 16 else (pictureStream k).castSucc
      let ring := s.hub.ring r
      let sectors := sectorsOf (x.coded ++ coded).length
      let discards := st.discard = true ∧ (st.state = .held ∨ (st.state = .closing ∧ st.fromHeld = true))
      let tooLarge := st.state ≠ .closed ∧ ¬ discards ∧ ring.sectors / 2 < sectors
      let cmd := Instr.sliceEnd e k coded
      let left := rest.dropWhile fun y => y.subst != none
      (b ≤ x.cPic → x.i + 1 < c.format.slices →
        exec cmd s = s.became ((s.hub.arrive e).modCoder k fun _ =>
          { c with flight := { f with coding := some { x with
            i := x.i + 1, b := b, first := if x.i = 0 then q else x.first, last := q, slice := none,
            coded := x.coded ++ coded } } :: rest })) ∧
      (x.cPic < b →
        ∃ t, exec cmd s = .next t ∧ (t.hub.coders[k]).flight = left ∧ (t.hub.coders[k]).fullness = c.fullness ∧
          (t.hub.coders[k]).q = min 63 (c.q + 8) ∧ (t.hub.coders[k]).counts.ceiling = c.counts.ceiling + 1 ∧
          (t.hub.coders[k]).counts.completed = c.counts.completed ∧
          (∀ p : Fin 4, (t.hub.notices[p]).summary.getLsbD 10 = true) ∧
          (∀ j : Fin 4, j ≠ k → t.hub.coders[j] = s.hub.coders[j]) ∧
          t.hub.tb = s.hub.tb ∧ t.hub.inputs = s.hub.inputs ∧ t.hub.mixer = s.hub.mixer ∧ t.hub.ports = s.hub.ports) ∧
      (b ≤ x.cPic → c.format.slices ≤ x.i + 1 → tooLarge →
        ∃ t, exec cmd s = .next t ∧ (t.hub.coders[k]).flight = left ∧ (t.hub.coders[k]).fullness = c.fullness ∧
          (t.hub.coders[k]).q = min 63 (c.q + 8) ∧ (t.hub.coders[k]).counts.tooLarge = c.counts.tooLarge + 1 ∧
          (t.hub.coders[k]).counts.completed = c.counts.completed ∧ (t.hub.coders[k]).sourceChange = false ∧
          (∀ p : Fin 4, (t.hub.notices[p]).summary.getLsbD 10 = true) ∧
          (left = rest → (t.hub.stream (pictureStream k)).discarded = st.discarded + 1 ∧
            (t.hub.stream (pictureStream k)).committed = st.committed ∧
            (st.global = false → (t.hub.ring r).index = ring.index)) ∧
          (∀ j : Fin 4, j ≠ k → t.hub.coders[j] = s.hub.coders[j]) ∧
          t.hub.tb = s.hub.tb ∧ t.hub.inputs = s.hub.inputs ∧ t.hub.mixer = s.hub.mixer ∧ t.hub.ports = s.hub.ports) ∧
      (b ≤ x.cPic → c.format.slices ≤ x.i + 1 → ¬ tooLarge →
        ∃ t, exec cmd s = .next t ∧ (t.hub.coders[k]).flight = left ∧
          (t.hub.coders[k]).fullness = c.fullness + b - c.target ∧ (t.hub.coders[k]).q = q ∧
          (t.hub.coders[k]).counts.completed = c.counts.completed + 1 ∧
          (t.hub.coders[k]).counts.undershoots =
            (if c.fullness + b < c.target then c.counts.undershoots + 1 else c.counts.undershoots) ∧
          (t.hub.coders[k]).sourceChange = false ∧
          (left = rest → discards ∨ (st.state ≠ .closed ∧ f.lineError = true ∧ ring.keep = false) →
            (t.hub.stream (pictureStream k)).discarded = st.discarded + 1 ∧
              (t.hub.stream (pictureStream k)).committed = st.committed ∧ (t.hub.ring r).index = ring.index ∧
              t.hub.store.mem = s.hub.store.mem) ∧
          (left = rest → st.state ≠ .closed → ¬ discards → f.lineError = false ∨ ring.keep = true →
            ∃ u, (t.hub.ring r).index.getLast? = some u ∧ u.stream = pictureStream k ∧
              u.unit = (s.hub.ring (pictureStream k).castSucc).head ∧ u.g = (if st.global then some ring.head else none) ∧
              u.start = ring.headOff ∧ u.len = sectors ∧ u.payload = (x.coded ++ coded).length ∧
              u.serial = f.frame.serial ∧ u.tc = f.frame.tc ∧
              u.flags = { inputError := f.lineError, sourceChange := c.sourceChange, tcJump := f.frame.jump } ∧
              (t.hub.ring r).head = ring.head + 1 ∧
              (t.hub.stream (pictureStream k)).committed = st.committed + 1 ∧
              (t.hub.stream (pictureStream k)).discarded = st.discarded ∧
              (ring.headOff < ring.sectors →
                (∀ a, ring.Outside ring.headOff sectors a →
                  Memory.read t.hub.store.mem a = Memory.read s.hub.store.mem a) ∧
                (s.hub.MemoryOk →
                  t.hub.Stores r u f.frame.phase
                    (le 1 c.format.code ++ le 1 f.source.val ++ le 1 (if x.i = 0 then q else x.first) ++ le 1 q ++ le 4 b)
                    (x.coded ++ coded)))) ∧
          (∀ j : Fin 4, j ≠ k → t.hub.coders[j] = s.hub.coders[j]) ∧
          t.hub.tb = s.hub.tb ∧ t.hub.inputs = s.hub.inputs ∧ t.hub.mixer = s.hub.mixer ∧ t.hub.ports = s.hub.ports)) ∧
  (∀ (e : Env) (k : Fin 4) (f : Flight) (rest : List Flight) (s : State), s.held = false →
      (s.hub.coders[k]).flight = f :: rest → f.subst = none →
      s.hub.tb.frame.serial = f.frame.serial + 1 →
      let c := s.hub.coders[k]
      ∃ t, exec (.lateDrop e k) s = .next t ∧ (t.hub.coders[k]).fullness = c.fullness ∧
        (t.hub.coders[k]).q = min 63 (c.q + 8) ∧ (t.hub.coders[k]).counts.late = c.counts.late + 1 ∧
        (t.hub.coders[k]).flight = (rest.dropWhile fun y => y.subst != none) ∧
        (∀ p : Fin 4, (t.hub.notices[p]).summary.getLsbD 10 = true) ∧
        (∀ j : Fin 4, j ≠ k → t.hub.coders[j] = s.hub.coders[j]) ∧
        t.hub.tb = s.hub.tb ∧ t.hub.inputs = s.hub.inputs ∧ t.hub.mixer = s.hub.mixer ∧ t.hub.ports = s.hub.ports)

/-- R50, R51, R125: SET INPUT and SET PICTURE.  The settings are clamped and written, then the Budget recomputes; the answer
carries the values as written. -/
def Obligations.CoderSettings : Prop :=
  ∀ (c : Caller) (s : State), s.Serves c (some .code) none →
    let g := s.hub.arrive c.env
    (∀ i f : Byte, 3 < i.toNat ∨ 1 < f.toNat → exec (.setInput c i f) s = s.became (g.answer c 0x30 .badArg [])) ∧
    (∀ (i : Fin 4) (f : Format),
      exec (.setInput c (byte i.val) (byte f.code)) s =
        s.became ((g.modInput i fun x => { x with expected := f }).answer c 0x30 .done [])) ∧
    (∀ (k source f mode : Byte) (rFix rMin rMax : Word) (w bf : Byte),
      (k.toNat < 16 → s.hub.hasStream c.port k.toNat = true) →
      3 < k.toNat ∨ 3 < source.toNat ∨ 1 < f.toNat ∨ 1 < mode.toNat →
      exec (.setPicture c k source f mode rFix rMin rMax w bf) s = s.became (g.answer c 0x31 .badArg [])) ∧
    ∀ (k source : Fin 4) (f : Format) (fixed : Bool) (rFix rMin rMax : Word) (w bf : Byte),
      s.hub.hasStream c.port k.val = true →
      let old := s.hub.coders[k]
      let cmd := Instr.setPicture c (byte k.val) (byte source.val) (byte f.code) (byte fixed.toNat) rFix rMin rMax w bf
      let rate := fun x : Word => max 1000000 (min 400000000 x.toNat)
      let new : Coder :=
        { old with
          source := source
          format := f
          fixed := fixed
          rFix := rate rFix
          rMin := rate rMin
          rMax := rate rMax
          weight := max 1 (min 64 w.toNat)
          bf := max 2 (min 16 bf.toNat) }
      (rMax.toNat < rMin.toNat → exec cmd s = s.became (g.answer c 0x31 .badArg [])) ∧
      (rMin.toNat ≤ rMax.toNat → f ≠ old.format → (s.hub.stream (pictureStream k)).state ≠ .closed →
        exec cmd s = s.became (g.answer c 0x31 .conflict [])) ∧
      (rMin.toNat ≤ rMax.toNat → f = old.format ∨ (s.hub.stream (pictureStream k)).state = .closed →
        exec cmd s = s.became (((g.modCoder k fun _ => new).recompute).answer c 0x31 .done
          (le 1 source.val ++ le 1 f.code ++ flagByte fixed ++ le 4 new.rFix ++ le 4 new.rMin ++ le 4 new.rMax ++
            le 1 new.weight ++ le 1 new.bf)))

/-- R64: CODER RESET empties every context of its pictures and of the REPEAT units that replaced aborted ones, counts the
pictures, and sets F and q_pic of the built contexts of OPEN and HELD streams; settings, inputs and stream states but for the
end of CLOSING stay.  Model's choice (log entry 37): a REPEAT or BLACK unit that a tick made behind the pictures (R62) is
offered once they are gone, counted, and takes the SOURCE_CHANGE mark with it (R52); without one the mark stays. -/
def Obligations.CoderResetDiscards : Prop :=
  ∀ (c : Caller) (s : State), s.Serves c (some .code) none →
    ∃ t, exec (.coderReset c) s = .next t ∧
      (∀ k : Fin 4,
        let old := s.hub.coders[k]
        let state := (s.hub.stream (pictureStream k)).state
        let reset := old.built = true ∧ (state = .opened ∨ state = .held)
        let waiting := fun black : Bool => (old.flight.filter fun f => f.subst == some black && !f.aborted).length
        t.hub.coders[k] =
          { old with
            flight := []
            fullness := if reset then old.size / 2 else old.fullness
            q := if reset then 24 else old.q
            sourceChange := decide (old.sourceChange = true ∧ waiting false + waiting true = 0)
            counts := { old.counts with
              repeats := old.counts.repeats + BitVec.ofNat 32 (waiting false)
              blacks := old.counts.blacks + BitVec.ofNat 32 (waiting true)
              discarded := old.counts.discarded +
                BitVec.ofNat 32 (old.flight.filter fun f => f.subst == none).length } } ∧
        (t.hub.stream (pictureStream k)).state = (if state = .closing then .closed else state) ∧
        (state = .closing → ∀ p : Fin 4, (t.hub.notices[p]).summary.getLsbD 4 = true)) ∧
      (∀ k : Fin 16, 4 ≤ k.val → (t.hub.stream k).state = (s.hub.stream k).state ∧
        (t.hub.stream k).committed = (s.hub.stream k).committed) ∧
      ((∀ k : Fin 4, ∀ f ∈ (s.hub.coders[k]).flight, f.subst ≠ none → f.aborted = true) →
        (∀ k : Fin 16, 4 ≤ k.val → t.hub.stream k = s.hub.stream k) ∧ t.hub.store.mem = s.hub.store.mem) ∧
      (t.hub.ports[c.port]).sending = some (false, { tag := c.tag, code := 0x32, outcome := .done, data := [] }) ∧
      Hub.OnlyChanges [.streams, .rings, .memory, .sending, .coders, .budget, .log, .ports, .notices] s.hub t.hub

/-! ### Chapter 4: Sound Mixer -/

/-- R68 to R70, R75 to R78: one sample.  Every channel is judged by its source and takes its sample, or 0, into its line;
every ramping gain takes its step; every bus forms its output from the channel samples and the stepped gains, exactly,
rounded twice with halves toward plus infinity and saturated, is metered and marked, and a packing frame takes it.  A
sample beyond the frame's cadence count cannot occur and is void (log entry 9). -/
def Obligations.SampleMixes : Prop :=
  ∀ (e : Env) (x : SampleIn) (s : State), s.held = false →
    let m := s.hub.mixer
    let limit := s.hub.tb.frameRate.samples s.hub.tb.frame.phase
    (limit ≤ m.sampleNo → exec (.mixerSample e x) s = s.became (s.hub.arrive e)) ∧
    (m.sampleNo < limit →
      ∃ t, exec (.mixerSample e x) s = .next t ∧
        let n := t.hub.mixer
        let sc := fun c : Fin 64 =>
          let d := ((n.channels[c]).line.getD (n.channels[c]).delay 0).toInt
          if (n.channels[c]).muteEnd ≠ none then 0
          else if (n.channels[c]).inverted = true then min 8388607 (-d) else d
        let exact := fun k : Fin 16 =>
          let acc := ((List.finRange 64).map fun c => sc c * ((((n.channels[c]).gains[k]).g : Nat) : Int)).sum
          ((acc + 8192).fdiv 16384 * ((((n.buses[k]).master).g : Nat) : Int) + 8192).fdiv 16384
        let y := fun k : Fin 16 => max (-8388608) (min 8388607 (exact k))
        n.sampleNo = m.sampleNo + 1 ∧
        (∀ c : Fin 64,
          let old := m.channels[c]
          let new := n.channels[c]
          let carried := ∃ i : Fin 4, i.val = c.val / 8 ∧ (s.hub.inputs[i]).present = true ∧ x.carried.getLsbD c.val = true
          (new.valid = true ↔ if c.val < 32 then carried else x.portError.getLsbD ((c.val - 32) / 8) = false) ∧
            (∀ k : Fin 16, (old.gains[k]).Ramped (new.gains[k])) ∧
            new = { old with
              valid := new.valid
              invalid := if new.valid then old.invalid else old.invalid + 1
              line := ((if new.valid then x.samples.getD c.val 0 else 0) :: old.line).take 4096
              gains := new.gains }) ∧
        (∀ k : Fin 16,
          let old := m.buses[k]
          let new := n.buses[k]
          old.master.Ramped new.master ∧
            (new.inputError = true ↔ old.inputError = true ∨ ∃ c : Fin 64, (n.channels[c]).valid = false ∧
              (n.channels[c]).muteEnd = none ∧ ((n.channels[c]).gains[k]).g ≠ 0) ∧
            new = { old with
              master := new.master
              peak := max old.peak (y k).natAbs
              overloads := if y k = exact k then old.overloads else old.overloads + 1
              inputError := new.inputError }) ∧
        (∀ (k : Fin 8) (a b : Fin 16), a.val = 2 * k.val → b.val = 2 * k.val + 1 →
          n.packs[k] = if (m.packs[k]).state = .packing then
            { m.packs[k] with buffer := (BitVec.ofInt 24 (y a), BitVec.ofInt 24 (y b)) :: (m.packs[k]).buffer }
          else m.packs[k]) ∧
        Hub.OnlyChanges [.mixer] s.hub t.hub)

/-- R75: at each sample of a frame every crosspoint and every master gain takes its ramp step, and a tick, whatever gives it,
touches none.  A gain ramp of L samples ends exactly at its target after L steps, and on the way the current gain never
leaves the closed interval between its value at the start and the target.  A gain with r at 0 is not stepped. -/
def Obligations.RampReachesTarget : Prop :=
  (∀ (e : Env) (x : SampleIn) (s : State), s.held = false →
      s.hub.mixer.sampleNo < s.hub.tb.frameRate.samples s.hub.tb.frame.phase →
      ∃ t, exec (.mixerSample e x) s = .next t ∧
        (∀ (c : Fin 64) (k : Fin 16),
          (t.hub.mixer.channels[c]).gains[k] = ((s.hub.mixer.channels[c]).gains[k]).step) ∧
        ∀ k : Fin 16, (t.hub.mixer.buses[k]).master = ((s.hub.mixer.buses[k]).master).step) ∧
  (∀ (h : Hub) (moment : Nat),
      (∀ (c : Fin 64) (k : Fin 16), ((h.tick moment).mixer.channels[c]).gains[k] = (h.mixer.channels[c]).gains[k]) ∧
        ∀ k : Fin 16, ((h.tick moment).mixer.buses[k]).master = (h.mixer.buses[k]).master) ∧
  ∀ g : Gain, g.Ramped g.step ∧ (g.r = 0 → g.step = g) ∧
    (0 < g.r → Nat.iterate Gain.step g.r g = { g with g := g.target, r := 0 }) ∧
    ∀ n, n ≤ g.r → min g.g g.target ≤ (Nat.iterate Gain.step n g).g ∧ (Nat.iterate Gain.step n g).g ≤ max g.g g.target

/-- R71 to R74, R80: the settings of the mixer.  SET CHANNEL writes the polarity, and a delay other than the one the channel
is headed for begins a mute of two ticks; the tick that brings the mute end to 0 brings the pending delay in force.  SET
GAIN and SET BUS GAIN write target and ramp length and leave the current gain.  R85: MIXER RESET puts gains at their targets,
empties the lines, ends mutes with the pending delay in force, clears meters, silence and marks, and voids every packing
frame; settings and counts stay.  Model's choices: MUTE END does its part of the coming tick ahead of it (log entry 13), and
SET GAIN and SET BUS GAIN are answered with the ramp length as carried, 0 included (log entry 38). -/
def Obligations.MixerCommands : Prop :=
  (∀ (e : Env) (c : Fin 64) (s : State), s.held = false →
      let g := s.hub.arrive e
      ((s.hub.mixer.channels[c]).muteEnd = some 1 →
        exec (.muteEnd e c) s = s.became (g.modChannel c fun x =>
          { x with delay := x.pendingDelay.getD x.delay, pendingDelay := none, muteEnd := none })) ∧
      ((s.hub.mixer.channels[c]).muteEnd ≠ some 1 → exec (.muteEnd e c) s = s.became g)) ∧
  ∀ (c : Caller) (s : State), s.Serves c (some .mix) none →
    let g := s.hub.arrive c.env
    (∀ (n a : Byte) (d : BitVec 16), 63 < n.toNat ∨ 1 < a.toNat →
      exec (.setChannel c n d a) s = s.became (g.answer c 0x40 .badArg [])) ∧
    (∀ (n : Fin 64) (d : BitVec 16) (inverted : Bool),
      let delay := min 4095 d.toNat
      let x := s.hub.mixer.channels[n]
      let data := le 2 delay ++ flagByte inverted
      exec (.setChannel c (byte n.val) d (byte inverted.toNat)) s = s.became
        ((g.modChannel n fun _ =>
            if delay = x.pendingDelay.getD x.delay then { x with inverted := inverted }
            else { x with inverted := inverted, pendingDelay := some delay, muteEnd := some 2 }).answer c 0x40 .done
          data)) ∧
    (∀ (n b : Byte) (target ramp : BitVec 16), 63 < n.toNat ∨ 15 < b.toNat →
      exec (.setGain c n b target ramp) s = s.became (g.answer c 0x41 .badArg [])) ∧
    (∀ (n : Fin 64) (k : Fin 16) (target ramp : BitVec 16),
      exec (.setGain c (byte n.val) (byte k.val) target ramp) s = s.became
        ((g.modChannel n fun x =>
            { x with gains := x.gains.set k { g := (x.gains[k]).g, target := target.toNat, r := max 1 ramp.toNat } }).answer
          c 0x41 .done (le 2 target.toNat ++ le 2 ramp.toNat))) ∧
    (∀ (b : Byte) (target ramp : BitVec 16), 15 < b.toNat →
      exec (.setBusGain c b target ramp) s = s.became (g.answer c 0x42 .badArg [])) ∧
    (∀ (k : Fin 16) (target ramp : BitVec 16),
      exec (.setBusGain c (byte k.val) target ramp) s = s.became
        ((g.modBus k fun x =>
            { x with master := { g := x.master.g, target := target.toNat, r := max 1 ramp.toNat } }).answer
          c 0x42 .done (le 2 target.toNat ++ le 2 ramp.toNat))) ∧
    (∀ (b : Byte) (threshold : Word) (frames : Byte), 15 < b.toNat →
      exec (.setMeter c b threshold frames) s = s.became (g.answer c 0x43 .badArg [])) ∧
    (∀ (k : Fin 16) (threshold : Word) (frames : Byte),
      let level := min 8388607 threshold.toNat
      let count := max 1 (min 250 frames.toNat)
      exec (.setMeter c (byte k.val) threshold frames) s = s.became
        ((g.modBus k fun x => { x with threshold := level, silenceFrames := count }).answer c 0x43 .done
          (le 4 level ++ le 1 count))) ∧
    ∃ t, exec (.mixerReset c) s = .next t ∧ t.hub.mixer.sampleNo = s.hub.mixer.sampleNo ∧
      (∀ n : Fin 64,
        let old := s.hub.mixer.channels[n]
        let new := t.hub.mixer.channels[n]
        (∀ k : Fin 16, new.gains[k] = { g := (old.gains[k]).target, target := (old.gains[k]).target, r := 0 }) ∧
          new = { old with delay := old.pendingDelay.getD old.delay, pendingDelay := none, muteEnd := none, line := [],
                           gains := new.gains }) ∧
      (∀ k : Fin 16, t.hub.mixer.buses[k] =
        { s.hub.mixer.buses[k] with
          master := { g := ((s.hub.mixer.buses[k]).master).target, target := ((s.hub.mixer.buses[k]).master).target, r := 0 }
          peak := 0
          overloads := 0
          lastPeak := 0
          lastOverloads := 0
          run := 0
          silent := false
          inputError := false }) ∧
      (∀ k : Fin 8, t.hub.mixer.packs[k] =
        if (s.hub.mixer.packs[k]).state = .packing then { s.hub.mixer.packs[k] with state := .void, buffer := [] }
        else s.hub.mixer.packs[k]) ∧
      (t.hub.ports[c.port]).sending = some (false, { tag := c.tag, code := 0x44, outcome := .done, data := [] }) ∧
      Hub.OnlyChanges [.mixer, .ports] s.hub t.hub

/-- R78, R79, R81, R72, R69, R82: the mixer at a tick.  The running meters become the last ones, an overloaded frame is
counted, the silence run and the silent state follow the threshold and N, the marks are cleared, each mute end falls by
one, and each sound stream that is OPEN or HELD packs the frame that the tick begins.  An overloaded bus gives AUDIO_OVERLOAD
with the ended frame's serial and, where the selection keeps it, one OVERLOAD label; a bus that becomes or stops being silent
gives one SILENCE_START or SILENCE_END label; all are dated by the ended frame.  The labels are told where the Label Store has
room for every label that a tick can bring, the entry in a queue where it has room for every notice before it.  R83, R30, R34, R84: a packed frame is offered:
it is committed as the stream's next unit, dated by the ended frame, with the samples of both buses interleaved and the
producer fields of Table 73, or discarded under a hold with DISCARD, or aborted by the ring's DISCARD policy; a sound stream
in CLOSING then is CLOSED, with STREAM_STATE.  R44, R179: a HELD one stays so, unless its hold setter goes ABSENT at this very
tick: then it is OPEN, with STREAM_STATE (its unit is offered under the hold: in the model's order of a tick the mixer comes
before the ports, log entry 13).  No insert buffer of a sound stream holds anything (`Hub.ListsFit`), so none is discarded
there. -/
def Obligations.TickClosesMixerFrame : Prop :=
  ∀ (e : Env) (s : State), s.held = false → s.hub.tb.ref ≠ .locked →
    ∃ t, exec (.dividerExpiry e) s = .next t ∧
      let m := s.hub.mixer
      let n := t.hub.mixer
      n.sampleNo = 0 ∧
      (∀ c : Fin 64, n.channels[c] =
        match (m.channels[c]).muteEnd with
        | none => m.channels[c]
        | some (k + 2) => { m.channels[c] with muteEnd := some (k + 1) }
        | some _ => { m.channels[c] with
            delay := (m.channels[c]).pendingDelay.getD (m.channels[c]).delay, pendingDelay := none, muteEnd := none }) ∧
      (∀ k : Fin 16,
        let b := m.buses[k]
        let quiet := b.peak ≤ b.threshold
        let run := min 65535 (b.run + 1)
        n.buses[k] =
          { b with
            peak := 0
            overloads := 0
            lastPeak := b.peak
            lastOverloads := b.overloads
            overloadFrames := if b.overloads = 0 then b.overloadFrames else b.overloadFrames + 1
            run := if quiet then run else 0
            silent := if quiet then b.silent || decide (b.silenceFrames ≤ run) else false
            inputError := false }) ∧
      (∀ (k : Fin 8) (j : Fin 16), j.val = 4 + k.val →
        let state := (s.hub.stream j).state
        n.packs[k] =
          { state := if state = .opened ∨ state = .held then .packing else .idle
            serial := s.hub.tb.frame.serial + 1
            buffer := []
            offered := if (m.packs[k]).state = .packing then (m.packs[k]).offered + 1 else (m.packs[k]).offered
            voided := if (m.packs[k]).state = .void then (m.packs[k]).voided + 1 else (m.packs[k]).voided }) ∧
      let ended := s.hub.tb.frame
      let overloaded := fun k : Fin 16 => (m.buses[k]).overloads ≠ 0
      let quiet := fun k : Fin 16 => (m.buses[k]).peak ≤ (m.buses[k]).threshold
      let begins := fun k : Fin 16 =>
        quiet k ∧ (m.buses[k]).silent = false ∧ (m.buses[k]).silenceFrames ≤ min 65535 ((m.buses[k]).run + 1)
      let ends := fun k : Fin 16 => ¬ quiet k ∧ (m.buses[k]).silent = true
      (∀ (k : Fin 16) (p : Fin 4), overloaded k →
        (t.hub.notices[p]).summary.getLsbD 11 = true ∧
        (s.hub.log.clips = [] → (∀ x : Fin 4, (s.hub.log.triggers[x]).state ≠ .armed) → (s.hub.stream 12).state = .closed →
          (s.hub.notices[p]).mask.getLsbD 11 = true → (s.hub.notices[p]).queue.length ≤ 12 →
          { kind := .audioOverload, param := BitVec.ofNat 32 k.val, serial := ended.serial } ∈ (t.hub.notices[p]).queue)) ∧
      (s.hub.log.labels.length ≤ 2048 →
        ∃ new, t.hub.log.labels = s.hub.log.labels ++ new ∧
          ∀ k : Fin 16,
            let given := fun kind : LabelKind => (new.filter fun x =>
              x.kind == kind && x.source == .mixer && x.value == some (BitVec.ofNat 32 k.val)).map fun x =>
                (x.serial, x.tc, x.text)
            let one := fun kind : LabelKind =>
              if s.hub.log.keeps kind .mixer = true then [(ended.serial, ended.tc, ([] : Bytes))] else []
            (overloaded k → given .overload = one .overload) ∧ (¬ overloaded k → given .overload = []) ∧
              (begins k → given .silenceStart = one .silenceStart) ∧ (¬ begins k → given .silenceStart = []) ∧
              (ends k → given .silenceEnd = one .silenceEnd) ∧ (¬ ends k → given .silenceEnd = [])) ∧
      ∀ (k : Fin 8) (j : Fin 16) (a b : Fin 16), j.val = 4 + k.val → a.val = 2 * k.val → b.val = 2 * k.val + 1 →
        let st := s.hub.stream j
        let st' := t.hub.stream j
        let ring := s.hub.ring j.castSucc
        let ring' := t.hub.ring j.castSucc
        let pack := m.packs[k]
        let count := s.hub.tb.frameRate.samples ended.phase
        let error := (m.buses[a]).inputError || (m.buses[b]).inputError
        let discards := st.discard = true ∧ (st.state = .held ∨ (st.state = .closing ∧ st.fromHeld = true))
        let told := ∀ p : Fin 4, (t.hub.notices[p]).summary.getLsbD 4 = true
        (st.state = .closing → st'.state = .closed ∧ told) ∧
        (st.state = .opened ∨ st.state = .closed → st'.state = st.state) ∧
        (st.state = .held →
          ((∀ q : Fin 4, st.setter = some q → (t.hub.ports[q]).present = true) → st'.state = .held) ∧
          ∀ q : Fin 4, st.setter = some q → (s.hub.ports[q]).present = true → (t.hub.ports[q]).present = false →
            st'.state = .opened ∧ told) ∧
        (pack.state ≠ .packing → st.buffer = [] → st'.committed = st.committed ∧ st'.discarded = st.discarded ∧
          ring'.index = ring.index) ∧
        (pack.state = .packing → st.state ≠ .closed → st.global = false → 512 ≤ ring.sectors → st.buffer = [] →
          (discards ∨ (error = true ∧ ring.keep = false) →
            st'.discarded = st.discarded + 1 ∧ st'.committed = st.committed ∧ ring'.index = ring.index) ∧
          (¬ discards → error = false ∨ ring.keep = true →
            st'.discarded = st.discarded ∧ st'.committed = st.committed + 1 ∧ ring'.head = ring.head + 1 ∧
            ∃ u, ring'.index.getLast? = some u ∧ u.stream = j ∧ u.unit = ring.head ∧ u.g = none ∧
              u.start = ring.headOff ∧ u.len = sectorsOf (6 * count) ∧ u.payload = 6 * count ∧
              u.serial = ended.serial ∧ u.tc = ended.tc ∧ u.flags = { inputError := error, tcJump := ended.jump } ∧
              (s.hub.MemoryOk → ring.headOff < ring.sectors → pack.buffer.length = count →
                (∀ r : Fin 17, r ≠ j.castSucc →
                  (s.hub.ring r).base + (s.hub.ring r).size ≤ ring.base ∨ ring.base + ring.size ≤ (s.hub.ring r).base) →
                t.hub.Stores j.castSucc u ended.phase
                  (le 1 a.val ++ zeros 1 ++ le 2 count ++ le 4 (m.buses[a]).peak ++ le 2 (m.buses[a]).overloads ++ zeros 2 ++
                    le 4 (m.buses[b]).peak ++ le 2 (m.buses[b]).overloads)
                  (pack.buffer.reverse.flatMap fun x => le 3 x.1.toNat ++ le 3 x.2.toNat))))

/-! ### Chapter 5: Contribution Paths -/

/-- R91, R94, R109, R89, R92: what a tick finds on one path, taken just ahead of it.  A path PAUSED with READY still low at
the end of its pause limit goes DOWN with PAUSE_TIMEOUT; one that was UP or PAUSED all frame and heard nothing has a break
and goes DOWN; a release that is due ends the reset at the fourth tick.  R118, R122: the gauge of a path that goes DOWN is
aborted, automatic cycle and manual gauge (its C and S are 0 with no cycle running too: log entry 11).  R90: a tick itself
samples the lines of every path in every state, with PATH_CHANGE exactly when a line of some path differs, judges the back
channel, counts the pause of a path that became PAUSED before it and the reset count (R107), leaves the path in the state of
Table 38, and opens the frame's watch for a break.  R92, R99: the changes of state file their labels, act on the paths and
bring the bonds into force (leaving OFF for RESET: log entry 50).  Model's choices: the rows do their part of the coming tick
ahead of it (log entry 13), and where the condition does not hold nothing changes (log entry 18). -/
def Obligations.TickJudgesPaths : Prop :=
  ∀ (e : Env) (p : Fin 8) (s : State), s.held = false →
    let x := s.hub.paths.path[p]
    let lines : BitVec 4 := BitVec.ofNat 4 (e.lines.toNat / 16 ^ p.val)
    let ready := lines.getLsbD 0 = true
    let good := lines.getLsbD 1 = true ∧ lines.getLsbD 2 = true
    let quiet := x.upAllFrame = true ∧ x.heard = false
    let coming := s.hub.tb.frame.serial + 1
    let frame := (s.hub.tb.tick (s.hub.now + e.dt)).frame
    let changes := fun (t : State) (given : Prop) => ∀ q : Fin 4,
      (t.hub.notices[q]).summary.getLsbD 12 = true ↔ (s.hub.notices[q]).summary.getLsbD 12 = true ∨ given
    let ahead := fun t : State =>
      s.hub.Sampled t.hub p lines coming ∧ changes t (lines ≠ x.lines) ∧ s.hub.PathsMoved t.hub frame
    (x.state ≠ .paused ∨ ready ∨ ¬ good ∨ x.loss = true ∨ quiet ∨ x.pauseCount + 1 < x.pauseLimit ∨ x.pausedIn = coming →
      exec (.pauseTimeout e p) s = s.became (s.hub.arrive e)) ∧
    (x.state = .paused → x.hold = false → x.enabled = true → x.loss = false → ¬ ready → good → ¬ quiet →
      x.pauseLimit ≤ x.pauseCount + 1 → x.pausedIn ≠ coming →
      ∃ t, exec (.pauseTimeout e p) s = .next t ∧
        (let y := t.hub.paths.path[p]
         y.state = .down ∧ y.reason = .pauseTimeout ∧ y.timeoutMark = true ∧ y.lines = lines ∧
           y.pauseCount = min 250 (x.pauseCount + 1) ∧ x.Emptied y) ∧
        ahead t ∧
        (∀ q, q ≠ p → t.hub.paths.path[q] = s.hub.paths.path[q]) ∧
        s.hub.GaugeLeft t.hub p ∧
        (∀ q : Fin 4, (t.hub.notices[q]).summary.getLsbD 13 = true) ∧ Hub.OnlyChanges pathParts s.hub t.hub) ∧
    ((x.state ≠ .up ∧ x.state ≠ .paused) ∨ ¬ quiet →
      exec (.backChannelBreak e p) s = s.became (s.hub.arrive e)) ∧
    (x.state = .up ∨ x.state = .paused → quiet → x.hold = false → x.enabled = true →
      ∃ t, exec (.backChannelBreak e p) s = .next t ∧
        (let y := t.hub.paths.path[p]
         y.loss = true ∧ y.counts.breaks = x.counts.breaks + 1 ∧ y.lines = lines ∧ y.state = .down ∧
           (good → y.reason = .loss) ∧ y.Table38 ∧ x.Emptied y) ∧
        ahead t ∧
        (∀ q, q ≠ p → t.hub.paths.path[q] = s.hub.paths.path[q]) ∧
        s.hub.GaugeLeft t.hub p ∧
        (∀ q : Fin 4, (t.hub.notices[q]).summary.getLsbD 13 = true) ∧ Hub.OnlyChanges pathParts s.hub t.hub) ∧
    (x.hold = false ∨ x.releaseDue = false ∨ x.resetCount < 3 →
      exec (.releaseDue e p) s = s.became (s.hub.arrive e)) ∧
    (x.state = .reset → x.hold = true → x.releaseDue = true → x.resetCount = 3 →
      ∃ t, exec (.releaseDue e p) s = .next t ∧
        (let y := t.hub.paths.path[p]
         y.hold = false ∧ y.holder = none ∧ y.releaseDue = false ∧ y.resetCount = 4 ∧ y.lines = lines ∧
           y.enabled = x.enabled ∧ y.Table38) ∧
        ahead t ∧
        (∀ q, q ≠ p → t.hub.paths.path[q] = s.hub.paths.path[q]) ∧
        t.hub.gauges = s.hub.gauges ∧
        (∀ q : Fin 4, (t.hub.notices[q]).summary.getLsbD 13 = true) ∧ Hub.OnlyChanges pathParts s.hub t.hub) ∧
    (s.hub.tb.ref ≠ .locked →
      ∃ t, exec (.dividerExpiry e) s = .next t ∧
        s.hub.Sampled t.hub p lines coming ∧
        changes t (∃ q : Fin 8, BitVec.ofNat 4 (e.lines.toNat / 16 ^ q.val) ≠ (s.hub.paths.path[q]).lines) ∧
        (s.hub.PathsEvaluated → s.hub.PathsMoved t.hub t.hub.tb.frame) ∧
        (let y := t.hub.paths.path[p]
         let broken := (x.state = .up ∨ x.state = .paused) ∧ quiet
         y.heard = false ∧ (y.upAllFrame = true ↔ y.state = .up ∨ y.state = .paused) ∧
           y.Table38 ∧ y.enabled = x.enabled ∧ y.loss = (x.loss || decide broken) ∧
           y.counts.breaks = (if broken then x.counts.breaks + 1 else x.counts.breaks) ∧
           y.resetCount = (if x.state = .reset then min 4 (x.resetCount + 1) else x.resetCount) ∧
           (ready → y.timeoutMark = false) ∧
           (s.hub.PathsEvaluated → ¬ ready → x.state ≠ .paused → y.state = x.state ∨ (y.state ≠ .off ∧ y.state ≠ .reset) →
             y.timeoutMark = x.timeoutMark) ∧
           (x.state = .up ∨ x.state = .paused → y.state ≠ .up → y.state ≠ .paused →
             (s.hub.gauges.path[p]).Left t.hub.gauges.path[p] ∧
               ((s.hub.gauges.path[p]).manual ≠ .idle →
                 ∀ q : Fin 4, (t.hub.notices[q]).summary.getLsbD 14 = true)) ∧
           (x.state = .paused → x.hold = false → x.enabled = true → x.loss = false → x.timeoutMark = false → ¬ ready →
             good → ¬ quiet →
             y.lines = lines ∧ y.loss = false ∧
               (x.pausedIn = coming → y.state = .paused ∧ y.pauseCount = x.pauseCount) ∧
               (x.pausedIn ≠ coming → y.pauseCount = min 250 (x.pauseCount + 1) ∧
                 (x.pauseCount + 1 < x.pauseLimit → y.state = .paused ∧ y.reason = .none) ∧
                 (x.pauseLimit ≤ x.pauseCount + 1 → y.state = .down ∧ y.reason = .pauseTimeout)))))

/-- R94, R96: the back channel.  A framing error is always counted and takes a path that is UP or PAUSED DOWN; a whole word
is heard; a report on such a path is checked, sets the baseline, is stale when it runs backwards, or hands its bytes to
the Gauge.  R92: the change of state gives PATH_STATE and files its label.  R118, R122: the gauge of the path that a framing error takes DOWN is aborted, automatic cycle and manual gauge (its
C and S are 0 with no cycle running too: log entry 11). -/
def Obligations.BackChannelIsJudged : Prop :=
  ∀ (e : Env) (p : Fin 8) (s : State), s.held = false →
    let g := s.hub.arrive e
    let x := s.hub.paths.path[p]
    let carrying := x.state = .up ∨ x.state = .paused
    exec (.idleFill e p) s = s.became (g.modPath p fun y => { y with heard := true }) ∧
    (¬ carrying →
      exec (.framingError e p) s =
        s.became (g.modPath p fun y => { y with counts := { y.counts with framing := y.counts.framing + 1 } }) ∧
      ∀ unused count check,
        exec (.receiptReport e p unused count check) s = s.became (g.modPath p fun y => { y with heard := true })) ∧
    (carrying →
      (x.hold = false → x.enabled = true →
        ∃ t, exec (.framingError e p) s = .next t ∧
          (let y := t.hub.paths.path[p]
           y.loss = true ∧ y.counts.framing = x.counts.framing + 1 ∧ y.lines = x.lines ∧ y.state = .down ∧ y.Table38 ∧
             x.Emptied y) ∧
          s.hub.PathsMoved t.hub s.hub.tb.frame ∧
          (∀ q, q ≠ p → t.hub.paths.path[q] = s.hub.paths.path[q]) ∧
          s.hub.GaugeLeft t.hub p ∧
          (∀ q : Fin 4, (t.hub.notices[q]).summary.getLsbD 13 = true) ∧ Hub.OnlyChanges pathParts s.hub t.hub) ∧
      ∀ (unused : BitVec 24) (count check : Word),
        let right := crc32 (1 :: le 3 unused.toNat ++ le 4 count.toNat) = check
        let cmd := Instr.receiptReport e p unused count check
        let heard := { x with heard := true, counts := { x.counts with reports := x.counts.reports + 1 } }
        (¬ right → exec cmd s = s.became
          (g.modPath p fun y => { y with heard := true, counts := { y.counts with bad := y.counts.bad + 1 } })) ∧
        (right → x.baseline = none →
          exec cmd s = s.became (g.modPath p fun _ => { heard with baseline := some count })) ∧
        ∀ b, right → x.baseline = some b →
          (2147483648 < (count - b).toNat → exec cmd s = s.became
            (g.modPath p fun _ => { heard with counts := { heard.counts with stale := x.counts.stale + 1 } })) ∧
          ((count - b).toNat ≤ 2147483648 →
            ∃ t, exec cmd s = .next t ∧ t.hub.paths.path[p] = { heard with baseline := some count } ∧
              (∀ q, q ≠ p → t.hub.paths.path[q] = s.hub.paths.path[q] ∧ t.hub.gauges.path[q] = s.hub.gauges.path[q]) ∧
              Hub.OnlyChanges [.pathRecords, .gauges, .budget, .notices] s.hub t.hub))

/-- R100: the member list of a stream is formed from its directed entry or from D, a bonded pair standing at its even path;
fragment f of unit u goes to the first UP member from number (u + f) mod k on; a pair with both paths UP takes turns. -/
def Obligations.FragmentsMapToMembers : Prop :=
  ∀ (x : Paths) (k : Fin 16) (u : Word) (f : Nat),
    let mask := ((x.directed.find? fun d => d.1 = k).map Prod.snd).getD x.spread
    let bond := fun p : Fin 8 => x.bonds[(⟨p.val / 2, by omega⟩ : Fin 4)]
    let odd := fun p : Fin 8 => (⟨(p.val + 1) % 8, by omega⟩ : Fin 8)
    let list := (List.finRange 8).filter fun p => mask.getLsbD p.val && (!(bond p).inForce || p.val % 2 == 0)
    let up := fun p : Fin 8 => (x.path[p]).state = .up
    let usable := fun p : Fin 8 => up p ∨ ((bond p).inForce = true ∧ up (odd p))
    ((∀ p ∈ list, ¬ usable p) → x.mapTo k u f = none) ∧
    ∀ i p, i < list.length → list[(u.toNat + f + i) % list.length]? = some p → usable p →
      (∀ j, j < i → ∀ q, list[(u.toNat + f + j) % list.length]? = some q → ¬ usable q) →
      ((bond p).inForce = false → x.mapTo k u f = some (p, false)) ∧
      ((bond p).inForce = true →
        (up p → up (odd p) → x.mapTo k u f = some (if (bond p).odd then odd p else p, true)) ∧
        (up p → ¬ up (odd p) → x.mapTo k u f = some (p, false)) ∧
        (¬ up p → x.mapTo k u f = some (odd p, false)))

/-- R36, R37, R42, R43, R101: the take-up.  A ring that is not backlogged takes none, nor does one that holds a unit, unless that
unit has no fragment placed and was flagged DAMAGED since (that a unit already begun goes on being placed is the model's
choice, log entry 46).  Else the ring passes the units `zs` from its send pointer on: in ring G those whose stream is held or
that lie below its release mark, as skipped; those flagged DAMAGED, and those whose read meets an uncorrectable error, as
passed damaged.  A unit that is flagged already is passed without a read, so that the ring's corrected count does not rise by
it: the model's choice too (log entry 51).  The first unit that it does not pass is taken up whole; at the head nothing is. -/
def Obligations.TakeUpReadsUnit : Prop :=
  ∀ (e : Env) (r : Fin 17) (s : State), s.held = false →
    let g := s.hub
    let c := g.paths.sends[r]
    let ring := g.ring r
    let flagged := ∃ x y, g.HoldsFlagged r x y
    (g.backlogged r = false ∨ (c.taken ≠ none ∧ ¬ flagged) → exec (.unitTakeUp e r) s = s.became (g.arrive e)) ∧
    ∀ zs reads : List Entry, g.backlogged r = true → (c.taken = none ∨ flagged) →
      let entryAt := fun i : Nat =>
        ring.index.find? fun x => (if r = 16 then x.g.getD 0 else x.unit) = ring.send + BitVec.ofNat 32 i
      let passes := fun x : Entry => r = 16 ∧ g.PassesOver x.stream (x.g.getD 0)
      let fault := fun i : Nat => e.ecc.getD i {}
      let corrected := fun n : Nat => BitVec.ofNat 32 ((List.range n).map fun i => (fault i).corrected).sum
      zs.length ≤ (ring.head - ring.send).toNat → (∀ i z, zs[i]? = some z → entryAt i = some z) →
      reads.Sublist zs → (∀ z ∈ zs, z ∈ reads ↔ z.flags.damaged = false ∧ ¬ passes z) →
      (∀ i, i < reads.length → (fault i).uncorrectable = true) →
      let passed := fun (t : State) (n : Nat) =>
        t.hub.ring r =
          { ring with
            send := ring.send + BitVec.ofNat 32 zs.length
            corrected := ring.corrected + corrected n
            damaged := ring.damaged + BitVec.ofNat 32 reads.length
            index := ring.index.map fun x => if x ∈ reads then { x with flags := { x.flags with damaged := true } } else x } ∧
        (∃ skips : List Entry, skips.Sublist zs ∧ (∀ z ∈ zs, z ∈ skips ↔ passes z) ∧
          (t.hub.paths.sends[r]).passedDamaged = c.passedDamaged + BitVec.ofNat 32 (zs.length - skips.length) ∧
          ∀ k, t.hub.stream k = { g.stream k with
            skipped := (g.stream k).skipped + BitVec.ofNat 32 (skips.filter fun z => z.stream == k).length }) ∧
        (∀ q, q ≠ r → t.hub.ring q = g.ring q ∧ t.hub.paths.sends[q] = g.paths.sends[q]) ∧
        t.hub.log = { g.log with
          clips := g.log.clips.map fun clip =>
            if reads.any fun z => g.retains clip z.stream z.unit then { clip with damaged := true } else clip } ∧
        (reads ≠ [] → ∀ p : Fin 4, (t.hub.notices[p]).summary.getLsbD 8 = true) ∧
        (reads = [] → t.hub.notices = g.notices) ∧
        Hub.OnlyChanges [.streams, .rings, .sending, .log, .notices] g t.hub
      (zs.length = (ring.head - ring.send).toNat →
        ∃ t, exec (.unitTakeUp e r) s = .next t ∧ (t.hub.paths.sends[r]).taken = none ∧ passed t reads.length) ∧
      ∀ y, zs.length < (ring.head - ring.send).toNat → entryAt zs.length = some y → ¬ passes y → y.flags.damaged = false →
        (fault reads.length).uncorrectable = false →
        ∃ t, exec (.unitTakeUp e r) s = .next t ∧ passed t (reads.length + 1) ∧
          (t.hub.paths.sends[r]).taken =
            some { stream := y.stream, unit := y.unit, g := y.g, next := 0, serial := y.serial, flags := y.flags,
                   bytes := ring.readBytes g.store.mem y.start (64 + y.payload) }

/-- R105, R102, R103: the arbiter places nothing on a path that is not UP or has no room, or without a candidate; with
candidates of class 0 it serves the first after its last class-0 ring in the order 4 to 12, G, and records it.  The last
fragment of a picture stream's unit sets that stream's sent mark (R159).  The rings have
taken their units up already.  R36, R37, R101: a unit that ring G holds and that now fails the tests of R37, and a unit flagged
DAMAGED that has not been begun, is passed before the arbiter looks: where one ring has such a unit, the placement is that of
the hub with the unit passed.  Model's choices: a unit already begun goes on being placed when it is flagged (log entry 46),
and one command makes one placement (log entry 30). -/
def Obligations.ClassZeroIsServedFirst : Prop :=
  ∀ (e : Env) (p : Fin 8) (s : State), s.held = false →
    let g := s.hub
    let x := g.paths.path[p]
    let arbiter := g.paths.arbiters[p]
    let pos := fun r : Fin 17 => if r = 16 then 9 else r.val - 4
    let pair : Fin 4 := ⟨p.val / 2, by omega⟩
    let after := fun r : Fin 17 => (pos r + 9 - pos arbiter.last0) % 10
    let ring0 := fun r : Fin 17 => (4 ≤ r.val ∧ r.val ≤ 12) ∨ r = 16
    (x.state ≠ .up ∨ 64 ≤ x.fifo.length → exec (.fragmentPlacement e p) s = s.became (g.arrive e)) ∧
    (x.state = .up → x.fifo.length < 64 → g.TakenUp →
      ((∀ r y flip, ¬ g.Supplies p r y flip) → exec (.fragmentPlacement e p) s = s.became (g.arrive e)) ∧
      ∀ r y flip, g.Supplies p r y flip → y.IsClass0 → ring0 r →
        4 ≤ arbiter.last0.val → (arbiter.last0.val ≤ 12 ∨ arbiter.last0 = 16) →
        (∀ q z f, g.Supplies p q z f → z.IsClass0 → ring0 q → after r ≤ after q) →
        ∃ t, exec (.fragmentPlacement e p) s = .next t ∧ g.Placed t.hub p r y ∧
          (t.hub.paths.arbiters[p]).last0 = r ∧ (t.hub.paths.arbiters[p]).cur1 = arbiter.cur1 ∧
          t.hub.paths.bonds[pair] = { g.paths.bonds[pair] with odd := (g.paths.bonds[pair]).odd ^^ flip } ∧
          Hub.OnlyChanges [.rings, .pathRecords, .mapping, .sending, .tally] g t.hub) ∧
    ∀ r, x.state = .up → x.fifo.length < 64 → (∀ q, q ≠ r → g.Ready q) →
      let skipping := fun k => exec (.fragmentPlacement e p) s =
        exec (.fragmentPlacement e p) { s with hub := g.passing r k }
      (∀ y, r = 16 → (g.paths.sends[r]).taken = some y → g.PassesOver y.stream (y.g.getD 0) → skipping (some y.stream)) ∧
      ∀ y z, g.HoldsFlagged r y z → g.backlogged r = true →
        (r = 16 → ¬ g.PassesOver y.stream (y.g.getD 0) ∧ ¬ g.PassesOver z.stream (z.g.getD 0)) → skipping none

/-- R106: with candidates of class 1 alone the arbiter stays with its current ring while the deficit covers the payload, and
else goes to the next candidate in the order 0, 1, 2, 3, 13, 14, 15, G, whose deficit first takes its quantum, 1200 bytes
times the weight.  A ring that stops being backlogged has its deficit at 0.  The last fragment of a picture stream's unit sets
that stream's sent mark (R159).  Model's choices: the deficit is not capped (log
entry 61), a unit already begun goes on being placed when it is flagged DAMAGED (log entry 46), and one command makes one
placement (log entry 30). -/
def Obligations.ClassOneSharesByDeficit : Prop :=
  ∀ (e : Env) (p : Fin 8) (s : State), s.held = false →
    let g := s.hub
    let x := g.paths.path[p]
    let arbiter := g.paths.arbiters[p]
    let pos := fun r : Fin 17 => if r = 16 then 7 else if r.val < 4 then r.val else r.val - 9
    let class1 := fun r : Fin 17 => r.val < 4 ∨ 13 ≤ r.val
    let after := fun r : Fin 17 => (pos r + 7 - pos (arbiter.cur1.getD 16)) % 8
    let weight := fun r : Fin 17 => (if h : r.val < 4 then (g.coders[(⟨r.val, h⟩ : Fin 4)]).weight else 1)
    let need := fun y : Taken => ((y.bytes.drop (1200 * y.next)).take 1200).length
    let served := fun (t : State) (r : Fin 17) (y : Taken) (deficit : Nat) =>
      exec (.fragmentPlacement e p) s = .next t ∧ g.Placed t.hub p r y ∧
        (t.hub.paths.arbiters[p]).last0 = arbiter.last0 ∧ (t.hub.paths.arbiters[p]).cur1 = some r ∧
        (t.hub.paths.arbiters[p]).deficits[r] = (if t.hub.backlogged r then deficit else 0) ∧
        Hub.OnlyChanges [.rings, .pathRecords, .mapping, .sending, .tally] g t.hub
    x.state = .up → x.fifo.length < 64 → g.TakenUp → class1 (arbiter.cur1.getD 16) →
    (∀ r y flip, g.Supplies p r y flip → class1 r ∧ ¬ y.IsClass0) →
    (∀ r y flip, arbiter.cur1 = some r → g.Supplies p r y flip → need y ≤ arbiter.deficits[r] →
      ∃ t, served t r y (arbiter.deficits[r] - need y)) ∧
    ((∀ r y flip, arbiter.cur1 = some r → g.Supplies p r y flip → arbiter.deficits[r] < need y) →
      ∀ r y flip, g.Supplies p r y flip → (∀ q z f, g.Supplies p q z f → after r ≤ after q) →
        ∃ t, served t r y (arbiter.deficits[r] + 1200 * weight r - need y))

/-- R104, R93: the end of a transmission: the oldest packet leaves and is counted, and the next one begins, at the line rate
then set, while the path is UP.  Without a transmission under way nothing changes (log entry 18). -/
def Obligations.TransmissionEnds : Prop :=
  ∀ (e : Env) (p : Fin 8) (s : State), s.held = false →
    let g := s.hub.arrive e
    let x := s.hub.paths.path[p]
    (x.transmitting = false → exec (.transmissionEnd e p) s = s.became g) ∧
    ∀ packet rest, x.transmitting = true → x.fifo = packet :: rest →
      let next := x.state = .up ∧ rest ≠ []
      exec (.transmissionEnd e p) s = s.became (g.modPath p fun _ =>
        { x with
          fifo := rest
          transmitting := decide next
          txRate := if next then x.lineRate else x.txRate
          counts := { x.counts with
            sent := x.counts.sent + 1
            bytes := x.counts.bytes + BitVec.ofNat 32 packet.length } })

/-- R97 to R99: the settings that map streams to paths. -/
def Obligations.LinkSettings : Prop :=
  ∀ (c : Caller) (s : State), s.Serves c (some .link) none →
    let g := s.hub.arrive c.env
    (∀ mask : Byte, exec (.setSpread c mask) s =
      s.became (({ g with paths := { g.paths with spread := mask } }).answer c 0x52 .done [])) ∧
    (∀ n mask : Byte, 15 < n.toNat →
      exec (.addDirected c n mask) s = s.became (g.answer c 0x53 .badArg []) ∧
      exec (.removeDirected c n) s = s.became (g.answer c 0x54 .badArg [])) ∧
    (∀ (k : Fin 16) (mask : Byte), s.hub.hasStream c.port k.val = true →
      let list := s.hub.paths.directed
      ((∃ m, (k, m) ∈ list) → exec (.addDirected c (byte k.val) mask) s = s.became (g.answer c 0x53 .conflict [])) ∧
      ((∀ m, (k, m) ∉ list) → 8 ≤ list.length →
        exec (.addDirected c (byte k.val) mask) s = s.became (g.answer c 0x53 .full [])) ∧
      ((∀ m, (k, m) ∉ list) → list.length < 8 →
        exec (.addDirected c (byte k.val) mask) s =
          s.became (({ g with paths := { g.paths with directed := list ++ [(k, mask)] } }).answer c 0x53 .done [])) ∧
      exec (.removeDirected c (byte k.val)) s =
        s.became (({ g with paths := { g.paths with directed := list.filter fun d => d.1 ≠ k } }).answer c 0x54 .done
          [])) ∧
    (∀ (n : Byte) (bonded : Bool), 3 < n.toNat → exec (.setBond c n bonded) s = s.became (g.answer c 0x55 .badArg [])) ∧
    ∀ (j : Fin 4) (bonded : Bool),
      let still := fun p : Fin 8 => (s.hub.paths.path[p]).state = .off ∨ (s.hub.paths.path[p]).state = .reset
      ((∃ p : Fin 8, p.val / 2 = j.val ∧ ¬ still p) →
        exec (.setBond c (byte j.val) bonded) s = s.became (g.answer c 0x55 .conflict [])) ∧
      ((∀ p : Fin 8, p.val / 2 = j.val → still p) →
        exec (.setBond c (byte j.val) bonded) s =
          s.became ((g.modBond j fun b => { b with setting := bonded }).answer c 0x55 .done []))

/-- R93, R95, R107, R108, with R89, R92 and R99: the commands that evaluate a path.  Each answers DONE and leaves the path as
Table 38 gives it.  When its state changed it gives PATH_STATE, files the label PATH_UP or PATH_DOWN, empties the path on the
way to OFF, RESET or DOWN, brings the pair's bond into force on the way from OFF or RESET (from OFF to RESET: log entry 50),
and makes one recomputation (R125).  R118, R122: the gauge of a path that leaves UP or PAUSED is aborted,
automatic cycle and manual gauge (its C and S are 0 with no cycle running too: log entry 11); otherwise the Gauge is not
touched. -/
def Obligations.PathCommandsEvaluate : Prop :=
  ∀ (c : Caller) (s : State), s.Serves c (some .link) none →
    let g := s.hub.arrive c.env
    (∀ (n : Byte), 7 < n.toNat →
      (∀ enabled limit rate,
        exec (.setPath c n enabled limit rate) s = s.became (g.answer c 0x50 .badArg [])) ∧
      (∀ a, exec (.clearLoss c n a) s = s.became (g.answer c 0x51 .badArg [])) ∧
      exec (.pathReset c n) s = s.became (g.answer c 0x56 .badArg []) ∧
      exec (.pathRelease c n) s = s.became (g.answer c 0x57 .badArg [])) ∧
    ∀ p : Fin 8,
      let x := s.hub.paths.path[p]
      let done := fun (t : State) (code : Byte) (data : Bytes) =>
        (t.hub.paths.path[p]).Table38 ∧ (t.hub.paths.path[p]).lines = x.lines ∧
          (∀ q, q ≠ p → t.hub.paths.path[q] = s.hub.paths.path[q]) ∧
          (t.hub.ports[c.port]).sending = some (false, { tag := c.tag, code := code, outcome := .done, data := data }) ∧
          s.hub.PathsMoved t.hub s.hub.tb.frame ∧
          t.hub.budget.recomputations =
            (if (t.hub.paths.path[p]).state = x.state then s.hub.budget.recomputations
             else s.hub.budget.recomputations + 1) ∧
          (∀ q : Fin 4, (t.hub.notices[q]).summary.getLsbD 13 = true ↔
            (s.hub.notices[q]).summary.getLsbD 13 = true ∨ (t.hub.paths.path[p]).state ≠ x.state) ∧
          (let leaves := (x.state = .up ∨ x.state = .paused) ∧
            (t.hub.paths.path[p]).state ≠ .up ∧ (t.hub.paths.path[p]).state ≠ .paused
           (leaves → s.hub.GaugeLeft t.hub p) ∧ (¬ leaves → t.hub.gauges = s.hub.gauges)) ∧
          Hub.OnlyChanges (.ports :: pathParts) s.hub t.hub
      (∀ (enabled : Bool) (limit : Byte) (rate : BitVec 16),
        let frames := max 1 (min 250 limit.toNat)
        let speed := max 1 (min 1000 rate.toNat)
        ∃ t, exec (.setPath c (byte p.val) enabled limit rate) s = .next t ∧
          (let y := t.hub.paths.path[p]
           y.enabled = enabled ∧ y.pauseLimit = frames ∧ y.lineRate = speed ∧ y.loss = x.loss ∧ y.hold = x.hold) ∧
          done t 0x50 (flagByte enabled ++ le 1 frames ++ le 2 speed)) ∧
      (∀ a : Byte, 2 < a.toNat → exec (.clearLoss c (byte p.val) a) s = s.became (g.answer c 0x51 .badArg [])) ∧
      (∀ a : Byte, a.toNat ≤ 2 →
        ∃ t, exec (.clearLoss c (byte p.val) a) s = .next t ∧
          (let y := t.hub.paths.path[p]
           y.loss = (if a = 1 then x.loss else false) ∧ y.change = (if a = 0 then x.change else false) ∧
             y.enabled = x.enabled ∧ y.hold = x.hold) ∧
          done t 0x51 []) ∧
      (x.state = .reset → exec (.pathReset c (byte p.val)) s = s.became (g.answer c 0x56 .conflict [])) ∧
      (x.state ≠ .reset →
        ∃ t, exec (.pathReset c (byte p.val)) s = .next t ∧
          (let y := t.hub.paths.path[p]
           y.state = .reset ∧ y.hold = true ∧ y.holder = some c.port ∧ y.resetCount = 0 ∧ y.releaseDue = false ∧
             y.loss = false ∧ y.timeoutMark = false ∧ x.Emptied y) ∧
          done t 0x56 []) ∧
      (x.state ≠ .reset ∨ x.resetCount < 4 →
        exec (.pathRelease c (byte p.val)) s = s.became (g.answer c 0x57 .conflict [])) ∧
      (x.state = .reset → 4 ≤ x.resetCount →
        ∃ t, exec (.pathRelease c (byte p.val)) s = .next t ∧
          (let y := t.hub.paths.path[p]
           y.hold = false ∧ y.holder = none ∧ y.releaseDue = false ∧ y.enabled = x.enabled) ∧
          done t 0x57 [])

/-! ### Chapter 6: Gauge and Budget -/

/-- R115 to R117, R120 to R122: the ends of steps and gauges.  A cycle's results are exact: C is V0 bytes in the longer of g
and T1 as bytes a second, S a thousand times the shorter over the longer, E is C times S over 1000, and all three are 0 when
nothing was counted.  Each end gives GAUGE_DONE.  At a tick, step 1 of an idle cycle begins on a path that is UP while the
auto flag is on, or runs on, and a waiting TIME gauge begins its gate.  Model's choices: the tick that begins a TIME gauge
opens the first frame of its gate (log entry 12), STEP1 END and TIME GAUGE END do their part of the coming tick ahead of it
(log entry 13), and an end whose condition does not hold is void (log entry 18). -/
def Obligations.GaugesEnd : Prop :=
  ∀ (e : Env) (p : Fin 8) (s : State), s.held = false →
    let g := s.hub.arrive e
    let x := s.hub.gauges.path[p]
    let results := fun (t : State) (v0 t1 : Nat) =>
      let y := t.hub.gauges.path[p]
      let c := if v0 = 0 then 0 else min 4294967294 (v0 * 27000000 / max x.g t1)
      let u := if v0 = 0 then 0 else 1000 * min x.g t1 / max x.g t1
      y.phase = .idle ∧ y.lastV0 = v0 ∧ y.lastT1 = t1 ∧ y.c = c ∧ y.s = u ∧ y.e = c * u / 1000 ∧
        y.completed = x.completed + 1 ∧ y.aborted = x.aborted ∧
        t.hub.budget.recomputations = s.hub.budget.recomputations + 1
    let ended := fun (t : State) =>
      (∀ q, q ≠ p → t.hub.gauges.path[q] = s.hub.gauges.path[q]) ∧
        (∀ q : Fin 4, (t.hub.notices[q]).summary.getLsbD 14 = true) ∧ Hub.OnlyChanges [.gauges, .budget, .notices] s.hub t.hub
    (x.phase ≠ .step1 ∨ 1 < x.remaining → exec (.step1End e p) s = s.became g) ∧
    (x.phase = .step1 → x.remaining ≤ 1 →
      (0 < x.sum → exec (.step1End e p) s = s.became (g.modGauge p fun _ =>
        { x with phase := .step2, remaining := 0, v0 := x.sum, sum := 0, from2 := g.now, count2 := 0 })) ∧
      (x.sum = 0 → ∃ t, exec (.step1End e p) s = .next t ∧ results t 0 x.g ∧ ended t)) ∧
    (x.phase ≠ .step2 → exec (.step2Expiry e p) s = s.became g) ∧
    (x.phase = .step2 → ∃ t, exec (.step2Expiry e p) s = .next t ∧ results t x.v0 (4 * x.g) ∧ ended t) ∧
    (x.manual ≠ .running ∨ x.volume = true ∨ x.manualTicks + 1 < x.gate →
      exec (.timeGaugeEnd e p) s = s.became g) ∧
    (x.manual = .running → x.volume = false → x.gate ≤ x.manualTicks + 1 →
      ∃ t, exec (.timeGaugeEnd e p) s = .next t ∧ t.hub.gauges.path[p] =
        { x with manual := .idle, result := some (false, BitVec.ofNat 32 (min 4294967294 x.manualSum)) } ∧ ended t) ∧
    (x.manual ≠ .running ∨ x.volume = false → exec (.volumeGaugeExpiry e p) s = s.became g) ∧
    (x.manual = .running → x.volume = true →
      ∃ t, exec (.volumeGaugeExpiry e p) s = .next t ∧ t.hub.gauges.path[p] =
        { x with manual := .idle, manualCount := 4294967295, result := some (true, 4294967295) } ∧ ended t) ∧
    (s.hub.tb.ref ≠ .locked →
      ∃ t, exec (.dividerExpiry e) s = .next t ∧
        let z := s.hub.paths.path[p]
        let y := t.hub.gauges.path[p]
        let lines : BitVec 4 := BitVec.ofNat 4 (e.lines.toNat / 16 ^ p.val)
        (x.phase = .idle → s.hub.gauges.auto = false ∨ (t.hub.paths.path[p]).state ≠ .up → y.phase = .idle) ∧
        (z.state = .up → z.hold = false → z.enabled = true → z.loss = false → lines.getLsbD 0 = true →
          lines.getLsbD 1 = true → lines.getLsbD 2 = true → ¬ (z.upAllFrame = true ∧ z.heard = false) →
          x.phase ≠ .step1 ∨ 1 < x.remaining →
          x.manual ≠ .running ∨ x.volume = true ∨ x.manualTicks + 1 < x.gate →
          let cycle : Gauge :=
            match x.phase with
            | .idle => if s.hub.gauges.auto then
                { x with phase := .step1, g := s.hub.gauges.window * s.hub.tb.rate.nominal, remaining := s.hub.gauges.window,
                         sum := 0 }
              else x
            | .step1 => { x with remaining := x.remaining - 1 }
            | .step2 => x
          (t.hub.paths.path[p]).state = .up ∧
            y = match x.manual with
              | .idle => cycle
              | .waiting => { cycle with manual := .running, manualSum := 0, manualTicks := 0 }
              | .running => { cycle with manualTicks := x.manualTicks + 1 }))

/-- R114, R116, R117, R121: what a report's increment of n bytes does to its path's gauge, with no manual gauge running or no
cycle: it is not kept without either, is added to the step sum, and ends step 2 at V0 bytes and a VOLUME gauge at its gate
with the cycles counted so far. -/
def Obligations.IncrementsReachTheGauge : Prop :=
  ∀ (e : Env) (p : Fin 8) (unused : BitVec 24) (count base : Word) (s : State), s.held = false →
    (s.hub.paths.path[p]).state = .up ∨ (s.hub.paths.path[p]).state = .paused →
    (s.hub.paths.path[p]).baseline = some base → (count - base).toNat ≤ 2147483648 →
    let n := (count - base).toNat
    let now := s.hub.now + e.dt
    let x := s.hub.gauges.path[p]
    let cmd := Instr.receiptReport e p unused count (crc32 (1 :: le 3 unused.toNat ++ le 4 count.toNat))
    ∃ t, exec cmd s = .next t ∧
      let y := t.hub.gauges.path[p]
      (x.phase = .idle → x.manual ≠ .running → y = x) ∧
      (x.phase = .step1 → x.manual ≠ .running → y = { x with sum := x.sum + n }) ∧
      (x.phase = .step2 → x.manual ≠ .running →
        (x.sum + n < x.v0 → y = { x with sum := x.sum + n }) ∧
        (x.v0 ≤ x.sum + n →
          let t1 := min (4 * x.g) (now - x.from2)
          let c := if x.v0 = 0 then 0 else min 4294967294 (x.v0 * 27000000 / max x.g t1)
          let u := if x.v0 = 0 then 0 else 1000 * min x.g t1 / max x.g t1
          y = { x with phase := .idle, sum := x.sum + n, count2 := t1, lastV0 := x.v0, lastT1 := t1, c := c, s := u,
                       e := c * u / 1000, completed := x.completed + 1 } ∧
            ∀ q : Fin 4, (t.hub.notices[q]).summary.getLsbD 14 = true)) ∧
      (x.phase = .idle → x.manual = .running →
        (x.volume = false ∨ x.manualSum + n < x.gate → y = { x with manualSum := x.manualSum + n }) ∧
        (x.volume = true → x.gate ≤ x.manualSum + n →
          let cycles := min 4294967295 (now - x.manualFrom)
          y = { x with manual := .idle, manualSum := x.manualSum + n, manualCount := cycles,
                       result := some (true, BitVec.ofNat 32 cycles) } ∧
            ∀ q : Fin 4, (t.hub.notices[q]).summary.getLsbD 14 = true))

/-- R113, R119, R122: SET GAUGE and START GAUGE.  Turning the auto flag on aborts every manual gauge with all ones for
a result; turning it off abandons every cycle and keeps C, S and E. -/
def Obligations.GaugeCommands : Prop :=
  ∀ (c : Caller) (s : State), s.Serves c (some .gauge) none →
    let g := s.hub.arrive c.env
    (∀ (auto : Bool) (w : Byte),
      let window := max 1 (min 250 w.toNat)
      let data := flagByte auto ++ le 1 window
      ∃ t, exec (.setGauge c auto w) s = .next t ∧ t.hub.gauges.auto = auto ∧ t.hub.gauges.window = window ∧
        (t.hub.ports[c.port]).sending = some (false, { tag := c.tag, code := 0x60, outcome := .done, data := data }) ∧
        (∀ p : Fin 8,
          let x := s.hub.gauges.path[p]
          let y := t.hub.gauges.path[p]
          (auto = s.hub.gauges.auto ∨ (auto = true ∧ x.manual = .idle) ∨ (auto = false ∧ x.phase = .idle) → y = x) ∧
          (auto = true → s.hub.gauges.auto = false → x.manual ≠ .idle →
            y.manual = .idle ∧ y.result = some (x.volume, 4294967295) ∧ y.phase = x.phase ∧
              ∀ q : Fin 4, (t.hub.notices[q]).summary.getLsbD 14 = true) ∧
          (auto = false → s.hub.gauges.auto = true → x.phase ≠ .idle →
            y.phase = .idle ∧ y.aborted = x.aborted + 1 ∧ y.completed = x.completed ∧ y.c = x.c ∧ y.s = x.s ∧ y.e = x.e ∧
              y.manual = x.manual)) ∧
        Hub.OnlyChanges [.gauges, .ports, .notices] s.hub t.hub) ∧
    (∀ (n m : Byte) (gate : Word), 7 < n.toNat ∨ 1 < m.toNat ∨ (m = 1 ∧ (gate = 0 ∨ 2147483648 < gate.toNat)) →
      exec (.startGauge c n m gate) s = s.became (g.answer c 0x61 .badArg [])) ∧
    ∀ (p : Fin 8) (volume : Bool) (gate : Word), (volume = true → gate ≠ 0 ∧ gate.toNat ≤ 2147483648) →
      let x := s.hub.gauges.path[p]
      let carrying := (s.hub.paths.path[p]).state = .up ∨ (s.hub.paths.path[p]).state = .paused
      let cmd := Instr.startGauge c (byte p.val) (byte volume.toNat) gate
      (s.hub.gauges.auto = true ∨ ¬ carrying ∨ x.manual ≠ .idle →
        exec cmd s = s.became (g.answer c 0x61 .conflict [])) ∧
      (s.hub.gauges.auto = false → carrying → x.manual = .idle →
        exec cmd s = s.became ((g.modGauge p fun _ =>
          if volume then
            { x with result := none, volume := true, gate := gate.toNat, manual := .running, manualSum := 0,
                     manualCount := 0, manualFrom := g.now }
          else { x with result := none, volume := false, gate := max 1 (min 250 gate.toNat), manual := .waiting }).answer c
            0x61 .started []))

/-- R124, R126 to R130: SET BUDGET writes its seven values and recomputes: capacity, reserves, pool, and the rate of every
picture stream, counted while it is OPEN.  R63: with two pictures in flight a new rate leaves both at the old one, which is
where the model draws the line between R55 and R63; R125: a new rate assigned at the moment of a picture start taken first
goes to the next picture, so that none keeps another (log entry 47). -/
def Obligations.BudgetRecomputes : Prop :=
  ∀ (c : Caller) (fixed : BitVec 64) (headroom : BitVec 16) (r12 r13 r14 r15 : Word) (s : State),
    s.Serves c (some .gauge) none →
    (∀ a : Byte, 1 < a.toNat →
      exec (.setBudget c a fixed headroom r12 r13 r14 r15) s =
        s.became ((s.hub.arrive c.env).answer c 0x63 .badArg [])) ∧
    ∀ source : Bool,
      let capacity := min 8000000000 fixed.toNat
      let h := min 500 headroom.toNat
      let reserve := fun w : Word => min 10000000 w.toNat
      let reserves : Vector Nat 4 := #v[reserve r12, reserve r13, reserve r14, reserve r15]
      let carrying := fun p : Fin 8 => (s.hub.paths.path[p]).state = .up ∨ (s.hub.paths.path[p]).state = .paused
      let opened := fun k : Fin 16 => (s.hub.stream k).state = .opened
      let kBits := if source then capacity
        else 8 * ((List.finRange 8).map fun p => if carrying p then (s.hub.gauges.path[p]).e else 0).sum
      let u := kBits * 1200 / 1232
      let left := u * (1000 - h) / 1000
      let fps := match s.hub.tb.rate with
        | .r25 => 25
        | .r50 => 50
        | .r2997 => 30
        | .r5994 => 60
      let sound := ((List.finRange 8).map fun k => if opened (soundStream k) then 2304000 + 512 * fps else 0).sum
      let other := ((List.finRange 4).map fun k => if opened (auxStream k) then reserves[k] else 0).sum
      let bounded := fun (k : Fin 4) (x : Nat) => max (s.hub.coders[k]).rMin (min (s.hub.coders[k]).rMax x)
      let isFixed := fun k : Fin 4 => opened (pictureStream k) ∧ (s.hub.coders[k]).fixed = true
      let isAuto := fun k : Fin 4 => opened (pictureStream k) ∧ (s.hub.coders[k]).fixed = false
      let total := ((List.finRange 4).map fun k => if isFixed k then bounded k (s.hub.coders[k]).rFix else 0).sum
      let pool := left - (sound + other + total)
      let weights := ((List.finRange 4).map fun k => if isAuto k then (s.hub.coders[k]).weight else 0).sum
      let share := fun k : Fin 4 => pool * (s.hub.coders[k]).weight / weights
      let moment := s.hub.now + c.env.dt
      let changedAt := fun (k : Fin 4) (assigned : Nat) =>
        if (s.hub.budget.pictures[k]).assigned = assigned then (s.hub.budget.pictures[k]).changedAt else some moment
      let kept := fun (k : Fin 4) (assigned : Nat) =>
        let old := s.hub.budget.pictures[k]
        let pictures := (s.hub.coders[k]).flight.filter fun f => f.subst == none
        if old.assigned ≠ assigned ∧ old.startedAt = some moment then []
        else if old.assigned ≠ assigned ∧ 2 ≤ pictures.length then
          old.kept ++ pictures.map fun f => (f.frame.serial, old.assigned)
        else old.kept
      let cmd := Instr.setBudget c (byte source.toNat) fixed headroom r12 r13 r14 r15
      ∃ t, exec cmd s = .next t ∧
        (let b := t.hub.budget
         b.fixedSource = source ∧ b.fixedCapacity = capacity ∧ b.headroom = h ∧ b.reserves = reserves ∧ b.kBits = kBits ∧
           b.u = u ∧ b.u' = left ∧ b.soundReserve = sound ∧ b.otherReserve = other ∧ b.fixedTotal = total ∧ b.pool = pool ∧
           b.overdrawn = decide (left < sound + other + total) ∧ b.recomputations = s.hub.budget.recomputations + 1 ∧
           ∀ k : Fin 4,
             let old := s.hub.budget.pictures[k]
             let new := b.pictures[k]
             (isFixed k →
               new = { assigned := bounded k (s.hub.coders[k]).rFix, counted := true, share := none, starved := false,
                       kept := kept k new.assigned,
                       changedAt := changedAt k new.assigned, startedAt := old.startedAt }) ∧
             (isAuto k →
               new = { assigned := bounded k (share k), counted := true, share := some (share k),
                       starved := decide (share k < (s.hub.coders[k]).rMin), kept := kept k new.assigned,
                       changedAt := changedAt k new.assigned, startedAt := old.startedAt }) ∧
             (¬ opened (pictureStream k) →
               new = { assigned := bounded k old.assigned, counted := old.counted, share := none, starved := false,
                       kept := kept k new.assigned,
                       changedAt := changedAt k new.assigned, startedAt := old.startedAt }) ∧
             (new.assigned ≠ old.assigned → ∀ q : Fin 4, (t.hub.notices[q]).summary.getLsbD 15 = true) ∧
             (old.starved = false → new.starved = true → ∀ q : Fin 4, (t.hub.notices[q]).summary.getLsbD 16 = true)) ∧
        (t.hub.ports[c.port]).sending =
          some (false, { tag := c.tag, code := 0x63, outcome := .done,
                         data := flagByte source ++ le 8 capacity ++ le 2 h ++ le 4 (reserve r12) ++ le 4 (reserve r13) ++
                           le 4 (reserve r14) ++ le 4 (reserve r15) }) ∧
        Hub.OnlyChanges [.budget, .ports, .notices] s.hub t.hub

/-! ### Chapter 7: Clip Log -/

/-- R135, R134: OPEN CLIP with its checks in their order; an accepted one adds a descriptor with the next clip number, owned
by the port, that starts with the next tick.  With 256 descriptors held the LAPSED one with the lowest number leaves. -/
def Obligations.OpenClipAddsDescriptor : Prop :=
  ∀ (c : Caller) (mask : BitVec 16) (name : Option TextArg) (s : State), s.Serves c (some .log) none →
    let g := s.hub.arrive c.env
    let l := s.hub.log
    let text := match name with
      | none => []
      | some x => x.bytes.take x.len.toNat
    let bad := mask = 0 ∨ ∃ x, name = some x ∧ 64 < x.len.toNat
    let denied := ∃ k : Fin 16, mask.getLsbD k.val = true ∧ s.hub.hasStream c.port k.val = false
    let full := 16 ≤ (l.clips.filter fun x : Clip => x.state = .opened ∨ x.state = .closing).length ∨
      (256 ≤ l.clips.length ∧ ∀ x ∈ l.clips, x.state ≠ .lapsed) ∨ 4294967295 < l.nextClip
    let start := s.hub.tb.frame.serial + 1
    let clip : Clip :=
      { number := BitVec.ofNat 32 l.nextClip, state := .opened, owner := .port c.port, mask := mask,
        starts := Vector.replicate 16 none, running := Vector.replicate 16 none, ends := Vector.replicate 16 none,
        startSerial := start, startTc := none, endSerial := none, endTc := none, reason := none, name := text, labels := [],
        passed := 0, limitDue := false, damaged := false, overloadSeen := false, tcJump := false, truncated := false }
    let kept := if l.clips.length < 256 then l.clips else l.clips.eraseP fun x : Clip => x.state = .lapsed
    (bad → exec (.openClip c mask name) s = s.became (g.answer c 0x70 .badArg [])) ∧
    (¬ bad → denied →
      exec (.openClip c mask name) s = s.became (g.answer c 0x70 .denied (s.hub.ports[c.port]).maskData)) ∧
    (¬ bad → ¬ denied → full → exec (.openClip c mask name) s = s.became (g.answer c 0x70 .full [])) ∧
    (¬ bad → ¬ denied → ¬ full →
      exec (.openClip c mask name) s =
        s.became (({ g with log := { l with clips := kept ++ [clip], nextClip := l.nextClip + 1 } }).answer c 0x70 .done
          (le 4 l.nextClip ++ le 4 start.toNat)))

/-- R138, R143, R141, R152: the ways out of OPEN and out of the table.  A clip closed by a command or by SUPW ends at the next
tick; one that the span limit closes at the coming tick ends at the tick after it.  RELEASE CLIP removes a CLOSED or LAPSED
descriptor.  At a change of SUPW to asserted every OPEN clip goes to CLOSING, every trigger is DISARMED, and both changes
give SUPPLY_WARN to every port.  R139, R140: the test that every offer, drop, change of stream state and tick makes of a
stream sets the passed marks of Table 50 and closes the clips whose marks are all set; after a tick a clip still in CLOSING
has a stream that has not passed.  Model's choices: LIMIT CLOSE does its part of the coming tick ahead of it (log entry 13), a
supply row that reports the level already held changes nothing (log entry 40), CLOSING entered from HELD counts while the
hold lasts (log entry 54). -/
def Obligations.ClipsCloseAndLeave : Prop :=
  (∀ (h : Hub) (k : Fin 16) (dated : Option Word), h.ClipsOrdered → ∀ (i : Nat) (x : Clip), h.log.clips[i]? = some x →
      let passes := x.state = .closing ∧ x.mask.getLsbD k.val = true ∧
        (h.HasPassed x k ∨ (k.val < 4 ∧ ∃ d w, dated = some d ∧ x.endSerial = some w ∧ (d - w).toNat < 2147483648))
      ∀ y : Clip, (passes → y = { x with passed := x.passed ||| (1#16 <<< k.val) }) → (¬ passes → y = x) →
      let all := ∀ j : Fin 16, x.mask.getLsbD j.val = true → y.passed.getLsbD j.val = true
      (x.state = .closing → all →
        (h.testClips k dated).log.clips[i]? = some
          { y with
            state := .closed
            ends := Vector.ofFn fun j =>
              if x.mask.getLsbD j.val = true ∧ x.starts[j] ≠ none then x.running[j] else none } ∧
        ∀ p : Fin 4, h.hasClass p .log = true → ((h.testClips k dated).notices[p]).summary.getLsbD 17 = true) ∧
      (x.state ≠ .closing ∨ ¬ all → (h.testClips k dated).log.clips[i]? = some y)) ∧
  (∀ (c : Caller) (n : Word) (s : State), s.Serves c (some .log) none →
      let g := s.hub.arrive c.env
      let l := s.hub.log
      let masks := (s.hub.ports[c.port]).maskData
      let unknown := n = 0 ∨ l.nextClip ≤ n.toNat
      (unknown → exec (.closeClip c n) s = s.became (g.answer c 0x71 .badArg []) ∧
        exec (.releaseClip c n) s = s.became (g.answer c 0x72 .badArg [])) ∧
      (¬ unknown → (∀ x ∈ l.clips, x.number ≠ n) → exec (.closeClip c n) s = s.became (g.answer c 0x71 .gone []) ∧
        exec (.releaseClip c n) s = s.became (g.answer c 0x72 .gone [])) ∧
      ∀ x : Clip, ¬ unknown → l.clips.find? (fun y : Clip => y.number = n) = some x →
        let other := ∃ q, x.owner = .port q ∧ q ≠ c.port
        let outside := ∃ k : Fin 16, x.mask.getLsbD k.val = true ∧ s.hub.hasStream c.port k.val = false
        (other → exec (.closeClip c n) s = s.became (g.answer c 0x71 .denied masks)) ∧
        (¬ other → x.state ≠ .opened → exec (.closeClip c n) s = s.became (g.answer c 0x71 .conflict [])) ∧
        (¬ other → x.state = .opened →
          exec (.closeClip c n) s =
            s.became (({ g with log := { l with clips := l.clips.map fun y : Clip =>
              if y.state = ClipState.opened ∧ y.number = n then
                { y with state := .closing, endSerial := some (s.hub.tb.frame.serial + 1), reason := some .portClose,
                         limitDue := false }
              else y } }).answer c 0x71 .started [])) ∧
        (outside → exec (.releaseClip c n) s = s.became (g.answer c 0x72 .denied masks)) ∧
        (¬ outside → x.state = .opened ∨ x.state = .closing →
          exec (.releaseClip c n) s = s.became (g.answer c 0x72 .conflict [])) ∧
        (¬ outside → x.state = .closed ∨ x.state = .lapsed →
          exec (.releaseClip c n) s =
            s.became (({ g with log := { l with clips := l.clips.filter fun y : Clip => y.number ≠ n } }).answer c 0x72 .done
              []))) ∧
  ∀ (e : Env) (s : State), s.held = false →
    let g := s.hub.arrive e
    let l := s.hub.log
    (∀ n : Word, exec (.limitClose e n) s = s.became { g with log := { l with clips := l.clips.map fun y : Clip =>
      if y.state = .opened ∧ y.number = n ∧ y.limitDue = true then
        { y with state := .closing, endSerial := some (s.hub.tb.frame.serial + 1 + 1), reason := some .limit,
                 limitDue := false }
      else y } }) ∧
    (l.supply = true → exec (.supplyWarningAssert e) s = s.became g) ∧
    (l.supply = false →
      ∃ t, exec (.supplyWarningAssert e) s = .next t ∧ t.hub.log.supply = true ∧
        t.hub.log.clips = (l.clips.map fun y : Clip =>
          if y.state = .opened then
            { y with state := .closing, endSerial := some (s.hub.tb.frame.serial + 1), reason := some .supply,
                     limitDue := false }
          else y) ∧
        (∀ k : Fin 4, t.hub.log.triggers[k] = { l.triggers[k] with state := .disarmed }) ∧
        (∀ p : Fin 4, (t.hub.notices[p]).queue.getLast? =
          some { kind := .supplyWarn, param := 1, serial := s.hub.tb.frame.serial }) ∧
        t.hub.log.labels = l.labels ∧ t.hub.log.nextClip = l.nextClip ∧ Hub.OnlyChanges [.log, .notices] s.hub t.hub) ∧
    (l.supply = false → exec (.supplyWarningDeassert e) s = s.became g) ∧
    (l.supply = true →
      ∃ t, exec (.supplyWarningDeassert e) s = .next t ∧ t.hub.log = { l with supply := false } ∧
        (∀ p : Fin 4, (t.hub.notices[p]).queue.getLast? =
          some { kind := .supplyWarn, param := 0, serial := s.hub.tb.frame.serial }) ∧
        Hub.OnlyChanges [.log, .notices] s.hub t.hub) ∧
    (s.hub.tb.ref ≠ .locked →
      ∃ t, exec (.dividerExpiry e) s = .next t ∧ ∀ x ∈ t.hub.log.clips, x.state = .closing →
        ∃ k : Fin 16, x.mask.getLsbD k.val = true ∧ x.passed.getLsbD k.val = false ∧ ¬ t.hub.HasPassed x k)

/-- R148, R144 to R146, R150: ADD LABEL with its checks in their order.  With no trigger ARMED an ignored label is counted and
not filed; a filed one enters the Label Store as the newest with the next label number, the oldest leaving a full store.
With stream 12 CLOSED and room in the store it is linked, in frame-serial order, to every clip whose span holds it and to
the clip it names, and a NAME label renames that clip.  An ARMED trigger that matches opens or closes clips, counts its fire
and is re-armed by its setting. -/
def Obligations.LabelsAreFiled : Prop :=
  ∀ (c : Caller) (name : Bool) (value : Option Word) (text : TextArg) (clip : Option Word) (s : State),
    s.Serves c (some .log) none →
    let g := s.hub.arrive c.env
    let l := s.hub.log
    let frame := s.hub.tb.frame
    let kind : LabelKind := if name then .name else .note
    let cmd := Instr.addLabel c (byte name.toNat) value text clip
    let bytes := text.bytes.take text.len.toNat
    let unknown := fun n : Word => n = 0 ∨ l.nextClip ≤ n.toNat
    let outside := fun x : Clip => ∃ k : Fin 16, x.mask.getLsbD k.val = true ∧ s.hub.hasStream c.port k.val = false
    let allowed := ∀ n, clip = some n → ¬ unknown n ∧
      ∃ x : Clip, l.clips.find? (fun y : Clip => y.number = n) = some x ∧ ¬ outside x ∧ x.state ≠ .lapsed
    let number := l.nextLabel
    let label : Label :=
      { number := number, kind := kind, source := .port c.port, serial := frame.serial, tc := frame.tc, value := value,
        text := bytes }
    let renamed := fun y : Clip => if name = true ∧ clip = some y.number then { y with name := bytes } else y
    (∀ a : Byte, 1 < a.toNat ∨ 64 < text.len.toNat →
      exec (.addLabel c a value text clip) s = s.became (g.answer c 0x73 .badArg [])) ∧
    (text.len.toNat ≤ 64 →
      (∀ n, clip = some n →
        (unknown n → exec cmd s = s.became (g.answer c 0x73 .badArg [])) ∧
        (¬ unknown n → (∀ x ∈ l.clips, x.number ≠ n) → exec cmd s = s.became (g.answer c 0x73 .gone [])) ∧
        ∀ x : Clip, ¬ unknown n → l.clips.find? (fun y : Clip => y.number = n) = some x →
          (outside x → exec cmd s = s.became (g.answer c 0x73 .denied (s.hub.ports[c.port]).maskData)) ∧
          (¬ outside x → x.state = .lapsed → exec cmd s = s.became (g.answer c 0x73 .conflict []))) ∧
      (allowed → (∀ k : Fin 4, (l.triggers[k]).state ≠ .armed) →
        (l.keeps kind (.port c.port) = false →
          exec cmd s = s.became
            (({ g with log := { l with clips := l.clips.map renamed, ignored := l.ignored + 1 } }).answer c 0x73 .done
              (zeros 5))) ∧
        (l.keeps kind (.port c.port) = true →
          ∃ t, exec cmd s = .next t ∧
            t.hub.log.labels = (if l.labels.length < 4096 then l.labels else l.labels.drop 1) ++ [label] ∧
            t.hub.log.nextLabel = number + 1 ∧ t.hub.log.filed = l.filed + 1 ∧
            t.hub.log.removed = (if l.labels.length < 4096 then l.removed else l.removed + 1) ∧
            (t.hub.ports[c.port]).sending =
              some (false, { tag := c.tag, code := 0x73, outcome := .done, data := 1 :: le 4 number.toNat }) ∧
            Hub.OnlyChanges [.streams, .rings, .memory, .sending, .log, .ports, .notices] s.hub t.hub ∧
            ((s.hub.stream 12).state = .closed → l.labels.length < 4096 → (∀ x ∈ l.labels, x.number ≠ number) →
              ∀ (i : Nat) (x : Clip), l.clips[i]? = some x →
                let inSpan := (frame.serial - x.startSerial).toNat < 2147483648 ∧
                  ∀ w, x.endSerial = some w → 2147483648 ≤ (frame.serial - w).toNat
                let reached := ((x.state = .opened ∨ x.state = .closing) ∧ inSpan) ∨
                  (x.state ≠ .lapsed ∧ clip = some x.number)
                (¬ reached → t.hub.log.clips[i]? = some (renamed x)) ∧
                (reached → 64 ≤ x.labels.length → t.hub.log.clips[i]? = some { renamed x with truncated := true }) ∧
                (reached → x.labels.length < 64 → number ∉ x.labels →
                  ∃ a b, x.labels = a ++ b ∧
                    t.hub.log.clips[i]? = some { renamed x with labels := a ++ [number] ++ b } ∧
                    (∀ m ∈ a, (frame.serial - l.serialOf m).toNat < 2147483648) ∧
                    ∀ m ∈ b.head?, 2147483648 ≤ (frame.serial - l.serialOf m).toNat)))) ∧
      ∀ k : Fin 4, allowed → clip = none → (s.hub.stream 12).state = .closed →
        (∀ j : Fin 4, j ≠ k → (l.triggers[j]).state ≠ .armed) →
        let x := l.triggers[k]
        let fired := { x with fires := x.fires + 1, state := if x.auto then .armed else .fired }
        let matching := x.state = .armed ∧ x.kind = some kind ∧ (x.source = none ∨ x.source = some (.port c.port)) ∧
          value.getD 0 &&& x.mask = x.pattern &&& x.mask
        (∀ partner, x.action = .stop partner → matching →
          ∃ t, exec cmd s = .next t ∧ t.hub.log.triggers[k] = fired ∧
            ∀ (i : Nat) (y : Clip), l.clips[i]? = some y → y.state = .opened → y.owner = .trigger partner →
              ∃ z : Clip, t.hub.log.clips[i]? = some z ∧ z.state = .closing ∧ z.reason = some .trigger ∧
                z.endSerial = some (frame.serial + 1)) ∧
        ∀ mask, x.action = .start mask → matching →
          let own := ∃ y : Clip, y ∈ l.clips ∧ y.state = .opened ∧ y.owner = .trigger k
          (own → ∃ t, exec cmd s = .next t ∧ t.hub.log.triggers[k] = { x with ignored := x.ignored + 1 } ∧
            t.hub.log.nextClip = l.nextClip) ∧
          (¬ own → l.canOpen = false →
            ∃ t, exec cmd s = .next t ∧ t.hub.log.triggers[k] = { x with misses := x.misses + 1 } ∧
              t.hub.log.nextClip = l.nextClip) ∧
          (¬ own → l.canOpen = true →
            ∃ (t : State) (z : Clip), exec cmd s = .next t ∧ t.hub.log.triggers[k] = fired ∧
              t.hub.log.nextClip = l.nextClip + 1 ∧
              t.hub.log.clips.getLast? = some z ∧ z.number = BitVec.ofNat 32 l.nextClip ∧ z.state = .opened ∧
              z.owner = .trigger k ∧ z.mask = mask ∧ z.startSerial = frame.serial + 1))

/-- R147, R149, R154: SET SELECTION writes one entry, a row, a column or the whole table; SET TRIGGER with its checks in their
order, ARM TRIGGER and DISARM TRIGGER; LOG RESET empties the Clip Log and leaves its settings.  A selection flag's codes, 0
for keep and 1 for ignore, are the model's reading (log entry 15). -/
def Obligations.LogSettings : Prop :=
  ∀ (c : Caller) (s : State), s.Serves c (some .log) none →
    let g := s.hub.arrive c.env
    let l := s.hub.log
    let masks := (s.hub.ports[c.port]).maskData
    (∀ a b d : Byte, (11 < a.toNat ∧ a ≠ 255) ∨ (8 < b.toNat ∧ b ≠ 255) ∨ 1 < d.toNat →
      exec (.setSelection c a b d) s = s.became (g.answer c 0x74 .badArg [])) ∧
    (∀ (a b : Byte) (ignore : Bool), a.toNat ≤ 11 ∨ a = 255 → b.toNat ≤ 8 ∨ b = 255 →
      ∃ t, exec (.setSelection c a b (byte ignore.toNat)) s = .next t ∧
        (∀ (k : LabelKind) (source : LabelSource), t.hub.log.keeps k source =
          if (a = 255 ∨ a.toNat = k.code) ∧ (b = 255 ∨ b.toNat = source.code) then !ignore else l.keeps k source) ∧
        t.hub.log = { l with selection := t.hub.log.selection } ∧
        (t.hub.ports[c.port]).sending = some (false, { tag := c.tag, code := 0x74, outcome := .done, data := [] }) ∧
        Hub.OnlyChanges [.log, .ports] s.hub t.hub) ∧
    (∀ (n a b : Byte) (pattern mask : Word) (action : ActionArg) (d : Byte),
      3 < n.toNat ∨ 10 < a.toNat ∨ (8 < b.toNat ∧ b ≠ 255) ∨ 1 < d.toNat ∨ action = .unknown ∨ action = .start 0 ∨
        (∃ q : Byte, action = .stop q ∧ 3 < q.toNat) →
      exec (.setTrigger c n a b pattern mask action d) s = s.became (g.answer c 0x75 .badArg [])) ∧
    (∀ (k : Fin 4) (kind : LabelKind) (source : Option LabelSource) (pattern mask : Word) (action : Action) (auto : Bool),
      kind ≠ .trigger → action ≠ .start 0 →
      let wire : ActionArg := match action with
        | .start m => .start m
        | .stop q => .stop (byte q.val)
      let from' : Byte := match source with
        | none => 255
        | some x => byte x.code
      let outside := ∃ m, action = .start m ∧ ∃ j : Fin 16, m.getLsbD j.val = true ∧ s.hub.hasStream c.port j.val = false
      let cmd := Instr.setTrigger c (byte k.val) (byte kind.code) from' pattern mask wire (byte auto.toNat)
      (outside → exec cmd s = s.became (g.answer c 0x75 .denied masks)) ∧
      (¬ outside → (l.triggers[k]).state = .armed → exec cmd s = s.became (g.answer c 0x75 .conflict [])) ∧
      (¬ outside → (l.triggers[k]).state ≠ .armed →
        exec cmd s = s.became ((g.modTrigger k fun x =>
          { kind := some kind, source := source, pattern := pattern, mask := mask, action := action, auto := auto,
            state := .disarmed, fires := x.fires, ignored := x.ignored, misses := x.misses }).answer c 0x75 .done []))) ∧
    (∀ n : Byte, 3 < n.toNat → exec (.armTrigger c n) s = s.became (g.answer c 0x76 .badArg []) ∧
      exec (.disarmTrigger c n) s = s.became (g.answer c 0x77 .badArg [])) ∧
    (∀ k : Fin 4,
      ((l.triggers[k]).kind = none ∨ l.supply = true →
        exec (.armTrigger c (byte k.val)) s = s.became (g.answer c 0x76 .conflict [])) ∧
      ((l.triggers[k]).kind ≠ none → l.supply = false →
        exec (.armTrigger c (byte k.val)) s =
          s.became ((g.modTrigger k fun x => { x with state := .armed }).answer c 0x76 .done [])) ∧
      exec (.disarmTrigger c (byte k.val)) s =
        s.became ((g.modTrigger k fun x => { x with state := .disarmed }).answer c 0x77 .done [])) ∧
    ∃ t, exec (.logReset c) s = .next t ∧ t.hub.log.clips = [] ∧ t.hub.log.labels = [] ∧
      (∀ k : Fin 4, t.hub.log.triggers[k] = { l.triggers[k] with state := .disarmed }) ∧
      t.hub.log = { l with clips := [], labels := [], triggers := t.hub.log.triggers } ∧
      (t.hub.ports[c.port]).sending = some (false, { tag := c.tag, code := 0x78, outcome := .done, data := [] }) ∧
      Hub.OnlyChanges [.log, .ports] s.hub t.hub

/-! ### Chapter 8: Tally Outputs -/

/-- R163, R164: SET TALLY writes a source and leaves the lamp; SET OVERRIDE writes an override, whose holder is the commanding
port, or clears it.  R158: an output shows the forced state while an override stands, and else the computed lamp, on its two
drives as Table 57 gives.  R159 to R162: a tick forms every lamp from its source's state after the tick, an INPUT lamp with the
sent marks of the frame that ended and, without signal, in the flash of its phase, and clears the sent marks.  That SET TALLY
with the source NONE does not judge its number byte is the model's choice (log entry 59). -/
def Obligations.TallySettings : Prop :=
  (∀ x : TallyEntry, x.shown =
    match x.override with
    | .none => x.lamp
    | .forceOff => .off
    | .forceRed => .red
    | .forceGreen => .green) ∧
  (∀ (s : State) (o : Fin 16), s.held = false → s.drives o =
    match (s.hub.tally.entries[o]).shown with
    | .off => (false, false)
    | .red => (true, false)
    | .green => (false, true)
    | .amber => (true, true)) ∧
  (∀ (e : Env) (s : State), s.held = false → s.hub.tb.ref ≠ .locked →
    ∃ t, exec (.dividerExpiry e) s = .next t ∧ (∀ k : Fin 4, t.hub.tally.sent[k] = false) ∧
      ∀ o : Fin 16,
        let x := t.hub.tally.entries[o]
        let active := fun y : Clip => y.state = .opened ∨ y.state = .closing
        let watched := fun (n k : Fin 4) => (t.hub.coders[k]).source = n
        let red := fun n : Fin 4 => ∃ k : Fin 4, watched n k ∧ (t.hub.stream (pictureStream k)).state = .opened ∧
          s.hub.tally.sent[k] = true
        let green := fun n : Fin 4 => ∃ y ∈ t.hub.log.clips, active y ∧ ∃ k : Fin 4, watched n k ∧
          y.mask.getLsbD k.val = true
        let lamp := fun n : Fin 4 => if red n then Lamp.red else if green n then .green else .off
        x.source = (s.hub.tally.entries[o]).source ∧
          x.lamp =
            match x.source with
            | .none => .off
            | .path n =>
              match (t.hub.paths.path[n]).state with
              | .up => .green
              | .paused => .amber
              | .down => .red
              | .reset => .red
              | .off => .off
            | .trigger n =>
              if ∃ y ∈ t.hub.log.clips, active y ∧ y.owner = .trigger n then .red
              else if (t.hub.log.triggers[n]).state = .armed then .green
              else .off
            | .input n =>
              if (t.hub.inputs[n]).present then lamp n
              else if 2 ≤ t.hub.tally.flash[n] then .off
              else if lamp n = .off then .amber
              else lamp n) ∧
  ∀ (c : Caller) (s : State), s.Serves c (some .tally) none →
    let g := s.hub.arrive c.env
    (∀ n a b : Byte, 15 < n.toNat ∨ 3 < a.toNat ∨ ((a = 0 ∨ a = 2) ∧ 3 < b.toNat) ∨ (a = 1 ∧ 7 < b.toNat) →
      exec (.setTally c n a b) s = s.became (g.answer c 0x80 .badArg [])) ∧
    (∀ (o : Fin 16) (source : TallySource) (a b : Byte),
      (source = .none ∧ a = 3) ∨ (∃ n, source = .input n ∧ a = 0 ∧ b = byte n.val) ∨
        (∃ n, source = .path n ∧ a = 1 ∧ b = byte n.val) ∨ (∃ n, source = .trigger n ∧ a = 2 ∧ b = byte n.val) →
      exec (.setTally c (byte o.val) a b) s =
        s.became ((g.modTally o fun x => { x with source := source }).answer c 0x80 .done [])) ∧
    (∀ n v : Byte, 15 < n.toNat ∨ 3 < v.toNat →
      exec (.setOverride c n v) s = s.became (g.answer c 0x81 .badArg [])) ∧
    ∀ (o : Fin 16) (v : Byte), v.toNat ≤ 3 →
      exec (.setOverride c (byte o.val) v) s =
        s.became ((g.modTally o fun x =>
          { x with
            override := if v = 0 then .none else if v = 1 then .forceOff else if v = 2 then .forceRed else .forceGreen
            holder := if v = 0 then none else some c.port }).answer c 0x81 .done [])

/-! ### Chapter 9: Master ports and rights -/

/-- R174, R177 to R180, R44, R109, R153, R165: rights and presence.  SET RIGHTS is taken from an editor alone, and writes RIGHTS
as the editor mask has it.  PRESENCE alternates EVEN and ODD; a completed pair restarts the timer and brings an ABSENT port
back.  At the tick that brings the timer of a PRESENT port to the period the port goes ABSENT, and the blocks end what it
holds, a path released with the effects of R92; before that each tick raises the timer by one.  Model's choices: ODD at the very moment of an absence that found half a
pair still completes it (log entry 55), and PORT ABSENT does its part of the coming tick ahead of it (log entry 13). -/
def Obligations.RightsAndPresence : Prop :=
  (∀ (c : Caller) (n : Byte) (classes streams : BitVec 16) (s : State), s.Serves c (some .rights) none →
      let g := s.hub.arrive c.env
      let editor := fun q : Fin 4 => s.hub.strap.getLsbD (3 + q.val)
      (editor c.port = false →
        exec (.setRights c n classes streams) s = s.became (g.answer c 0x90 .denied (s.hub.ports[c.port]).maskData)) ∧
      (editor c.port = true → 3 < n.toNat →
        exec (.setRights c n classes streams) s = s.became (g.answer c 0x90 .badArg [])) ∧
      ∀ q : Fin 4, editor c.port = true → n = byte q.val →
        let written := (classes &&& 0x6FF) ||| (if editor q then 0x100 else 0)
        exec (.setRights c n classes streams) s =
          s.became ((g.modPort q fun x => { x with classes := written, streams := streams }).answer c 0x90 .done
            (le 2 written.toNat ++ le 2 streams.toNat))) ∧
  (∀ (c : Caller) (a : Byte) (s : State), s.held = false →
      let g := s.hub.arrive c.env
      let x := s.hub.ports[c.port]
      let data := fun y : PortRecord => [if y.present then 0 else 1, if y.expectOdd then 1 else (0 : Byte)]
      let answered := fun (o : Answer) (y : PortRecord) => s.became ((g.modPort c.port fun _ => y).answer c 1 o (data y))
      let off := s.hub.strap.toNat % 4 = 0
      let expected := decide (a = 1) = x.expectOdd ∨ (a = 1 ∧ x.half = some (s.hub.now + c.env.dt))
      (1 < a.toNat → exec (.presence c a) s = answered .badArg x) ∧
      (a.toNat ≤ 1 → off → exec (.presence c a) s = answered .done x) ∧
      (a.toNat ≤ 1 → ¬ off →
        (¬ expected →
          exec (.presence c a) s =
            answered .conflict { x with counts := { x.counts with wrongPhase := x.counts.wrongPhase + 1 } }) ∧
        (a = 0 → expected → exec (.presence c a) s = answered .done { x with expectOdd := true, half := none }) ∧
        (a = 1 → expected →
          let y := { x with present := true, expectOdd := false, half := none, timer := 0,
                            counts := { x.counts with pairs := x.counts.pairs + 1 } }
          (x.present = true → exec (.presence c a) s = answered .done y) ∧
          (x.present = false →
            exec (.presence c a) s =
              s.became ((((g.modPort c.port fun _ => y).notify .portPresent c.port.val).answer c 1 .done (data y))))))) ∧
  ∀ (e : Env) (q : Fin 4) (s : State), s.held = false →
    let x := s.hub.ports[q]
    let period := match s.hub.strap.toNat % 4 with
      | 1 => 25
      | 2 => 100
      | _ => 250
    let off := s.hub.strap.toNat % 4 = 0
    (off ∨ x.present = false ∨ x.timer + 1 < period → exec (.portAbsent e q) s = s.became (s.hub.arrive e)) ∧
    (s.hub.tb.ref ≠ .locked → ∃ t, exec (.dividerExpiry e) s = .next t ∧
      (off ∨ x.present = false → t.hub.ports[q] = x) ∧
      (¬ off → x.present = true → x.timer + 1 < period → t.hub.ports[q] = { x with timer := x.timer + 1 }) ∧
      (¬ off → x.present = true → period ≤ x.timer + 1 →
        t.hub.ports[q] =
          { x with
            present := false
            expectOdd := false
            half := if x.expectOdd then some (s.hub.tb.lastTick + s.hub.tb.frameRate.nominal) else none
            timer := period
            counts := { x.counts with absences := x.counts.absences + 1 } } ∧
        ∀ p : Fin 4, p ≠ q → (t.hub.notices[p]).summary.getLsbD 21 = true)) ∧
    (¬ off → x.present = true → period ≤ x.timer + 1 →
      ∃ t, exec (.portAbsent e q) s = .next t ∧
        t.hub.ports[q] =
          { x with
            present := false
            expectOdd := false
            half := if x.expectOdd then some (s.hub.now + e.dt) else none
            timer := period
            counts := { x.counts with absences := x.counts.absences + 1 } } ∧
        (∀ p, p ≠ q → t.hub.ports[p] = s.hub.ports[p]) ∧
        (∀ k : Fin 16,
          let old := s.hub.stream k
          let new := t.hub.stream k
          (old.setter = some q → new.setter = none ∧ (old.state = .held → new.state = .opened)) ∧
            (old.setter ≠ some q → new.setter = old.setter ∧ new.state = old.state) ∧
            (old.builder = some q → new.buffer = [] ∧
              (old.buffer ≠ [] → new.builder = none ∧ (13 ≤ k.val → new.discarded = old.discarded + 1))) ∧
            (old.builder ≠ some q → new.buffer = old.buffer ∧ new.builder = old.builder)) ∧
        (∀ p : Fin 8,
          let old := s.hub.paths.path[p]
          let new := t.hub.paths.path[p]
          (old.holder = some q → new.holder = none ∧
            (old.resetCount = 4 → new.hold = false ∧ new.releaseDue = false ∧ new.Table38) ∧
            (old.resetCount ≠ 4 → new.hold = old.hold ∧ new.releaseDue = true)) ∧
            (old.holder ≠ some q → new = old)) ∧
        s.hub.PathsMoved t.hub (s.hub.tb.tick (s.hub.now + e.dt)).frame ∧
        ((∀ p : Fin 8, (s.hub.paths.path[p]).holder ≠ some q) → ∀ (i : Nat) (y : Clip), s.hub.log.clips[i]? = some y →
          ∃ z : Clip, t.hub.log.clips[i]? = some z ∧
          (y.owner = .port q → z.owner = .none ∧
            (y.state = .opened → z.state = .closing ∧ z.reason = some .portLost ∧
              z.endSerial = some (s.hub.tb.frame.serial + 1 + 1))) ∧
          (y.owner ≠ .port q → z.owner = y.owner)) ∧
        (∀ o : Fin 16, t.hub.tally.entries[o] =
          if (s.hub.tally.entries[o]).holder = some q then
            { s.hub.tally.entries[o] with override := .none, holder := none }
          else s.hub.tally.entries[o]) ∧
        (∀ p : Fin 4, p ≠ q → (t.hub.notices[p]).summary.getLsbD 21 = true) ∧
        Hub.OnlyChanges (.ports :: .tally :: pathParts) s.hub t.hub)

/-- R181 with R19, R47, R67, R88, R112, R133, R157, R167, R194: HUB RESET clears the running state of every block, keeps every
setting, and answers DONE as the first record that the port receives about it.  A field that no rule of Hub reset names (the
frame history, the reader's mark of the frame period, the channels' valid flags) is kept: the model's choice, log entry
39. -/
def Obligations.HubResetClears : Prop :=
  ∀ (c : Caller) (s : State), s.Serves c (some .part) none →
    ∃ t, exec (.hubReset c) s = .next t ∧ t.hub.strap = s.hub.strap ∧ t.hub.inputs = s.hub.inputs ∧
      t.hub.store.mem = s.hub.store.mem ∧
      (let b := s.hub.tb
       t.hub.tb = { b with frame := { b.frame with serial := 0, phase := 0 }, jam := none, reader := none }) ∧
      (∀ k : Fin 16, t.hub.stream k =
        { s.hub.stream k with
          state := .closed
          setter := none
          fromHeld := false
          releaseMark := 0
          committed := 0
          discarded := 0
          lost := 0
          skipped := 0
          buffer := []
          builder := none }) ∧
      (∀ r : Fin 17, t.hub.ring r =
        { s.hub.ring r with headOff := 0, index := [], head := 0, send := 0, corrected := 0, damaged := 0 }) ∧
      (∀ k : Fin 4,
        let old := s.hub.coders[k]
        let new := t.hub.coders[k]
        new.built = false ∧ new.rate = 0 ∧ new.target = 0 ∧ new.size = 0 ∧ new.fullness = 0 ∧ new.q = 0 ∧
          new.flight = [] ∧ new.counts = {} ∧ new.sourceChange = false ∧ new.source = old.source ∧
          new.format = old.format ∧ new.fixed = old.fixed ∧ new.rFix = old.rFix ∧ new.rMin = old.rMin ∧
          new.rMax = old.rMax ∧ new.weight = old.weight ∧ new.bf = old.bf) ∧
      (∀ n : Fin 64,
        let old := s.hub.mixer.channels[n]
        let new := t.hub.mixer.channels[n]
        (∀ k : Fin 16, new.gains[k] = { g := (old.gains[k]).target, target := (old.gains[k]).target, r := 0 }) ∧
          new = { old with delay := old.pendingDelay.getD old.delay, pendingDelay := none, muteEnd := none, line := [],
                           invalid := 0, gains := new.gains }) ∧
      (∀ k : Fin 16, t.hub.mixer.buses[k] =
        { master := { g := ((s.hub.mixer.buses[k]).master).target, target := ((s.hub.mixer.buses[k]).master).target, r := 0 }
          peak := 0
          overloads := 0
          lastPeak := 0
          lastOverloads := 0
          threshold := (s.hub.mixer.buses[k]).threshold
          silenceFrames := (s.hub.mixer.buses[k]).silenceFrames
          run := 0
          silent := false
          overloadFrames := 0
          inputError := false }) ∧
      (∀ k : Fin 8, (t.hub.mixer.packs[k]).state = .idle ∧ (t.hub.mixer.packs[k]).buffer = [] ∧
        (t.hub.mixer.packs[k]).offered = 0 ∧ (t.hub.mixer.packs[k]).voided = 0) ∧
      (∀ p : Fin 8,
        let old := s.hub.paths.path[p]
        let new := t.hub.paths.path[p]
        new.enabled = old.enabled ∧ new.pauseLimit = old.pauseLimit ∧ new.lineRate = old.lineRate ∧ new.Table38 ∧
          new.lines = BitVec.ofNat 4 (c.env.lines.toNat / 16 ^ p.val) ∧ new.change = false ∧ new.loss = false ∧
          new.pauseCount = 0 ∧ new.pausedIn = 0 ∧ new.timeoutMark = false ∧ new.hold = false ∧ new.holder = none ∧
          new.resetCount = 0 ∧ new.releaseDue = false ∧ new.fifo = [] ∧ new.transmitting = false ∧ new.seq = 0 ∧
          new.baseline = none ∧ new.counts = {} ∧ (t.hub.paths.arbiters[p]).last0 = 16 ∧ (t.hub.paths.arbiters[p]).cur1 = none ∧
          ∀ r : Fin 17, (t.hub.paths.arbiters[p]).deficits[r] = 0) ∧
      t.hub.paths.spread = s.hub.paths.spread ∧ t.hub.paths.directed = s.hub.paths.directed ∧
      (∀ j : Fin 4, t.hub.paths.bonds[j] =
        { setting := (s.hub.paths.bonds[j]).setting, inForce := (s.hub.paths.bonds[j]).setting, odd := false }) ∧
      (∀ r : Fin 17, t.hub.paths.sends[r] = { taken := none, sent := 0, passedDamaged := 0 }) ∧
      t.hub.gauges.auto = s.hub.gauges.auto ∧ t.hub.gauges.window = s.hub.gauges.window ∧
      (∀ p : Fin 8,
        let old := s.hub.gauges.path[p]
        let new := t.hub.gauges.path[p]
        new.phase = .idle ∧ new.g = 0 ∧ new.remaining = 0 ∧ new.sum = 0 ∧ new.v0 = 0 ∧ new.count2 = 0 ∧ new.lastV0 = 0 ∧
          new.lastT1 = 0 ∧ new.c = 0 ∧ new.s = 0 ∧ new.e = 0 ∧ new.completed = 0 ∧ new.aborted = 0 ∧ new.manual = .idle ∧
          new.volume = old.volume ∧ new.gate = old.gate ∧ new.manualSum = 0 ∧ new.manualCount = 0 ∧ new.result = none) ∧
      (let old := s.hub.budget
       let new := t.hub.budget
       new.fixedSource = old.fixedSource ∧ new.fixedCapacity = old.fixedCapacity ∧ new.headroom = old.headroom ∧
         new.reserves = old.reserves ∧ new.kBits = 0 ∧ new.u = 0 ∧ new.u' = 0 ∧ new.soundReserve = 0 ∧
         new.otherReserve = 0 ∧ new.fixedTotal = 0 ∧ new.pool = 0 ∧ new.overdrawn = false ∧ new.recomputations = 0 ∧
         ∀ k : Fin 4, new.pictures[k] =
           { assigned := (s.hub.coders[k]).rMin, counted := false, share := none, starved := false, kept := [],
             changedAt := none, startedAt := none }) ∧
      (let old := s.hub.log
       let new := t.hub.log
       new = { old with clips := [], labels := [], filed := 0, ignored := 0, removed := 0, lapses := 0,
                        triggers := new.triggers } ∧
         ∀ k : Fin 4, new.triggers[k] =
           { old.triggers[k] with state := .disarmed, fires := 0, ignored := 0, misses := 0 }) ∧
      (∀ o : Fin 16,
        let old := s.hub.tally.entries[o]
        let new := t.hub.tally.entries[o]
        new.source = old.source ∧ new.override = .none ∧ new.holder = none ∧
          (∀ n, old.source = .trigger n → new.lamp = .off) ∧ (old.source = .none → new.lamp = .off) ∧
          ∀ n, old.source = .path n → new.lamp =
            match (t.hub.paths.path[n]).state with
            | .up => .green
            | .paused => .amber
            | .down => .red
            | .reset => .red
            | .off => .off) ∧
      t.hub.tally.flash = s.hub.tally.flash ∧ (∀ i : Fin 4, t.hub.tally.sent[i] = false) ∧
      (∀ p : Fin 4,
        let old := s.hub.ports[p]
        let new := t.hub.ports[p]
        new.present = true ∧ new.expectOdd = false ∧ new.half = none ∧ new.timer = 0 ∧ new.classes = old.classes ∧
          new.streams = old.streams ∧ new.queue = old.queue ∧ new.fullList = old.fullList ∧
          (p ≠ c.port → new.sending = old.sending ∧ new.counts = {})) ∧
      (t.hub.ports[c.port]).sending = some (false, { tag := c.tag, code := 0xB0, outcome := .done, data := [] }) ∧
      ∀ p : Fin 4, t.hub.notices[p] =
        { queue := [], mask := (s.hub.notices[p]).mask, summary := 0, lost := 0, mode := (s.hub.notices[p]).mode,
          line := false, owed := 0, pulse := .idle }

/-- R169, R170, R197: a record that is damaged is counted and dropped; a good one joins the queue, is turned away with FULL,
or overruns.  With the link free the oldest FULL answer is sent, and without one the oldest command is taken.  Model's choices:
a tag leaves the FULL list when its answer has been sent (log entry 25), a FULL answer to PRESENCE carries the presence data
(log entry 24), and a RESPONSE END with the link free is void (log entry 18). -/
def Obligations.LinksQueueCommands : Prop :=
  ∀ (e : Env) (p : Fin 4) (s : State), s.held = false →
    let g := s.hub.arrive e
    let x := s.hub.ports[p]
    let taken := fun (h : Hub) (r : Bytes) => s.became
      (runRecord { env := { lines := e.lines, ecc := e.ecc }, port := p, tag := r.getD 2 0 } (r.getD 3 0)
        ((r.take (r.length - 4)).drop 4) h)
    let full := fun (a : Byte × Byte) => some (true,
      ({ tag := a.1, code := a.2, outcome := .full, data := if a.2 = 1 then x.presenceData else [] } : Response))
    (∀ (framed : Bool) (r : Bytes),
      let good := framed = true ∧ 8 ≤ r.length ∧ r.length ≤ 4108 ∧ ofLe (r.take 2) = r.length ∧
        r.drop (r.length - 4) = le 4 (crc32 (r.take (r.length - 4))).toNat
      let cmd := Instr.commandRecordArrival e p framed r
      let counted := { x with counts := { x.counts with takenIn := x.counts.takenIn + 1 } }
      (¬ good → exec cmd s =
        s.became (g.modPort p fun _ => { x with counts := { x.counts with bad := x.counts.bad + 1 } })) ∧
      (good → x.sending ≠ none →
        (x.queue.length < 16 →
          exec cmd s = s.became (g.modPort p fun _ => { counted with queue := x.queue ++ [r] })) ∧
        (16 ≤ x.queue.length → x.fullList.length < 16 →
          exec cmd s = s.became (g.modPort p fun _ =>
            { counted with fullList := x.fullList ++ [(r.getD 2 0, r.getD 3 0)],
                           counts := { counted.counts with full := x.counts.full + 1 } })) ∧
        (16 ≤ x.queue.length → 16 ≤ x.fullList.length →
          exec cmd s = s.became (g.modPort p fun _ =>
            { counted with counts := { counted.counts with overrun := x.counts.overrun + 1 } }))) ∧
      (good → x.sending = none → x.fullList = [] → x.queue = [] →
        exec cmd s = taken (g.modPort p fun _ => counted) r)) ∧
    (x.sending = none → exec (.responseEnd e p) s = s.became g) ∧
    ∀ y, x.sending = some y →
      let list := if y.1 = true then x.fullList.drop 1 else x.fullList
      (∀ a rest, list = a :: rest →
        exec (.responseEnd e p) s = s.became (g.modPort p fun _ => { x with sending := full a, fullList := list })) ∧
      (list = [] → x.queue = [] →
        exec (.responseEnd e p) s = s.became (g.modPort p fun _ => { x with sending := none, fullList := [] })) ∧
      ∀ r rest, list = [] → x.queue = r :: rest →
        exec (.responseEnd e p) s =
          taken (g.modPort p fun _ => { x with sending := none, fullList := [], queue := rest }) r

/-! ### Chapter 10: Notices -/

/-- R184, R185, R188 to R190: a notice given.  Every port of its audience has the summary flag set; the queue takes it when
the mask passes it, dropping it when 32 entries are held, but for a SUPPLY_WARN, which no mask stops and which takes the
place of the oldest.  The line is asserted in the level modes, a pulse is owed in PULSE. -/
def Obligations.NoticesAreOffered : Prop :=
  ∀ (h : Hub) (x : Notice) (p : Fin 4),
    let n := h.notices[p]
    let m := (h.give x).notices[p]
    let log := x.kind = .clipClosed ∨ x.kind = .clipLapsed ∨ x.kind = .triggerFired
    let presence := x.kind = .portAbsent ∨ x.kind = .portPresent
    let audience := (log → h.hasClass p .log = true) ∧ (presence → x.param.toNat ≠ p.val)
    let passes := x.kind = .supplyWarn ∨ n.mask.getLsbD x.kind.code = true
    let flag := n.summary ||| (1#32 <<< x.kind.code)
    let raised := fun y : NoticePort =>
      { y with
        line := if n.mode = .pulse then n.line else true
        owed := if n.mode = .pulse then min 255 (n.owed + 1) else n.owed }
    (¬ audience → m = n) ∧
    (audience → ¬ passes → m = { n with summary := flag }) ∧
    (audience → passes → n.queue.length < 32 →
      m = raised { n with summary := flag, queue := n.queue ++ [x] }) ∧
    (audience → passes → 32 ≤ n.queue.length →
      let lost := { n with summary := flag ||| 0x800000#32, lost := n.lost + 1 }
      (x.kind = .supplyWarn → m = raised { lost with queue := n.queue.drop 1 ++ [x] }) ∧
      (x.kind ≠ .supplyWarn → m = { lost with line := if n.mode = .untilAck then true else n.line }))

/-- R186 to R192: the commands on a port's notice state, and its pulses.  TAKE NOTICES takes the oldest entries of the class,
up to 8, and leaves the others in their order.  Model's choices: the three rows of a pulse follow one another, ATTENTION PULSE
END ends one that is still asserted (log entry 41), and a row whose phase is not at hand is void (log entry 18). -/
def Obligations.NoticeStateFollowsCommands : Prop :=
  (∀ (c : Caller) (s : State), s.Serves c none none →
      let g := s.hub.arrive c.env
      let n := s.hub.notices[c.port]
      (∀ a : Byte, 2 < a.toNat → exec (.takeNotices c a) s = s.became (g.answer c 0x02 .badArg [])) ∧
      (∀ a : Byte, a.toNat ≤ 2 →
        let pass := fun x : Notice => a = 0 ∨ (a = 1 ∧ x.kind.isPart = false) ∨ (a = 2 ∧ x.kind.isPart = true)
        let wire := fun x : Notice =>
          le 1 x.kind.code ++ flagByte x.kind.isPart ++ zeros 2 ++ le 4 x.param.toNat ++ le 4 x.serial.toNat
        ∃ taken rest, taken = (n.queue.filter fun x => pass x).take 8 ∧ List.Perm (taken ++ rest) n.queue ∧
          List.Sublist rest n.queue ∧ (rest.filter fun x => pass x) = (n.queue.filter fun x => pass x).drop 8 ∧
          exec (.takeNotices c a) s =
            s.became ((g.modNotice c.port fun m =>
              { m with queue := rest, line := if n.mode = .untilEmpty then decide (rest ≠ []) else n.line }).answer c 0x02
              .done (le 1 taken.length ++ taken.flatMap wire ++ le 1 rest.length ++ le 4 n.lost.toNat))) ∧
      exec (.ackAttention c) s =
        s.became ((g.modNotice c.port fun m =>
          { m with line := if n.mode = .untilAck then false else n.line }).answer c 0x03 .done [])) ∧
  (∀ (c : Caller) (s : State), s.Serves c (some .notice) none →
      let g := s.hub.arrive c.env
      let n := s.hub.notices[c.port]
      (∀ mask : Word,
        let written := (mask &&& 0x7FFFFF#32) ||| 0x100000#32
        exec (.setNoticeMask c mask) s =
          s.became ((g.modNotice c.port fun m => { m with mask := written }).answer c 0xA0 .done (le 4 written.toNat))) ∧
      exec (.readSummary c) s =
        s.became ((g.modNotice c.port fun m => { m with summary := 0 }).answer c 0xA1 .done (le 4 n.summary.toNat)) ∧
      (∀ a : Byte, 2 < a.toNat → exec (.setAttention c a) s = s.became (g.answer c 0xA2 .badArg [])) ∧
      ∀ a : Byte, a.toNat ≤ 2 →
        exec (.setAttention c a) s =
          s.became ((g.modNotice c.port fun m =>
            { m with
              mode := if a = 0 then .pulse else if a = 1 then .untilAck else .untilEmpty
              owed := 0
              pulse := .idle
              line := decide (a ≠ 0 ∧ n.queue ≠ []) }).answer c 0xA2 .done [])) ∧
  ∀ (e : Env) (p : Fin 4) (s : State), s.held = false →
    let g := s.hub.arrive e
    let n := s.hub.notices[p]
    (n.mode = .pulse ∧ n.pulse = .idle ∧ 0 < n.owed →
      exec (.attentionPulse e p) s =
        s.became (g.modNotice p fun m => { m with owed := n.owed - 1, line := true, pulse := .asserted })) ∧
    (¬ (n.mode = .pulse ∧ n.pulse = .idle ∧ 0 < n.owed) → exec (.attentionPulse e p) s = s.became g) ∧
    (n.pulse = .asserted →
      exec (.pulseLineDeasserted e p) s = s.became (g.modNotice p fun m => { m with line := false, pulse := .interval })) ∧
    (n.pulse ≠ .asserted → exec (.pulseLineDeasserted e p) s = s.became g) ∧
    (n.pulse ≠ .idle →
      exec (.attentionPulseEnd e p) s = s.became (g.modNotice p fun m => { m with line := false, pulse := .idle })) ∧
    (n.pulse = .idle → exec (.attentionPulseEnd e p) s = s.became g)

/-! ### Reads -/

/-- R17, R45, R65, R86, R110, R123, R131, R155, R166, R176, R182, R193: every READ command answers DONE with the record that it
names as it stands, and changes nothing but the response link; a number out of range is refused with BAD_ARG, a unit, clip or
label that is not held as the rule says, and ring G with DENIED to a port without one of streams 12 to 15.  Clips and labels
have the layouts of section 11.7; of the other records the rules name the fields, and their order and codes are the model's
(log entries 45, 15 and 38).  More of the model's choices: the refusals of READ INPUT and READ PICTURE (log entry 14), the
free values (log entries 7, 8, 53 and 61), a picture whose coding has not begun (log entry 48), a label number that is at
once too old and not yet given (log entry 52), the four counts of READ LOG as 32-bit words (log entry 57), the manual cycle
count of READ GAUGE, which runs for VOLUME alone (log entry 10), the number 0 of the source NONE in READ TALLY (log entry 59),
and the deficits of READ SEND, not capped and 0 for rings 4 to 12 (log entries 61 and 62). -/
def Obligations.ReadsReturnRecords : Prop :=
  ∀ (c : Caller) (s : State),
    let h := s.hub
    let g := s.hub.arrive c.env
    let may := fun k : Fin 16 => h.hasStream c.port k.val = true
    let done := fun (code : Byte) (data : Bytes) => s.became (g.answer c code .done data)
    let refused := fun (code : Byte) (o : Answer) => s.became (g.answer c code o [])
    let word := fun w : Word => le 4 w.toNat
    let word? := fun w : Option Word => optField 4 word w
    let gain := fun x : Gain => le 2 x.g ++ le 2 x.target ++ le 2 x.r
    (s.Serves c (some .time) none →
      let b := h.tb
      exec (.readTimebase c) s = done 0x14
        (le 1 b.rate.code ++ flagByte b.ratePending ++ flagByte b.external ++ le 1 (refStateCode b.ref) ++ le 1 b.good ++
          word (if b.lastInterval < 4294967296 then BitVec.ofNat 32 b.lastInterval else Config.wideInterval b.lastInterval) ++
          word b.frame.serial ++ tc4 b.frame.tc ++ flagByte b.frame.tc.df ++ le 1 b.frame.phase ++ flagByte b.follow ++
          optField 4 tc4 b.jam ++ optField 4 tc4 b.reader)) ∧
    (s.Serves c (some .store) none →
      (∀ n : Byte, 16 ≤ n.toNat → exec (.readStream c n) s = refused 0x28 .badArg) ∧
      (∀ k : Fin 16, may k →
        let x := h.stream k
        exec (.readStream c (byte k.val)) s = done 0x28
          (le 1 (streamStateCode x.state) ++ flagByte x.discard ++ optPort x.setter ++ flagByte x.global ++
            word (h.ring k.castSucc).head ++ word x.releaseMark ++ word x.committed ++ word x.discarded ++ word x.lost ++
            word x.skipped ++ le 4 x.buffer.length ++ optPort x.builder)) ∧
      (∀ n : Byte, 17 ≤ n.toNat → exec (.readRing c n) s = refused 0x29 .badArg) ∧
      ((∃ k : Fin 16, 12 ≤ k.val ∧ ¬ may k) →
        exec (.readRing c 16) s = s.became (g.answer c 0x29 .denied (h.ports[c.port]).maskData)) ∧
      (∀ r : Fin 17, (∀ k : Fin 16, k.castSucc = r ∨ (r = 16 ∧ 12 ≤ k.val) → may k) →
        let x := h.ring r
        let tail := match x.index with
          | [] => x.head
          | e :: _ => if r = 16 then e.g.getD 0 else e.unit
        exec (.readRing c (byte r.val)) s = done 0x29
          (le 4 x.base ++ le 4 x.size ++ flagByte x.enabled ++ flagByte x.keep ++ word tail ++ word x.send ++ word x.head ++
            le 2 x.index.length ++ le 4 (8 * x.size - (x.index.map Entry.len).sum) ++ le 4 x.headOff ++ word x.corrected ++
            word x.damaged)) ∧
      ∀ (k : Fin 16) (u : Word), may k →
        let ring : Fin 17 := if (h.stream k).global then 16 else k.castSucc
        let found := (h.ring ring).index.find? fun y => y.stream = k ∧ y.unit = u
        (∀ y, found = some y → exec (.readUnit c (byte k.val) u) s = done 0x2A
          (le 1 y.stream.val ++ word y.unit ++ word? y.g ++ le 4 y.start ++ le 4 y.len ++ word y.serial ++ tc4 y.tc ++
            flagByte y.flags.repeated ++ flagByte y.flags.black ++ flagByte y.flags.damaged ++ flagByte y.flags.inputError ++
            flagByte y.flags.sourceChange ++ flagByte y.flags.tcJump)) ∧
        (found = none → exec (.readUnit c (byte k.val) u) s =
          refused 0x2A (if (u - (h.ring k.castSucc).head).toNat < 2147483648 then .notYet else .gone))) ∧
    (s.Serves c (some .code) none →
      (∀ n : Byte, 4 ≤ n.toNat → exec (.readInput c n) s = refused 0x33 .badArg ∧
        ((∀ k : Fin 16, k.val = n.toNat → may k) → exec (.readPicture c n) s = refused 0x34 .badArg)) ∧
      (∀ i : Fin 4,
        let x := h.inputs[i]
        let measured := fun m : Measured =>
          [match m.format with
            | some f => byte f.code
            | none => Config.otherFormatCode,
           match m.rate with
            | some r => byte r.code
            | none => Config.otherRateCode]
        exec (.readInput c (byte i.val)) s = done 0x33
          (le 1 x.expected.code ++ flagByte x.present ++ le 4 x.sinceLoss ++ word x.lineErrors ++ word x.losses ++
            optField 2 measured x.measured)) ∧
      ∀ k : Fin 4, may (pictureStream k) →
        let x := h.coders[k]
        let n := x.counts
        let pictures := x.flight.filter fun f => f.subst == none
        let picture := fun f : Flight =>
          word f.frame.serial ++ flagByte f.captured ++
            match f.coding with
            | none => [0] ++ zeros 9
            | some y => [1] ++ le 1 y.i ++ le 4 y.b ++ le 4 y.cPic
        exec (.readPicture c (byte k.val)) s = done 0x34
          (le 1 x.source.val ++ le 1 x.format.code ++ flagByte x.fixed ++ le 4 x.rFix ++ le 4 x.rMin ++ le 4 x.rMax ++
            le 1 x.weight ++ le 1 x.bf ++ le 1 h.engineLoad ++ flagByte x.built ++ le 4 x.rate ++ le 4 x.target ++
            le 4 x.size ++ le 4 x.fullness ++ le 1 x.q ++ le 1 x.remembered.val ++ flagByte x.sourceChange ++
            le 1 pictures.length ++ pictures.flatMap picture ++ word n.captured ++ word n.completed ++ word n.ceiling ++
            word n.late ++ word n.tooLarge ++ word n.aborted ++ word n.discarded ++ word n.repeats ++ word n.blacks ++
            word n.undershoots)) ∧
    (s.Serves c (some .mix) none →
      (∀ n : Byte, (64 ≤ n.toNat → exec (.readChannel c n) s = refused 0x45 .badArg) ∧
        (16 ≤ n.toNat → exec (.readBus c n) s = refused 0x46 .badArg)) ∧
      (∀ n : Fin 64,
        let x := h.mixer.channels[n]
        exec (.readChannel c (byte n.val)) s = done 0x45
          (le 2 x.delay ++ optField 2 (le 2) x.pendingDelay ++ optField 1 (le 1) x.muteEnd ++ flagByte x.inverted ++
            flagByte x.valid ++ word x.invalid ++ x.gains.toList.flatMap gain)) ∧
      ∀ (k : Fin 16) (j : Fin 8), j.val = k.val / 2 →
        let x := h.mixer.buses[k]
        let y := h.mixer.packs[j]
        exec (.readBus c (byte k.val)) s = done 0x46
          (gain x.master ++ le 4 x.peak ++ le 2 x.overloads ++ le 4 x.lastPeak ++ le 2 x.lastOverloads ++ le 4 x.threshold ++
            le 1 x.silenceFrames ++ le 2 x.run ++ flagByte x.silent ++ word x.overloadFrames ++ flagByte x.inputError ++
            le 1 (packStateCode y.state) ++ word? (if y.state = .idle then none else some y.serial) ++ word y.offered ++
            word y.voided)) ∧
    (s.Serves c (some .link) none →
      (∀ n : Byte, (8 ≤ n.toNat → exec (.readPath c n) s = refused 0x58 .badArg) ∧
        (17 ≤ n.toNat → exec (.readSend c n) s = refused 0x5A .badArg)) ∧
      (∀ p : Fin 8,
        let x := h.paths.path[p]
        let n := x.counts
        exec (.readPath c (byte p.val)) s = done 0x58
          (flagByte x.enabled ++ le 1 x.pauseLimit ++ le 2 x.lineRate ++ le 1 (pathStateCode x.state) ++
            le 1 (downReasonCode x.reason) ++ flagByte (x.lines.getLsbD 0) ++ flagByte (x.lines.getLsbD 1) ++
            flagByte (x.lines.getLsbD 2) ++ flagByte (x.lines.getLsbD 3) ++ flagByte x.change ++ flagByte x.loss ++
            le 1 x.pauseCount ++ flagByte x.timeoutMark ++ optPort x.holder ++ le 1 x.resetCount ++ flagByte x.releaseDue ++
            le 1 x.fifo.length ++ word x.seq ++ word? x.baseline ++ word n.placed ++ word n.sent ++ word n.bytes ++
            word n.lostInFlight ++ word n.framing ++ word n.breaks ++ word n.reports ++ word n.stale ++ word n.bad)) ∧
      exec (.readSpread c) s = done 0x59
        (le 1 h.paths.spread.toNat ++ le 1 h.paths.directed.length ++
          (h.paths.directed.flatMap fun d => le 1 d.1.val ++ le 1 d.2.toNat) ++
          h.paths.bonds.toList.flatMap fun b => flagByte b.setting ++ flagByte b.inForce ++ flagByte b.odd) ∧
      ∀ r : Fin 17,
        let x := h.paths.sends[r]
        let unit := fun y : Taken =>
          le 1 y.stream.val ++ word y.unit ++ word? y.g ++ le 2 ((y.bytes.length + 1199) / 1200) ++ le 2 y.next
        let arbiter := fun p : Fin 8 =>
          let a := h.paths.arbiters[p]
          le 1 a.last0.val ++ optField 1 (fun q : Fin 17 => le 1 q.val) a.cur1
        exec (.readSend c (byte r.val)) s = done 0x5A
          (optField 14 unit x.taken ++ flagByte (h.backlogged r) ++ word x.sent ++ word x.passedDamaged ++
            ((List.finRange 8).flatMap fun p =>
              let d := (h.paths.arbiters[p]).deficits[r]
              word (if d < 4294967296 then BitVec.ofNat 32 d else Config.wideDeficit d)) ++
            (List.finRange 8).flatMap arbiter)) ∧
    (s.Serves c (some .gauge) none →
      (∀ n : Byte, 8 ≤ n.toNat → exec (.readGauge c n) s = refused 0x62 .badArg) ∧
      (∀ p : Fin 8,
        let x := h.gauges.path[p]
        let now := h.now + c.env.dt
        let count := if x.phase = .step2 then min (4 * x.g) (now - x.from2) else x.count2
        let cycles := if x.manual = .running ∧ x.volume = true then min 4294967295 (now - x.manualFrom) else x.manualCount
        let shown := fun n : Nat => if (h.paths.path[p]).state = .reset then 4294967295 else n
        exec (.readGauge c (byte p.val)) s = done 0x62
          (flagByte h.gauges.auto ++ le 1 h.gauges.window ++ le 1 (autoPhaseCode x.phase) ++ le 4 x.g ++ le 1 x.remaining ++
            le 8 x.sum ++ le 8 x.v0 ++ le 4 count ++ le 8 (shown x.lastV0) ++ le 4 (shown x.lastT1) ++ le 4 (shown x.c) ++
            le 2 (if (h.paths.path[p]).state = .reset then 65535 else x.s) ++ le 4 (shown x.e) ++ word x.completed ++
            word x.aborted ++ le 1 (manualStateCode x.manual) ++ flagByte x.volume ++ le 4 x.gate ++ le 8 x.manualSum ++
            le 4 cycles ++ optField 5 (fun y : Bool × Word => le 4 (shown y.2.toNat) ++ flagByte y.1) x.result)) ∧
      let b := h.budget
      let picture := fun x : PictureBudget =>
        le 4 x.assigned ++ flagByte x.counted ++ optField 8 (le 8) x.share ++ flagByte x.starved
      exec (.readBudget c) s = done 0x64
        (flagByte b.fixedSource ++ le 8 b.fixedCapacity ++ le 2 b.headroom ++ b.reserves.toList.flatMap (le 4) ++
          le 8 b.kBits ++ le 8 b.u ++ le 8 b.u' ++ le 8 b.soundReserve ++ le 8 b.otherReserve ++ le 8 b.fixedTotal ++
          le 8 b.pool ++ flagByte b.overdrawn ++ b.pictures.toList.flatMap picture ++ word b.recomputations)) ∧
    (s.Serves c (some .log) none →
      (∀ n : Word,
        let unknown := n = 0 ∨ h.log.nextClip ≤ n.toNat
        let found := h.log.clips.find? fun y => y.number = n
        (unknown → exec (.readClip c n) s = refused 0x79 .badArg) ∧
        (¬ unknown → found = none → exec (.readClip c n) s = refused 0x79 .gone) ∧
        ∀ y : Clip, ¬ unknown → found = some y →
          let streams := (List.finRange 16).filter fun k => y.mask.getLsbD k.val
          let tc := fun x : Option Timecode => (x.map tc4).getD (zeros 4)
          let stream := fun k : Fin 16 =>
            le 1 k.val ++
              le 1 ((y.starts[k]).isSome.toNat + 2 * (y.running[k]).isSome.toNat + 4 * (y.ends[k]).isSome.toNat) ++ zeros 2 ++
              word ((y.starts[k]).getD 0) ++ word ((y.running[k]).getD 0) ++ word ((y.ends[k]).getD 0)
          exec (.readClip c n) s = done 0x79
            (word y.number ++ le 1 (clipStateCode y.state) ++
              le 1 (match y.owner with
                | .port p => p.val
                | .trigger q => 4 + q.val
                | .none => 8) ++
              le 1 (match y.reason with
                | none => 0
                | some r => endReasonCode r + 1) ++
              le 1 (y.damaged.toNat + 2 * y.overloadSeen.toNat + 4 * y.tcJump.toNat + 8 * y.truncated.toNat +
                16 * y.limitDue.toNat) ++
              le 2 y.mask.toNat ++ le 2 y.passed.toNat ++
              le 1 (y.startTc.isSome.toNat + 2 * y.endSerial.isSome.toNat + 4 * y.endTc.isSome.toNat) ++
              le 1 y.name.length ++ le 1 y.labels.length ++ le 1 streams.length ++ word y.startSerial ++ tc y.startTc ++
              word (y.endSerial.getD 0) ++ tc y.endTc ++ (y.name ++ zeros 64).take 64 ++ streams.flatMap stream ++
              y.labels.flatMap word)) ∧
      (∀ (first : Word) (count : Byte),
        let oldest := (h.log.labels.head?.map Label.number).getD h.log.nextLabel
        let bad := count = 0 ∨ 8 < count.toNat
        let late := (first - h.log.nextLabel).toNat < 2147483648
        let early := 2147483648 ≤ (first - oldest).toNat
        let labels := (h.log.labels.drop (first - oldest).toNat).take count.toNat
        let label := fun x : Label =>
          word x.number ++ le 1 x.kind.code ++ le 1 x.source.code ++ flagByte x.value.isSome ++ le 1 x.text.length ++
            word x.serial ++ tc4 x.tc ++ word (x.value.getD 0) ++ (x.text ++ zeros 64).take 64
        (bad → exec (.readLabels c first count) s = refused 0x7A .badArg) ∧
        (¬ bad → late → exec (.readLabels c first count) s = refused 0x7A .notYet) ∧
        (¬ bad → ¬ late → early → exec (.readLabels c first count) s = refused 0x7A .gone) ∧
        (¬ bad → ¬ late → ¬ early → exec (.readLabels c first count) s =
          done 0x7A (le 1 labels.length ++ labels.flatMap label))) ∧
      let l := h.log
      let trigger := fun x : Trigger =>
        optField 1 (fun k : LabelKind => le 1 k.code) x.kind ++ le 1 ((x.source.map LabelSource.code).getD 255) ++
          word x.pattern ++ word x.mask ++
          (match x.action with
            | .start mask => [0] ++ le 2 mask.toNat
            | .stop q => [1] ++ le 1 q.val) ++
          flagByte x.auto ++ le 1 (triggerStateCode x.state) ++ word x.fires ++ word x.ignored ++ word x.misses
      exec (.readLog c) s = done 0x7B
        (word (if l.nextClip < 4294967296 then BitVec.ofNat 32 l.nextClip else Config.spentClips) ++ le 2 l.clips.length ++
          le 1 (l.clips.filter fun x : Clip => x.state = .opened ∨ x.state = .closing).length ++ le 2 l.clips.length ++
          (l.clips.flatMap fun x : Clip => word x.number) ++
          word ((l.labels.head?.map Label.number).getD l.nextLabel) ++ word l.nextLabel ++ word l.filed ++ word l.ignored ++
          word l.removed ++ word l.lapses ++ flagByte (!l.supply) ++ (l.selection.toList.flatMap fun b => flagByte (!b)) ++
          l.triggers.toList.flatMap trigger)) ∧
    (s.Serves c (some .tally) none →
      exec (.readTally c) s = done 0x82
        ((h.tally.entries.toList.flatMap fun x : TallyEntry =>
            tallySourceBytes x.source ++ le 1 (overrideCode x.override) ++ optPort x.holder ++ le 1 (lampCode x.lamp) ++
              le 1 (lampCode x.shown)) ++
          h.tally.flash.toList.flatMap (le 1) ++ h.tally.sent.toList.flatMap flagByte)) ∧
    (s.Serves c (some .rights) none →
      exec (.readRights c) s = done 0x91
        (flagByte (h.strap.getLsbD 2) ++ le 1 (h.strap.toNat / 8 % 16) ++
          h.ports.toList.flatMap fun x => le 2 x.classes.toNat ++ le 2 x.streams.toNat)) ∧
    (s.Serves c (some .notice) none →
      let n := h.notices[c.port]
      exec (.readNotices c) s = done 0xA3
        (le 1 n.queue.length ++ le 1 (n.queue.filter fun x => x.kind.isPart = false).length ++
          le 1 (n.queue.filter fun x => x.kind.isPart = true).length ++ word n.mask ++ word n.lost ++ le 1 n.mode.code ++
          (if n.line then [0] else [1]) ++ le 1 n.owed)) ∧
    (s.Serves c (some .part) none →
      exec (.readPart c) s = done 0xB1
        (le 2 0x4D4E ++ le 2 0x7240 ++ le 1 1 ++ le 2 h.strap.toNat ++ le 1 (h.strap.toNat / 4096) ++
          le 1 (h.strap.toNat % 4) ++
          h.ports.toList.flatMap fun x =>
            (if x.present then [0] else [1]) ++ (if x.expectOdd then [1] else [0]) ++ le 1 x.timer ++ le 1 x.queue.length ++
              le 1 x.fullList.length ++ word x.counts.takenIn ++ word x.counts.bad ++ word x.counts.overrun ++
              word x.counts.answered ++ word x.counts.full ++ word x.counts.denied ++ word x.counts.absent ++
              word x.counts.wrongPhase ++ word x.counts.pairs ++ word x.counts.absences))

/-! ### What every step keeps -/

/-- R31, R34, R36, R37: a step keeps the memory in its canonical form, and no ring holds more than 1024 units or its sectors;
and it keeps every ring in order: tail, send pointer and head, the consecutive numbers of its index, its units back to back,
and the release marks within ring G. -/
def Obligations.StoreStaysInForm : Prop :=
  ∀ s t : State, s.hub.MemoryOk → s.hub.RingsFit → step s = .next t →
    t.hub.MemoryOk ∧ t.hub.RingsFit ∧ (s.hub.RingsOrdered → t.hub.RingsOrdered)

/-- R89, R103: a step leaves every path in the state that Table 38 gives for its fields, and no FIFO holds more than 64
packets, or any packet on a path that is neither UP nor PAUSED. -/
def Obligations.PathsStayEvaluated : Prop :=
  ∀ s t : State, s.hub.PathsEvaluated → s.hub.FifosFit → step s = .next t → t.hub.PathsEvaluated ∧ t.hub.FifosFit

/-- R179: no port in state ABSENT is the owner of an OPEN clip, the holder of a path reset, the setter of a stream hold, or
the holder of a tally override, and none builds an insert buffer: a step from such a state leads to such a state. -/
def Obligations.AbsentPortsHoldNothing : Prop :=
  ∀ s t : State, s.hub.AbsentHoldNothing → step s = .next t → t.hub.AbsentHoldNothing

/-- R39, R53, R55 to R58, R134, R135, R144, R169, R174, R185, R186, R190: a step keeps every list and load within its bound, the
RIGHTS class as the editor mask has it, SUPPLY_WARN in every mask, every virtual buffer within B, and the clips in rising
order of numbers that have been given. -/
def Obligations.BoundsAreKept : Prop :=
  ∀ s t : State, step s = .next t →
    (s.hub.ListsFit → t.hub.ListsFit) ∧ (s.hub.FixedRights → t.hub.FixedRights) ∧ (s.hub.EnginesFit → t.hub.EnginesFit) ∧
      (s.hub.BuffersFit → t.hub.BuffersFit) ∧ (s.hub.ClipsOrdered → t.hub.ClipsOrdered)

/-- The state after reset has every property that the steps keep. -/
def Obligations.ResetIsSound : Prop :=
  State.reset.hub.MemoryOk ∧ State.reset.hub.RingsFit ∧ State.reset.hub.RingsOrdered ∧ State.reset.hub.PathsEvaluated ∧ State.reset.hub.FifosFit ∧
    State.reset.hub.AbsentHoldNothing ∧ State.reset.hub.ListsFit ∧ State.reset.hub.FixedRights ∧
    State.reset.hub.EnginesFit ∧ State.reset.hub.BuffersFit ∧ State.reset.hub.ClipsOrdered
end

