-- ==== Sys2Proof/Laws/State.lean ====
section
/-! SUPPORT. One lemma for each field and each update of the hub: an update of one table changes that table alone, and an
entry of the table that is read back is the one written.  Tagged simp, so that no proof unfolds a record update. -/

namespace Sys2Proof.Machine

variable (h : Hub)

/-! ### modStream -/

@[simp] theorem Hub.modStream_now (k : Fin 16) (f : Stream → Stream) : (h.modStream k f).now = h.now := rfl
@[simp] theorem Hub.modStream_env (k : Fin 16) (f : Stream → Stream) : (h.modStream k f).env = h.env := rfl
@[simp] theorem Hub.modStream_strap (k : Fin 16) (f : Stream → Stream) : (h.modStream k f).strap = h.strap := rfl
@[simp] theorem Hub.modStream_tb (k : Fin 16) (f : Stream → Stream) : (h.modStream k f).tb = h.tb := rfl
@[simp] theorem Hub.modStream_inputs (k : Fin 16) (f : Stream → Stream) : (h.modStream k f).inputs = h.inputs := rfl
@[simp] theorem Hub.modStream_coders (k : Fin 16) (f : Stream → Stream) : (h.modStream k f).coders = h.coders := rfl
@[simp] theorem Hub.modStream_mixer (k : Fin 16) (f : Stream → Stream) : (h.modStream k f).mixer = h.mixer := rfl
@[simp] theorem Hub.modStream_paths (k : Fin 16) (f : Stream → Stream) : (h.modStream k f).paths = h.paths := rfl
@[simp] theorem Hub.modStream_gauges (k : Fin 16) (f : Stream → Stream) : (h.modStream k f).gauges = h.gauges := rfl
@[simp] theorem Hub.modStream_budget (k : Fin 16) (f : Stream → Stream) : (h.modStream k f).budget = h.budget := rfl
@[simp] theorem Hub.modStream_log (k : Fin 16) (f : Stream → Stream) : (h.modStream k f).log = h.log := rfl
@[simp] theorem Hub.modStream_tally (k : Fin 16) (f : Stream → Stream) : (h.modStream k f).tally = h.tally := rfl
@[simp] theorem Hub.modStream_ports (k : Fin 16) (f : Stream → Stream) : (h.modStream k f).ports = h.ports := rfl
@[simp] theorem Hub.modStream_notices (k : Fin 16) (f : Stream → Stream) : (h.modStream k f).notices = h.notices := rfl
@[simp] theorem Hub.modStream_store_rings (k : Fin 16) (f : Stream → Stream) : (h.modStream k f).store.rings = h.store.rings := rfl
@[simp] theorem Hub.modStream_store_mem (k : Fin 16) (f : Stream → Stream) : (h.modStream k f).store.mem = h.store.mem := rfl
@[simp] theorem Hub.modStream_ring (k : Fin 16) (f : Stream → Stream) (m : Fin 17) : (h.modStream k f).ring m = h.ring m := rfl

/-! ### modRing -/

@[simp] theorem Hub.modRing_now (r : Fin 17) (f : Ring → Ring) : (h.modRing r f).now = h.now := rfl
@[simp] theorem Hub.modRing_env (r : Fin 17) (f : Ring → Ring) : (h.modRing r f).env = h.env := rfl
@[simp] theorem Hub.modRing_strap (r : Fin 17) (f : Ring → Ring) : (h.modRing r f).strap = h.strap := rfl
@[simp] theorem Hub.modRing_tb (r : Fin 17) (f : Ring → Ring) : (h.modRing r f).tb = h.tb := rfl
@[simp] theorem Hub.modRing_inputs (r : Fin 17) (f : Ring → Ring) : (h.modRing r f).inputs = h.inputs := rfl
@[simp] theorem Hub.modRing_coders (r : Fin 17) (f : Ring → Ring) : (h.modRing r f).coders = h.coders := rfl
@[simp] theorem Hub.modRing_mixer (r : Fin 17) (f : Ring → Ring) : (h.modRing r f).mixer = h.mixer := rfl
@[simp] theorem Hub.modRing_paths (r : Fin 17) (f : Ring → Ring) : (h.modRing r f).paths = h.paths := rfl
@[simp] theorem Hub.modRing_gauges (r : Fin 17) (f : Ring → Ring) : (h.modRing r f).gauges = h.gauges := rfl
@[simp] theorem Hub.modRing_budget (r : Fin 17) (f : Ring → Ring) : (h.modRing r f).budget = h.budget := rfl
@[simp] theorem Hub.modRing_log (r : Fin 17) (f : Ring → Ring) : (h.modRing r f).log = h.log := rfl
@[simp] theorem Hub.modRing_tally (r : Fin 17) (f : Ring → Ring) : (h.modRing r f).tally = h.tally := rfl
@[simp] theorem Hub.modRing_ports (r : Fin 17) (f : Ring → Ring) : (h.modRing r f).ports = h.ports := rfl
@[simp] theorem Hub.modRing_notices (r : Fin 17) (f : Ring → Ring) : (h.modRing r f).notices = h.notices := rfl
@[simp] theorem Hub.modRing_store_streams (r : Fin 17) (f : Ring → Ring) : (h.modRing r f).store.streams = h.store.streams := rfl
@[simp] theorem Hub.modRing_store_mem (r : Fin 17) (f : Ring → Ring) : (h.modRing r f).store.mem = h.store.mem := rfl
@[simp] theorem Hub.modRing_stream (r : Fin 17) (f : Ring → Ring) (m : Fin 16) : (h.modRing r f).stream m = h.stream m := rfl

/-! ### modCoder -/

@[simp] theorem Hub.modCoder_now (k : Fin 4) (f : Coder → Coder) : (h.modCoder k f).now = h.now := rfl
@[simp] theorem Hub.modCoder_env (k : Fin 4) (f : Coder → Coder) : (h.modCoder k f).env = h.env := rfl
@[simp] theorem Hub.modCoder_strap (k : Fin 4) (f : Coder → Coder) : (h.modCoder k f).strap = h.strap := rfl
@[simp] theorem Hub.modCoder_tb (k : Fin 4) (f : Coder → Coder) : (h.modCoder k f).tb = h.tb := rfl
@[simp] theorem Hub.modCoder_store (k : Fin 4) (f : Coder → Coder) : (h.modCoder k f).store = h.store := rfl
@[simp] theorem Hub.modCoder_inputs (k : Fin 4) (f : Coder → Coder) : (h.modCoder k f).inputs = h.inputs := rfl
@[simp] theorem Hub.modCoder_mixer (k : Fin 4) (f : Coder → Coder) : (h.modCoder k f).mixer = h.mixer := rfl
@[simp] theorem Hub.modCoder_paths (k : Fin 4) (f : Coder → Coder) : (h.modCoder k f).paths = h.paths := rfl
@[simp] theorem Hub.modCoder_gauges (k : Fin 4) (f : Coder → Coder) : (h.modCoder k f).gauges = h.gauges := rfl
@[simp] theorem Hub.modCoder_budget (k : Fin 4) (f : Coder → Coder) : (h.modCoder k f).budget = h.budget := rfl
@[simp] theorem Hub.modCoder_log (k : Fin 4) (f : Coder → Coder) : (h.modCoder k f).log = h.log := rfl
@[simp] theorem Hub.modCoder_tally (k : Fin 4) (f : Coder → Coder) : (h.modCoder k f).tally = h.tally := rfl
@[simp] theorem Hub.modCoder_ports (k : Fin 4) (f : Coder → Coder) : (h.modCoder k f).ports = h.ports := rfl
@[simp] theorem Hub.modCoder_notices (k : Fin 4) (f : Coder → Coder) : (h.modCoder k f).notices = h.notices := rfl
@[simp] theorem Hub.modCoder_stream (k : Fin 4) (f : Coder → Coder) (m : Fin 16) : (h.modCoder k f).stream m = h.stream m := rfl
@[simp] theorem Hub.modCoder_ring (k : Fin 4) (f : Coder → Coder) (m : Fin 17) : (h.modCoder k f).ring m = h.ring m := rfl

/-! ### modInput -/

@[simp] theorem Hub.modInput_now (i : Fin 4) (f : VideoInput → VideoInput) : (h.modInput i f).now = h.now := rfl
@[simp] theorem Hub.modInput_env (i : Fin 4) (f : VideoInput → VideoInput) : (h.modInput i f).env = h.env := rfl
@[simp] theorem Hub.modInput_strap (i : Fin 4) (f : VideoInput → VideoInput) : (h.modInput i f).strap = h.strap := rfl
@[simp] theorem Hub.modInput_tb (i : Fin 4) (f : VideoInput → VideoInput) : (h.modInput i f).tb = h.tb := rfl
@[simp] theorem Hub.modInput_store (i : Fin 4) (f : VideoInput → VideoInput) : (h.modInput i f).store = h.store := rfl
@[simp] theorem Hub.modInput_coders (i : Fin 4) (f : VideoInput → VideoInput) : (h.modInput i f).coders = h.coders := rfl
@[simp] theorem Hub.modInput_mixer (i : Fin 4) (f : VideoInput → VideoInput) : (h.modInput i f).mixer = h.mixer := rfl
@[simp] theorem Hub.modInput_paths (i : Fin 4) (f : VideoInput → VideoInput) : (h.modInput i f).paths = h.paths := rfl
@[simp] theorem Hub.modInput_gauges (i : Fin 4) (f : VideoInput → VideoInput) : (h.modInput i f).gauges = h.gauges := rfl
@[simp] theorem Hub.modInput_budget (i : Fin 4) (f : VideoInput → VideoInput) : (h.modInput i f).budget = h.budget := rfl
@[simp] theorem Hub.modInput_log (i : Fin 4) (f : VideoInput → VideoInput) : (h.modInput i f).log = h.log := rfl
@[simp] theorem Hub.modInput_tally (i : Fin 4) (f : VideoInput → VideoInput) : (h.modInput i f).tally = h.tally := rfl
@[simp] theorem Hub.modInput_ports (i : Fin 4) (f : VideoInput → VideoInput) : (h.modInput i f).ports = h.ports := rfl
@[simp] theorem Hub.modInput_notices (i : Fin 4) (f : VideoInput → VideoInput) : (h.modInput i f).notices = h.notices := rfl
@[simp] theorem Hub.modInput_stream (i : Fin 4) (f : VideoInput → VideoInput) (m : Fin 16) : (h.modInput i f).stream m = h.stream m := rfl
@[simp] theorem Hub.modInput_ring (i : Fin 4) (f : VideoInput → VideoInput) (m : Fin 17) : (h.modInput i f).ring m = h.ring m := rfl

/-! ### modPath -/

@[simp] theorem Hub.modPath_now (p : Fin 8) (f : Path → Path) : (h.modPath p f).now = h.now := rfl
@[simp] theorem Hub.modPath_env (p : Fin 8) (f : Path → Path) : (h.modPath p f).env = h.env := rfl
@[simp] theorem Hub.modPath_strap (p : Fin 8) (f : Path → Path) : (h.modPath p f).strap = h.strap := rfl
@[simp] theorem Hub.modPath_tb (p : Fin 8) (f : Path → Path) : (h.modPath p f).tb = h.tb := rfl
@[simp] theorem Hub.modPath_store (p : Fin 8) (f : Path → Path) : (h.modPath p f).store = h.store := rfl
@[simp] theorem Hub.modPath_inputs (p : Fin 8) (f : Path → Path) : (h.modPath p f).inputs = h.inputs := rfl
@[simp] theorem Hub.modPath_coders (p : Fin 8) (f : Path → Path) : (h.modPath p f).coders = h.coders := rfl
@[simp] theorem Hub.modPath_mixer (p : Fin 8) (f : Path → Path) : (h.modPath p f).mixer = h.mixer := rfl
@[simp] theorem Hub.modPath_gauges (p : Fin 8) (f : Path → Path) : (h.modPath p f).gauges = h.gauges := rfl
@[simp] theorem Hub.modPath_budget (p : Fin 8) (f : Path → Path) : (h.modPath p f).budget = h.budget := rfl
@[simp] theorem Hub.modPath_log (p : Fin 8) (f : Path → Path) : (h.modPath p f).log = h.log := rfl
@[simp] theorem Hub.modPath_tally (p : Fin 8) (f : Path → Path) : (h.modPath p f).tally = h.tally := rfl
@[simp] theorem Hub.modPath_ports (p : Fin 8) (f : Path → Path) : (h.modPath p f).ports = h.ports := rfl
@[simp] theorem Hub.modPath_notices (p : Fin 8) (f : Path → Path) : (h.modPath p f).notices = h.notices := rfl
@[simp] theorem Hub.modPath_paths_spread (p : Fin 8) (f : Path → Path) : (h.modPath p f).paths.spread = h.paths.spread := rfl
@[simp] theorem Hub.modPath_paths_directed (p : Fin 8) (f : Path → Path) : (h.modPath p f).paths.directed = h.paths.directed := rfl
@[simp] theorem Hub.modPath_paths_bonds (p : Fin 8) (f : Path → Path) : (h.modPath p f).paths.bonds = h.paths.bonds := rfl
@[simp] theorem Hub.modPath_paths_sends (p : Fin 8) (f : Path → Path) : (h.modPath p f).paths.sends = h.paths.sends := rfl
@[simp] theorem Hub.modPath_paths_arbiters (p : Fin 8) (f : Path → Path) : (h.modPath p f).paths.arbiters = h.paths.arbiters := rfl
@[simp] theorem Hub.modPath_stream (p : Fin 8) (f : Path → Path) (m : Fin 16) : (h.modPath p f).stream m = h.stream m := rfl
@[simp] theorem Hub.modPath_ring (p : Fin 8) (f : Path → Path) (m : Fin 17) : (h.modPath p f).ring m = h.ring m := rfl

/-! ### modSend -/

@[simp] theorem Hub.modSend_now (r : Fin 17) (f : SendContext → SendContext) : (h.modSend r f).now = h.now := rfl
@[simp] theorem Hub.modSend_env (r : Fin 17) (f : SendContext → SendContext) : (h.modSend r f).env = h.env := rfl
@[simp] theorem Hub.modSend_strap (r : Fin 17) (f : SendContext → SendContext) : (h.modSend r f).strap = h.strap := rfl
@[simp] theorem Hub.modSend_tb (r : Fin 17) (f : SendContext → SendContext) : (h.modSend r f).tb = h.tb := rfl
@[simp] theorem Hub.modSend_store (r : Fin 17) (f : SendContext → SendContext) : (h.modSend r f).store = h.store := rfl
@[simp] theorem Hub.modSend_inputs (r : Fin 17) (f : SendContext → SendContext) : (h.modSend r f).inputs = h.inputs := rfl
@[simp] theorem Hub.modSend_coders (r : Fin 17) (f : SendContext → SendContext) : (h.modSend r f).coders = h.coders := rfl
@[simp] theorem Hub.modSend_mixer (r : Fin 17) (f : SendContext → SendContext) : (h.modSend r f).mixer = h.mixer := rfl
@[simp] theorem Hub.modSend_gauges (r : Fin 17) (f : SendContext → SendContext) : (h.modSend r f).gauges = h.gauges := rfl
@[simp] theorem Hub.modSend_budget (r : Fin 17) (f : SendContext → SendContext) : (h.modSend r f).budget = h.budget := rfl
@[simp] theorem Hub.modSend_log (r : Fin 17) (f : SendContext → SendContext) : (h.modSend r f).log = h.log := rfl
@[simp] theorem Hub.modSend_tally (r : Fin 17) (f : SendContext → SendContext) : (h.modSend r f).tally = h.tally := rfl
@[simp] theorem Hub.modSend_ports (r : Fin 17) (f : SendContext → SendContext) : (h.modSend r f).ports = h.ports := rfl
@[simp] theorem Hub.modSend_notices (r : Fin 17) (f : SendContext → SendContext) : (h.modSend r f).notices = h.notices := rfl
@[simp] theorem Hub.modSend_paths_path (r : Fin 17) (f : SendContext → SendContext) : (h.modSend r f).paths.path = h.paths.path := rfl
@[simp] theorem Hub.modSend_paths_spread (r : Fin 17) (f : SendContext → SendContext) : (h.modSend r f).paths.spread = h.paths.spread := rfl
@[simp] theorem Hub.modSend_paths_directed (r : Fin 17) (f : SendContext → SendContext) : (h.modSend r f).paths.directed = h.paths.directed := rfl
@[simp] theorem Hub.modSend_paths_bonds (r : Fin 17) (f : SendContext → SendContext) : (h.modSend r f).paths.bonds = h.paths.bonds := rfl
@[simp] theorem Hub.modSend_paths_arbiters (r : Fin 17) (f : SendContext → SendContext) : (h.modSend r f).paths.arbiters = h.paths.arbiters := rfl
@[simp] theorem Hub.modSend_stream (r : Fin 17) (f : SendContext → SendContext) (m : Fin 16) : (h.modSend r f).stream m = h.stream m := rfl
@[simp] theorem Hub.modSend_ring (r : Fin 17) (f : SendContext → SendContext) (m : Fin 17) : (h.modSend r f).ring m = h.ring m := rfl

/-! ### modArbiter -/

@[simp] theorem Hub.modArbiter_now (p : Fin 8) (f : Arbiter → Arbiter) : (h.modArbiter p f).now = h.now := rfl
@[simp] theorem Hub.modArbiter_env (p : Fin 8) (f : Arbiter → Arbiter) : (h.modArbiter p f).env = h.env := rfl
@[simp] theorem Hub.modArbiter_strap (p : Fin 8) (f : Arbiter → Arbiter) : (h.modArbiter p f).strap = h.strap := rfl
@[simp] theorem Hub.modArbiter_tb (p : Fin 8) (f : Arbiter → Arbiter) : (h.modArbiter p f).tb = h.tb := rfl
@[simp] theorem Hub.modArbiter_store (p : Fin 8) (f : Arbiter → Arbiter) : (h.modArbiter p f).store = h.store := rfl
@[simp] theorem Hub.modArbiter_inputs (p : Fin 8) (f : Arbiter → Arbiter) : (h.modArbiter p f).inputs = h.inputs := rfl
@[simp] theorem Hub.modArbiter_coders (p : Fin 8) (f : Arbiter → Arbiter) : (h.modArbiter p f).coders = h.coders := rfl
@[simp] theorem Hub.modArbiter_mixer (p : Fin 8) (f : Arbiter → Arbiter) : (h.modArbiter p f).mixer = h.mixer := rfl
@[simp] theorem Hub.modArbiter_gauges (p : Fin 8) (f : Arbiter → Arbiter) : (h.modArbiter p f).gauges = h.gauges := rfl
@[simp] theorem Hub.modArbiter_budget (p : Fin 8) (f : Arbiter → Arbiter) : (h.modArbiter p f).budget = h.budget := rfl
@[simp] theorem Hub.modArbiter_log (p : Fin 8) (f : Arbiter → Arbiter) : (h.modArbiter p f).log = h.log := rfl
@[simp] theorem Hub.modArbiter_tally (p : Fin 8) (f : Arbiter → Arbiter) : (h.modArbiter p f).tally = h.tally := rfl
@[simp] theorem Hub.modArbiter_ports (p : Fin 8) (f : Arbiter → Arbiter) : (h.modArbiter p f).ports = h.ports := rfl
@[simp] theorem Hub.modArbiter_notices (p : Fin 8) (f : Arbiter → Arbiter) : (h.modArbiter p f).notices = h.notices := rfl
@[simp] theorem Hub.modArbiter_paths_path (p : Fin 8) (f : Arbiter → Arbiter) : (h.modArbiter p f).paths.path = h.paths.path := rfl
@[simp] theorem Hub.modArbiter_paths_spread (p : Fin 8) (f : Arbiter → Arbiter) : (h.modArbiter p f).paths.spread = h.paths.spread := rfl
@[simp] theorem Hub.modArbiter_paths_directed (p : Fin 8) (f : Arbiter → Arbiter) : (h.modArbiter p f).paths.directed = h.paths.directed := rfl
@[simp] theorem Hub.modArbiter_paths_bonds (p : Fin 8) (f : Arbiter → Arbiter) : (h.modArbiter p f).paths.bonds = h.paths.bonds := rfl
@[simp] theorem Hub.modArbiter_paths_sends (p : Fin 8) (f : Arbiter → Arbiter) : (h.modArbiter p f).paths.sends = h.paths.sends := rfl
@[simp] theorem Hub.modArbiter_stream (p : Fin 8) (f : Arbiter → Arbiter) (m : Fin 16) : (h.modArbiter p f).stream m = h.stream m := rfl
@[simp] theorem Hub.modArbiter_ring (p : Fin 8) (f : Arbiter → Arbiter) (m : Fin 17) : (h.modArbiter p f).ring m = h.ring m := rfl

/-! ### modBond -/

@[simp] theorem Hub.modBond_now (j : Fin 4) (f : Bond → Bond) : (h.modBond j f).now = h.now := rfl
@[simp] theorem Hub.modBond_env (j : Fin 4) (f : Bond → Bond) : (h.modBond j f).env = h.env := rfl
@[simp] theorem Hub.modBond_strap (j : Fin 4) (f : Bond → Bond) : (h.modBond j f).strap = h.strap := rfl
@[simp] theorem Hub.modBond_tb (j : Fin 4) (f : Bond → Bond) : (h.modBond j f).tb = h.tb := rfl
@[simp] theorem Hub.modBond_store (j : Fin 4) (f : Bond → Bond) : (h.modBond j f).store = h.store := rfl
@[simp] theorem Hub.modBond_inputs (j : Fin 4) (f : Bond → Bond) : (h.modBond j f).inputs = h.inputs := rfl
@[simp] theorem Hub.modBond_coders (j : Fin 4) (f : Bond → Bond) : (h.modBond j f).coders = h.coders := rfl
@[simp] theorem Hub.modBond_mixer (j : Fin 4) (f : Bond → Bond) : (h.modBond j f).mixer = h.mixer := rfl
@[simp] theorem Hub.modBond_gauges (j : Fin 4) (f : Bond → Bond) : (h.modBond j f).gauges = h.gauges := rfl
@[simp] theorem Hub.modBond_budget (j : Fin 4) (f : Bond → Bond) : (h.modBond j f).budget = h.budget := rfl
@[simp] theorem Hub.modBond_log (j : Fin 4) (f : Bond → Bond) : (h.modBond j f).log = h.log := rfl
@[simp] theorem Hub.modBond_tally (j : Fin 4) (f : Bond → Bond) : (h.modBond j f).tally = h.tally := rfl
@[simp] theorem Hub.modBond_ports (j : Fin 4) (f : Bond → Bond) : (h.modBond j f).ports = h.ports := rfl
@[simp] theorem Hub.modBond_notices (j : Fin 4) (f : Bond → Bond) : (h.modBond j f).notices = h.notices := rfl
@[simp] theorem Hub.modBond_paths_path (j : Fin 4) (f : Bond → Bond) : (h.modBond j f).paths.path = h.paths.path := rfl
@[simp] theorem Hub.modBond_paths_spread (j : Fin 4) (f : Bond → Bond) : (h.modBond j f).paths.spread = h.paths.spread := rfl
@[simp] theorem Hub.modBond_paths_directed (j : Fin 4) (f : Bond → Bond) : (h.modBond j f).paths.directed = h.paths.directed := rfl
@[simp] theorem Hub.modBond_paths_sends (j : Fin 4) (f : Bond → Bond) : (h.modBond j f).paths.sends = h.paths.sends := rfl
@[simp] theorem Hub.modBond_paths_arbiters (j : Fin 4) (f : Bond → Bond) : (h.modBond j f).paths.arbiters = h.paths.arbiters := rfl
@[simp] theorem Hub.modBond_stream (j : Fin 4) (f : Bond → Bond) (m : Fin 16) : (h.modBond j f).stream m = h.stream m := rfl
@[simp] theorem Hub.modBond_ring (j : Fin 4) (f : Bond → Bond) (m : Fin 17) : (h.modBond j f).ring m = h.ring m := rfl

/-! ### modGauge -/

@[simp] theorem Hub.modGauge_now (p : Fin 8) (f : Gauge → Gauge) : (h.modGauge p f).now = h.now := rfl
@[simp] theorem Hub.modGauge_env (p : Fin 8) (f : Gauge → Gauge) : (h.modGauge p f).env = h.env := rfl
@[simp] theorem Hub.modGauge_strap (p : Fin 8) (f : Gauge → Gauge) : (h.modGauge p f).strap = h.strap := rfl
@[simp] theorem Hub.modGauge_tb (p : Fin 8) (f : Gauge → Gauge) : (h.modGauge p f).tb = h.tb := rfl
@[simp] theorem Hub.modGauge_store (p : Fin 8) (f : Gauge → Gauge) : (h.modGauge p f).store = h.store := rfl
@[simp] theorem Hub.modGauge_inputs (p : Fin 8) (f : Gauge → Gauge) : (h.modGauge p f).inputs = h.inputs := rfl
@[simp] theorem Hub.modGauge_coders (p : Fin 8) (f : Gauge → Gauge) : (h.modGauge p f).coders = h.coders := rfl
@[simp] theorem Hub.modGauge_mixer (p : Fin 8) (f : Gauge → Gauge) : (h.modGauge p f).mixer = h.mixer := rfl
@[simp] theorem Hub.modGauge_paths (p : Fin 8) (f : Gauge → Gauge) : (h.modGauge p f).paths = h.paths := rfl
@[simp] theorem Hub.modGauge_budget (p : Fin 8) (f : Gauge → Gauge) : (h.modGauge p f).budget = h.budget := rfl
@[simp] theorem Hub.modGauge_log (p : Fin 8) (f : Gauge → Gauge) : (h.modGauge p f).log = h.log := rfl
@[simp] theorem Hub.modGauge_tally (p : Fin 8) (f : Gauge → Gauge) : (h.modGauge p f).tally = h.tally := rfl
@[simp] theorem Hub.modGauge_ports (p : Fin 8) (f : Gauge → Gauge) : (h.modGauge p f).ports = h.ports := rfl
@[simp] theorem Hub.modGauge_notices (p : Fin 8) (f : Gauge → Gauge) : (h.modGauge p f).notices = h.notices := rfl
@[simp] theorem Hub.modGauge_gauges_auto (p : Fin 8) (f : Gauge → Gauge) : (h.modGauge p f).gauges.auto = h.gauges.auto := rfl
@[simp] theorem Hub.modGauge_gauges_window (p : Fin 8) (f : Gauge → Gauge) : (h.modGauge p f).gauges.window = h.gauges.window := rfl
@[simp] theorem Hub.modGauge_stream (p : Fin 8) (f : Gauge → Gauge) (m : Fin 16) : (h.modGauge p f).stream m = h.stream m := rfl
@[simp] theorem Hub.modGauge_ring (p : Fin 8) (f : Gauge → Gauge) (m : Fin 17) : (h.modGauge p f).ring m = h.ring m := rfl

/-! ### modShare -/

@[simp] theorem Hub.modShare_now (k : Fin 4) (f : PictureBudget → PictureBudget) : (h.modShare k f).now = h.now := rfl
@[simp] theorem Hub.modShare_env (k : Fin 4) (f : PictureBudget → PictureBudget) : (h.modShare k f).env = h.env := rfl
@[simp] theorem Hub.modShare_strap (k : Fin 4) (f : PictureBudget → PictureBudget) : (h.modShare k f).strap = h.strap := rfl
@[simp] theorem Hub.modShare_tb (k : Fin 4) (f : PictureBudget → PictureBudget) : (h.modShare k f).tb = h.tb := rfl
@[simp] theorem Hub.modShare_store (k : Fin 4) (f : PictureBudget → PictureBudget) : (h.modShare k f).store = h.store := rfl
@[simp] theorem Hub.modShare_inputs (k : Fin 4) (f : PictureBudget → PictureBudget) : (h.modShare k f).inputs = h.inputs := rfl
@[simp] theorem Hub.modShare_coders (k : Fin 4) (f : PictureBudget → PictureBudget) : (h.modShare k f).coders = h.coders := rfl
@[simp] theorem Hub.modShare_mixer (k : Fin 4) (f : PictureBudget → PictureBudget) : (h.modShare k f).mixer = h.mixer := rfl
@[simp] theorem Hub.modShare_paths (k : Fin 4) (f : PictureBudget → PictureBudget) : (h.modShare k f).paths = h.paths := rfl
@[simp] theorem Hub.modShare_gauges (k : Fin 4) (f : PictureBudget → PictureBudget) : (h.modShare k f).gauges = h.gauges := rfl
@[simp] theorem Hub.modShare_log (k : Fin 4) (f : PictureBudget → PictureBudget) : (h.modShare k f).log = h.log := rfl
@[simp] theorem Hub.modShare_tally (k : Fin 4) (f : PictureBudget → PictureBudget) : (h.modShare k f).tally = h.tally := rfl
@[simp] theorem Hub.modShare_ports (k : Fin 4) (f : PictureBudget → PictureBudget) : (h.modShare k f).ports = h.ports := rfl
@[simp] theorem Hub.modShare_notices (k : Fin 4) (f : PictureBudget → PictureBudget) : (h.modShare k f).notices = h.notices := rfl
@[simp] theorem Hub.modShare_stream (k : Fin 4) (f : PictureBudget → PictureBudget) (m : Fin 16) : (h.modShare k f).stream m = h.stream m := rfl
@[simp] theorem Hub.modShare_ring (k : Fin 4) (f : PictureBudget → PictureBudget) (m : Fin 17) : (h.modShare k f).ring m = h.ring m := rfl

/-! ### modChannel -/

@[simp] theorem Hub.modChannel_now (c : Fin 64) (f : Channel → Channel) : (h.modChannel c f).now = h.now := rfl
@[simp] theorem Hub.modChannel_env (c : Fin 64) (f : Channel → Channel) : (h.modChannel c f).env = h.env := rfl
@[simp] theorem Hub.modChannel_strap (c : Fin 64) (f : Channel → Channel) : (h.modChannel c f).strap = h.strap := rfl
@[simp] theorem Hub.modChannel_tb (c : Fin 64) (f : Channel → Channel) : (h.modChannel c f).tb = h.tb := rfl
@[simp] theorem Hub.modChannel_store (c : Fin 64) (f : Channel → Channel) : (h.modChannel c f).store = h.store := rfl
@[simp] theorem Hub.modChannel_inputs (c : Fin 64) (f : Channel → Channel) : (h.modChannel c f).inputs = h.inputs := rfl
@[simp] theorem Hub.modChannel_coders (c : Fin 64) (f : Channel → Channel) : (h.modChannel c f).coders = h.coders := rfl
@[simp] theorem Hub.modChannel_paths (c : Fin 64) (f : Channel → Channel) : (h.modChannel c f).paths = h.paths := rfl
@[simp] theorem Hub.modChannel_gauges (c : Fin 64) (f : Channel → Channel) : (h.modChannel c f).gauges = h.gauges := rfl
@[simp] theorem Hub.modChannel_budget (c : Fin 64) (f : Channel → Channel) : (h.modChannel c f).budget = h.budget := rfl
@[simp] theorem Hub.modChannel_log (c : Fin 64) (f : Channel → Channel) : (h.modChannel c f).log = h.log := rfl
@[simp] theorem Hub.modChannel_tally (c : Fin 64) (f : Channel → Channel) : (h.modChannel c f).tally = h.tally := rfl
@[simp] theorem Hub.modChannel_ports (c : Fin 64) (f : Channel → Channel) : (h.modChannel c f).ports = h.ports := rfl
@[simp] theorem Hub.modChannel_notices (c : Fin 64) (f : Channel → Channel) : (h.modChannel c f).notices = h.notices := rfl
@[simp] theorem Hub.modChannel_mixer_buses (c : Fin 64) (f : Channel → Channel) : (h.modChannel c f).mixer.buses = h.mixer.buses := rfl
@[simp] theorem Hub.modChannel_mixer_packs (c : Fin 64) (f : Channel → Channel) : (h.modChannel c f).mixer.packs = h.mixer.packs := rfl
@[simp] theorem Hub.modChannel_mixer_sampleNo (c : Fin 64) (f : Channel → Channel) : (h.modChannel c f).mixer.sampleNo = h.mixer.sampleNo := rfl
@[simp] theorem Hub.modChannel_stream (c : Fin 64) (f : Channel → Channel) (m : Fin 16) : (h.modChannel c f).stream m = h.stream m := rfl
@[simp] theorem Hub.modChannel_ring (c : Fin 64) (f : Channel → Channel) (m : Fin 17) : (h.modChannel c f).ring m = h.ring m := rfl

/-! ### modBus -/

@[simp] theorem Hub.modBus_now (k : Fin 16) (f : Bus → Bus) : (h.modBus k f).now = h.now := rfl
@[simp] theorem Hub.modBus_env (k : Fin 16) (f : Bus → Bus) : (h.modBus k f).env = h.env := rfl
@[simp] theorem Hub.modBus_strap (k : Fin 16) (f : Bus → Bus) : (h.modBus k f).strap = h.strap := rfl
@[simp] theorem Hub.modBus_tb (k : Fin 16) (f : Bus → Bus) : (h.modBus k f).tb = h.tb := rfl
@[simp] theorem Hub.modBus_store (k : Fin 16) (f : Bus → Bus) : (h.modBus k f).store = h.store := rfl
@[simp] theorem Hub.modBus_inputs (k : Fin 16) (f : Bus → Bus) : (h.modBus k f).inputs = h.inputs := rfl
@[simp] theorem Hub.modBus_coders (k : Fin 16) (f : Bus → Bus) : (h.modBus k f).coders = h.coders := rfl
@[simp] theorem Hub.modBus_paths (k : Fin 16) (f : Bus → Bus) : (h.modBus k f).paths = h.paths := rfl
@[simp] theorem Hub.modBus_gauges (k : Fin 16) (f : Bus → Bus) : (h.modBus k f).gauges = h.gauges := rfl
@[simp] theorem Hub.modBus_budget (k : Fin 16) (f : Bus → Bus) : (h.modBus k f).budget = h.budget := rfl
@[simp] theorem Hub.modBus_log (k : Fin 16) (f : Bus → Bus) : (h.modBus k f).log = h.log := rfl
@[simp] theorem Hub.modBus_tally (k : Fin 16) (f : Bus → Bus) : (h.modBus k f).tally = h.tally := rfl
@[simp] theorem Hub.modBus_ports (k : Fin 16) (f : Bus → Bus) : (h.modBus k f).ports = h.ports := rfl
@[simp] theorem Hub.modBus_notices (k : Fin 16) (f : Bus → Bus) : (h.modBus k f).notices = h.notices := rfl
@[simp] theorem Hub.modBus_mixer_channels (k : Fin 16) (f : Bus → Bus) : (h.modBus k f).mixer.channels = h.mixer.channels := rfl
@[simp] theorem Hub.modBus_mixer_packs (k : Fin 16) (f : Bus → Bus) : (h.modBus k f).mixer.packs = h.mixer.packs := rfl
@[simp] theorem Hub.modBus_mixer_sampleNo (k : Fin 16) (f : Bus → Bus) : (h.modBus k f).mixer.sampleNo = h.mixer.sampleNo := rfl
@[simp] theorem Hub.modBus_stream (k : Fin 16) (f : Bus → Bus) (m : Fin 16) : (h.modBus k f).stream m = h.stream m := rfl
@[simp] theorem Hub.modBus_ring (k : Fin 16) (f : Bus → Bus) (m : Fin 17) : (h.modBus k f).ring m = h.ring m := rfl

/-! ### modPack -/

@[simp] theorem Hub.modPack_now (k : Fin 8) (f : Pack → Pack) : (h.modPack k f).now = h.now := rfl
@[simp] theorem Hub.modPack_env (k : Fin 8) (f : Pack → Pack) : (h.modPack k f).env = h.env := rfl
@[simp] theorem Hub.modPack_strap (k : Fin 8) (f : Pack → Pack) : (h.modPack k f).strap = h.strap := rfl
@[simp] theorem Hub.modPack_tb (k : Fin 8) (f : Pack → Pack) : (h.modPack k f).tb = h.tb := rfl
@[simp] theorem Hub.modPack_store (k : Fin 8) (f : Pack → Pack) : (h.modPack k f).store = h.store := rfl
@[simp] theorem Hub.modPack_inputs (k : Fin 8) (f : Pack → Pack) : (h.modPack k f).inputs = h.inputs := rfl
@[simp] theorem Hub.modPack_coders (k : Fin 8) (f : Pack → Pack) : (h.modPack k f).coders = h.coders := rfl
@[simp] theorem Hub.modPack_paths (k : Fin 8) (f : Pack → Pack) : (h.modPack k f).paths = h.paths := rfl
@[simp] theorem Hub.modPack_gauges (k : Fin 8) (f : Pack → Pack) : (h.modPack k f).gauges = h.gauges := rfl
@[simp] theorem Hub.modPack_budget (k : Fin 8) (f : Pack → Pack) : (h.modPack k f).budget = h.budget := rfl
@[simp] theorem Hub.modPack_log (k : Fin 8) (f : Pack → Pack) : (h.modPack k f).log = h.log := rfl
@[simp] theorem Hub.modPack_tally (k : Fin 8) (f : Pack → Pack) : (h.modPack k f).tally = h.tally := rfl
@[simp] theorem Hub.modPack_ports (k : Fin 8) (f : Pack → Pack) : (h.modPack k f).ports = h.ports := rfl
@[simp] theorem Hub.modPack_notices (k : Fin 8) (f : Pack → Pack) : (h.modPack k f).notices = h.notices := rfl
@[simp] theorem Hub.modPack_mixer_channels (k : Fin 8) (f : Pack → Pack) : (h.modPack k f).mixer.channels = h.mixer.channels := rfl
@[simp] theorem Hub.modPack_mixer_buses (k : Fin 8) (f : Pack → Pack) : (h.modPack k f).mixer.buses = h.mixer.buses := rfl
@[simp] theorem Hub.modPack_mixer_sampleNo (k : Fin 8) (f : Pack → Pack) : (h.modPack k f).mixer.sampleNo = h.mixer.sampleNo := rfl
@[simp] theorem Hub.modPack_stream (k : Fin 8) (f : Pack → Pack) (m : Fin 16) : (h.modPack k f).stream m = h.stream m := rfl
@[simp] theorem Hub.modPack_ring (k : Fin 8) (f : Pack → Pack) (m : Fin 17) : (h.modPack k f).ring m = h.ring m := rfl

/-! ### modLog -/

@[simp] theorem Hub.modLog_now (f : ClipLog → ClipLog) : (h.modLog f).now = h.now := rfl
@[simp] theorem Hub.modLog_env (f : ClipLog → ClipLog) : (h.modLog f).env = h.env := rfl
@[simp] theorem Hub.modLog_strap (f : ClipLog → ClipLog) : (h.modLog f).strap = h.strap := rfl
@[simp] theorem Hub.modLog_tb (f : ClipLog → ClipLog) : (h.modLog f).tb = h.tb := rfl
@[simp] theorem Hub.modLog_store (f : ClipLog → ClipLog) : (h.modLog f).store = h.store := rfl
@[simp] theorem Hub.modLog_inputs (f : ClipLog → ClipLog) : (h.modLog f).inputs = h.inputs := rfl
@[simp] theorem Hub.modLog_coders (f : ClipLog → ClipLog) : (h.modLog f).coders = h.coders := rfl
@[simp] theorem Hub.modLog_mixer (f : ClipLog → ClipLog) : (h.modLog f).mixer = h.mixer := rfl
@[simp] theorem Hub.modLog_paths (f : ClipLog → ClipLog) : (h.modLog f).paths = h.paths := rfl
@[simp] theorem Hub.modLog_gauges (f : ClipLog → ClipLog) : (h.modLog f).gauges = h.gauges := rfl
@[simp] theorem Hub.modLog_budget (f : ClipLog → ClipLog) : (h.modLog f).budget = h.budget := rfl
@[simp] theorem Hub.modLog_tally (f : ClipLog → ClipLog) : (h.modLog f).tally = h.tally := rfl
@[simp] theorem Hub.modLog_ports (f : ClipLog → ClipLog) : (h.modLog f).ports = h.ports := rfl
@[simp] theorem Hub.modLog_notices (f : ClipLog → ClipLog) : (h.modLog f).notices = h.notices := rfl
@[simp] theorem Hub.modLog_stream (f : ClipLog → ClipLog) (m : Fin 16) : (h.modLog f).stream m = h.stream m := rfl
@[simp] theorem Hub.modLog_ring (f : ClipLog → ClipLog) (m : Fin 17) : (h.modLog f).ring m = h.ring m := rfl

/-! ### modTrigger -/

@[simp] theorem Hub.modTrigger_now (t : Fin 4) (f : Trigger → Trigger) : (h.modTrigger t f).now = h.now := rfl
@[simp] theorem Hub.modTrigger_env (t : Fin 4) (f : Trigger → Trigger) : (h.modTrigger t f).env = h.env := rfl
@[simp] theorem Hub.modTrigger_strap (t : Fin 4) (f : Trigger → Trigger) : (h.modTrigger t f).strap = h.strap := rfl
@[simp] theorem Hub.modTrigger_tb (t : Fin 4) (f : Trigger → Trigger) : (h.modTrigger t f).tb = h.tb := rfl
@[simp] theorem Hub.modTrigger_store (t : Fin 4) (f : Trigger → Trigger) : (h.modTrigger t f).store = h.store := rfl
@[simp] theorem Hub.modTrigger_inputs (t : Fin 4) (f : Trigger → Trigger) : (h.modTrigger t f).inputs = h.inputs := rfl
@[simp] theorem Hub.modTrigger_coders (t : Fin 4) (f : Trigger → Trigger) : (h.modTrigger t f).coders = h.coders := rfl
@[simp] theorem Hub.modTrigger_mixer (t : Fin 4) (f : Trigger → Trigger) : (h.modTrigger t f).mixer = h.mixer := rfl
@[simp] theorem Hub.modTrigger_paths (t : Fin 4) (f : Trigger → Trigger) : (h.modTrigger t f).paths = h.paths := rfl
@[simp] theorem Hub.modTrigger_gauges (t : Fin 4) (f : Trigger → Trigger) : (h.modTrigger t f).gauges = h.gauges := rfl
@[simp] theorem Hub.modTrigger_budget (t : Fin 4) (f : Trigger → Trigger) : (h.modTrigger t f).budget = h.budget := rfl
@[simp] theorem Hub.modTrigger_tally (t : Fin 4) (f : Trigger → Trigger) : (h.modTrigger t f).tally = h.tally := rfl
@[simp] theorem Hub.modTrigger_ports (t : Fin 4) (f : Trigger → Trigger) : (h.modTrigger t f).ports = h.ports := rfl
@[simp] theorem Hub.modTrigger_notices (t : Fin 4) (f : Trigger → Trigger) : (h.modTrigger t f).notices = h.notices := rfl
@[simp] theorem Hub.modTrigger_log_clips (t : Fin 4) (f : Trigger → Trigger) : (h.modTrigger t f).log.clips = h.log.clips := rfl
@[simp] theorem Hub.modTrigger_log_labels (t : Fin 4) (f : Trigger → Trigger) : (h.modTrigger t f).log.labels = h.log.labels := rfl
@[simp] theorem Hub.modTrigger_log_selection (t : Fin 4) (f : Trigger → Trigger) : (h.modTrigger t f).log.selection = h.log.selection := rfl
@[simp] theorem Hub.modTrigger_log_supply (t : Fin 4) (f : Trigger → Trigger) : (h.modTrigger t f).log.supply = h.log.supply := rfl
@[simp] theorem Hub.modTrigger_log_nextClip (t : Fin 4) (f : Trigger → Trigger) : (h.modTrigger t f).log.nextClip = h.log.nextClip := rfl
@[simp] theorem Hub.modTrigger_log_nextLabel (t : Fin 4) (f : Trigger → Trigger) : (h.modTrigger t f).log.nextLabel = h.log.nextLabel := rfl
@[simp] theorem Hub.modTrigger_log_filed (t : Fin 4) (f : Trigger → Trigger) : (h.modTrigger t f).log.filed = h.log.filed := rfl
@[simp] theorem Hub.modTrigger_log_ignored (t : Fin 4) (f : Trigger → Trigger) : (h.modTrigger t f).log.ignored = h.log.ignored := rfl
@[simp] theorem Hub.modTrigger_log_removed (t : Fin 4) (f : Trigger → Trigger) : (h.modTrigger t f).log.removed = h.log.removed := rfl
@[simp] theorem Hub.modTrigger_log_lapses (t : Fin 4) (f : Trigger → Trigger) : (h.modTrigger t f).log.lapses = h.log.lapses := rfl
@[simp] theorem Hub.modTrigger_stream (t : Fin 4) (f : Trigger → Trigger) (m : Fin 16) : (h.modTrigger t f).stream m = h.stream m := rfl
@[simp] theorem Hub.modTrigger_ring (t : Fin 4) (f : Trigger → Trigger) (m : Fin 17) : (h.modTrigger t f).ring m = h.ring m := rfl

/-! ### mapClips -/

@[simp] theorem Hub.mapClips_now (f : Clip → Clip) : (h.mapClips f).now = h.now := rfl
@[simp] theorem Hub.mapClips_env (f : Clip → Clip) : (h.mapClips f).env = h.env := rfl
@[simp] theorem Hub.mapClips_strap (f : Clip → Clip) : (h.mapClips f).strap = h.strap := rfl
@[simp] theorem Hub.mapClips_tb (f : Clip → Clip) : (h.mapClips f).tb = h.tb := rfl
@[simp] theorem Hub.mapClips_store (f : Clip → Clip) : (h.mapClips f).store = h.store := rfl
@[simp] theorem Hub.mapClips_inputs (f : Clip → Clip) : (h.mapClips f).inputs = h.inputs := rfl
@[simp] theorem Hub.mapClips_coders (f : Clip → Clip) : (h.mapClips f).coders = h.coders := rfl
@[simp] theorem Hub.mapClips_mixer (f : Clip → Clip) : (h.mapClips f).mixer = h.mixer := rfl
@[simp] theorem Hub.mapClips_paths (f : Clip → Clip) : (h.mapClips f).paths = h.paths := rfl
@[simp] theorem Hub.mapClips_gauges (f : Clip → Clip) : (h.mapClips f).gauges = h.gauges := rfl
@[simp] theorem Hub.mapClips_budget (f : Clip → Clip) : (h.mapClips f).budget = h.budget := rfl
@[simp] theorem Hub.mapClips_tally (f : Clip → Clip) : (h.mapClips f).tally = h.tally := rfl
@[simp] theorem Hub.mapClips_ports (f : Clip → Clip) : (h.mapClips f).ports = h.ports := rfl
@[simp] theorem Hub.mapClips_notices (f : Clip → Clip) : (h.mapClips f).notices = h.notices := rfl
@[simp] theorem Hub.mapClips_log_labels (f : Clip → Clip) : (h.mapClips f).log.labels = h.log.labels := rfl
@[simp] theorem Hub.mapClips_log_selection (f : Clip → Clip) : (h.mapClips f).log.selection = h.log.selection := rfl
@[simp] theorem Hub.mapClips_log_triggers (f : Clip → Clip) : (h.mapClips f).log.triggers = h.log.triggers := rfl
@[simp] theorem Hub.mapClips_log_supply (f : Clip → Clip) : (h.mapClips f).log.supply = h.log.supply := rfl
@[simp] theorem Hub.mapClips_log_nextClip (f : Clip → Clip) : (h.mapClips f).log.nextClip = h.log.nextClip := rfl
@[simp] theorem Hub.mapClips_log_nextLabel (f : Clip → Clip) : (h.mapClips f).log.nextLabel = h.log.nextLabel := rfl
@[simp] theorem Hub.mapClips_log_filed (f : Clip → Clip) : (h.mapClips f).log.filed = h.log.filed := rfl
@[simp] theorem Hub.mapClips_log_ignored (f : Clip → Clip) : (h.mapClips f).log.ignored = h.log.ignored := rfl
@[simp] theorem Hub.mapClips_log_removed (f : Clip → Clip) : (h.mapClips f).log.removed = h.log.removed := rfl
@[simp] theorem Hub.mapClips_log_lapses (f : Clip → Clip) : (h.mapClips f).log.lapses = h.log.lapses := rfl
@[simp] theorem Hub.mapClips_stream (f : Clip → Clip) (m : Fin 16) : (h.mapClips f).stream m = h.stream m := rfl
@[simp] theorem Hub.mapClips_ring (f : Clip → Clip) (m : Fin 17) : (h.mapClips f).ring m = h.ring m := rfl

/-! ### modTally -/

@[simp] theorem Hub.modTally_now (o : Fin 16) (f : TallyEntry → TallyEntry) : (h.modTally o f).now = h.now := rfl
@[simp] theorem Hub.modTally_env (o : Fin 16) (f : TallyEntry → TallyEntry) : (h.modTally o f).env = h.env := rfl
@[simp] theorem Hub.modTally_strap (o : Fin 16) (f : TallyEntry → TallyEntry) : (h.modTally o f).strap = h.strap := rfl
@[simp] theorem Hub.modTally_tb (o : Fin 16) (f : TallyEntry → TallyEntry) : (h.modTally o f).tb = h.tb := rfl
@[simp] theorem Hub.modTally_store (o : Fin 16) (f : TallyEntry → TallyEntry) : (h.modTally o f).store = h.store := rfl
@[simp] theorem Hub.modTally_inputs (o : Fin 16) (f : TallyEntry → TallyEntry) : (h.modTally o f).inputs = h.inputs := rfl
@[simp] theorem Hub.modTally_coders (o : Fin 16) (f : TallyEntry → TallyEntry) : (h.modTally o f).coders = h.coders := rfl
@[simp] theorem Hub.modTally_mixer (o : Fin 16) (f : TallyEntry → TallyEntry) : (h.modTally o f).mixer = h.mixer := rfl
@[simp] theorem Hub.modTally_paths (o : Fin 16) (f : TallyEntry → TallyEntry) : (h.modTally o f).paths = h.paths := rfl
@[simp] theorem Hub.modTally_gauges (o : Fin 16) (f : TallyEntry → TallyEntry) : (h.modTally o f).gauges = h.gauges := rfl
@[simp] theorem Hub.modTally_budget (o : Fin 16) (f : TallyEntry → TallyEntry) : (h.modTally o f).budget = h.budget := rfl
@[simp] theorem Hub.modTally_log (o : Fin 16) (f : TallyEntry → TallyEntry) : (h.modTally o f).log = h.log := rfl
@[simp] theorem Hub.modTally_ports (o : Fin 16) (f : TallyEntry → TallyEntry) : (h.modTally o f).ports = h.ports := rfl
@[simp] theorem Hub.modTally_notices (o : Fin 16) (f : TallyEntry → TallyEntry) : (h.modTally o f).notices = h.notices := rfl
@[simp] theorem Hub.modTally_tally_flash (o : Fin 16) (f : TallyEntry → TallyEntry) : (h.modTally o f).tally.flash = h.tally.flash := rfl
@[simp] theorem Hub.modTally_tally_sent (o : Fin 16) (f : TallyEntry → TallyEntry) : (h.modTally o f).tally.sent = h.tally.sent := rfl
@[simp] theorem Hub.modTally_stream (o : Fin 16) (f : TallyEntry → TallyEntry) (m : Fin 16) : (h.modTally o f).stream m = h.stream m := rfl
@[simp] theorem Hub.modTally_ring (o : Fin 16) (f : TallyEntry → TallyEntry) (m : Fin 17) : (h.modTally o f).ring m = h.ring m := rfl

/-! ### modPort -/

@[simp] theorem Hub.modPort_now (p : Fin 4) (f : PortRecord → PortRecord) : (h.modPort p f).now = h.now := rfl
@[simp] theorem Hub.modPort_env (p : Fin 4) (f : PortRecord → PortRecord) : (h.modPort p f).env = h.env := rfl
@[simp] theorem Hub.modPort_strap (p : Fin 4) (f : PortRecord → PortRecord) : (h.modPort p f).strap = h.strap := rfl
@[simp] theorem Hub.modPort_tb (p : Fin 4) (f : PortRecord → PortRecord) : (h.modPort p f).tb = h.tb := rfl
@[simp] theorem Hub.modPort_store (p : Fin 4) (f : PortRecord → PortRecord) : (h.modPort p f).store = h.store := rfl
@[simp] theorem Hub.modPort_inputs (p : Fin 4) (f : PortRecord → PortRecord) : (h.modPort p f).inputs = h.inputs := rfl
@[simp] theorem Hub.modPort_coders (p : Fin 4) (f : PortRecord → PortRecord) : (h.modPort p f).coders = h.coders := rfl
@[simp] theorem Hub.modPort_mixer (p : Fin 4) (f : PortRecord → PortRecord) : (h.modPort p f).mixer = h.mixer := rfl
@[simp] theorem Hub.modPort_paths (p : Fin 4) (f : PortRecord → PortRecord) : (h.modPort p f).paths = h.paths := rfl
@[simp] theorem Hub.modPort_gauges (p : Fin 4) (f : PortRecord → PortRecord) : (h.modPort p f).gauges = h.gauges := rfl
@[simp] theorem Hub.modPort_budget (p : Fin 4) (f : PortRecord → PortRecord) : (h.modPort p f).budget = h.budget := rfl
@[simp] theorem Hub.modPort_log (p : Fin 4) (f : PortRecord → PortRecord) : (h.modPort p f).log = h.log := rfl
@[simp] theorem Hub.modPort_tally (p : Fin 4) (f : PortRecord → PortRecord) : (h.modPort p f).tally = h.tally := rfl
@[simp] theorem Hub.modPort_notices (p : Fin 4) (f : PortRecord → PortRecord) : (h.modPort p f).notices = h.notices := rfl
@[simp] theorem Hub.modPort_stream (p : Fin 4) (f : PortRecord → PortRecord) (m : Fin 16) : (h.modPort p f).stream m = h.stream m := rfl
@[simp] theorem Hub.modPort_ring (p : Fin 4) (f : PortRecord → PortRecord) (m : Fin 17) : (h.modPort p f).ring m = h.ring m := rfl

/-! ### modNotice -/

@[simp] theorem Hub.modNotice_now (p : Fin 4) (f : NoticePort → NoticePort) : (h.modNotice p f).now = h.now := rfl
@[simp] theorem Hub.modNotice_env (p : Fin 4) (f : NoticePort → NoticePort) : (h.modNotice p f).env = h.env := rfl
@[simp] theorem Hub.modNotice_strap (p : Fin 4) (f : NoticePort → NoticePort) : (h.modNotice p f).strap = h.strap := rfl
@[simp] theorem Hub.modNotice_tb (p : Fin 4) (f : NoticePort → NoticePort) : (h.modNotice p f).tb = h.tb := rfl
@[simp] theorem Hub.modNotice_store (p : Fin 4) (f : NoticePort → NoticePort) : (h.modNotice p f).store = h.store := rfl
@[simp] theorem Hub.modNotice_inputs (p : Fin 4) (f : NoticePort → NoticePort) : (h.modNotice p f).inputs = h.inputs := rfl
@[simp] theorem Hub.modNotice_coders (p : Fin 4) (f : NoticePort → NoticePort) : (h.modNotice p f).coders = h.coders := rfl
@[simp] theorem Hub.modNotice_mixer (p : Fin 4) (f : NoticePort → NoticePort) : (h.modNotice p f).mixer = h.mixer := rfl
@[simp] theorem Hub.modNotice_paths (p : Fin 4) (f : NoticePort → NoticePort) : (h.modNotice p f).paths = h.paths := rfl
@[simp] theorem Hub.modNotice_gauges (p : Fin 4) (f : NoticePort → NoticePort) : (h.modNotice p f).gauges = h.gauges := rfl
@[simp] theorem Hub.modNotice_budget (p : Fin 4) (f : NoticePort → NoticePort) : (h.modNotice p f).budget = h.budget := rfl
@[simp] theorem Hub.modNotice_log (p : Fin 4) (f : NoticePort → NoticePort) : (h.modNotice p f).log = h.log := rfl
@[simp] theorem Hub.modNotice_tally (p : Fin 4) (f : NoticePort → NoticePort) : (h.modNotice p f).tally = h.tally := rfl
@[simp] theorem Hub.modNotice_ports (p : Fin 4) (f : NoticePort → NoticePort) : (h.modNotice p f).ports = h.ports := rfl
@[simp] theorem Hub.modNotice_stream (p : Fin 4) (f : NoticePort → NoticePort) (m : Fin 16) : (h.modNotice p f).stream m = h.stream m := rfl
@[simp] theorem Hub.modNotice_ring (p : Fin 4) (f : NoticePort → NoticePort) (m : Fin 17) : (h.modNotice p f).ring m = h.ring m := rfl

/-! ### give -/

@[simp] theorem Hub.give_now (x : Notice) : (h.give x).now = h.now := rfl
@[simp] theorem Hub.give_env (x : Notice) : (h.give x).env = h.env := rfl
@[simp] theorem Hub.give_strap (x : Notice) : (h.give x).strap = h.strap := rfl
@[simp] theorem Hub.give_tb (x : Notice) : (h.give x).tb = h.tb := rfl
@[simp] theorem Hub.give_store (x : Notice) : (h.give x).store = h.store := rfl
@[simp] theorem Hub.give_inputs (x : Notice) : (h.give x).inputs = h.inputs := rfl
@[simp] theorem Hub.give_coders (x : Notice) : (h.give x).coders = h.coders := rfl
@[simp] theorem Hub.give_mixer (x : Notice) : (h.give x).mixer = h.mixer := rfl
@[simp] theorem Hub.give_paths (x : Notice) : (h.give x).paths = h.paths := rfl
@[simp] theorem Hub.give_gauges (x : Notice) : (h.give x).gauges = h.gauges := rfl
@[simp] theorem Hub.give_budget (x : Notice) : (h.give x).budget = h.budget := rfl
@[simp] theorem Hub.give_log (x : Notice) : (h.give x).log = h.log := rfl
@[simp] theorem Hub.give_tally (x : Notice) : (h.give x).tally = h.tally := rfl
@[simp] theorem Hub.give_ports (x : Notice) : (h.give x).ports = h.ports := rfl
@[simp] theorem Hub.give_stream (x : Notice) (m : Fin 16) : (h.give x).stream m = h.stream m := rfl
@[simp] theorem Hub.give_ring (x : Notice) (m : Fin 17) : (h.give x).ring m = h.ring m := rfl

/-! ### notify -/

@[simp] theorem Hub.notify_now (x : NoticeKind) (n : Nat) : (h.notify x n).now = h.now := rfl
@[simp] theorem Hub.notify_env (x : NoticeKind) (n : Nat) : (h.notify x n).env = h.env := rfl
@[simp] theorem Hub.notify_strap (x : NoticeKind) (n : Nat) : (h.notify x n).strap = h.strap := rfl
@[simp] theorem Hub.notify_tb (x : NoticeKind) (n : Nat) : (h.notify x n).tb = h.tb := rfl
@[simp] theorem Hub.notify_store (x : NoticeKind) (n : Nat) : (h.notify x n).store = h.store := rfl
@[simp] theorem Hub.notify_inputs (x : NoticeKind) (n : Nat) : (h.notify x n).inputs = h.inputs := rfl
@[simp] theorem Hub.notify_coders (x : NoticeKind) (n : Nat) : (h.notify x n).coders = h.coders := rfl
@[simp] theorem Hub.notify_mixer (x : NoticeKind) (n : Nat) : (h.notify x n).mixer = h.mixer := rfl
@[simp] theorem Hub.notify_paths (x : NoticeKind) (n : Nat) : (h.notify x n).paths = h.paths := rfl
@[simp] theorem Hub.notify_gauges (x : NoticeKind) (n : Nat) : (h.notify x n).gauges = h.gauges := rfl
@[simp] theorem Hub.notify_budget (x : NoticeKind) (n : Nat) : (h.notify x n).budget = h.budget := rfl
@[simp] theorem Hub.notify_log (x : NoticeKind) (n : Nat) : (h.notify x n).log = h.log := rfl
@[simp] theorem Hub.notify_tally (x : NoticeKind) (n : Nat) : (h.notify x n).tally = h.tally := rfl
@[simp] theorem Hub.notify_ports (x : NoticeKind) (n : Nat) : (h.notify x n).ports = h.ports := rfl
@[simp] theorem Hub.notify_stream (x : NoticeKind) (n : Nat) (m : Fin 16) : (h.notify x n).stream m = h.stream m := rfl
@[simp] theorem Hub.notify_ring (x : NoticeKind) (n : Nat) (m : Fin 17) : (h.notify x n).ring m = h.ring m := rfl

/-! ### answer -/

@[simp] theorem Hub.answer_now (c : Caller) (code : Byte) (o : Answer) (data : Bytes) : (h.answer c code o data).now = h.now := rfl
@[simp] theorem Hub.answer_env (c : Caller) (code : Byte) (o : Answer) (data : Bytes) : (h.answer c code o data).env = h.env := rfl
@[simp] theorem Hub.answer_strap (c : Caller) (code : Byte) (o : Answer) (data : Bytes) : (h.answer c code o data).strap = h.strap := rfl
@[simp] theorem Hub.answer_tb (c : Caller) (code : Byte) (o : Answer) (data : Bytes) : (h.answer c code o data).tb = h.tb := rfl
@[simp] theorem Hub.answer_store (c : Caller) (code : Byte) (o : Answer) (data : Bytes) : (h.answer c code o data).store = h.store := rfl
@[simp] theorem Hub.answer_inputs (c : Caller) (code : Byte) (o : Answer) (data : Bytes) : (h.answer c code o data).inputs = h.inputs := rfl
@[simp] theorem Hub.answer_coders (c : Caller) (code : Byte) (o : Answer) (data : Bytes) : (h.answer c code o data).coders = h.coders := rfl
@[simp] theorem Hub.answer_mixer (c : Caller) (code : Byte) (o : Answer) (data : Bytes) : (h.answer c code o data).mixer = h.mixer := rfl
@[simp] theorem Hub.answer_paths (c : Caller) (code : Byte) (o : Answer) (data : Bytes) : (h.answer c code o data).paths = h.paths := rfl
@[simp] theorem Hub.answer_gauges (c : Caller) (code : Byte) (o : Answer) (data : Bytes) : (h.answer c code o data).gauges = h.gauges := rfl
@[simp] theorem Hub.answer_budget (c : Caller) (code : Byte) (o : Answer) (data : Bytes) : (h.answer c code o data).budget = h.budget := rfl
@[simp] theorem Hub.answer_log (c : Caller) (code : Byte) (o : Answer) (data : Bytes) : (h.answer c code o data).log = h.log := rfl
@[simp] theorem Hub.answer_tally (c : Caller) (code : Byte) (o : Answer) (data : Bytes) : (h.answer c code o data).tally = h.tally := rfl
@[simp] theorem Hub.answer_notices (c : Caller) (code : Byte) (o : Answer) (data : Bytes) : (h.answer c code o data).notices = h.notices := rfl
@[simp] theorem Hub.answer_stream (c : Caller) (code : Byte) (o : Answer) (data : Bytes) (m : Fin 16) : (h.answer c code o data).stream m = h.stream m := rfl
@[simp] theorem Hub.answer_ring (c : Caller) (code : Byte) (o : Answer) (data : Bytes) (m : Fin 17) : (h.answer c code o data).ring m = h.ring m := rfl

/-! ### forgetRates -/

@[simp] theorem Hub.forgetRates_now (k : Fin 4) : (h.forgetRates k).now = h.now := rfl
@[simp] theorem Hub.forgetRates_env (k : Fin 4) : (h.forgetRates k).env = h.env := rfl
@[simp] theorem Hub.forgetRates_strap (k : Fin 4) : (h.forgetRates k).strap = h.strap := rfl
@[simp] theorem Hub.forgetRates_tb (k : Fin 4) : (h.forgetRates k).tb = h.tb := rfl
@[simp] theorem Hub.forgetRates_store (k : Fin 4) : (h.forgetRates k).store = h.store := rfl
@[simp] theorem Hub.forgetRates_inputs (k : Fin 4) : (h.forgetRates k).inputs = h.inputs := rfl
@[simp] theorem Hub.forgetRates_coders (k : Fin 4) : (h.forgetRates k).coders = h.coders := rfl
@[simp] theorem Hub.forgetRates_mixer (k : Fin 4) : (h.forgetRates k).mixer = h.mixer := rfl
@[simp] theorem Hub.forgetRates_paths (k : Fin 4) : (h.forgetRates k).paths = h.paths := rfl
@[simp] theorem Hub.forgetRates_gauges (k : Fin 4) : (h.forgetRates k).gauges = h.gauges := rfl
@[simp] theorem Hub.forgetRates_log (k : Fin 4) : (h.forgetRates k).log = h.log := rfl
@[simp] theorem Hub.forgetRates_tally (k : Fin 4) : (h.forgetRates k).tally = h.tally := rfl
@[simp] theorem Hub.forgetRates_ports (k : Fin 4) : (h.forgetRates k).ports = h.ports := rfl
@[simp] theorem Hub.forgetRates_notices (k : Fin 4) : (h.forgetRates k).notices = h.notices := rfl
@[simp] theorem Hub.forgetRates_stream (k : Fin 4) (m : Fin 16) : (h.forgetRates k).stream m = h.stream m := rfl
@[simp] theorem Hub.forgetRates_ring (k : Fin 4) (m : Fin 17) : (h.forgetRates k).ring m = h.ring m := rfl

/-! ### arrive -/

@[simp] theorem Hub.arrive_strap (e : Env) : (h.arrive e).strap = h.strap := rfl
@[simp] theorem Hub.arrive_tb (e : Env) : (h.arrive e).tb = h.tb := rfl
@[simp] theorem Hub.arrive_store (e : Env) : (h.arrive e).store = h.store := rfl
@[simp] theorem Hub.arrive_inputs (e : Env) : (h.arrive e).inputs = h.inputs := rfl
@[simp] theorem Hub.arrive_coders (e : Env) : (h.arrive e).coders = h.coders := rfl
@[simp] theorem Hub.arrive_mixer (e : Env) : (h.arrive e).mixer = h.mixer := rfl
@[simp] theorem Hub.arrive_paths (e : Env) : (h.arrive e).paths = h.paths := rfl
@[simp] theorem Hub.arrive_gauges (e : Env) : (h.arrive e).gauges = h.gauges := rfl
@[simp] theorem Hub.arrive_budget (e : Env) : (h.arrive e).budget = h.budget := rfl
@[simp] theorem Hub.arrive_log (e : Env) : (h.arrive e).log = h.log := rfl
@[simp] theorem Hub.arrive_tally (e : Env) : (h.arrive e).tally = h.tally := rfl
@[simp] theorem Hub.arrive_ports (e : Env) : (h.arrive e).ports = h.ports := rfl
@[simp] theorem Hub.arrive_notices (e : Env) : (h.arrive e).notices = h.notices := rfl
@[simp] theorem Hub.arrive_stream (e : Env) (m : Fin 16) : (h.arrive e).stream m = h.stream m := rfl
@[simp] theorem Hub.arrive_ring (e : Env) (m : Fin 17) : (h.arrive e).ring m = h.ring m := rfl

/-! ### Reading an entry back -/

theorem vectorSet_self {α : Type} {n : Nat} (v : Vector α n) (k : Fin n) (x : α) : (v.set k x)[k] = x := by simp

theorem vectorSet_ne {α : Type} {n : Nat} (v : Vector α n) {j k : Fin n} (hj : j ≠ k) (x : α) :
    (v.set k x)[j] = v[j] := by
  have : k.val ≠ j.val := fun h => hj (Fin.ext h.symm)
  simp [this]

@[simp] theorem Hub.modStream_self (k : Fin 16) (f : Stream → Stream) : ((h.modStream k f).stream k) = f (h.stream k) :=
  vectorSet_self _ _ _

theorem Hub.modStream_ne {k w : Fin 16} (f : Stream → Stream) (hw : w ≠ k) : ((h.modStream k f).stream w) = h.stream w :=
  vectorSet_ne _ hw _

@[simp] theorem Hub.modRing_self (r : Fin 17) (f : Ring → Ring) : ((h.modRing r f).ring r) = f (h.ring r) :=
  vectorSet_self _ _ _

theorem Hub.modRing_ne {r w : Fin 17} (f : Ring → Ring) (hw : w ≠ r) : ((h.modRing r f).ring w) = h.ring w :=
  vectorSet_ne _ hw _

@[simp] theorem Hub.modCoder_self (k : Fin 4) (f : Coder → Coder) : ((h.modCoder k f).coders[k]) = f (h.coders[k]) :=
  vectorSet_self _ _ _

@[simp] theorem Hub.modCoder_self_val (k : Fin 4) (f : Coder → Coder) : ((h.modCoder k f).coders[k.val]) = f (h.coders[k.val]) :=
  vectorSet_self _ _ _

theorem Hub.modCoder_ne {k w : Fin 4} (f : Coder → Coder) (hw : w ≠ k) : ((h.modCoder k f).coders[w]) = h.coders[w] :=
  vectorSet_ne _ hw _

@[simp] theorem Hub.modInput_self (i : Fin 4) (f : VideoInput → VideoInput) : ((h.modInput i f).inputs[i]) = f (h.inputs[i]) :=
  vectorSet_self _ _ _

@[simp] theorem Hub.modInput_self_val (i : Fin 4) (f : VideoInput → VideoInput) : ((h.modInput i f).inputs[i.val]) = f (h.inputs[i.val]) :=
  vectorSet_self _ _ _

theorem Hub.modInput_ne {i w : Fin 4} (f : VideoInput → VideoInput) (hw : w ≠ i) : ((h.modInput i f).inputs[w]) = h.inputs[w] :=
  vectorSet_ne _ hw _

@[simp] theorem Hub.modPath_self (p : Fin 8) (f : Path → Path) : ((h.modPath p f).paths.path[p]) = f (h.paths.path[p]) :=
  vectorSet_self _ _ _

@[simp] theorem Hub.modPath_self_val (p : Fin 8) (f : Path → Path) : ((h.modPath p f).paths.path[p.val]) = f (h.paths.path[p.val]) :=
  vectorSet_self _ _ _

theorem Hub.modPath_ne {p w : Fin 8} (f : Path → Path) (hw : w ≠ p) : ((h.modPath p f).paths.path[w]) = h.paths.path[w] :=
  vectorSet_ne _ hw _

@[simp] theorem Hub.modSend_self (r : Fin 17) (f : SendContext → SendContext) : ((h.modSend r f).paths.sends[r]) = f (h.paths.sends[r]) :=
  vectorSet_self _ _ _

@[simp] theorem Hub.modSend_self_val (r : Fin 17) (f : SendContext → SendContext) : ((h.modSend r f).paths.sends[r.val]) = f (h.paths.sends[r.val]) :=
  vectorSet_self _ _ _

theorem Hub.modSend_ne {r w : Fin 17} (f : SendContext → SendContext) (hw : w ≠ r) : ((h.modSend r f).paths.sends[w]) = h.paths.sends[w] :=
  vectorSet_ne _ hw _

@[simp] theorem Hub.modArbiter_self (p : Fin 8) (f : Arbiter → Arbiter) : ((h.modArbiter p f).paths.arbiters[p]) = f (h.paths.arbiters[p]) :=
  vectorSet_self _ _ _

@[simp] theorem Hub.modArbiter_self_val (p : Fin 8) (f : Arbiter → Arbiter) : ((h.modArbiter p f).paths.arbiters[p.val]) = f (h.paths.arbiters[p.val]) :=
  vectorSet_self _ _ _

theorem Hub.modArbiter_ne {p w : Fin 8} (f : Arbiter → Arbiter) (hw : w ≠ p) : ((h.modArbiter p f).paths.arbiters[w]) = h.paths.arbiters[w] :=
  vectorSet_ne _ hw _

@[simp] theorem Hub.modBond_self (j : Fin 4) (f : Bond → Bond) : ((h.modBond j f).paths.bonds[j]) = f (h.paths.bonds[j]) :=
  vectorSet_self _ _ _

@[simp] theorem Hub.modBond_self_val (j : Fin 4) (f : Bond → Bond) : ((h.modBond j f).paths.bonds[j.val]) = f (h.paths.bonds[j.val]) :=
  vectorSet_self _ _ _

theorem Hub.modBond_ne {j w : Fin 4} (f : Bond → Bond) (hw : w ≠ j) : ((h.modBond j f).paths.bonds[w]) = h.paths.bonds[w] :=
  vectorSet_ne _ hw _

@[simp] theorem Hub.modGauge_self (p : Fin 8) (f : Gauge → Gauge) : ((h.modGauge p f).gauges.path[p]) = f (h.gauges.path[p]) :=
  vectorSet_self _ _ _

@[simp] theorem Hub.modGauge_self_val (p : Fin 8) (f : Gauge → Gauge) : ((h.modGauge p f).gauges.path[p.val]) = f (h.gauges.path[p.val]) :=
  vectorSet_self _ _ _

theorem Hub.modGauge_ne {p w : Fin 8} (f : Gauge → Gauge) (hw : w ≠ p) : ((h.modGauge p f).gauges.path[w]) = h.gauges.path[w] :=
  vectorSet_ne _ hw _

@[simp] theorem Hub.modShare_self (k : Fin 4) (f : PictureBudget → PictureBudget) : ((h.modShare k f).budget.pictures[k]) = f (h.budget.pictures[k]) :=
  vectorSet_self _ _ _

@[simp] theorem Hub.modShare_self_val (k : Fin 4) (f : PictureBudget → PictureBudget) : ((h.modShare k f).budget.pictures[k.val]) = f (h.budget.pictures[k.val]) :=
  vectorSet_self _ _ _

theorem Hub.modShare_ne {k w : Fin 4} (f : PictureBudget → PictureBudget) (hw : w ≠ k) : ((h.modShare k f).budget.pictures[w]) = h.budget.pictures[w] :=
  vectorSet_ne _ hw _

@[simp] theorem Hub.modChannel_self (c : Fin 64) (f : Channel → Channel) : ((h.modChannel c f).mixer.channels[c]) = f (h.mixer.channels[c]) :=
  vectorSet_self _ _ _

@[simp] theorem Hub.modChannel_self_val (c : Fin 64) (f : Channel → Channel) : ((h.modChannel c f).mixer.channels[c.val]) = f (h.mixer.channels[c.val]) :=
  vectorSet_self _ _ _

theorem Hub.modChannel_ne {c w : Fin 64} (f : Channel → Channel) (hw : w ≠ c) : ((h.modChannel c f).mixer.channels[w]) = h.mixer.channels[w] :=
  vectorSet_ne _ hw _

@[simp] theorem Hub.modBus_self (k : Fin 16) (f : Bus → Bus) : ((h.modBus k f).mixer.buses[k]) = f (h.mixer.buses[k]) :=
  vectorSet_self _ _ _

@[simp] theorem Hub.modBus_self_val (k : Fin 16) (f : Bus → Bus) : ((h.modBus k f).mixer.buses[k.val]) = f (h.mixer.buses[k.val]) :=
  vectorSet_self _ _ _

theorem Hub.modBus_ne {k w : Fin 16} (f : Bus → Bus) (hw : w ≠ k) : ((h.modBus k f).mixer.buses[w]) = h.mixer.buses[w] :=
  vectorSet_ne _ hw _

@[simp] theorem Hub.modPack_self (k : Fin 8) (f : Pack → Pack) : ((h.modPack k f).mixer.packs[k]) = f (h.mixer.packs[k]) :=
  vectorSet_self _ _ _

@[simp] theorem Hub.modPack_self_val (k : Fin 8) (f : Pack → Pack) : ((h.modPack k f).mixer.packs[k.val]) = f (h.mixer.packs[k.val]) :=
  vectorSet_self _ _ _

theorem Hub.modPack_ne {k w : Fin 8} (f : Pack → Pack) (hw : w ≠ k) : ((h.modPack k f).mixer.packs[w]) = h.mixer.packs[w] :=
  vectorSet_ne _ hw _

@[simp] theorem Hub.modTrigger_self (t : Fin 4) (f : Trigger → Trigger) : ((h.modTrigger t f).log.triggers[t]) = f (h.log.triggers[t]) :=
  vectorSet_self _ _ _

@[simp] theorem Hub.modTrigger_self_val (t : Fin 4) (f : Trigger → Trigger) : ((h.modTrigger t f).log.triggers[t.val]) = f (h.log.triggers[t.val]) :=
  vectorSet_self _ _ _

theorem Hub.modTrigger_ne {t w : Fin 4} (f : Trigger → Trigger) (hw : w ≠ t) : ((h.modTrigger t f).log.triggers[w]) = h.log.triggers[w] :=
  vectorSet_ne _ hw _

@[simp] theorem Hub.modTally_self (o : Fin 16) (f : TallyEntry → TallyEntry) : ((h.modTally o f).tally.entries[o]) = f (h.tally.entries[o]) :=
  vectorSet_self _ _ _

@[simp] theorem Hub.modTally_self_val (o : Fin 16) (f : TallyEntry → TallyEntry) : ((h.modTally o f).tally.entries[o.val]) = f (h.tally.entries[o.val]) :=
  vectorSet_self _ _ _

theorem Hub.modTally_ne {o w : Fin 16} (f : TallyEntry → TallyEntry) (hw : w ≠ o) : ((h.modTally o f).tally.entries[w]) = h.tally.entries[w] :=
  vectorSet_ne _ hw _

@[simp] theorem Hub.modPort_self (p : Fin 4) (f : PortRecord → PortRecord) : ((h.modPort p f).ports[p]) = f (h.ports[p]) :=
  vectorSet_self _ _ _

@[simp] theorem Hub.modPort_self_val (p : Fin 4) (f : PortRecord → PortRecord) : ((h.modPort p f).ports[p.val]) = f (h.ports[p.val]) :=
  vectorSet_self _ _ _

theorem Hub.modPort_ne {p w : Fin 4} (f : PortRecord → PortRecord) (hw : w ≠ p) : ((h.modPort p f).ports[w]) = h.ports[w] :=
  vectorSet_ne _ hw _

@[simp] theorem Hub.modNotice_self (p : Fin 4) (f : NoticePort → NoticePort) : ((h.modNotice p f).notices[p]) = f (h.notices[p]) :=
  vectorSet_self _ _ _

@[simp] theorem Hub.modNotice_self_val (p : Fin 4) (f : NoticePort → NoticePort) : ((h.modNotice p f).notices[p.val]) = f (h.notices[p.val]) :=
  vectorSet_self _ _ _

theorem Hub.modNotice_ne {p w : Fin 4} (f : NoticePort → NoticePort) (hw : w ≠ p) : ((h.modNotice p f).notices[w]) = h.notices[w] :=
  vectorSet_ne _ hw _

/-- What an offered notice leaves at a port (R184). -/
@[simp] theorem Hub.give_notices (x : Notice) (p : Fin 4) :
    (h.give x).notices[p] = if h.audience x p then (h.notices[p]).offer x else h.notices[p] := by simp [Hub.give]

end Sys2Proof.Machine
end

