-- ==== Sys2Proof/Laws/Effects.lean ====
section
/-! SUPPORT. Every command but the two of the RESET pin is one change of the hub: the queue and the pin stay. -/

namespace Sys2Proof.Machine

/-- A command that is neither the RESET pin nor its release changes the hub alone, by a function of the hub. -/
theorem exec_run (i : Instr) (hp : ∀ e, i ≠ .partReset e) (hr : ∀ e strap supw, i ≠ .resetRelease e strap supw) :
    ∃ f : Hub → Hub, ∀ s : State, exec i s = s.run f := by
  cases i
  case partReset e => exact absurd rfl (hp e)
  case resetRelease e strap supw => exact absurd rfl (hr e strap supw)
  all_goals simp only [exec,
    execDividerExpiry, execReferencePulse, execPulseTimeout, execReaderArrival, execReaderStateTimeout,
    execReceiverLossOfLock, execReceiverFormatReport, execLineCheckFailure, execCaptureEnd, execPictureStart,
    execSliceStart, execSliceEnd, execLateDrop, execLimitClose, execMixerSample, execMuteEnd, execPauseTimeout,
    execBackChannelBreak, execFramingError, execIdleFill, execReceiptReport, execUnitTakeUp,
    execFragmentPlacement, execTransmissionEnd, execReleaseDue, execStep1End, execStep2Expiry, execTimeGaugeEnd,
    execVolumeGaugeExpiry, execSupplyWarningAssert, execSupplyWarningDeassert, execCommandRecordArrival,
    execResponseEnd, execPortAbsent, execAttentionPulse, execAttentionPulseEnd, execPresence, execTakeNotices,
    execAckAttention, execSetReference, execSetTimecodeMode, execJamTimecode, execSetRate, execReadTimebase,
    execOpenStream, execHoldStream, execReleaseStream, execCloseStream, execSetStream, execSetRing, execFetch,
    execInsert, execReadStream, execReadRing, execReadUnit, execSetInput, execSetPicture, execCoderReset,
    execReadInput, execReadPicture, execSetChannel, execSetGain, execSetBusGain, execSetMeter, execMixerReset,
    execReadChannel, execReadBus, execSetPath, execClearLoss, execSetSpread, execAddDirected, execRemoveDirected,
    execSetBond, execPathReset, execPathRelease, execReadPath, execReadSpread, execReadSend, execSetGauge,
    execStartGauge, execReadGauge, execSetBudget, execReadBudget, execOpenClip, execCloseClip, execReleaseClip,
    execAddLabel, execSetSelection, execSetTrigger, execArmTrigger, execDisarmTrigger, execLogReset,
    execReadClip, execReadLabels, execReadLog, execSetTally, execSetOverride, execReadTally, execSetRights,
    execReadRights, execSetNoticeMask, execReadSummary, execSetAttention, execReadNotices, execHubReset,
    execReadPart, execPulseLineDeasserted]
  all_goals exact ⟨_, fun _ => rfl⟩

/-- While the RESET pin is held such a command finds nothing to act on. -/
theorem State.run_held {s : State} (hs : s.held = true) (f : Hub → Hub) : s.run f = .next s := by simp [State.run, hs]

/-- Out of Part reset it leaves the hub that its effect makes. -/
theorem State.run_free {s : State} (hs : s.held = false) (f : Hub → Hub) : s.run f = s.became (f s.hub) := by
  simp [State.run, State.became, hs]

end Sys2Proof.Machine
end

