-- ==== Sys2Proof/Laws/Frames.lean ====
section
/-! SUPPORT. What each shared operation can change: one lemma per operation, over the parts of `Sys2Proof.Safety`.  A proof
about a command composes them and never unfolds an operation to learn that it left a block alone. -/

namespace Sys2Proof.Machine

/-! ### Composition -/

theorem Part.same_refl (x : Part) (h : Hub) : x.same h h := by cases x <;> simp [Part.same]

theorem Part.same_trans {x : Part} {a b c : Hub} (h₁ : x.same a b) (h₂ : x.same b c) : x.same a c := by
  cases x <;> simp_all [Part.same]

theorem Hub.OnlyChanges.refl (parts : List Part) (h : Hub) : Hub.OnlyChanges parts h h := fun x _ => x.same_refl h

theorem Hub.OnlyChanges.trans {parts : List Part} {a b c : Hub} (h₁ : Hub.OnlyChanges parts a b)
    (h₂ : Hub.OnlyChanges parts b c) : Hub.OnlyChanges parts a c := fun x hx => Part.same_trans (h₁ x hx) (h₂ x hx)

theorem Hub.OnlyChanges.mono {small large : List Part} {a b : Hub} (h : Hub.OnlyChanges small a b)
    (hs : small ⊆ large) : Hub.OnlyChanges large a b := fun x hx => h x fun hx' => hx (hs hx')

/-- A choice between two operations changes what either can. -/
theorem Hub.OnlyChanges.ite {parts : List Part} {a b c : Hub} {p : Prop} [Decidable p] (h₁ : Hub.OnlyChanges parts a b)
    (h₂ : Hub.OnlyChanges parts a c) : Hub.OnlyChanges parts a (if p then b else c) := by
  split
  · exact h₁
  · exact h₂

/-- An optional last operation. -/
theorem Hub.OnlyChanges.opt {parts : List Part} {a b c : Hub} {p : Prop} [Decidable p] (h₁ : Hub.OnlyChanges parts a b)
    (h₂ : Hub.OnlyChanges parts b c) : Hub.OnlyChanges parts a (if p then c else b) := .ite (h₁.trans h₂) h₁

/-- A fold changes what one of its steps can. -/
theorem Hub.OnlyChanges.foldl {α : Type} {parts : List Part} {f : Hub → α → Hub}
    (hf : ∀ h x, Hub.OnlyChanges parts h (f h x)) : ∀ (xs : List α) (h : Hub), Hub.OnlyChanges parts h (xs.foldl f h)
  | [], h => .refl parts h
  | x :: xs, h => (hf h x).trans (Hub.OnlyChanges.foldl hf xs (f h x))

/-- `Hub.forEach` changes what one of its rounds can. -/
theorem Hub.OnlyChanges.forEach {n : Nat} {parts : List Part} {f : Fin n → Hub → Hub}
    (hf : ∀ i h, Hub.OnlyChanges parts h (f i h)) (h : Hub) : Hub.OnlyChanges parts h (h.forEach n f) :=
  Hub.OnlyChanges.foldl (fun h i => hf i h) _ h

/-! ### One record -/

variable (h : Hub)

theorem Hub.arrive_only (e : Env) : Hub.OnlyChanges [] h (h.arrive e) := by
  intro x _; cases x <;> simp [Part.same]

theorem Hub.modStream_only (k : Fin 16) (f : Stream → Stream) : Hub.OnlyChanges [.streams] h (h.modStream k f) := by
  intro x hx; cases x <;> simp_all [Part.same]

theorem Hub.modRing_only (r : Fin 17) (f : Ring → Ring) : Hub.OnlyChanges [.rings] h (h.modRing r f) := by
  intro x hx; cases x <;> simp_all [Part.same]

theorem Hub.modCoder_only (k : Fin 4) (f : Coder → Coder) : Hub.OnlyChanges [.coders] h (h.modCoder k f) := by
  intro x hx; cases x <;> simp_all [Part.same]

theorem Hub.modInput_only (i : Fin 4) (f : VideoInput → VideoInput) : Hub.OnlyChanges [.inputs] h (h.modInput i f) := by
  intro x hx; cases x <;> simp_all [Part.same]

theorem Hub.modPath_only (p : Fin 8) (f : Path → Path) : Hub.OnlyChanges [.pathRecords] h (h.modPath p f) := by
  intro x hx; cases x <;> simp_all [Part.same]

theorem Hub.modSend_only (r : Fin 17) (f : SendContext → SendContext) : Hub.OnlyChanges [.sending] h (h.modSend r f) := by
  intro x hx; cases x <;> simp_all [Part.same]

theorem Hub.modArbiter_only (p : Fin 8) (f : Arbiter → Arbiter) : Hub.OnlyChanges [.sending] h (h.modArbiter p f) := by
  intro x hx; cases x <;> simp_all [Part.same]

theorem Hub.modBond_only (j : Fin 4) (f : Bond → Bond) : Hub.OnlyChanges [.mapping] h (h.modBond j f) := by
  intro x hx; cases x <;> simp_all [Part.same]

theorem Hub.modGauge_only (p : Fin 8) (f : Gauge → Gauge) : Hub.OnlyChanges [.gauges] h (h.modGauge p f) := by
  intro x hx; cases x <;> simp_all [Part.same]

theorem Hub.modShare_only (k : Fin 4) (f : PictureBudget → PictureBudget) : Hub.OnlyChanges [.budget] h (h.modShare k f) := by
  intro x hx; cases x <;> simp_all [Part.same]

theorem Hub.modChannel_only (c : Fin 64) (f : Channel → Channel) : Hub.OnlyChanges [.mixer] h (h.modChannel c f) := by
  intro x hx; cases x <;> simp_all [Part.same]

theorem Hub.modBus_only (k : Fin 16) (f : Bus → Bus) : Hub.OnlyChanges [.mixer] h (h.modBus k f) := by
  intro x hx; cases x <;> simp_all [Part.same]

theorem Hub.modPack_only (k : Fin 8) (f : Pack → Pack) : Hub.OnlyChanges [.mixer] h (h.modPack k f) := by
  intro x hx; cases x <;> simp_all [Part.same]

theorem Hub.modLog_only (f : ClipLog → ClipLog) : Hub.OnlyChanges [.log] h (h.modLog f) := by
  intro x hx; cases x <;> simp_all [Part.same]

theorem Hub.modTrigger_only (t : Fin 4) (f : Trigger → Trigger) : Hub.OnlyChanges [.log] h (h.modTrigger t f) :=
  h.modLog_only _

theorem Hub.mapClips_only (f : Clip → Clip) : Hub.OnlyChanges [.log] h (h.mapClips f) := h.modLog_only _

theorem Hub.modTally_only (o : Fin 16) (f : TallyEntry → TallyEntry) : Hub.OnlyChanges [.tally] h (h.modTally o f) := by
  intro x hx; cases x <;> simp_all [Part.same]

theorem Hub.modPort_only (p : Fin 4) (f : PortRecord → PortRecord) : Hub.OnlyChanges [.ports] h (h.modPort p f) := by
  intro x hx; cases x <;> simp_all [Part.same]

theorem Hub.modNotice_only (p : Fin 4) (f : NoticePort → NoticePort) :
    Hub.OnlyChanges [.notices] h (h.modNotice p f) := by
  intro x hx; cases x <;> simp_all [Part.same]

theorem Hub.answer_only (c : Caller) (code : Byte) (o : Answer) (data : Bytes) :
    Hub.OnlyChanges [.ports] h (h.answer c code o data) := by
  intro x hx; cases x <;> simp_all [Part.same]

theorem Hub.notify_only (k : NoticeKind) (n : Nat) : Hub.OnlyChanges [.notices] h (h.notify k n) := by
  intro x hx; cases x <;> simp_all [Part.same]

/-! ### Budget, clips, Store -/

theorem Hub.recompute_only : Hub.OnlyChanges [.budget, .notices] h h.recompute := by
  unfold Hub.recompute
  refine Hub.OnlyChanges.trans (b := { h with budget := h.budgetNow }) ?_ (Hub.OnlyChanges.trans (.ite (.refl _ _) ?_)
    (.forEach (fun i g => .ite ?_ (.refl _ _)) _))
  · intro x hx; cases x <;> simp_all [Part.same]
  · exact (Hub.notify_only _ _ _).mono (by simp)
  · exact (Hub.notify_only _ _ _).mono (by simp)

theorem Hub.forgetRates_only (k : Fin 4) : Hub.OnlyChanges [.budget] h (h.forgetRates k) :=
  h.modShare_only k _

theorem Hub.finishClips_only : Hub.OnlyChanges [.log, .notices] h h.finishClips :=
  .foldl (fun g c => ((g.mapClips_only _).mono (by simp)).trans ((Hub.notify_only _ _ _).mono (by simp))) _ _

theorem Hub.testClips_only (k : Fin 16) (dated : Option Word) : Hub.OnlyChanges [.log, .notices] h (h.testClips k dated) :=
  ((h.mapClips_only _).mono (by simp)).trans (Hub.finishClips_only _)

theorem Hub.lapse_only (n : Word) : Hub.OnlyChanges [.log, .notices] h (h.lapse n) :=
  ((h.mapClips_only _).mono (by simp)).trans
    (((Hub.modLog_only _ _).mono (by simp)).trans ((Hub.notify_only _ _ _).mono (by simp)))

theorem Hub.lapseRetainers_only (k : Fin 16) (u : Word) :
    ∀ (n : Nat) (h : Hub), Hub.OnlyChanges [.log, .notices] h (Hub.lapseRetainers k u n h)
  | 0, h => .refl _ h
  | n + 1, h => by
    unfold Hub.lapseRetainers
    split
    · exact .refl _ h
    · exact (h.lapse_only _).trans (Hub.lapseRetainers_only k u n _)

theorem Hub.meetErrors_only (r : Fin 17) (e : Entry) (f : ReadFault) :
    Hub.OnlyChanges [.rings, .log, .notices] h (h.meetErrors r e f) := by
  unfold Hub.meetErrors
  refine ((h.modRing_only r _).mono (by simp)).trans (.ite ?_ (.refl _ _))
  exact ((Hub.modRing_only _ r _).mono (by simp)).trans
    (((Hub.notify_only _ _ _).mono (by simp)).trans ((Hub.mapClips_only _ _).mono (by simp)))

theorem Hub.dropFault_only : Hub.OnlyChanges [] h h.dropFault := by
  intro x _; cases x <;> simp [Part.same, Hub.dropFault]

theorem Hub.calmDeficits_only (r : Fin 17) : Hub.OnlyChanges [.sending] h (h.calmDeficits r) := by
  unfold Hub.calmDeficits
  refine .ite (.refl _ _) ?_
  intro x hx; cases x <;> simp_all [Part.same]

theorem Hub.moveSend_only (r : Fin 17) (w : Word) : Hub.OnlyChanges [.rings, .sending] h (h.moveSend r w) :=
  ((h.modRing_only r _).mono (by simp)).trans
    (((Hub.modSend_only _ r _).mono (by simp)).trans ((Hub.calmDeficits_only _ r).mono (by simp)))

theorem Hub.carryMarks_only (old : Word) : Hub.OnlyChanges [.streams] h (h.carryMarks old) := by
  intro x hx; cases x <;> simp_all [Part.same, Hub.carryMarks]

theorem Hub.emptyRing_only (r : Fin 17) : Hub.OnlyChanges [.streams, .rings, .sending] h (h.emptyRing r) := by
  unfold Hub.emptyRing
  have h₁ := Hub.OnlyChanges.foldl (parts := [.streams, .rings, .sending])
    (f := fun h (e : Entry) => h.modStream e.stream fun st => { st with lost := st.lost + 1 })
    (fun g e => (g.modStream_only _ _).mono (by simp)) ((h.ring r).index.filter fun e => h.unsent r e) h
  refine (h₁.trans ((Hub.modRing_only _ r _).mono (by simp))).trans (((Hub.moveSend_only _ r _).mono (by simp)).trans
    (.ite ?_ (.refl _ _)))
  exact (Hub.carryMarks_only _ _).mono (by simp)

theorem Hub.removeTail_only (r : Fin 17) (e : Entry) :
    Hub.OnlyChanges [.streams, .rings, .sending, .log, .notices] h (h.removeTail r e) := by
  have hl : ∀ g : Hub, Hub.OnlyChanges [.streams, .rings, .sending, .log, .notices] g (g.loseUnsent r e) := fun g => by
    unfold Hub.loseUnsent
    have h₁ : Hub.OnlyChanges [.streams, .rings, .sending, .log, .notices] g
        ((g.moveSend r (e.key r + 1)).modStream e.stream fun st => { st with lost := st.lost + 1 }) :=
      ((g.moveSend_only r _).mono (by simp)).trans ((Hub.modStream_only _ _ _).mono (by simp))
    dsimp only
    split
    · exact h₁
    · exact h₁.trans ((Hub.notify_only _ _ _).mono (by simp))
  unfold Hub.removeTail
  dsimp only
  refine .opt (.trans (.opt (.opt (.refl _ _) ((Hub.lapseRetainers_only _ _ _ h).mono (by simp))) (hl _))
    ((Hub.modRing_only _ r _).mono (by simp))) ((Hub.carryMarks_only _ _).mono (by simp))

theorem Hub.makeRoom_only (r : Fin 17) (len : Nat) :
    ∀ (n : Nat) (h : Hub), Hub.OnlyChanges [.streams, .rings, .sending, .log, .notices] h (Hub.makeRoom r len n h)
  | 0, h => .refl _ h
  | n + 1, h => by
    unfold Hub.makeRoom
    split
    · split
      · exact .refl _ h
      · exact (h.removeTail_only r _).trans (Hub.makeRoom_only r len n _)
    · exact .refl _ h

theorem Hub.writeUnit_only (r : Fin 17) (o : Offer) (unit : Word) (g : Option Word) :
    Hub.OnlyChanges [.streams, .rings, .memory] h (h.writeUnit r o unit g) := by
  unfold Hub.writeUnit
  refine Hub.OnlyChanges.trans ?_ (((Hub.modRing_only _ r _).mono (by simp)).trans
    (((Hub.modStream_only _ _ _).mono (by simp)).trans (.ite ((Hub.modRing_only _ _ _).mono (by simp)) (.refl _ _))))
  intro x hx; cases x <;> simp_all [Part.same]

theorem Hub.ringNotices_only (r : Fin 17) (start len : Nat) : Hub.OnlyChanges [.notices] h (h.ringNotices r start len) := by
  unfold Hub.ringNotices
  exact .ite (h.notify_only _ _) (.ite (h.notify_only _ _) (.refl _ _))

/-- The parts that an offered unit can change. -/
def unitParts : List Part := [.streams, .rings, .memory, .sending, .log, .notices]

theorem Hub.commit_only (o : Offer) : Hub.OnlyChanges unitParts h (h.commit o).1 := by
  unfold Hub.commit
  refine ((Hub.makeRoom_only _ _ _ h).mono (by simp [unitParts])).trans
    (((Hub.writeUnit_only _ _ o _ _).mono (by simp [unitParts])).trans
      (((Hub.ringNotices_only _ _ _ _).mono (by simp [unitParts])).trans
        (((Hub.mapClips_only _ _).mono (by simp [unitParts])).trans ((Hub.mapClips_only _ _).mono (by simp [unitParts])))))

theorem Hub.judge_only (o : Offer) : Hub.OnlyChanges unitParts h (h.judge o).1 := by
  have hd : Hub.OnlyChanges unitParts h (h.countDiscard o.stream) := (h.modStream_only _ _).mono (by simp [unitParts])
  unfold Hub.judge
  dsimp only
  repeat' split
  all_goals first
    | exact .refl _ h
    | exact hd
    | exact h.commit_only o

theorem Hub.offer_only (o : Offer) : Hub.OnlyChanges unitParts h (h.offer o).1 :=
  (h.judge_only o).trans ((Hub.testClips_only _ _ _).mono (by simp [unitParts]))

theorem Hub.streamChanged_only (k : Fin 16) :
    Hub.OnlyChanges [.sending, .budget, .log, .notices] h (h.streamChanged k) :=
  ((h.calmDeficits_only _).mono (by simp)).trans (((Hub.notify_only _ _ _).mono (by simp)).trans
    (((Hub.recompute_only _).mono (by simp)).trans ((Hub.testClips_only _ _ _).mono (by simp))))

theorem Hub.endHold_only (k : Fin 16) : Hub.OnlyChanges [.streams, .rings, .sending] h (h.endHold k) := by
  unfold Hub.endHold
  refine Hub.OnlyChanges.trans (.ite ((h.modStream_only _ _).mono (by simp)) ?_)
    ((Hub.modStream_only _ _ _).mono (by simp))
  exact ((h.modStream_only _ _).mono (by simp)).trans ((Hub.moveSend_only _ _ _).mono (by simp))

theorem Hub.endClosing_only (k : Fin 16) :
    Hub.OnlyChanges [.streams, .rings, .sending, .budget, .log, .notices] h (h.endClosing k) :=
  Hub.OnlyChanges.trans (.ite ((h.endHold_only k).mono (by simp)) (.refl _ _))
    (((Hub.modStream_only _ _ _).mono (by simp)).trans ((Hub.streamChanged_only _ k).mono (by simp)))

theorem Hub.discardBuffer_only (k : Fin 16) : Hub.OnlyChanges [.streams] h (h.discardBuffer k) := by
  unfold Hub.discardBuffer
  exact .ite (.refl _ _) ((h.modStream_only _ _).trans (Hub.modStream_only _ _ _))

/-! ### Labels -/

theorem Hub.attemptFire_only (t : Fin 4) : Hub.OnlyChanges [.log, .notices] h (h.attemptFire t).1 := by
  have hf : ∀ g : Hub, Hub.OnlyChanges [.log, .notices] g (g.fired t) := fun g =>
    ((g.modTrigger_only t _).mono (by simp)).trans ((Hub.notify_only _ _ _).mono (by simp))
  unfold Hub.attemptFire
  repeat' split
  · exact (h.modTrigger_only t _).mono (by simp)
  · exact ((h.modLog_only _).mono (by simp)).trans (hf _)
  · exact (h.modTrigger_only t _).mono (by simp)
  · exact ((h.mapClips_only _).mono (by simp)).trans (hf _)

theorem Hub.offerTriggers_only (d : Draft) : Hub.OnlyChanges [.log, .notices] h (h.offerTriggers d).1 := by
  have key : ∀ (ts : List (Fin 4)) (x : Hub × List Draft), Hub.OnlyChanges [.log, .notices] x.1
      (ts.foldl (fun x t =>
        if (x.1.log.triggers[t]).matches d then ((x.1.attemptFire t).1, x.2 ++ (x.1.attemptFire t).2) else x) x).1 := by
    intro ts
    induction ts with
    | nil => exact fun x => .refl _ _
    | cons t ts ih =>
      intro x
      refine Hub.OnlyChanges.trans ?_ (ih _)
      dsimp only
      split
      · exact x.1.attemptFire_only t
      · exact .refl _ _
  exact key (List.finRange 4) (h, [])

theorem Hub.fileLabel_only (d : Draft) (named : Option Word) : Hub.OnlyChanges unitParts h (h.fileLabel d named).1 := by
  unfold Hub.fileLabel
  split
  · dsimp only [Hub.offerLabel]
    refine Hub.OnlyChanges.trans ((h.modLog_only fun l => l.store d).mono (by simp [unitParts])) ?_
    refine Hub.OnlyChanges.trans ((Hub.modLog_only _ fun l => l.link h.log.nextLabel d named).mono (by simp [unitParts])) ?_
    split
    · exact Hub.offer_only _ _
    · exact .refl _ _
  · exact (h.modLog_only _).mono (by simp [unitParts])

/-- The hub after a label has arrived: triggers, filing, then the labels of the fires. -/
theorem Hub.arriveLabel_fst (d : Draft) (named : Option Word) :
    (h.arriveLabel d named).1 = (h.offerTriggers d).2.foldl (fun g t => (Hub.fileLabel g t none).1)
      ((h.offerTriggers d).1.fileLabel d named).1 := by
  unfold Hub.arriveLabel
  dsimp only

theorem Hub.arriveLabel_only (d : Draft) (named : Option Word) :
    Hub.OnlyChanges unitParts h (h.arriveLabel d named).1 := by
  have h₁ := (h.offerTriggers_only d).mono (large := unitParts) (by simp [unitParts])
  have h₂ := (h.offerTriggers d).1.fileLabel_only d named
  have h₃ := Hub.OnlyChanges.foldl (parts := unitParts) (f := fun g t => (Hub.fileLabel g t none).1)
    fun g t => g.fileLabel_only t none
  rw [Hub.arriveLabel_fst]
  exact (h₁.trans h₂).trans (h₃ _ _)

theorem Hub.label_only (d : Draft) : Hub.OnlyChanges unitParts h (h.label d) := h.arriveLabel_only d none

/-! ### Gauges and paths -/

theorem Hub.endManual_only (p : Fin 8) (n : Nat) : Hub.OnlyChanges [.gauges, .notices] h (h.endManual p n) :=
  ((h.modGauge_only p _).mono (by simp)).trans ((Hub.notify_only _ _ _).mono (by simp))

theorem Hub.abortManual_only (p : Fin 8) : Hub.OnlyChanges [.gauges, .notices] h (Hub.abortManual p h) := by
  unfold Hub.abortManual
  split
  · exact .refl _ h
  · exact h.endManual_only p _

theorem Hub.endCycle_only (p : Fin 8) (v0 t1 : Nat) :
    Hub.OnlyChanges [.gauges, .budget, .notices] h (h.endCycle p v0 t1) :=
  ((h.modGauge_only p _).mono (by simp)).trans
    (((Hub.notify_only _ _ _).mono (by simp)).trans ((Hub.recompute_only _).mono (by simp)))

theorem Hub.endStep2_only (p : Fin 8) (t1 : Nat) : Hub.OnlyChanges [.gauges, .budget, .notices] h (h.endStep2 p t1) :=
  ((h.modGauge_only p _).mono (by simp)).trans (Hub.endCycle_only _ p _ t1)

theorem Hub.gaugeLeave_only (p : Fin 8) : Hub.OnlyChanges [.gauges, .notices] h (h.gaugeLeave p) :=
  ((h.modGauge_only p _).mono (by simp)).trans (Hub.abortManual_only _ p)

theorem Hub.increment_only (p : Fin 8) (n : Nat) : Hub.OnlyChanges [.gauges, .budget, .notices] h (h.increment p n) := by
  have hg : ∀ (g : Hub) (f : Gauge → Gauge), Hub.OnlyChanges [.gauges, .budget, .notices] g (g.modGauge p f) := fun g f =>
    (g.modGauge_only p f).mono (by simp)
  unfold Hub.increment
  refine Hub.OnlyChanges.trans (b := h.autoIncrement p n) ?_ ?_
  · unfold Hub.autoIncrement
    dsimp only
    split
    · exact .refl _ h
    · exact hg _ _
    · split
      · exact (hg h _).trans (Hub.endStep2_only _ p _)
      · exact hg h _
  · unfold Hub.manualIncrement
    dsimp only
    split
    · split
      · exact (hg _ _).trans ((Hub.endManual_only _ p _).mono (by simp))
      · exact hg _ _
    · exact .refl _ _

theorem Hub.changePath_only (p : Fin 8) (s : PathState) (why : DownReason) :
    Hub.OnlyChanges pathParts h (h.changePath p s why) := by
  unfold Hub.changePath
  dsimp only
  refine .trans (.opt (.trans (.trans (.opt ((h.modPath_only p _).mono ?_) ((Hub.modBond_only _ _ _).mono ?_))
    ((Hub.notify_only _ _ _).mono ?_)) ((Hub.label_only _ _).mono ?_)) ((Hub.gaugeLeave_only _ p).mono ?_))
    ((Hub.recompute_only _).mono ?_)
  all_goals simp [unitParts, pathParts]

theorem Hub.evaluatePath_only (p : Fin 8) : Hub.OnlyChanges pathParts h (Hub.evaluatePath p h) := by
  unfold Hub.evaluatePath
  dsimp only
  split
  · exact (h.modPath_only p _).mono (by simp [pathParts])
  · exact h.changePath_only p _ _

theorem Hub.tickPath_only (p : Fin 8) : Hub.OnlyChanges pathParts h (Hub.tickPath p h) := by
  have hp : ∀ (g : Hub) (f : Path → Path), Hub.OnlyChanges pathParts g (g.modPath p f) := fun g f =>
    (g.modPath_only p f).mono (by simp [pathParts])
  unfold Hub.tickPath
  refine Hub.OnlyChanges.trans (b := h.samplePath p) ?_ ?_
  · unfold Hub.samplePath
    dsimp only
    split
    · exact .refl _ h
    · exact .trans (hp h _) ((Hub.notify_only _ _ _).mono (by simp [pathParts]))
  · dsimp only
    exact (hp _ _).trans ((hp _ _).trans (Hub.evaluatePath_only _ p))

theorem Hub.takeUp_only (r : Fin 17) :
    ∀ (n : Nat) (h : Hub), Hub.OnlyChanges [.streams, .rings, .sending, .log, .notices] h (Hub.takeUp r n h)
  | 0, h => .refl _ h
  | n + 1, h => by
    have hs : ∀ g : Hub, Hub.OnlyChanges [.streams, .rings, .sending, .log, .notices] g (g.advance r) := fun g =>
      (g.moveSend_only r _).mono (by simp)
    have hd : ∀ g : Hub, Hub.OnlyChanges [.streams, .rings, .sending, .log, .notices] g (g.passDamaged r) := fun g =>
      ((g.modSend_only r _).mono (by simp)).trans (hs _)
    unfold Hub.takeUp
    split
    · split
      · exact .refl _ h
      · split
        · exact .refl _ h
        · split
          · exact (((h.modStream_only _ _).mono (by simp)).trans (hs _)).trans (Hub.takeUp_only r n _)
          · split
            · exact (hd h).trans (Hub.takeUp_only r n _)
            · have hm := fun e f => ((h.meetErrors_only r e f).mono
                (large := [.streams, .rings, .sending, .log, .notices]) (by simp)).trans
                  ((Hub.dropFault_only _).mono (by simp))
              dsimp only
              split
              · exact (hm _ _).trans ((hd _).trans (Hub.takeUp_only r n _))
              · exact (hm _ _).trans ((Hub.modSend_only _ r _).mono (by simp))
    · exact .refl _ h

/-- A ring with nothing to send takes nothing up. -/
theorem Hub.takeUp_idle {r : Fin 17} (hb : h.backlogged r = false) : ∀ n, Hub.takeUp r n h = h
  | 0 => rfl
  | n + 1 => by simp [Hub.takeUp, hb]

/-- A ring that holds a unit takes nothing up, unless the unit has no fragment placed and its entry has been flagged. -/
theorem Hub.takeUp_holding {r : Fin 17} (ha : ∀ e, h.atSend r = some e → h.actsOn r e = false) :
    ∀ n, Hub.takeUp r n h = h
  | 0 => rfl
  | n + 1 => by
    unfold Hub.takeUp
    split
    · split
      · rfl
      · rename_i e he
        simp [ha e he]
    · rfl

@[simp] theorem Flight.abort_waits (f : Flight) : f.abort.waits = false := by simp [Flight.abort, Flight.waits]

@[simp] theorem Flight.abort_frame (f : Flight) : f.abort.frame = f.frame := rfl

end Sys2Proof.Machine
end

