-- ==== Sys2Proof/Laws/Memory.lean ====
section
/-! SUPPORT. The canonical form of the Media Store's memory: every operation that writes keeps it, and the memory after
reset has it. -/

namespace Sys2Proof.Machine

/-- The form in words: addresses strictly rising, and no byte 0 listed. -/
theorem Memory.wf_iff (m : List (Nat × BitVec 8)) :
    Memory.wf m = true ↔ m.Pairwise (fun x y => x.1 < y.1) ∧ ∀ x ∈ m, x.2 ≠ 0 := by
  simp [Memory.wf]

/-- Every cell of written bytes lies where they are written, and lists no 0. -/
theorem Memory.cells_within : ∀ (bs : Bytes) (a : Nat), ∀ x ∈ Memory.cells a bs, a ≤ x.1 ∧ x.1 < a + bs.length ∧ x.2 ≠ 0
  | [], _, _, hx => by simp [Memory.cells] at hx
  | b :: bs, a, x, hx => by
    have ih := Memory.cells_within bs (a + 1) x
    unfold Memory.cells at hx
    split at hx
    · have := ih hx
      simp only [List.length_cons]
      exact ⟨by omega, by omega, this.2.2⟩
    · rcases List.mem_cons.mp hx with rfl | hx
      · simp_all
      · have := ih hx
        simp only [List.length_cons]
        exact ⟨by omega, by omega, this.2.2⟩

/-- The cells of written bytes are in rising order. -/
theorem Memory.cells_rising : ∀ (bs : Bytes) (a : Nat), (Memory.cells a bs).Pairwise fun x y => x.1 < y.1
  | [], _ => by simp [Memory.cells]
  | b :: bs, a => by
    unfold Memory.cells
    split
    · exact Memory.cells_rising bs (a + 1)
    · refine List.Pairwise.cons (fun y hy => ?_) (Memory.cells_rising bs (a + 1))
      have := Memory.cells_within bs (a + 1) y hy
      dsimp only
      omega

/-- A write keeps the canonical form. -/
theorem Memory.write_wf {m : List (Nat × BitVec 8)} (hm : Memory.wf m = true) (a : Nat) (bs : Bytes) :
    Memory.wf (Memory.write m a bs) = true := by
  rw [Memory.wf_iff] at hm ⊢
  obtain ⟨hr, hz⟩ := hm
  have hc := Memory.cells_within bs a
  refine ⟨?_, ?_⟩
  · unfold Memory.write
    rw [List.append_assoc, List.pairwise_append]
    refine ⟨hr.filter _, ?_, ?_⟩
    · rw [List.pairwise_append]
      refine ⟨Memory.cells_rising bs a, hr.filter _, fun x hx y hy => ?_⟩
      have := hc x hx
      simp only [List.mem_filter, decide_eq_true_eq] at hy
      omega
    · intro x hx y hy
      simp only [List.mem_filter, decide_eq_true_eq] at hx
      rcases List.mem_append.mp hy with hy | hy
      · have := hc y hy
        omega
      · simp only [List.mem_filter, decide_eq_true_eq] at hy
        omega
  · intro x hx
    simp only [Memory.write, List.mem_append, List.mem_filter] at hx
    rcases hx with (hx | hx) | hx
    · exact hz x hx.1
    · exact (hc x hx).2.2
    · exact hz x hx.1

/-- Writing into a ring, which may wrap, keeps the canonical form. -/
theorem Ring.writeBytes_wf (r : Ring) {m : List (Nat × BitVec 8)} (hm : Memory.wf m = true) (start : Nat) (bs : Bytes) :
    Memory.wf (r.writeBytes m start bs) = true := Memory.write_wf (Memory.write_wf hm _ _) _ _

/-- A committed unit keeps the canonical form. -/
theorem Hub.writeUnit_memoryOk (h : Hub) (hm : h.MemoryOk) (r : Fin 17) (o : Offer) (unit : Word) (g : Option Word) :
    (h.writeUnit r o unit g).MemoryOk := by
  have : (h.writeUnit r o unit g).store.mem = (h.ring r).writeBytes h.store.mem (h.ring r).headOff
      (h.unitHeader o { o.flags with damaged := false, tcJump := o.frame.jump } unit g ++ o.payload ++
        zeros (sectorsOf o.payload.length * 512 -
          (h.unitHeader o { o.flags with damaged := false, tcJump := o.frame.jump } unit g ++ o.payload).length)) := by
    unfold Hub.writeUnit
    dsimp only
    split <;> rfl
  unfold Hub.MemoryOk
  rw [this]
  exact Ring.writeBytes_wf _ hm _ _

/-- The memory after reset is in canonical form. -/
theorem reset_memoryOk : State.reset.hub.MemoryOk := rfl

end Sys2Proof.Machine
end

