-- ==== Sys2Proof/Laws/Paths.lean ====
section
/-! SUPPORT. Laws: what an evaluation of a path and a change of its state come to (R89, R92, R99), in the terms of
`Sys2Proof.Safety`. -/

namespace Sys2Proof.Machine

variable {x : Path}

/-- R89: a path whose state and reason are those of its evaluation stands as Table 38 has it. -/
theorem Path.table38_of_evaluate (h : x.evaluate = (x.state, x.reason)) : x.Table38 := by
  unfold Path.evaluate carrierOf linkOkOf readyOf at h
  unfold Path.Table38
  cases hh : x.hold
  · cases he : x.enabled
    · simp_all
    · cases hc : x.lines.getLsbD 1
      · simp_all
      · cases hk : x.lines.getLsbD 2
        · simp_all
        · cases hl : x.loss
          · cases ht : x.timeoutMark
            · cases hr : x.lines.getLsbD 0 <;> simp_all
            · simp_all
          · simp_all
  · simp_all

/-- The evaluation reads the hold, the enabled flag, the lines, the loss latch and the pause-timeout mark alone. -/
theorem Path.evaluate_congr {y : Path} (h : x.hold = y.hold) (he : x.enabled = y.enabled) (hl : x.lines = y.lines)
    (ho : x.loss = y.loss) (ht : x.timeoutMark = y.timeoutMark) : x.evaluate = y.evaluate := by
  simp [Path.evaluate, h, he, hl, ho, ht]

@[simp] theorem Path.enter_state (s : PathState) (why : DownReason) (w : Word) : (x.enter s why w).state = s := by
  cases s <;> simp [Path.enter, Path.abandon, Path.startTransmission, apply_ite Path.state]

@[simp] theorem Path.enter_reason (s : PathState) (why : DownReason) (w : Word) : (x.enter s why w).reason = why := by
  cases s <;> simp [Path.enter, Path.abandon, Path.startTransmission, apply_ite Path.reason]

@[simp] theorem Path.enter_lines (s : PathState) (why : DownReason) (w : Word) : (x.enter s why w).lines = x.lines := by
  cases s <;> simp [Path.enter, Path.abandon, Path.startTransmission, apply_ite Path.lines]

/-- R92: what an entry does to the path. -/
theorem Path.enter_entered (s : PathState) (why : DownReason) (w : Word) : x.Entered (x.enter s why w) := by
  unfold Path.Entered Path.Emptied
  cases s <;> simp [Path.enter, Path.abandon, Path.startTransmission]
  by_cases h : x.fifo = [] <;> by_cases ht : x.transmitting = true <;> simp_all

/-- R92: the text of a path's label is formed from its state and down reason. -/
theorem Path.labelText_eq (x : Path) : x.labelText = pathText x.state x.reason := by
  unfold Path.labelText pathText
  cases x.state <;> cases x.reason <;> decide

/-- R99: what brings a bond up to date. -/
theorem Bond.refresh_eq (b : Bond) :
    b.refresh = { b with inForce := b.setting, odd := if b.inForce = b.setting then b.odd else false } := by
  cases b
  unfold Bond.refresh
  split <;> simp_all

end Sys2Proof.Machine
end

