-- ==== Sys2Proof/Laws/Rings.lean ====
section
/-! SUPPORT. Laws: the order of a ring (R31, R36) under what the Store does to it: emptying, moves of the send pointer, the
removal of the tail and a commit; and what is left of a gauge (R118, R122). -/

namespace Sys2Proof.Machine

variable {x : Ring} {r : Fin 17}

/-! ### The order of a ring -/

/-- The entries may be judged by their places in the index. -/
theorem Ring.ordered_of_entries (ho : x.headOff < x.sectors) (hs : (x.head - x.send).toNat ≤ x.index.length)
    (he : ∀ i : Fin x.index.length,
      x.index[i].key r = x.head - BitVec.ofNat 32 (x.index.length - i) ∧ (x.index[i].g ≠ none ↔ r = 16) ∧
        (∀ k : Fin 16, r = k.castSucc → x.index[i].stream = k) ∧ x.index[i].start < x.sectors ∧
        (x.index[i].start + ((x.index.drop i).map Entry.len).sum) % x.sectors = x.headOff) : x.Ordered r := by
  refine ⟨ho, hs, fun i e h => ?_⟩
  obtain ⟨hi, rfl⟩ := List.getElem?_eq_some_iff.mp h
  exact he ⟨i, hi⟩

/-- An emptied ring (R28). -/
theorem Ring.ordered_nil (ho : x.headOff < x.sectors) (hi : x.index = []) (hs : x.send = x.head) : x.Ordered r :=
  ⟨ho, by simp [hs], fun i e h => by simp [hi] at h⟩

/-- The send pointer moves to a number from the tail to the head. -/
theorem Ring.Ordered.move (h : x.Ordered r) {w : Word} (hw : (x.head - w).toNat ≤ x.index.length) :
    ({ x with send := w } : Ring).Ordered r :=
  ⟨h.1, hw, h.2.2⟩

/-- Below the head the send pointer may advance by one (R36). -/
theorem Ring.Ordered.advance (h : x.Ordered r) (hne : x.send ≠ x.head) :
    ({ x with send := x.send + 1 } : Ring).Ordered r := by
  refine h.move (Nat.le_trans ?_ h.2.1)
  have h0 : (x.head - x.send).toNat ≠ 0 := fun h0 => hne (by bv_omega)
  bv_omega

/-- The tail unit leaves (R32). -/
theorem Ring.Ordered.dropTail (h : x.Ordered r) (hs : (x.head - x.send).toNat ≤ (x.index.drop 1).length) :
    ({ x with index := x.index.drop 1 } : Ring).Ordered r := by
  refine ⟨h.1, hs, fun i e he => ?_⟩
  obtain ⟨hk, hg, hst, hlt, hb⟩ := h.2.2 (1 + i) e (by rw [← List.getElem?_drop]; exact he)
  have hl : (x.index.drop 1).length - i = x.index.length - (1 + i) := by simp [Nat.sub_sub]
  refine ⟨?_, hg, hst, hlt, ?_⟩
  · show e.key r = x.head - BitVec.ofNat 32 ((x.index.drop 1).length - i)
    rw [hl, hk]
  · show (e.start + (((x.index.drop 1).drop i).map Entry.len).sum) % x.sectors = x.headOff
    rw [List.drop_drop, hb]

/-- A unit is committed at the head (R34). -/
theorem Ring.Ordered.commit (h : x.Ordered r) (hl : x.index.length < 4294967295) {e : Entry} (hk : e.key r = x.head)
    (hg : e.g ≠ none ↔ r = 16) (hst : ∀ k : Fin 16, r = k.castSucc → e.stream = k) (hs : e.start = x.headOff) :
    ({ x with index := x.index ++ [e], headOff := (x.headOff + e.len) % x.sectors, head := x.head + 1 } : Ring).Ordered r := by
  have h1 : (x.head + 1 - x.send).toNat ≤ x.index.length + 1 := by
    have := h.2.1
    bv_omega
  refine ⟨Nat.mod_lt _ (Nat.lt_of_le_of_lt (Nat.zero_le _) h.1), by simpa using h1, fun i f hf => ?_⟩
  simp only [List.getElem?_append, List.length_append, List.length_singleton] at hf ⊢
  split at hf
  · rename_i hi
    obtain ⟨hk', hg', hst', hlt', hb'⟩ := h.2.2 i f hf
    refine ⟨?_, hg', hst', hlt', ?_⟩
    · show f.key r = x.head + 1 - BitVec.ofNat 32 (x.index.length + 1 - i)
      rw [hk', Nat.sub_add_comm (Nat.le_of_lt hi), BitVec.ofNat_add]
      bv_omega
    · show (f.start + (((x.index ++ [e]).drop i).map Entry.len).sum) % x.sectors = (x.headOff + e.len) % x.sectors
      rw [List.drop_append_of_le_length (Nat.le_of_lt hi), List.map_append, List.sum_append, ← Nat.add_assoc, Nat.add_mod,
        hb']
      simp
  · rename_i hi
    obtain ⟨h0, rfl⟩ := List.getElem?_eq_some_iff.mp hf
    have h0 : i = x.index.length := by
      simp at h0
      omega
    subst h0
    simp only [Nat.sub_self, List.getElem_cons_zero]
    refine ⟨?_, hg, hst, ?_, ?_⟩
    · show e.key r = x.head + 1 - BitVec.ofNat 32 (x.index.length + 1 - x.index.length)
      rw [hk, Nat.add_sub_cancel_left]
      bv_omega
    · exact hs ▸ h.1
    · show (e.start + (((x.index ++ [e]).drop x.index.length).map Entry.len).sum) % x.sectors = (x.headOff + e.len) % x.sectors
      simp [hs]

/-! ### A gauge that is left -/

/-- What the abort of a manual gauge leaves (R122). -/
theorem Hub.abortManual_self (h : Hub) (p : Fin 8) :
    (Hub.abortManual p h).gauges.path[p] =
      if (h.gauges.path[p]).manual = .idle then h.gauges.path[p]
      else { h.gauges.path[p] with
        manual := .idle
        manualCount := (h.gauges.path[p]).manualCycles h.now
        result := some ((h.gauges.path[p]).volume, 4294967295) } := by
  unfold Hub.abortManual
  split
  · rfl
  · exact Hub.modGauge_self h p fun y =>
      { y with manual := .idle, manualCount := y.manualCycles h.now, result := some (y.volume, BitVec.ofNat 32 allOnes) }

/-- The gauge of a path that leaves UP or PAUSED. -/
theorem Hub.gaugeLeave_left (h : Hub) (p : Fin 8) : (h.gauges.path[p]).Left ((h.gaugeLeave p).gauges.path[p]) := by
  unfold Hub.gaugeLeave
  rw [Hub.abortManual_self, Hub.modGauge_self]
  generalize h.gauges.path[p] = x
  unfold Gauge.abortCycle Gauge.Left
  by_cases hm : x.manual = .idle <;> by_cases hp : x.phase = .idle <;> simp [hm, hp]

end Sys2Proof.Machine
end

