-- ==== Sys2Proof/Laws/Serving.lean ====
section
/-! SUPPORT. What taking a command comes to: under `State.Serves` the block's answer stands on the port's link. -/

namespace Sys2Proof.Machine

/-- A response is the outcome and data of the block's reply, but for a DENIED one, which carries the masks. -/
theorem respond_eq_answer (h : Hub) (c : Caller) (code : Byte) (r : Reply) :
    (h.modPort c.port fun p => p.respond c.tag code r) =
      h.answer c code r.outcome ((h.ports[c.port]).resultData r) := rfl

/-- No refusal of the Port Controller for a port that serves. -/
theorem State.Serves.refusal {c : Caller} {code : Byte} {cls : Option CommandClass} {st : Option Byte}
    {stf : Option (Fin 16)} {s : State} (hs : s.Serves c cls stf)
    (hst : ∀ n, st = some n → n.toNat < 16 → ∃ k, stf = some k ∧ k.val = n.toNat) :
    (s.hub.ports[c.port]).refusal code cls st = none := by
  obtain ⟨_, h2, h3, h4⟩ := hs
  unfold PortRecord.refusal
  rw [if_neg (by rintro ⟨h, -⟩; rw [h2] at h; cases h), if_neg, if_neg]
  · cases st with
    | none => simp
    | some n =>
      simp only [Bool.and_eq_true, decide_eq_true_eq, Bool.not_eq_true', not_and, Bool.not_eq_false]
      intro hn
      obtain ⟨k, hk, hkn⟩ := hst n rfl hn
      rw [← hkn]
      exact h4 k hk
  · cases cls with
    | none => simp
    | some x => simpa [Hub.hasClass] using h3 x rfl

/-- A served command leaves the hub that its block made, with the answer on the caller's link. -/
theorem State.Serves.run_eq {c : Caller} {code : Byte} {cls : Option CommandClass} {st : Option Byte}
    {stf : Option (Fin 16)} {s : State} (hs : s.Serves c cls stf)
    (hst : ∀ n, st = some n → n.toNat < 16 → ∃ k, stf = some k ∧ k.val = n.toNat) {block : Hub → Hub × Reply} {h : Hub}
    {o : Answer} {data : Bytes} (hb : block (s.hub.arrive c.env) = (h, { outcome := o, data := data }))
    (ho : o ≠ .denied) : s.run (serve c code cls st block) = s.became (h.answer c code o data) := by
  have hr : ((s.hub.arrive c.env).ports[c.port]).refusal code cls st = none := hs.refusal hst
  have hh : s.held = false := hs.1
  simp only [State.run, hh, State.became, serve, hr, hb, respond_eq_answer, PortRecord.resultData, ho]
  rfl

/-- The same for a command that names no stream. -/
theorem State.Serves.run_none {c : Caller} {code : Byte} {cls : Option CommandClass} {s : State}
    (hs : s.Serves c cls none) {block : Hub → Hub × Reply} {h : Hub} {o : Answer} {data : Bytes}
    (hb : block (s.hub.arrive c.env) = (h, { outcome := o, data := data })) (ho : o ≠ .denied) :
    s.run (serve c code cls none block) = s.became (h.answer c code o data) :=
  hs.run_eq (fun _ h => by cases h) hb ho

/-- The same for a command whose argument byte is the number of a stream. -/
theorem State.Serves.run_stream {c : Caller} {code : Byte} {cls : Option CommandClass} {k : Fin 16} {s : State}
    (hs : s.Serves c cls (some k)) {block : Hub → Hub × Reply} {h : Hub} {o : Answer} {data : Bytes}
    (hb : block (s.hub.arrive c.env) = (h, { outcome := o, data := data })) (ho : o ≠ .denied) :
    s.run (serve c code cls (some (byte k.val)) block) = s.became (h.answer c code o data) :=
  hs.run_eq (fun n h _ => ⟨k, rfl, by
    cases h
    simp [byte]
    omega⟩) hb ho

/-- A command refused as DENIED by its block answers with the masks of the port. -/
theorem State.Serves.run_denied {c : Caller} {code : Byte} {cls : Option CommandClass} {st : Option Byte}
    {stf : Option (Fin 16)} {s : State} (hs : s.Serves c cls stf)
    (hst : ∀ n, st = some n → n.toNat < 16 → ∃ k, stf = some k ∧ k.val = n.toNat) {block : Hub → Hub × Reply}
    {h : Hub} {data : Bytes} (hb : block (s.hub.arrive c.env) = (h, { outcome := .denied, data := data })) :
    s.run (serve c code cls st block) = s.became (h.answer c code .denied (h.ports[c.port]).maskData) := by
  have hr : ((s.hub.arrive c.env).ports[c.port]).refusal code cls st = none := hs.refusal hst
  have hh : s.held = false := hs.1
  simp only [State.run, hh, State.became, serve, hr, hb, respond_eq_answer, PortRecord.resultData]
  rfl

/-- An argument byte of a number below 256 spells it. -/
theorem below_byte {n : Nat} (k : Fin n) (hn : n ≤ 256) : below n (byte k.val) = some k := by
  have : k.val % 256 = k.val := Nat.mod_eq_of_lt (by omega)
  simp [below, byte, this]

end Sys2Proof.Machine
end

