-- ==== Sys2Proof/Tests/Slice0.lean ====
section
/-! SUPPORT. Tests: ill-formed commands that the check refuses, figures of the spec's worked examples, and for every
obligation with hypotheses a witness that meets them. -/

namespace Sys2Proof.Tests

open Sys2Proof Sys2Proof.Machine

/-! ### Small states -/

/-- The part after a release with a presence period of 25 frames and every port an editor (strap word 0079h). -/
def base : Hub := Hub.released 0x79 false {}

/-- A state with a hub and an empty queue, out of Part reset. -/
def st (h : Hub) : State := { pending := [], held := false, hub := h }

/-- A command of port 0. -/
def c0 : Caller := { port := 0 }

/-- The state after a command (the state itself where there is none). -/
def after (s : State) (i : Instr) : State :=
  match exec i s with
  | .next t => t
  | _ => s

/-- The response on the link of port 0. -/
def sent (s : State) : Option Response := ((s.hub.ports[(0 : Fin 4)]).sending).map Prod.snd

/-- The outcome of a command of port 0. -/
def outcome (s : State) (i : Instr) : Option Answer := (sent (after s i)).map Response.outcome

/-- A port that is PRESENT and holds every class and stream serves every command. -/
theorem serves {h : Hub} (hp : h.ports = base.ports) (cls : Option CommandClass) (k : Option (Fin 16)) :
    (st h).Serves c0 cls k := by
  have h0 : (st h).hub.ports = base.ports := hp
  refine ⟨rfl, ?_, fun x _ => ?_, fun k _ => ?_⟩
  · rw [h0]
    decide
  · unfold Hub.hasClass
    rw [h0]
    cases x <;> decide
  · unfold Hub.hasStream
    rw [h0]
    have : ∀ n : Fin 16, (base.ports[(0 : Fin 4)]).streams.getLsbD n.val = true := by decide
    exact this _

/-! ### Well-formedness -/

theorem test_wellFormed_sample_count :
    (Instr.mixerSample {} { carried := 0, portError := 0, samples := List.replicate 63 0 }).wellFormed = false := by decide

theorem test_wellFormed_insert_data : (Instr.insert c0 13 (List.replicate 65536 0) true).wellFormed = false := by
  simp only [Instr.wellFormed, List.length_replicate]
  decide

theorem test_wellFormed_clip_name : (Instr.openClip c0 1 (some { len := 3, bytes := [65, 66, 67] })).wellFormed = false := by
  decide

theorem test_wellFormed_label_text : (Instr.addLabel c0 0 none { len := 0, bytes := [] } none).wellFormed = false := by
  decide

theorem test_wellFormed_fetch_fault :
    (Instr.fetch { port := 0, env := { ecc := [{ asRead := [(34000064, 1)] }] } } 0 0 0 1).wellFormed = false := by decide

theorem test_wellFormed_takeUp_fault :
    (Instr.unitTakeUp { ecc := [{ asRead := [(34000064, 1)] }] } 0).wellFormed = false := by decide

theorem test_wellFormed_placement_fault :
    (Instr.fragmentPlacement { ecc := [{ asRead := [(34000064, 1)] }] } 0).wellFormed = false := by decide

theorem test_wellFormed_arrival_fault :
    (Instr.commandRecordArrival { ecc := [{ asRead := [(34000064, 1)] }] } 0 true []).wellFormed = false := by decide

theorem test_wellFormed_responseEnd_fault :
    (Instr.responseEnd { ecc := [{ asRead := [(34000064, 1)] }] } 0).wellFormed = false := by decide

theorem test_wellFormed_read : (Instr.readPart c0).wellFormed = true := by decide

/-! ### Witnesses: the machine -/

theorem witness_PartResetHoldsAndReleases :
    ({ State.reset with held := true }).held = true ∧ ∀ e strap supw, Instr.hubReset c0 ≠ .resetRelease e strap supw := by
  refine ⟨rfl, fun _ _ _ h => by cases h⟩

/-- Port 0 ABSENT; with no class; with every class and no stream. -/
theorem witness_RightsAreChecked :
    let absent := st (base.modPort 0 fun x => { x with present := false })
    let noClass := st (base.modPort 0 fun x => { x with classes := 0 })
    let noStream := st (base.modPort 0 fun x => { x with streams := 0x7FFF })
    (∃ H, header (.openStream c0 15) = some H ∧ H.code ≠ 1 ∧ absent.held = false ∧
      (absent.hub.ports[H.caller.port]).present = false) ∧
    (∃ H k, header (.openStream c0 15) = some H ∧ H.cls = some k ∧ noClass.hub.hasClass H.caller.port k = false ∧
      (noClass.hub.ports[H.caller.port]).present = true) ∧
    ∃ H n, header (.openStream c0 15) = some H ∧ (noStream.hub.ports[H.caller.port]).present = true ∧
      noStream.hub.hasClass H.caller.port .store = true ∧ H.stream = some n ∧ n.toNat < 16 ∧
      noStream.hub.hasStream H.caller.port n.toNat = false :=
  ⟨⟨_, rfl, by decide⟩, ⟨_, _, rfl, rfl, by decide⟩, _, _, rfl, by decide, by decide, rfl, by decide, by decide⟩

theorem witness_RecordsSpellCommands :
    (Instr.insert c0 13 [1, 2] true).wellFormed = true ∧ (header (.insert c0 13 [1, 2] true)).isSome = true := by decide

/-! ### Witnesses: Timebase -/

/-- The part in a reference state, with a count and a previous pulse at cycle 0. -/
def pulsed (ref : RefState) (good : Nat) : Hub :=
  { base with tb := { base.tb with external := true, ref := ref, good := good, prevPulse := some 0 } }

theorem witness_DividerGivesTick :
    (st base).held = false ∧ (st (pulsed .locked 8)).hub.tb.ref = .locked ∧ (st base).hub.tb.ref ≠ .locked := by decide

/-- A tick of a rate change with EXTERNAL out of HOLDOVER, and one without; the serial about to wrap; the last frame of a day,
with no jam, one equal to the count and one that is not. -/
theorem witness_DividerGivesTick_notices :
    let g := pulsed .holdover 3
    let tc : Timecode := { hours := 23, minutes := 59, seconds := 59, frames := 24, df := false }
    let b := { g.tb with ratePending := true, frame := { g.tb.frame with serial := 4294967295, tc := tc } }
    let wrapped := (Timecode.increment .r25 false tc)
    b.ref = .holdover ∧ b.ratePending = true ∧ b.external = true ∧ g.tb.ratePending = false ∧ b.frame.serial + 1 = 0 ∧
    g.tb.frame.serial + 1 ≠ 0 ∧ wrapped = (.zero, true) ∧ (none : Option Timecode).getD wrapped.1 = wrapped.1 ∧
    (some { tc with hours := 7 } : Option Timecode).getD wrapped.1 ≠ wrapped.1 ∧ g.log.clips = [] ∧
    (∀ x : Fin 4, (g.log.triggers[x]).state ≠ .armed) ∧ (g.stream 12).state = .closed ∧
    (∀ (p n : Fin 4), (g.notices[p]).mask.getLsbD n.val = true) ∧
    (∀ p : Fin 4, (g.notices[p]).queue.length ≤ 28) ∧ g.log.labels.length ≤ 2048 ∧
    g.log.keeps .tcJump .timebase = true := by decide

/-- At rate 25 the nominal period is 1,080,000 cycles and the tolerance 540. -/
theorem witness_PulsesAreCounted :
    (st base).hub.tb.ref = .free ∧ (pulsed .seeking 7).tb.ref = .seeking ∧ (pulsed .seeking 7).tb.prevPulse = some 0 ∧
    ((pulsed .seeking 7).arrive { dt := 1079459 }).now <
      base.tb.frameRate.nominal - base.tb.frameRate.tolerance ∧
    base.tb.frameRate.nominal + base.tb.frameRate.tolerance < ((pulsed .seeking 7).arrive { dt := 1080541 }).now ∧
    base.tb.frameRate.nominal - base.tb.frameRate.tolerance ≤ ((pulsed .seeking 6).arrive { dt := 1079460 }).now ∧
    ((pulsed .seeking 6).arrive { dt := 1079460 }).now ≤ base.tb.frameRate.nominal + base.tb.frameRate.tolerance ∧
    (pulsed .seeking 6).tb.good < 7 ∧ 7 ≤ (pulsed .holdover 7).tb.good ∧
    base.tb.frameRate.half ≤ ((pulsed .holdover 7).arrive { dt := 1080540 }).now - (pulsed .holdover 7).tb.lastTick ∧
    ((pulsed .holdover 7).arrive { dt := 1080540 }).now ≤ base.tb.frameRate.nominal + base.tb.frameRate.tolerance ∧
    1620000 - { pulsed .holdover 7 with tb := { (pulsed .holdover 7).tb with lastTick := 1080001 } }.tb.lastTick <
      base.tb.frameRate.half := by decide

/-- The last cycle in tolerance, the first early one (with the frame overdue or not), both sides of the timeout, and a pulse
one cycle after it, with and without a rate pending. -/
theorem witness_LockedFollowsPulses :
    let g := pulsed .locked 8
    let late := { g with tb := { g.tb with lastTick := 541 } }
    g.tb.ref = .locked ∧ g.tb.prevPulse = some 0 ∧ g.tb.frameRate.nominal - g.tb.frameRate.tolerance ≤ 1080541 ∧
    1080541 ≤ 0 + g.tb.frameRate.nominal + g.tb.frameRate.tolerance + 1 ∧
    1079459 < g.tb.frameRate.nominal - g.tb.frameRate.tolerance ∧ 1079459 < g.tb.lastTick + g.tb.frameRate.nominal ∧
    ({ g with now := 1080000, tb := { g.tb with prevPulse := some 1000 } } : Hub).now - 1000 <
      g.tb.frameRate.nominal - g.tb.frameRate.tolerance ∧ g.tb.lastTick + g.tb.frameRate.nominal ≤ 1080000 ∧
    (st base).hub.tb.ref ≠ .locked ∧
    g.tb.lastTick + g.tb.frameRate.nominal ≤ 0 + g.tb.frameRate.nominal + g.tb.frameRate.tolerance + 1 ∧
    ¬ late.tb.lastTick + g.tb.frameRate.nominal ≤ g.tb.frameRate.nominal + g.tb.frameRate.tolerance ∧
    g.tb.frameRate.nominal + g.tb.frameRate.tolerance + 1 <
      ({ g with tb := { g.tb with lastTick := 542 } } : Hub).tb.lastTick + g.tb.frameRate.nominal ∧
    0 + g.tb.frameRate.nominal + g.tb.frameRate.tolerance + 1 < (g.arrive { dt := 1080542 }).now ∧
    g.tb.ratePending = false ∧ g.tb.rate = g.tb.frameRate ∧ g.tb.external = true ∧
    ({ g with tb := { g.tb with ratePending := true, rate := .r50 } } : Hub).tb.ratePending = true := by decide

theorem witness_ReaderIsFollowed :
    let v : Timecode := { hours := 23, minutes := 59, seconds := 59, frames := 24, df := false }
    let w : Timecode := { hours := 24, minutes := 0, seconds := 0, frames := 0, df := false }
    let g : Hub := { base with tb := { base.tb with
      follow := true
      reader := some { hours := 23, minutes := 59, seconds := 59, frames := 23, df := false } } }
    (st g).held = false ∧ w.legal g.tb.rate g.tb.df = false ∧ v.legal g.tb.rate g.tb.df = true ∧ g.tb.follow = true ∧
    (∃ last, g.tb.reader = some last ∧ v = (last.increment g.tb.rate g.tb.df).1) ∧ base.tb.follow = false ∧
    base.tb.readerNow = false ∧ base.tb.readerBefore = false := by
  refine ⟨by decide, by decide, by decide, by decide, ⟨_, rfl, by decide⟩, by decide⟩

theorem witness_TimebaseSettings :
    (st base).Serves c0 (some .time) none ∧ (st (pulsed .locked 8)).Serves c0 (some .time) none ∧
    1 < (2 : Byte).toNat ∧ base.tb.ref = .free ∧ (pulsed .locked 8).tb.ref ≠ .free ∧
    ((pulsed .locked 8).arrive { dt := 1079999 }).now < (pulsed .locked 8).tb.lastTick + (pulsed .locked 8).tb.frameRate.nominal ∧
    (pulsed .locked 8).tb.lastTick + (pulsed .locked 8).tb.frameRate.nominal ≤
      ((pulsed .locked 8).arrive { dt := 1080000 }).now ∧
    base.tb.rate = .r25 ∧ (Hub.released 0x279 false {}).tb.rate = .r2997 :=
  ⟨serves rfl _ _, serves rfl _ _, by decide⟩

/-- 23:59:59:24 is legal at 25; 23:59:59:25 is not; the codes of the four rates end at 3. -/
theorem witness_JamAndRateAreChecked :
    (st base).Serves c0 (some .time) none ∧
    (timecodeOf 0x173B3B18).frames < base.tb.rate.fps ∧ (timecodeOf 0x173B3B18).hours < 24 ∧
    (timecodeOf 0x173B3B18).minutes < 60 ∧ (timecodeOf 0x173B3B18).seconds < 60 ∧
    (timecodeOf 0x173B3B18).df = base.tb.df ∧ ¬ (timecodeOf 0x173B3B19).frames < base.tb.rate.fps ∧
    3 < (4 : Byte).toNat ∧ (3 : Byte).toNat = Rate.r5994.code ∧ (∀ k : Fin 16, (base.stream k).state = .closed) ∧
    Rate.r5994 ≠ base.tb.rate ∧ (0 : Byte).toNat = base.tb.rate.code ∧
    ((base.modStream 15 fun x => { x with state := .opened }).stream 15).state ≠ .closed :=
  ⟨serves rfl _ _, by decide⟩

/-! ### Witnesses: streams and the Media Store -/

theorem witness_StreamNumberIsChecked : (st base).Serves c0 (some .store) none ∧ 15 < (16 : Byte).toNat :=
  ⟨serves rfl _ _, by decide⟩

/-- Every ring enabled, in blocks of its own. -/
def ringed : Hub := base.forEach 17 fun r h => h.modRing r fun x => { x with base := 64 * r.val, enabled := true }

/-- Every stream in a state. -/
def streams (s : StreamState) : Hub := ringed.forEach 16 fun k h => h.modStream k fun x => { x with state := s }

/-- An entry of stream k. -/
def entry (k : Fin 16) (u : Word) (g : Option Word) : Entry :=
  { stream := k, unit := u, g := g, start := 0, len := 1, payload := 4, serial := 0, tc := .zero, flags := {} }

/-- A ring that holds one unit of stream k, not yet sent. -/
def loaded (k : Fin 16) (s : StreamState) (global : Bool) : Hub :=
  if global then
    ((streams s).modStream k fun x => { x with global := true }).modRing 16 fun x =>
      { x with index := [entry k 0 (some 0)], head := 1 }
  else (streams s).modRing k.castSucc fun x => { x with index := [entry k 0 none], head := 1 }

theorem witness_OpenStreamOpens :
    (st ringed).Serves c0 (some .store) (some 3) ∧ (st base).Serves c0 (some .store) (some 3) ∧
    (base.ring (Fin.castSucc (3 : Fin 16))).enabled = false ∧ ((streams .opened).stream 3).state ≠ .closed ∧
    (ringed.stream 3).state = .closed ∧ (ringed.ring (Fin.castSucc (3 : Fin 16))).enabled = true ∧
    (¬ ∃ j : Fin 4, j.val = (3 : Fin 16).val ∧ 4 < ringed.engineLoad + (ringed.coders[j]).format.load) ∧
    ∃ j : Fin 4, j.val = (3 : Fin 16).val ∧
      4 < ((streams .opened).modCoder 3 fun x => { x with format := .uhd }).engineLoad +
        (((streams .opened).modCoder 3 fun x => { x with format := .uhd }).coders[j]).format.load :=
  ⟨serves rfl _ _, serves rfl _ _, by decide⟩

theorem witness_HoldStreamHolds :
    (st (streams .opened)).Serves c0 (some .store) (some 15) ∧ 1 < (2 : Byte).toNat ∧ (1 : Byte).toNat ≤ 1 ∧
    ((streams .held).stream 15).state ≠ .opened ∧ ((streams .opened).stream 15).state = .opened :=
  ⟨serves rfl _ _, by decide⟩

theorem witness_ReleaseStreamReleases :
    (st (loaded 15 .held true)).Serves c0 (some .store) (some 15) ∧ ((loaded 15 .held true).stream 15).state = .held ∧
    ((loaded 15 .held true).stream 15).global = true ∧ ((loaded 15 .held false).stream 15).state = .held ∧
    ((loaded 15 .held false).stream 15).global = false ∧ ((streams .opened).stream 15).state ≠ .held :=
  ⟨serves rfl _ _, by decide⟩

theorem witness_CloseStreamCloses :
    (st (streams .opened)).Serves c0 (some .store) (some 11) ∧ (base.stream 11).state = .closed ∧
    ((streams .opened).stream 11).state = .opened ∧
    (¬ (12 ≤ (11 : Fin 16).val ∨ ∃ j : Fin 4, j.val = (11 : Fin 16).val ∧ ((streams .opened).coders[j]).flight = [])) ∧
    ((loaded 12 .held false).stream 12).state = .held ∧ 12 ≤ (12 : Fin 16).val ∧
    ((loaded 12 .held false).stream 12).global = false ∧ ((loaded 12 .held true).stream 12).global = true ∧
    ∃ j : Fin 4, j.val = (3 : Fin 16).val ∧ ((streams .held).coders[j]).flight = [] :=
  ⟨serves rfl _ _, by decide⟩

/-- A clip that covers every stream. -/
def clip (s : ClipState) : Clip := { Clip.new 1 (.port 0) 0xFFFF [] 0 with state := s }

/-- The part with one clip in a state. -/
def clipped (h : Hub) (s : ClipState) : Hub := { h with log := { h.log with clips := [clip s], nextClip := 2 } }

theorem witness_SetStreamBinds :
    (st base).Serves c0 (some .store) (some 12) ∧ 1 < (2 : Byte).toNat ∧ (11 : Fin 16).val < 12 ∧ 12 ≤ (12 : Fin 16).val ∧
    ((streams .opened).stream 12).state ≠ .closed ∧ (base.stream 12).state = .closed ∧
    (∃ x ∈ (clipped base .opened).log.clips, x.state ≠ .lapsed ∧ x.mask.getLsbD (12 : Fin 16).val = true) ∧
    (¬ ∃ x ∈ base.log.clips, x.state ≠ .lapsed ∧ x.mask.getLsbD (12 : Fin 16).val = true) ∧
    (base.stream 12).global = false ∧ ((base.modStream 12 fun x => { x with global := true }).stream 12).global = true :=
  ⟨serves rfl _ _, by decide⟩

/-- The whole store of 524,288 blocks, a size that is no power of two, the first ring number and policy out of range, ring G
without a right, a busy stream, a shared block. -/
theorem witness_SetRingEmpties :
    let noAux : Hub := base.modPort 0 fun x => { x with streams := 0x7FFF }
    (st base).Serves c0 (some .store) none ∧ (∀ k : Fin 16, k.castSucc = (16 : Fin 17) → base.hasStream 0 k.val = true) ∧
    16 < (17 : Byte).toNat ∧ 1 < (2 : Byte).toNat ∧ (∃ k : Fin 16, 12 ≤ k.val ∧ noAux.hasStream 0 k.val = false) ∧
    (¬ ∃ k : Fin 16, 12 ≤ k.val ∧ base.hasStream 0 k.val = false) ∧
    (∀ n, n ≤ 10 → (63 : Word).toNat ≠ 64 * 2 ^ n) ∧ strapBlocks base.strap < (524225 : Word).toNat + (64 : Word).toNat ∧
    (65536 : Word).toNat = 64 * 2 ^ 10 ∧ (458752 : Word).toNat + (65536 : Word).toNat ≤ strapBlocks base.strap ∧
    ((streams .opened).stream 15).state ≠ .closed ∧
    (∃ p : Fin 17, p ≠ 15 ∧ (ringed.ring p).enabled = true ∧
      (63 : Word).toNat < (ringed.ring p).base + (ringed.ring p).size ∧
      (ringed.ring p).base < (63 : Word).toNat + (64 : Word).toNat) ∧
    ¬ ∃ p : Fin 17, p ≠ 16 ∧ (ringed.ring p).enabled = true ∧
      (1088 : Word).toNat < (ringed.ring p).base + (ringed.ring p).size ∧
      (ringed.ring p).base < (1088 : Word).toNat + (64 : Word).toNat := by
  refine ⟨serves rfl _ _, fun k h => ?_, by decide⟩
  have := congrArg Fin.val h
  simp at this
  omega

theorem witness_FetchReturnsUnit :
    (st (loaded 13 .opened false)).Serves c0 (some .store) (some 13) ∧ (0 : BitVec 16) = 0 ∧
    4096 < (4097 : BitVec 16).toNat ∧ (4096 : BitVec 16) ≠ 0 ∧ (4096 : BitVec 16).toNat ≤ 4096 ∧
    ((loaded 13 .opened false).ring 13).index.find? (fun e => e.stream = 13 ∧ e.unit = 1) = none ∧
    ((loaded 13 .opened false).ring 13).index.find? (fun e => e.stream = 13 ∧ e.unit = 0) = some (entry 13 0 none) ∧
    64 + (entry 13 0 none).payload ≤ (68 : Word).toNat ∧ (67 : Word).toNat < 64 + (entry 13 0 none).payload ∧
    (∀ f ∈ c0.env.ecc.head?, f.uncorrectable = false) ∧
    ∀ f ∈ ([{ corrected := 3 }] : List ReadFault).head?, f.uncorrectable = false :=
  ⟨serves rfl _ _, by decide⟩

theorem witness_UncorrectableReadDamages :
    let c : Caller := { port := 0, env := { ecc := [{ uncorrectable := true }] } }
    (st (loaded 13 .opened true)).Serves c (some .store) (some 13) ∧ (1 : BitVec 16) ≠ 0 ∧ (4096 : BitVec 16).toNat ≤ 4096 ∧
    ((loaded 13 .opened true).stream 13).global = true ∧
    ((loaded 13 .opened true).ring 16).index.find? (fun e => e.stream = 13 ∧ e.unit = 0) = some (entry 13 0 (some 0)) ∧
    (67 : Word).toNat < 64 + (entry 13 0 (some 0)).payload ∧ c.env.ecc.head? = some { uncorrectable := true } ∧
    ({ uncorrectable := true } : ReadFault).uncorrectable = true ∧ (entry 13 0 (some 0)).flags.damaged = false ∧
    ({ entry 13 0 (some 0) with flags := { damaged := true } } : Entry).flags.damaged = true ∧
    ∀ p : Fin 4, ((loaded 13 .opened true).notices[p]).mask.getLsbD 8 = true ∧
      ((loaded 13 .opened true).notices[p]).queue.length < 32 := by
  refine ⟨⟨rfl, ?_⟩, by decide⟩
  exact (serves (h := loaded 13 .opened true) rfl (some .store) (some 13)).2

/-- The part with an insert buffer of n bytes on stream 13, built by a port. -/
def building (n : Nat) (p : Fin 4) (s : StreamState) : Hub :=
  (streams s).modStream 13 fun x => { x with buffer := List.replicate n 7, builder := some p }

theorem witness_InsertBuildsUnit :
    (st (building 2 0 .opened)).Serves c0 (some .store) (some 13) ∧ 15 < (16 : Byte).toNat ∧ (12 : Fin 16).val < 13 ∧
    ([] : Bytes).length = 0 ∧
    13 ≤ (13 : Fin 16).val ∧ ([1] : Bytes).length ≠ 0 ∧ ([1] : Bytes).length ≤ 4096 ∧
    ((streams .closing).stream 13).state = .closing ∧ ((building 2 1 .opened).stream 13).buffer ≠ [] ∧
    ((building 2 1 .opened).stream 13).builder ≠ some c0.port ∧ ((building 2 0 .held).stream 13).state = .held ∧
    ((building 2 0 .held).stream 13).builder = some c0.port ∧
    ((building 2 0 .held).stream 13).buffer.length + ([1] : Bytes).length ≤ 65536 ∧
    65536 < ((building 65536 0 .opened).stream 13).buffer.length + ([1] : Bytes).length := by
  refine ⟨serves rfl _ _, by decide, by decide, by decide, by decide, by decide, by decide, by decide, by decide, by decide,
    by decide, by decide, by decide, ?_⟩
  have hb : ∀ n, ((building n 0 .opened).stream 13).buffer.length = n := fun n => by
    unfold building
    rw [Hub.modStream_self]
    exact List.length_replicate
  rw [hb]
  decide

theorem witness_FinalInsertCommits :
    (st (building 2 0 .opened)).Serves c0 (some .store) (some 13) ∧ 13 ≤ (13 : Fin 16).val ∧ ([1] : Bytes).length ≠ 0 ∧
    ([1] : Bytes).length ≤ 4096 ∧ ((building 2 0 .opened).stream 13).buffer.length + ([1] : Bytes).length ≤ 65536 ∧
    ((building 2 0 .opened).stream 13).builder = some c0.port ∧ ((building 2 0 .opened).stream 13).state = .opened ∧
    512 ≤ ((building 2 0 .opened).ring 13).sectors ∧ ((building 2 0 .held).stream 13).state = .held ∧
    ((building 2 0 .held).stream 13).discard = false ∧
    (((building 2 0 .held).modStream 13 fun x => { x with discard := true }).stream 13).discard = true :=
  ⟨serves rfl _ _, by decide⟩

/-- The ring's bytes begin at address 3,407,872, so a byte of address 0 lies outside the new unit's sector. -/
theorem witness_FinalInsertCommits_memory :
    (building 2 0 .opened).MemoryOk ∧
    ((building 2 0 .opened).ring 13).headOff < 8 * ((building 2 0 .opened).ring 13).size ∧
    ((building 2 0 .opened).ring 13).base = 832 ∧ ((building 2 0 .opened).ring 13).Outside 0 1 0 := by
  have hb : ((building 2 0 .opened).ring 13).base = 832 := by decide
  refine ⟨rfl, by decide, hb, fun i _ h => ?_⟩
  rw [hb] at h
  omega

/-- In a ring of 512 sectors: a unit of one sector ends just before the middle, one of two passes it; one ends at the last
sector, and one stops short of it. -/
theorem witness_FinalInsertCommits_notices :
    let at' := fun n : Nat => (building 2 0 .opened).modRing 13 fun x => { x with headOff := n }
    8 * ((at' 255).ring 13).size = 512 ∧ ¬ 512 / 2 < ((at' 255).ring 13).headOff + (64 + (2 + 1) + 511) / 512 ∧
    ((at' 255).ring 13).headOff < 512 / 2 ∧ 512 / 2 < ((at' 255).ring 13).headOff + (64 + (2 + 447) + 511) / 512 ∧
    512 ≤ ((at' 511).ring 13).headOff + (64 + (2 + 1) + 511) / 512 ∧
    ¬ 512 ≤ ((at' 510).ring 13).headOff + (64 + (2 + 1) + 511) / 512 ∧ ¬ ((at' 511).ring 13).headOff < 512 / 2 ∧
    (((at' 255).ring 13).index.map Entry.len).sum + 2 ≤ 512 ∧ ((at' 255).ring 13).index.length < 1024 ∧
    ∀ p : Fin 4, ((at' 255).notices[p]).mask.getLsbD 6 = true ∧ ((at' 255).notices[p]).mask.getLsbD 7 = true ∧
      ((at' 255).notices[p]).queue.length < 32 := by decide

/-- Stream 13 with three bytes to commit to a ring of 512 sectors that one unit of n sectors fills or nearly fills, which an
OPEN clip of every stream retains. -/
def pressed (n : Nat) : Hub :=
  let h := (building 2 0 .opened).modRing 13 fun x => { x with index := [{ entry 13 0 none with len := n }], head := 1 }
  { h with log := { h.log with
    clips := [{ clip .opened with starts := (clip .opened).starts.set 13 (some 0) }], nextClip := 2 } }

/-- At 511 sectors the new unit of one sector just fits, at 512 the old one leaves: unsent or sent, retained by the clip, with
UNSENT_LOST of its stream waiting or not. -/
theorem witness_FinalInsertCommits_pressure :
    let told := (pressed 512).modNotice 0 fun n => { n with queue := [{ kind := .unsentLost, param := 13, serial := 0 }] }
    (64 + (2 + 1) + 511) / 512 = 1 ∧ ((pressed 511).ring 13).index = [{ entry 13 0 none with len := 511 }] ∧
    511 + 1 ≤ 8 * ((pressed 511).ring 13).size ∧ ¬ 512 + 1 ≤ 8 * ((pressed 512).ring 13).size ∧
    0 + 1 ≤ 8 * ((pressed 512).ring 13).size ∧ ((pressed 512).ring 13).send = (entry 13 0 none).unit ∧
    (((pressed 512).modRing 13 fun x => { x with send := 1 }).ring 13).send ≠ (entry 13 0 none).unit ∧
    (∃ p : Fin 4, ∃ z ∈ (told.notices[p]).queue, z.kind = .unsentLost ∧ z.param.toNat = (13 : Fin 16).val) ∧
    (¬ ∃ p : Fin 4, ∃ z ∈ ((pressed 512).notices[p]).queue, z.kind = .unsentLost ∧ z.param.toNat = (13 : Fin 16).val) ∧
    (pressed 512).boundRing 13 = 13 ∧
    (∀ x ∈ (pressed 512).log.clips, x.state = .opened ∧ x.endSerial = none ∧ x.mask.getLsbD 13 = true ∧
      (pressed 512).retains x 13 0 = true ∧ ((pressed 512).tb.frame.serial - x.startSerial).toNat < 2147483648) := by
  decide

theorem pressed_clipsOrdered (n : Nat) : (pressed n).ClipsOrdered := by
  refine ⟨List.pairwise_singleton _ _, ?_, ?_⟩
  · show 2 ≤ 4294967296
    decide
  · intro c hc
    cases List.mem_singleton.mp hc
    show (1#32).toNat < 2
    decide

/-- The unit is written across the end of a ring of 512 sectors; memory with one byte listed. -/
theorem witness_StoredBytesReadBack :
    let h : Hub := { ringed with store := { ringed.store with mem := [(5, 1)] } }
    h.MemoryOk ∧ ((h.modRing 13 fun x => { x with headOff := 511 }).ring 13).headOff <
      ((h.modRing 13 fun x => { x with headOff := 511 }).ring 13).sectors ∧
    sectorsOf (List.replicate 449 (7 : Byte)).length ≤ (h.ring 13).sectors ∧ sectorsOf 449 = 2 ∧
    Memory.wf [(5, 1)] = true :=
  ⟨rfl, by decide +kernel⟩

/-! ### Witnesses: Picture Coder -/

/-- A picture of frame 0 in flight, captured from input 0. -/
def picture (x : Option Coding) : Flight :=
  { frame := { serial := 0, tc := .zero, phase := 0, jump := false }, source := 0, subst := none, aborted := false,
    captured := false, lineError := false, coding := x }

/-- Picture stream 0 with a picture in flight, and target 80,000 bits. -/
def coding (x : Option Coding) : Hub :=
  ringed.modCoder 0 fun c =>
    { c with built := true, target := 80000, size := 320000, fullness := 160000, q := 24, flight := [picture x] }

theorem witness_ReceiversJudgeInputs :
    let good : Measured := { format := some .hd, rate := some .r25 }
    let bad : Measured := { format := none, rate := some .r25 }
    let g := base.modInput 3 fun x => { x with present := true, locked := true }
    (st g).held = false ∧ (g.inputs[(3 : Fin 4)]).present = true ∧ (base.inputs[(3 : Fin 4)]).present = false ∧
    (good.format = some (g.inputs[(3 : Fin 4)]).expected ∧ good.rate = some g.tb.rate) ∧
    ¬ (bad.format = some (g.inputs[(3 : Fin 4)]).expected ∧ bad.rate = some g.tb.rate) ∧
    (g.inputs[(3 : Fin 4)]).locked = true ∧ (base.inputs[(3 : Fin 4)]).locked = false := by decide

/-- Ahead of a tick: an input that delivered a good picture and then a wrong one, one that delivered nothing, one without
signal that delivered a good picture under lock; picture stream 0 is OPEN without a picture in flight, and with one of the
frame before the last that is wholly captured. -/
theorem witness_ReceiversJudgeInputs_tick :
    let good : Measured := { format := some .hd, rate := some .r25 }
    let bad : Measured := { format := none, rate := some .r25 }
    let h := streams .opened
    let g := h.modInput 0 fun x => { x with present := true, locked := true, delivered := [good, bad] }
    let back := h.modInput 0 fun x => { x with locked := true, delivered := [good] }
    let f : Flight := { picture none with frame := h.tb.frame, captured := true }
    let second := h.modCoder 0 fun c => { c with flight := [f] }
    (st g).held = false ∧ g.tb.ref ≠ .locked ∧ (g.inputs[(0 : Fin 4)]).present = true ∧
    (∃ m ∈ (g.inputs[(0 : Fin 4)]).delivered, m.format = some (g.inputs[(0 : Fin 4)]).expected ∧ m.rate = some g.tb.rate) ∧
    ((g.modInput 1 fun x => { x with present := true }).inputs[(1 : Fin 4)]).delivered = [] ∧
    (back.inputs[(0 : Fin 4)]).present = false ∧ (back.inputs[(0 : Fin 4)]).locked = true ∧
    (h.inputs[(0 : Fin 4)]).present = false ∧ (h.inputs[(0 : Fin 4)]).locked = false ∧
    (h.coders[(0 : Fin 4)]).flight = [] ∧ (h.stream (pictureStream 0)).state = .opened ∧
    (h.stream (pictureStream 0)).global = false ∧ 4 ≤ (h.ring (pictureStream 0).castSucc).sectors ∧
    (second.coders[(0 : Fin 4)]).flight = [f] ∧ f.subst = none ∧ f.captured = true ∧
    (h.tb.frame.serial + 1 - f.frame.serial).toNat < 2 ∧ (base.stream (pictureStream 0)).state = .closed := by decide

/-- A picture to start, with a rate kept for its frame or for another, and a slice to start at the last of the 68 slices. -/
theorem witness_RateControl :
    let x : Coding := { i := 67, b := 79000, cPic := 240000, first := 24, last := 24, slice := none, coded := [] }
    (st (coding none)).held = false ∧ ((coding none).coders[(0 : Fin 4)]).flight = [picture none] ∧
    (picture none).subst = none ∧ (picture none).coding = none ∧
    [((0 : Word), 5)].find? (fun y => y.1 = (picture none).frame.serial) = some (0, 5) ∧
    [((1 : Word), 5)].find? (fun y => y.1 = (picture none).frame.serial) = none ∧
    ((coding (some x)).coders[(0 : Fin 4)]).flight = [picture (some x)] ∧ (picture (some x)).coding = some x ∧
    x.slice = none ∧ x.i < 68 ∧ 0 < ((coding (some x)).coders[(0 : Fin 4)]).target := by decide

/-- At a ceiling of 16 bits two bytes pass and three do not; the last slice; a picture of the frame before. -/
theorem witness_PicturesEnd :
    let x : Coding := { i := 66, b := 0, cPic := 16, first := 24, last := 24, slice := some 24, coded := [] }
    let y : Coding := { x with i := 67 }
    let late : Hub := { coding none with tb := { base.tb with frame := { base.tb.frame with serial := 1 } } }
    (st (coding (some x))).held = false ∧ ((coding (some x)).coders[(0 : Fin 4)]).flight = [picture (some x)] ∧
    (picture (some x)).coding = some x ∧ x.slice = some 24 ∧ x.b + 8 * ([1, 2] : Bytes).length ≤ x.cPic ∧
    x.i + 1 < ((coding (some x)).coders[(0 : Fin 4)]).format.slices ∧
    x.cPic < x.b + 8 * ([1, 2, 3] : Bytes).length ∧
    ((coding (some y)).coders[(0 : Fin 4)]).format.slices ≤ y.i + 1 ∧
    sectorsOf (y.coded ++ [1, 2]).length ≤ ((coding (some y)).ring 0).sectors / 2 ∧
    (late.coders[(0 : Fin 4)]).flight = [picture none] ∧ (picture none).subst = none ∧
    late.tb.frame.serial = (picture none).frame.serial + 1 := by decide

/-- The last slice of a picture whose unit is too long for its ring, of one that is committed, of one that a hold with DISCARD
or the ring's DISCARD policy keeps out; nothing waits behind it. -/
theorem witness_PicturesEnd_offers :
    let x : Coding := { i := 67, b := 0, cPic := 16, first := 24, last := 24, slice := some 24, coded := [] }
    let g := (coding (some x)).modStream 0 fun y => { y with state := .opened }
    let small := g.modRing 0 fun y => { y with size := 0 }
    let held := g.modStream 0 fun y => { y with state := .held, discard := true }
    let bad := g.modCoder 0 fun c => { c with flight := [{ picture (some x) with lineError := true }] }
    (st g).held = false ∧ (g.coders[(0 : Fin 4)]).format.slices ≤ x.i + 1 ∧ (g.coders[(0 : Fin 4)]).flight = [picture (some x)] ∧
    ([] : List Flight).dropWhile (fun y => y.subst != none) = [] ∧ (small.stream (pictureStream 0)).state ≠ .closed ∧
    ¬ (small.stream (pictureStream 0)).discard = true ∧ (small.ring 0).sectors / 2 < sectorsOf ([1, 2] : Bytes).length ∧
    (small.stream (pictureStream 0)).global = false ∧ (g.stream (pictureStream 0)).state ≠ .closed ∧
    ¬ (g.stream (pictureStream 0)).discard = true ∧ ¬ (g.ring 0).sectors / 2 < sectorsOf ([1, 2] : Bytes).length ∧
    (picture (some x)).lineError = false ∧ (g.ring 0).headOff < (g.ring 0).sectors ∧
    Memory.wf g.store.mem = true ∧ (held.stream (pictureStream 0)).discard = true ∧
    (held.stream (pictureStream 0)).state = .held ∧ (bad.ring 0).keep = false := by decide

theorem witness_CoderSettings :
    (st base).Serves c0 (some .code) none ∧ 3 < (4 : Byte).toNat ∧ 1 < (2 : Byte).toNat ∧ base.hasStream 0 3 = true ∧
    ((4 : Byte).toNat < 16 → base.hasStream c0.port (4 : Byte).toNat = true) ∧
    (1000000 : Word).toNat < (1000001 : Word).toNat ∧ (1000000 : Word).toNat ≤ (1000000 : Word).toNat ∧
    Format.uhd ≠ (base.coders[(3 : Fin 4)]).format ∧ ((streams .opened).stream (pictureStream 3)).state ≠ .closed ∧
    (base.stream (pictureStream 3)).state = .closed :=
  ⟨serves rfl _ _, by decide⟩

/-- A built context of an OPEN stream with a picture and no unit that waits; a stream in CLOSING. -/
theorem witness_CoderResetDiscards :
    (st (coding none)).Serves c0 (some .code) none ∧
    (∀ k : Fin 4, ∀ f ∈ ((coding none).coders[k]).flight, f.subst ≠ none → f.aborted = true) ∧
    ((coding none).coders[(0 : Fin 4)]).built = true ∧
    ((streams .closing).stream (pictureStream 0)).state = .closing :=
  ⟨serves rfl _ _, by decide⟩

/-! ### Witnesses: Sound Mixer -/

/-- At rate 25 a frame has 1920 samples. -/
theorem witness_SampleMixes :
    let g : Hub := { base with mixer := { base.mixer with sampleNo := 1920 } }
    (st base).held = false ∧ base.tb.frameRate.samples base.tb.frame.phase ≤ g.mixer.sampleNo ∧
    ({ g with mixer := { g.mixer with sampleNo := 1919 } } : Hub).mixer.sampleNo <
      base.tb.frameRate.samples base.tb.frame.phase := by decide

theorem witness_RampReachesTarget :
    let g : Gain := { g := 16384, target := 0, r := 2 }
    (st base).held = false ∧ base.mixer.sampleNo < base.tb.frameRate.samples base.tb.frame.phase ∧
    0 < g.r ∧ 2 ≤ g.r ∧ (Gain.silence).r = 0 := by decide

theorem witness_MixerCommands :
    (st base).Serves c0 (some .mix) none ∧ 63 < (64 : Byte).toNat ∧ 1 < (2 : Byte).toNat ∧ 15 < (16 : Byte).toNat ∧
    ((base.modChannel 63 fun x => { x with muteEnd := some 1, pendingDelay := some 9 }).mixer.channels[(63 : Fin 64)]).muteEnd =
      some 1 ∧
    (base.mixer.channels[(63 : Fin 64)]).muteEnd ≠ some 1 :=
  ⟨serves rfl _ _, by decide⟩

/-- Buses 0 and 1 in a frame: overloaded, begun to be silent, no longer silent; sound stream 4, OPEN, has packed n samples. -/
def packed (n : Nat) : Hub :=
  let g := ((ringed.modBus 0 fun x => { x with overloads := 3 }).modBus 1 fun x =>
    { x with run := 49 }).modBus 2 fun x => { x with peak := 5, silent := true }
  (g.modStream 4 fun x => { x with state := .opened }).modPack 0 fun x =>
    { x with state := .packing, buffer := List.replicate n (1, 2) }

theorem witness_TickClosesMixerFrame : (st (packed 0)).held = false ∧ (packed 0).tb.ref ≠ .locked ∧
    (∃ k : Fin 8, ∃ j a b : Fin 16, j.val = 4 + k.val ∧ a.val = 2 * k.val ∧ b.val = 2 * k.val + 1) ∧
    ((packed 0).mixer.buses[(0 : Fin 16)]).overloads ≠ 0 ∧ (packed 0).log.clips = [] ∧
    (∀ x : Fin 4, ((packed 0).log.triggers[x]).state ≠ .armed) ∧ ((packed 0).stream 12).state = .closed ∧
    ((packed 0).notices[(0 : Fin 4)]).mask.getLsbD 11 = true ∧ ((packed 0).notices[(0 : Fin 4)]).queue.length ≤ 12 ∧
    (packed 0).log.labels.length ≤ 2048 ∧
    ((packed 0).mixer.buses[(1 : Fin 16)]).peak ≤ ((packed 0).mixer.buses[(1 : Fin 16)]).threshold ∧
    ((packed 0).mixer.buses[(1 : Fin 16)]).silent = false ∧
    ((packed 0).mixer.buses[(1 : Fin 16)]).silenceFrames ≤ 49 + 1 ∧
    ((packed 0).mixer.buses[(2 : Fin 16)]).threshold < ((packed 0).mixer.buses[(2 : Fin 16)]).peak ∧
    ((packed 0).mixer.buses[(2 : Fin 16)]).silent = true := by decide

/-- At rate 25 the packed frame has 1920 samples; the rings lie apart.  Stream 4 OPEN, HELD with DISCARD, or with an error mark
and a ring whose policy is DISCARD. -/
theorem witness_TickClosesMixerFrame_units :
    let held := (packed 1920).modStream 4 fun x => { x with state := .held, discard := true }
    let bad := (packed 1920).modBus 1 fun x => { x with inputError := true }
    ((packed 1920).mixer.packs[(0 : Fin 8)]).state = .packing ∧ ((packed 1920).mixer.packs[(1 : Fin 8)]).state ≠ .packing ∧
    ((packed 1920).mixer.packs[(0 : Fin 8)]).buffer.length = 1920 ∧
    (packed 1920).tb.frameRate.samples (packed 1920).tb.frame.phase = 1920 ∧ ((packed 1920).stream 4).state ≠ .closed ∧
    ((packed 1920).stream 4).global = false ∧ 512 ≤ ((packed 1920).ring 4).sectors ∧ ((packed 1920).stream 4).discard = false ∧
    ((packed 1920).mixer.buses[(0 : Fin 16)]).inputError = false ∧ ((packed 1920).mixer.buses[(1 : Fin 16)]).inputError = false ∧
    Memory.wf (packed 1920).store.mem = true ∧ ((packed 1920).ring 4).headOff < ((packed 1920).ring 4).sectors ∧
    (∀ r : Fin 17, r ≠ 4 → ((packed 1920).ring r).base + ((packed 1920).ring r).size ≤ ((packed 1920).ring 4).base ∨
      ((packed 1920).ring 4).base + ((packed 1920).ring 4).size ≤ ((packed 1920).ring r).base) ∧
    (held.stream 4).discard = true ∧ (held.stream 4).state = .held ∧
    (bad.mixer.buses[(1 : Fin 16)]).inputError = true ∧ (bad.ring 4).keep = false ∧
    ((streams .closing).stream 4).state = .closing ∧ ((packed 1920).stream 4).buffer = [] := by
  decide +kernel

/-- Stream 4 HELD with port 0 its setter: one tick before the presence period of 25 is reached, and at the tick that reaches it,
where the port goes ABSENT. -/
theorem witness_TickClosesMixerFrame_held :
    let held := fun n : Nat => st (((packed 0).modStream 4 fun x => { x with state := .held, setter := some 0 }).modPort 0 fun x =>
      { x with timer := n })
    ((held 24).hub.stream 4).state = .held ∧ ((held 24).hub.stream 4).setter = some 0 ∧
    ((held 24).hub.ports[(0 : Fin 4)]).present = true ∧
    ((after (held 24) (.dividerExpiry {})).hub.ports[(0 : Fin 4)]).present = false ∧
    ((after (held 23) (.dividerExpiry {})).hub.ports[(0 : Fin 4)]).present = true := by
  decide +kernel

/-! ### Witnesses: Contribution Paths -/

/-- Path 0 enabled, in a state, with lines as the state needs them. -/
def linked (s : PathState) (ready : Bool) : Hub :=
  ringed.modPath 0 fun x =>
    { x with enabled := true, lines := if ready then 7 else 6, state := s, pauseCount := 11, baseline := some 5 }

/-- Carrier and link good, READY low: the pause count reaches its limit of 12, or the path became PAUSED for the coming frame;
a frame without a word; a reset at 3. -/
theorem witness_TickJudgesPaths :
    let e : Env := { lines := 6 }
    let paused := linked .paused false
    let silent := (linked .up true).modPath 0 fun x => { x with upAllFrame := true, heard := false }
    let reset := base.modPath 0 fun x => { x with state := .reset, hold := true, releaseDue := true, resetCount := 3 }
    (st paused).held = false ∧ (paused.paths.path[(0 : Fin 8)]).state = .paused ∧
    (paused.paths.path[(0 : Fin 8)]).hold = false ∧ (paused.paths.path[(0 : Fin 8)]).enabled = true ∧
    (paused.paths.path[(0 : Fin 8)]).loss = false ∧
    (BitVec.ofNat 4 (e.lines.toNat / 16 ^ (0 : Fin 8).val)).getLsbD 0 = false ∧
    (BitVec.ofNat 4 (e.lines.toNat / 16 ^ (0 : Fin 8).val)).getLsbD 1 = true ∧
    (BitVec.ofNat 4 (e.lines.toNat / 16 ^ (0 : Fin 8).val)).getLsbD 2 = true ∧
    ¬ ((paused.paths.path[(0 : Fin 8)]).upAllFrame = true ∧ (paused.paths.path[(0 : Fin 8)]).heard = false) ∧
    (paused.paths.path[(0 : Fin 8)]).pauseLimit ≤ (paused.paths.path[(0 : Fin 8)]).pauseCount + 1 ∧
    (paused.paths.path[(0 : Fin 8)]).pausedIn ≠ paused.tb.frame.serial + 1 ∧
    ((paused.modPath 0 fun x => { x with pausedIn := 1 }).paths.path[(0 : Fin 8)]).pausedIn = paused.tb.frame.serial + 1 ∧
    (paused.paths.path[(0 : Fin 8)]).timeoutMark = false ∧ paused.tb.ref ≠ .locked ∧
    ((paused.modPath 0 fun x => { x with pauseCount := 10 }).paths.path[(0 : Fin 8)]).pauseCount + 1 < 12 ∧
    (base.paths.path[(0 : Fin 8)]).state ≠ .paused ∧ (silent.paths.path[(0 : Fin 8)]).state = .up ∧
    ((silent.paths.path[(0 : Fin 8)]).upAllFrame = true ∧ (silent.paths.path[(0 : Fin 8)]).heard = false) ∧
    (silent.paths.path[(0 : Fin 8)]).hold = false ∧ (silent.paths.path[(0 : Fin 8)]).enabled = true ∧
    (reset.paths.path[(0 : Fin 8)]).state = .reset ∧ (reset.paths.path[(0 : Fin 8)]).hold = true ∧
    (reset.paths.path[(0 : Fin 8)]).releaseDue = true ∧ (reset.paths.path[(0 : Fin 8)]).resetCount = 3 ∧
    (base.paths.path[(0 : Fin 8)]).releaseDue = false := by decide

/-- A path that was silent all frame and is UP before a tick and DOWN after it, with a cycle and a manual gauge running. -/
theorem witness_TickJudgesPaths_gauge :
    let g := ((linked .up true).modPath 0 fun x => { x with upAllFrame := true, heard := false }).modGauge 0 fun x =>
      { x with phase := .step1, manual := .running }
    let t := (after (st g) (.dividerExpiry { lines := 7 })).hub
    (g.paths.path[(0 : Fin 8)]).state = .up ∧ (g.gauges.path[(0 : Fin 8)]).manual ≠ .idle ∧
    (t.paths.path[(0 : Fin 8)]).state = .down := by decide +kernel

/-- A path that is UP, evaluated, with room for its label: at the tick CARRIER falls, another bit of the pins being high for
path 1, and the path goes DOWN with both notices and its label; one that ends its reset there brings its bond into force. -/
theorem witness_TickJudgesPaths_moves :
    let g := linked .up true
    let t := (after (st g) (.dividerExpiry { lines := 0x15 })).hub
    let reset := (base.modPath 0 fun x => { x with state := .reset, hold := true, releaseDue := true, resetCount := 3 }).modBond 0
      fun x => { x with setting := true, odd := true }
    let u := (after (st reset) (.dividerExpiry {})).hub
    (st g).held = false ∧ g.tb.ref ≠ .locked ∧ g.PathsEvaluated ∧ (g.paths.path[(0 : Fin 8)]).lines = 7 ∧
    g.log.labels.length ≤ 2048 ∧ g.log.keeps .pathDown .link = true ∧
    (t.paths.path[(0 : Fin 8)]).state = .down ∧ (t.paths.path[(0 : Fin 8)]).lines = 5 ∧
    (g.notices[(0 : Fin 4)]).mask.getLsbD 12 = true ∧ (g.notices[(0 : Fin 4)]).mask.getLsbD 13 = true ∧
    (t.notices[(0 : Fin 4)]).queue.length < 32 ∧
    (u.paths.path[(0 : Fin 8)]).state = .off ∧ (u.paths.bonds[(0 : Fin 4)]) = { setting := true, inForce := true, odd := false } := by
  refine ⟨rfl, by decide, fun p => Path.table38_of_evaluate ?_, by decide +kernel⟩
  revert p
  decide

/-- The report of count 5 with its right check; without a baseline, behind it by one, and 2^31 ahead of it. -/
theorem witness_BackChannelIsJudged :
    let g := linked .paused false
    (st g).held = false ∧ (g.paths.path[(0 : Fin 8)]).state = .paused ∧ (g.paths.path[(0 : Fin 8)]).hold = false ∧
    (g.paths.path[(0 : Fin 8)]).enabled = true ∧ (base.paths.path[(0 : Fin 8)]).state = .off ∧
    crc32 (1 :: le 3 (0 : BitVec 24).toNat ++ le 4 (5 : Word).toNat) = 0x9E562FC5 ∧
    ((g.modPath 0 fun x => { x with baseline := none }).paths.path[(0 : Fin 8)]).baseline = none ∧
    (g.paths.path[(0 : Fin 8)]).baseline = some 5 ∧ 2147483648 < ((4 : Word) - 5).toNat ∧
    ((2147483653 : Word) - 5).toNat ≤ 2147483648 := by decide +kernel

/-- D holds the pair 0 and 1, bonded, with path 1 UP: fragment 0 of unit 0 maps to the pair's odd path. -/
theorem witness_FragmentsMapToMembers :
    let g : Paths :=
      { (linked .down true).paths with
        spread := 3
        bonds := base.paths.bonds.set 0 { setting := true, inForce := true, odd := false }
        path := (linked .down true).paths.path.set 1 { base.paths.path[(1 : Fin 8)] with state := .up } }
    let mask := ((g.directed.find? fun d => d.1 = (13 : Fin 16)).map Prod.snd).getD g.spread
    let list := (List.finRange 8).filter fun p : Fin 8 =>
      mask.getLsbD p.val && (!(g.bonds[(⟨p.val / 2, by omega⟩ : Fin 4)]).inForce || p.val % 2 == 0)
    list = [0] ∧ 0 < list.length ∧ list[((0 : Word).toNat + 0 + 0) % list.length]? = some 0 ∧
    (g.path[(1 : Fin 8)]).state = .up ∧ (g.path[(0 : Fin 8)]).state ≠ .up ∧ (g.bonds[(0 : Fin 4)]).inForce = true ∧
    ∀ p ∈ list, ¬ ((base.paths.path[p]).state = .up ∨
      ((base.paths.bonds[(⟨p.val / 2, by omega⟩ : Fin 4)]).inForce = true)) := by decide

/-- Ring 13 with units 0 and 1, OPEN. -/
def twoUnits : Hub := (loaded 13 .opened false).modRing 13 fun x =>
  { x with index := [entry 13 0 none, entry 13 1 none], head := 2 }

/-- A unit of one fragment in the send context of its ring. -/
def taken (k : Fin 16) : Taken :=
  { stream := k, unit := 0, g := none, bytes := List.replicate 68 1, next := 0, serial := 0, flags := {} }

/-- Unit 0 flagged DAMAGED. -/
def hurt : Entry := { entry 13 0 none with flags := { damaged := true } }

/-- Ring 13 with unit 0 flagged, and held in the context since before that. -/
def hurtHeld : Hub := (twoUnits.modRing 13 fun x => { x with index := [hurt, entry 13 1 none] }).modSend 13 fun x =>
  { x with taken := some (taken 13) }

/-- Nothing to send; a unit held; unit 0 passed as flagged after its take-up, and unit 1 behind it; unit 0 passed by its read; a
unit of ring G whose stream is held, at the head; both units passed by their reads. -/
theorem witness_TakeUpReadsUnit :
    let held := loaded 13 .held true
    (st twoUnits).held = false ∧ base.backlogged 13 = false ∧ twoUnits.backlogged 13 = true ∧
    (twoUnits.paths.sends[(13 : Fin 17)]).taken = none ∧ hurtHeld.backlogged 13 = true ∧
    hurtHeld.HoldsFlagged 13 (taken 13) hurt ∧
    (hurtHeld.ring 13).index.find? (fun x => x.unit = (hurtHeld.ring 13).send + BitVec.ofNat 32 0) = some hurt ∧
    (hurtHeld.ring 13).index.find? (fun x => x.unit = (hurtHeld.ring 13).send + BitVec.ofNat 32 1) = some (entry 13 1 none) ∧
    ([] : List Entry).Sublist [hurt] ∧ [hurt].length < ((hurtHeld.ring 13).head - (hurtHeld.ring 13).send).toNat ∧
    (entry 13 1 none).flags.damaged = false ∧ [entry 13 0 none].Sublist [entry 13 0 none] ∧
    (twoUnits.ring 13).index.find? (fun x => x.unit = (twoUnits.ring 13).send + BitVec.ofNat 32 0) = some (entry 13 0 none) ∧
    ([({ uncorrectable := true } : ReadFault)].getD 0 {}).uncorrectable = true ∧
    ([({ uncorrectable := true } : ReadFault)].getD 1 {}).uncorrectable = false ∧
    [entry 13 0 none, entry 13 1 none].length = ((twoUnits.ring 13).head - (twoUnits.ring 13).send).toNat ∧
    held.backlogged 16 = true ∧ (held.paths.sends[(16 : Fin 17)]).taken = none ∧
    (held.ring 16).index.find? (fun x => x.g.getD 0 = (held.ring 16).send + BitVec.ofNat 32 0) = some (entry 13 0 (some 0)) ∧
    (held.stream 13).state = .held ∧ [entry 13 0 (some 0)].length = ((held.ring 16).head - (held.ring 16).send).toNat := by
  refine ⟨by decide, by decide, by decide, by decide, by decide, ⟨by decide, by decide, by decide, by decide⟩, ?_⟩
  decide

/-- Streams given by their numbers have a unit taken up; D is path 0, which is UP. -/
def sending (ks : List (Fin 16)) : Hub :=
  let g := ks.foldl (fun h k => (h.modRing k.castSucc fun x => { x with index := [entry k 0 none], head := 1 }).modSend
    k.castSucc fun x => { x with taken := some (taken k) }) (linked .up true)
  { g with paths := { g.paths with spread := 1 } }

/-- The same with the unit of an OPEN stream k, bound GLOBAL, in ring G. -/
def sendingG (ks : List (Fin 16)) (k : Fin 16) : Hub :=
  ((sending ks).modRing 16 fun x => { x with index := [entry k 0 (some 0)], head := 1 }).modSend 16 fun x =>
    { x with taken := some { taken k with g := some 0 } }

/-- A ring whose units are not flagged is ready when it holds a unit or has nothing to send, and ring G's is not passed. -/
theorem ready_of {h : Hub} {r : Fin 17} (held : h.backlogged r = true → (h.paths.sends[r]).taken ≠ none)
    (clear : ∀ y ∈ (h.ring r).index, y.flags.damaged = false)
    (sent : ∀ x ∈ (h.paths.sends[r]).taken, r = 16 → ¬ h.PassesOver x.stream (x.g.getD 0)) : h.Ready r := by
  refine ⟨held, fun x y hy => ?_, fun x hr hx => sent x hx hr⟩
  have := clear y (List.mem_of_find?_eq_some hy.2.2.2)
  rw [hy.2.2.1] at this
  cases this

/-- An OPEN stream with release mark 0 has no unit that ring G passes at tail 0. -/
theorem sendingG_takenUp : (sendingG [4] 12).TakenUp := fun r =>
  ready_of (by revert r; decide) (by revert r; decide) (by
    intro x hx hr
    subst hr
    cases hx
    unfold Hub.PassesOver
    decide)

/-- Rings 4 and G both supply path 0 with class 0; after ring 12 the next of the two in the order is G, after G it is 4.
Ring G's unit is passed once its stream is held, and ring 13's once it is flagged. -/
theorem witness_ClassZeroIsServedFirst :
    let g := (sendingG [4] 12).modArbiter 0 fun x => { x with last0 := 12 }
    (st g).held = false ∧ (g.paths.path[(0 : Fin 8)]).state = .up ∧ (g.paths.path[(0 : Fin 8)]).fifo.length < 64 ∧
    (sendingG [4] 12).TakenUp ∧ g.Supplies 0 16 { taken 12 with g := some 0 } false ∧ g.Supplies 0 4 (taken 4) false ∧
    (taken 12).IsClass0 ∧ (9 + 9 - (12 - 4)) % 10 ≤ (4 - 4 + 9 - (12 - 4)) % 10 + 10 ∧
    (base.paths.path[(0 : Fin 8)]).state ≠ .up ∧ 64 ≤ (List.replicate 64 ([] : Bytes)).length ∧
    (g.modStream 12 fun x => { x with state := .held }).PassesOver 12 0 ∧ hurtHeld.HoldsFlagged 13 (taken 13) hurt ∧
    hurtHeld.backlogged 13 = true := by
  refine ⟨rfl, by decide, by decide, sendingG_takenUp, ⟨by decide, by decide, by decide⟩, ⟨by decide, by decide, by decide⟩,
    ⟨by decide, by decide⟩, by decide, by decide, by decide, Or.inl (by decide), ?_⟩
  exact ⟨⟨by decide, by decide, by decide, by decide⟩, by decide⟩

/-- The rings but G are ready when ring G has to pass, and the rings but 13 when that one has to. -/
theorem witness_ClassZeroIsServedFirst_passing :
    (∀ q, q ≠ 16 → ((sendingG [4] 12).modStream 12 fun x => { x with state := .held }).Ready q) ∧
    ∀ q, q ≠ 13 → hurtHeld.Ready q := by
  constructor
  · intro q hq
    exact ready_of (by revert q; decide) (by revert q; decide) fun _ _ h => absurd h hq
  · intro q hq
    refine ready_of (by revert q; decide) (by revert q; decide) ?_
    intro x hx hr
    subst hr
    cases hx

/-- Ring 13 supplies path 0 with class 1 and has a deficit of exactly the payload, or one byte less. -/
theorem witness_ClassOneSharesByDeficit :
    let g := (sending [13]).modArbiter 0 fun x => { x with cur1 := some 13, deficits := x.deficits.set 13 68 }
    let short := g.modArbiter 0 fun x => { x with deficits := x.deficits.set 13 67 }
    (st g).held = false ∧ (g.paths.path[(0 : Fin 8)]).state = .up ∧ (g.paths.path[(0 : Fin 8)]).fifo.length < 64 ∧
    g.TakenUp ∧ 13 ≤ ((g.paths.arbiters[(0 : Fin 8)]).cur1.getD 16).val ∧ g.Supplies 0 13 (taken 13) false ∧
    ¬ (taken 13).IsClass0 ∧ (((taken 13).bytes.drop (1200 * (taken 13).next)).take 1200).length ≤
      (g.paths.arbiters[(0 : Fin 8)]).deficits[(13 : Fin 17)] ∧
    (short.paths.arbiters[(0 : Fin 8)]).deficits[(13 : Fin 17)] <
      (((taken 13).bytes.drop (1200 * (taken 13).next)).take 1200).length ∧
    (sendingG [13] 14).Supplies 0 16 { taken 14 with g := some 0 } false := by
  refine ⟨rfl, by decide, by decide, fun r => ?_, by decide, ⟨by decide, by decide, by decide⟩, ?_⟩
  · refine ready_of (by revert r; decide) (by revert r; decide) ?_
    intro x hx hr
    subst hr
    cases hx
  · exact ⟨fun h => absurd h.2 (by decide), by decide, by decide, ⟨by decide, by decide, by decide⟩⟩

/-- R103, R159: the unit of picture stream 0 is supplied with its last fragment, whose placement sets the sent mark. -/
theorem witness_ClassOneSharesByDeficit_sent :
    let t := (after (st (sending [0])) (.fragmentPlacement {} 0)).hub
    (sending [0]).Supplies 0 0 (taken 0) false ∧ ¬ (taken 0).IsClass0 ∧ (taken 0).stream = pictureStream 0 ∧
    ((taken 0).bytes.length + 1199) / 1200 ≤ (taken 0).next + 1 ∧ (base.tally.sent[(0 : Fin 4)]) = false ∧
    t.tally.sent[(0 : Fin 4)] = true ∧ t.tally.sent[(1 : Fin 4)] = false :=
  ⟨⟨by decide, by decide, by decide⟩, fun h => absurd h.1 (by decide), by decide +kernel⟩

theorem witness_TransmissionEnds :
    let g := (linked .up true).modPath 0 fun x => { x with fifo := [[1], [2]], transmitting := true }
    (st g).held = false ∧ (g.paths.path[(0 : Fin 8)]).transmitting = true ∧
    (g.paths.path[(0 : Fin 8)]).fifo = [[1], [2]] ∧ (base.paths.path[(0 : Fin 8)]).transmitting = false := by decide

/-- An entry for stream 15 present, the list full with 8 entries, a pair that is still and one that is not. -/
theorem witness_LinkSettings :
    let full : List (Fin 16 × BitVec 8) := [(0, 1), (1, 1), (2, 1), (3, 1), (4, 1), (5, 1), (6, 1), (7, 1)]
    (st base).Serves c0 (some .link) none ∧ 15 < (16 : Byte).toNat ∧ base.hasStream 0 15 = true ∧
    (15, 1) ∈ [((15 : Fin 16), (1 : BitVec 8))] ∧ full.all (fun x => x.1 != 15) = true ∧ 8 ≤ full.length ∧
    (full.drop 1).length < 8 ∧ 3 < (4 : Byte).toNat ∧
    (∀ p : Fin 8, p.val / 2 = (3 : Fin 4).val → (base.paths.path[p]).state = .off) ∧
    (0 : Fin 8).val / 2 = (0 : Fin 4).val ∧ ((linked .up true).paths.path[(0 : Fin 8)]).state = .up :=
  ⟨serves rfl _ _, by decide⟩

theorem witness_PathCommandsEvaluate :
    let reset (n : Nat) := base.modPath 7 fun x => { x with state := .reset, hold := true, resetCount := n }
    (st base).Serves c0 (some .link) none ∧ 7 < (8 : Byte).toNat ∧ 2 < (3 : Byte).toNat ∧ (2 : Byte).toNat ≤ 2 ∧
    ((reset 3).paths.path[(7 : Fin 8)]).state = .reset ∧ ((reset 3).paths.path[(7 : Fin 8)]).resetCount < 4 ∧
    4 ≤ ((reset 4).paths.path[(7 : Fin 8)]).resetCount ∧ (base.paths.path[(7 : Fin 8)]).state ≠ .reset :=
  ⟨serves rfl _ _, by decide⟩

/-- PATH RESET of a path that is UP takes it out of UP, and SET PATH with enabled set leaves it UP. -/
theorem witness_PathCommandsEvaluate_gauge :
    let g := linked .up true
    (st g).Serves c0 (some .link) none ∧ (g.paths.path[(0 : Fin 8)]).state = .up ∧
    ((after (st g) (.pathReset c0 0)).hub.paths.path[(0 : Fin 8)]).state = .reset ∧
    ((after (st g) (.setPath c0 0 true 12 100)).hub.paths.path[(0 : Fin 8)]).state = .up :=
  ⟨serves rfl _ _, by decide +kernel⟩

/-- SET PATH takes a path of a pair with a bond to come from OFF to UP, and one that is UP with a packet to OFF; PATH RESET takes
one from OFF to RESET.  There is room for the labels and the notices. -/
theorem witness_PathCommandsEvaluate_moves :
    let off := (linked .off true).modPath 0 fun x => { x with enabled := false }
    let g := off.modBond 0 fun x => { x with setting := true, odd := true }
    let up := (linked .up true).modPath 0 fun x => { x with fifo := [[1]] }
    let bond : Bond := { setting := true, inForce := true, odd := false }
    let t := (after (st g) (.setPath c0 0 true 12 100)).hub
    let u := (after (st up) (.setPath c0 0 false 12 100)).hub
    (st g).Serves c0 (some .link) none ∧ (g.paths.path[(0 : Fin 8)]).state = .off ∧ g.log.labels.length ≤ 2048 ∧
    g.log.keeps .pathUp .link = true ∧ (t.paths.path[(0 : Fin 8)]).state = .up ∧ t.paths.bonds[(0 : Fin 4)] = bond ∧
    (t.notices[(0 : Fin 4)]).queue.length < 32 ∧
    ((after (st g) (.pathReset c0 0)).hub.paths.path[(0 : Fin 8)]).state = .reset ∧
    (up.paths.path[(0 : Fin 8)]).state = .up ∧ (u.paths.path[(0 : Fin 8)]).state = .off ∧
    (u.paths.path[(0 : Fin 8)]).fifo = [] :=
  ⟨serves rfl _ _, by decide +kernel⟩

/-! ### Witnesses: Gauge and Budget -/

/-- Path 0 UP with a baseline of 5, its gauge as given. -/
def gauged (f : Gauge → Gauge) : Hub := (linked .up true).modGauge 0 f

theorem witness_GaugesEnd :
    let one := gauged fun x => { x with phase := .step1, g := 1080000, remaining := 1, sum := 7 }
    let none' := gauged fun x => { x with phase := .step1, g := 1080000, remaining := 1 }
    let two := gauged fun x => { x with phase := .step2, g := 1080000, v0 := 7 }
    let time := gauged fun x => { x with manual := .running, gate := 3, manualTicks := 2 }
    let volume := gauged fun x => { x with manual := .running, volume := true, gate := 3 }
    (st one).held = false ∧ (one.gauges.path[(0 : Fin 8)]).phase = .step1 ∧
    (one.gauges.path[(0 : Fin 8)]).remaining ≤ 1 ∧ 0 < (one.gauges.path[(0 : Fin 8)]).sum ∧
    (none'.gauges.path[(0 : Fin 8)]).sum = 0 ∧ (two.gauges.path[(0 : Fin 8)]).phase = .step2 ∧
    (time.gauges.path[(0 : Fin 8)]).manual = .running ∧ (time.gauges.path[(0 : Fin 8)]).volume = false ∧
    (time.gauges.path[(0 : Fin 8)]).gate ≤ (time.gauges.path[(0 : Fin 8)]).manualTicks + 1 ∧
    (volume.gauges.path[(0 : Fin 8)]).manual = .running ∧ (volume.gauges.path[(0 : Fin 8)]).volume = true ∧
    (base.gauges.path[(0 : Fin 8)]).phase = .idle ∧ (base.gauges.path[(0 : Fin 8)]).manual = .idle := by decide

/-- Ahead of a tick: a path that stays UP, with its lines at READY, carrier and link good; an idle cycle with the auto flag on
and off, step 1 with two frames to run, a TIME gauge that waits and one a frame short of its gate. -/
theorem witness_GaugesEnd_tick :
    let e : Env := { lines := 7 }
    let g := gauged fun x => { x with phase := .step1, remaining := 2 }
    let auto : Hub := { gauged id with gauges := { (gauged id).gauges with auto := true } }
    let waiting := gauged fun x => { x with manual := .waiting }
    let running := gauged fun x => { x with manual := .running, gate := 3, manualTicks := 1 }
    let z := (gauged id).paths.path[(0 : Fin 8)]
    (st g).held = false ∧ g.tb.ref ≠ .locked ∧ z.state = .up ∧ z.hold = false ∧ z.enabled = true ∧ z.loss = false ∧
    (BitVec.ofNat 4 (e.lines.toNat / 16 ^ (0 : Fin 8).val)) = 7 ∧ ¬ (z.upAllFrame = true ∧ z.heard = false) ∧
    1 < (g.gauges.path[(0 : Fin 8)]).remaining ∧ (auto.gauges.path[(0 : Fin 8)]).phase ≠ .step1 ∧ auto.gauges.auto = true ∧
    (gauged id).gauges.auto = false ∧ (waiting.gauges.path[(0 : Fin 8)]).manual ≠ .running ∧
    (running.gauges.path[(0 : Fin 8)]).manualTicks + 1 < (running.gauges.path[(0 : Fin 8)]).gate ∧
    (base.paths.path[(0 : Fin 8)]).state ≠ .up := by decide

/-- An increment of 2^31, the largest; V0 and the gate reached exactly, and missed by one. -/
theorem witness_IncrementsReachTheGauge :
    let two := gauged fun x => { x with phase := .step2, g := 1080000, v0 := 2147483648 }
    let volume := gauged fun x => { x with manual := .running, volume := true, gate := 2147483648 }
    let n := ((2147483653 : Word) - 5).toNat
    (st two).held = false ∧ (two.paths.path[(0 : Fin 8)]).state = .up ∧
    (two.paths.path[(0 : Fin 8)]).baseline = some 5 ∧ n ≤ 2147483648 ∧
    (two.gauges.path[(0 : Fin 8)]).phase = .step2 ∧ (two.gauges.path[(0 : Fin 8)]).manual ≠ .running ∧
    (two.gauges.path[(0 : Fin 8)]).v0 ≤ (two.gauges.path[(0 : Fin 8)]).sum + n ∧
    (two.gauges.path[(0 : Fin 8)]).sum + (n - 1) < (two.gauges.path[(0 : Fin 8)]).v0 ∧
    (volume.gauges.path[(0 : Fin 8)]).phase = .idle ∧ (volume.gauges.path[(0 : Fin 8)]).manual = .running ∧
    (volume.gauges.path[(0 : Fin 8)]).volume = true ∧
    (volume.gauges.path[(0 : Fin 8)]).gate ≤ (volume.gauges.path[(0 : Fin 8)]).manualSum + n ∧
    (volume.gauges.path[(0 : Fin 8)]).manualSum + (n - 1) < (volume.gauges.path[(0 : Fin 8)]).gate ∧
    ((gauged fun x => { x with phase := .step1 }).gauges.path[(0 : Fin 8)]).phase = .step1 := by decide

theorem witness_GaugeCommands :
    let g := gauged id
    let running := gauged fun x => { x with manual := .running }
    let auto : Hub := { g with gauges := { g.gauges with auto := true } }
    (st base).Serves c0 (some .gauge) none ∧ 7 < (8 : Byte).toNat ∧ 1 < (2 : Byte).toNat ∧
    2147483648 < (2147483649 : Word).toNat ∧ (2147483648 : Word).toNat ≤ 2147483648 ∧ (1 : Word) ≠ 0 ∧
    g.gauges.auto = false ∧ (g.paths.path[(0 : Fin 8)]).state = .up ∧ (g.gauges.path[(0 : Fin 8)]).manual = .idle ∧
    auto.gauges.auto = true ∧ (running.gauges.path[(0 : Fin 8)]).manual ≠ .idle ∧
    ((gauged fun x => { x with phase := .step2 }).gauges.path[(0 : Fin 8)]).phase ≠ .idle :=
  ⟨serves rfl _ _, by decide⟩

/-- A FIXED and an AUTO picture stream, both OPEN, and one that is not. -/
theorem witness_BudgetRecomputes :
    let g := (streams .opened).modCoder 1 fun x => { x with fixed := true }
    (st g).Serves c0 (some .gauge) none ∧ 1 < (2 : Byte).toNat ∧ (g.stream (pictureStream 1)).state = .opened ∧
    (g.coders[(1 : Fin 4)]).fixed = true ∧ (g.coders[(0 : Fin 4)]).fixed = false ∧
    (base.stream (pictureStream 0)).state ≠ .opened :=
  ⟨serves rfl _ _, by decide⟩

/-! ### Witnesses: Clip Log -/

/-- A mask of no stream, a name of 65 bytes, 16 clips OPEN, the last clip number. -/
theorem witness_OpenClipAddsDescriptor :
    let noAux : Hub := base.modPort 0 fun x => { x with streams := 0x7FFF }
    (st base).Serves c0 (some .log) none ∧ (st noAux).held = false ∧ 64 < (65 : Byte).toNat ∧
    ((0x8000 : BitVec 16).getLsbD (15 : Fin 16).val = true ∧ noAux.hasStream 0 (15 : Fin 16).val = false) ∧
    16 ≤ (((List.replicate 16 (clip .opened)).filter fun x : Clip => x.state = .opened ∨ x.state = .closing).length) ∧
    4294967295 < ({ base with log := { base.log with nextClip := 4294967296 } } : Hub).log.nextClip ∧
    ¬ (16 ≤ (base.log.clips.filter fun x : Clip => x.state = .opened ∨ x.state = .closing).length ∨
      (256 ≤ base.log.clips.length ∧ ∀ x ∈ base.log.clips, x.state ≠ .lapsed) ∨ 4294967295 < base.log.nextClip) :=
  ⟨serves rfl _ _, by decide⟩

theorem witness_ClipsCloseAndLeave :
    let other : Hub := { base with log := { base.log with
      clips := [{ clip .opened with owner := .port 1 }], nextClip := 2 } }
    let due : Hub := { base with log := { base.log with clips := [{ clip .opened with limitDue := true }], nextClip := 2 } }
    let supply : Hub := { base with log := { base.log with supply := true } }
    (st base).Serves c0 (some .log) none ∧ base.log.nextClip ≤ (1 : Word).toNat ∧
    ((clipped base .opened).log.nextClip = 2 ∧
      (clipped base .opened).log.clips.find? (fun y : Clip => y.number = 1) = some (clip .opened)) ∧
    ({ base with log := { base.log with nextClip := 2 } } : Hub).log.clips.find? (fun y : Clip => y.number = 1) = none ∧
    (∃ x ∈ other.log.clips, x.owner = .port 1 ∧ (1 : Fin 4) ≠ c0.port) ∧
    (clip .closed).state ≠ .opened ∧ (clip .lapsed).state = .lapsed ∧
    ((clip .closed).mask.getLsbD (15 : Fin 16).val = true ∧
      (base.modPort 0 fun x => { x with streams := 0x7FFF }).hasStream 0 (15 : Fin 16).val = false) ∧
    (∃ x ∈ due.log.clips, x.state = .opened ∧ x.number = 1 ∧ x.limitDue = true) ∧ supply.log.supply = true ∧
    base.log.supply = false := by
  refine ⟨serves rfl _ _, by decide, ⟨rfl, by decide⟩, by decide, ⟨_, List.mem_singleton.mpr rfl, by decide⟩, by decide,
    by decide, by decide, ⟨_, List.mem_singleton.mpr rfl, by decide⟩, by decide⟩

/-- A clip in CLOSING that ends at serial 1 and has passed streams 1 to 15: stream 0 passes as CLOSED, by a picture dated 1 but
not 0, and not while it is OPEN. -/
theorem witness_ClipsCloseAndLeave_tests :
    let x : Clip := { clip .closing with endSerial := some 1, passed := 0xFFFE }
    let h := fun s => { streams s with log := { base.log with clips := [x], nextClip := 2 } }
    (h .opened).log.clips[0]? = some x ∧ x.mask.getLsbD (0 : Fin 16).val = true ∧
    ((h .closed).stream 0).state = .closed ∧ ((h .opened).stream 0).state = .opened ∧ ((h .held).stream 0).discard = false ∧
    ((1 : Word) - 1).toNat < 2147483648 ∧ ¬ ((0 : Word) - 1).toNat < 2147483648 ∧
    (x.passed ||| (1#16 <<< 0)) = x.mask ∧ x.passed ≠ x.mask ∧ base.hasClass 0 .log = true ∧ base.tb.ref ≠ .locked := by
  decide

theorem clipped_clipsOrdered (s : ClipState) : (clipped base s).ClipsOrdered := by
  refine ⟨List.pairwise_singleton _ _, ?_, ?_⟩
  · show 2 ≤ 4294967296
    decide
  · intro c hc
    cases List.mem_singleton.mp hc
    show (1#32).toNat < 2
    decide

/-- A text of 64 and of 65 bytes; a clip that is named, unknown, gone or LAPSED; a trigger on the label kind NOTE. -/
theorem witness_LabelsAreFiled :
    let l : ClipLog := { base.log with
      triggers := base.log.triggers.set 0 { base.log.triggers[(0 : Fin 4)] with
        kind := some .note, pattern := 3, mask := 0, action := .stop 1, state := .armed } }
    (st base).Serves c0 (some .log) none ∧ (64 : Byte).toNat ≤ 64 ∧ 64 < (65 : Byte).toNat ∧ 1 < (2 : Byte).toNat ∧
    (∀ k : Fin 4, (base.log.triggers[k]).state ≠ .armed) ∧ base.log.keeps .note (.port 0) = true ∧
    ({ base.log with selection := Vector.replicate 108 false } : ClipLog).keeps .note (.port 0) = false ∧
    (base.stream 12).state = .closed ∧ base.log.labels.length < 4096 ∧
    ((clipped base .opened).log.clips.find? (fun y : Clip => y.number = 1) = some (clip .opened) ∧
      (clip .opened).state ≠ .lapsed ∧ 1 < (clipped base .opened).log.nextClip) ∧ (clip .lapsed).state = .lapsed ∧
    ((l.triggers[(0 : Fin 4)]).state = .armed ∧ (l.triggers[(0 : Fin 4)]).kind = some .note ∧
      (l.triggers[(0 : Fin 4)]).source = none ∧
      (none : Option Word).getD 0 &&& (l.triggers[(0 : Fin 4)]).mask =
        (l.triggers[(0 : Fin 4)]).pattern &&& (l.triggers[(0 : Fin 4)]).mask ∧
      (l.triggers[(0 : Fin 4)]).action = .stop 1) ∧
    (∀ j : Fin 4, j ≠ 0 → (l.triggers[j]).state ≠ .armed) ∧ l.canOpen = true ∧
    ({ l with nextClip := 4294967296 } : ClipLog).canOpen = false :=
  ⟨serves rfl _ _, by decide⟩

theorem witness_LogSettings :
    let noAux : Hub := base.modPort 0 fun x => { x with streams := 0x7FFF }
    let armed := base.modTrigger 3 fun x => { x with kind := some .note, state := .armed }
    (st base).Serves c0 (some .log) none ∧ (11 < (12 : Byte).toNat ∧ (12 : Byte) ≠ 255) ∧
    (8 < (9 : Byte).toNat ∧ (9 : Byte) ≠ 255) ∧ (8 : Byte).toNat ≤ 8 ∧ (11 : Byte).toNat ≤ 11 ∧ 3 < (4 : Byte).toNat ∧
    10 < (11 : Byte).toNat ∧ 1 < (2 : Byte).toNat ∧ LabelKind.note ≠ .trigger ∧ Action.start 1 ≠ .start 0 ∧
    ((0x8000 : BitVec 16).getLsbD (15 : Fin 16).val = true ∧ noAux.hasStream 0 (15 : Fin 16).val = false) ∧
    (armed.log.triggers[(3 : Fin 4)]).state = .armed ∧ (base.log.triggers[(3 : Fin 4)]).state ≠ .armed ∧
    (base.log.triggers[(3 : Fin 4)]).kind = none ∧ (armed.log.triggers[(3 : Fin 4)]).kind ≠ none ∧
    base.log.supply = false :=
  ⟨serves rfl _ _, by decide⟩

/-! ### Witnesses: tally, ports, notices -/

theorem witness_TallySettings :
    (st base).Serves c0 (some .tally) none ∧ base.tb.ref ≠ .locked ∧ 15 < (16 : Byte).toNat ∧ 3 < (4 : Byte).toNat ∧
    7 < (8 : Byte).toNat ∧
    (3 : Byte).toNat ≤ 3 ∧ (∃ n : Fin 8, TallySource.path 7 = .path n ∧ (7 : Byte) = byte n.val) :=
  ⟨serves rfl _ _, by decide, by decide, by decide, by decide, by decide, 7, rfl, rfl⟩

/-- A port that is no editor has no RIGHTS; a period of 25 frames, the tick that brings the timer to 25 and the one before; half
a pair at the very moment and a cycle after it. -/
theorem witness_RightsAndPresence :
    let plain : Hub := Hub.released 0x70 false {}
    let granted := plain.modPort 0 fun x => { x with classes := 0x7FF }
    let timed (n : Nat) := base.modPort 0 fun x => { x with timer := n }
    (st base).Serves c0 (some .rights) none ∧ base.strap.getLsbD 3 = true ∧ 3 < (4 : Byte).toNat ∧
    (st granted).Serves c0 (some .rights) none ∧ granted.strap.getLsbD 3 = false ∧ 1 < (2 : Byte).toNat ∧
    plain.strap.toNat % 4 = 0 ∧ base.strap.toNat % 4 = 1 ∧
    decide ((1 : Byte) = 1) ≠ (base.ports[(0 : Fin 4)]).expectOdd ∧
    ((base.modPort 0 fun x => { x with expectOdd := true }).ports[(0 : Fin 4)]).expectOdd = true ∧
    ((base.modPort 0 fun x => { x with present := false }).ports[(0 : Fin 4)]).present = false ∧
    ((timed 23).ports[(0 : Fin 4)]).timer + 1 < 25 ∧ 25 ≤ ((timed 24).ports[(0 : Fin 4)]).timer + 1 ∧
    ((timed 24).ports[(0 : Fin 4)]).present = true ∧ base.tb.ref ≠ .locked ∧
    ((base.modPort 0 fun x => { x with half := some 0 }).ports[(0 : Fin 4)]).half = some (base.now + c0.env.dt) ∧
    ((base.modPort 0 fun x => { x with half := some 0 }).ports[(0 : Fin 4)]).half ≠ some (base.now + 1) := by
  refine ⟨serves rfl _ _, by decide, by decide, ⟨rfl, by decide, fun x _ => ?_, fun k h => by cases h⟩, by decide⟩
  cases x <;> decide

theorem witness_HubResetClears : (st base).Serves c0 (some .part) none := serves rfl _ _

/-- The shortest record, READ PART (B1h) with tag 1, and the link busy or free. -/
theorem witness_LinksQueueCommands :
    let r : Bytes := recordOf 1 0xB1 []
    let x : Response := { tag := 0, code := 0xB1, outcome := .done, data := [] }
    let busy := base.modPort 0 fun y => { y with sending := some (false, x) }
    let full := base.modPort 0 fun y => { y with
      sending := some (true, x), queue := List.replicate 16 r, fullList := List.replicate 16 (1, 0xB1) }
    (st base).held = false ∧ r.length = 8 ∧ ofLe (r.take 2) = r.length ∧
    r.drop (r.length - 4) = le 4 (crc32 (r.take (r.length - 4))).toNat ∧
    (base.ports[(0 : Fin 4)]).sending = none ∧ (base.ports[(0 : Fin 4)]).fullList = [] ∧
    (base.ports[(0 : Fin 4)]).queue = [] ∧ (busy.ports[(0 : Fin 4)]).sending = some (false, x) ∧
    (busy.ports[(0 : Fin 4)]).queue.length < 16 ∧ 16 ≤ (full.ports[(0 : Fin 4)]).queue.length ∧
    16 ≤ (full.ports[(0 : Fin 4)]).fullList.length ∧ (full.ports[(0 : Fin 4)]).sending = some (true, x) := by
  decide +kernel

/-- A queue of 32 entries, a masked kind, a kind of the class LOG at a port without it, PORT_ABSENT of the port itself. -/
theorem witness_NoticesAreOffered :
    let x (k : NoticeKind) : Notice := { kind := k, param := 0, serial := 0 }
    let full := base.modNotice 0 fun n => { n with queue := List.replicate 32 (x .ringHalf) }
    let masked := base.modNotice 0 fun n => { n with mask := 0x100000 }
    let noLog := base.modPort 0 fun y => { y with classes := 0x100 }
    (x .portAbsent).param.toNat = (0 : Fin 4).val ∧ noLog.hasClass 0 .log = false ∧ base.hasClass 0 .log = true ∧
    (masked.notices[(0 : Fin 4)]).mask.getLsbD NoticeKind.ringHalf.code = false ∧
    (base.notices[(0 : Fin 4)]).mask.getLsbD NoticeKind.portPresent.code = true ∧
    (base.notices[(0 : Fin 4)]).queue.length < 32 ∧ 32 ≤ (full.notices[(0 : Fin 4)]).queue.length := by decide

theorem witness_NoticeStateFollowsCommands :
    let pulsing (n : Nat) (p : PulsePhase) := base.modNotice 0 fun x => { x with mode := .pulse, owed := n, pulse := p }
    (st base).Serves c0 none none ∧ (st base).Serves c0 (some .notice) none ∧ 2 < (3 : Byte).toNat ∧ (2 : Byte).toNat ≤ 2 ∧
    (((pulsing 1 .idle).notices[(0 : Fin 4)]).mode = .pulse ∧ 0 < ((pulsing 1 .idle).notices[(0 : Fin 4)]).owed) ∧
    ((pulsing 1 .asserted).notices[(0 : Fin 4)]).pulse = .asserted ∧
    ((pulsing 1 .interval).notices[(0 : Fin 4)]).pulse ≠ .idle ∧ (base.notices[(0 : Fin 4)]).pulse = .idle :=
  ⟨serves rfl _ _, serves rfl _ _, by decide⟩

/-- A port of every class serves every READ. -/
theorem witness_ReadsReturnRecords_serves : ∀ cls : CommandClass, (st base).Serves c0 (some cls) none :=
  fun _ => serves rfl _ _

/-- Numbers just out of range; a port without stream 15; a unit, a clip and a label that are held; the labels just before,
at and just after the one held, and the number that is at once too old and not yet given. -/
theorem witness_ReadsReturnRecords :
    let label : Label :=
      { number := 5, kind := .note, source := .port 0, serial := 0, tc := .zero, value := none, text := [] }
    let g : Hub :=
      { loaded 13 .opened false with log := { (clipped base .opened).log with labels := [label], nextLabel := 6 } }
    let noAux : Hub := base.modPort 0 fun x => { x with streams := 0x7FFF }
    (∀ k : Fin 16, g.hasStream c0.port k.val = true) ∧ (∃ k : Fin 16, 12 ≤ k.val ∧ ¬ noAux.hasStream 0 k.val = true) ∧
    4 ≤ (4 : Byte).toNat ∧ 8 ≤ (8 : Byte).toNat ∧ 16 ≤ (16 : Byte).toNat ∧ 17 ≤ (17 : Byte).toNat ∧ 64 ≤ (64 : Byte).toNat ∧
    (g.ring 13).index.find? (fun y => y.stream = 13 ∧ y.unit = 0) = some (entry 13 0 none) ∧
    (g.ring 13).index.find? (fun y => y.stream = 13 ∧ y.unit = 1) = none ∧
    g.log.clips.find? (fun y : Clip => y.number = 1) = some (clip .opened) ∧ g.log.nextClip = 2 ∧ 8 < (9 : Byte).toNat ∧
    ((6 : Word) - g.log.nextLabel).toNat < 2147483648 ∧ ¬ ((5 : Word) - g.log.nextLabel).toNat < 2147483648 ∧
    ¬ 2147483648 ≤ ((5 : Word) - 5).toNat ∧ 2147483648 ≤ ((4 : Word) - 5).toNat ∧
    (((2147483653 : Word) - g.log.nextLabel).toNat < 2147483648 ∧ 2147483648 ≤ ((2147483653 : Word) - 5).toNat) := by
  decide

/-! ### Witnesses: what every step keeps -/

theorem base_pathsEvaluated : base.PathsEvaluated := by
  intro p
  have hp : base.paths.path[p] = Path.released 0 := by
    revert p
    decide
  rw [hp]
  refine ⟨fun h => ?_, fun _ _ => ⟨rfl, rfl⟩, fun _ h => ?_⟩
  · cases h
  · cases h

/-- Ring 13 with unit 0 sent and unit 1 taken up, the units on both sides of the ring's end. -/
def stacked : Hub :=
  ((streams .opened).modRing 13 fun x =>
    { x with index := [{ entry 13 0 none with start := 511 }, entry 13 1 none], head := 2, send := 1, headOff := 1 }).modSend 13
      fun x => { x with taken := some (taken 13) }

/-- Rings in order, with OPEN STREAM waiting. -/
theorem witness_StoreStaysInForm :
    let s : State := { st stacked with pending := [.openStream c0 3] }
    s.hub.MemoryOk ∧ s.hub.RingsFit ∧ s.hub.RingsOrdered ∧ ∃ t, step s = .next t := by
  refine ⟨rfl, ?_, ⟨fun r => ⟨?_, ?_⟩, fun k => ⟨?_, ?_⟩⟩, _, rfl⟩
  · show stacked.RingsFit
    unfold Hub.RingsFit
    decide +kernel
  · show (stacked.ring r).Ordered r
    refine Ring.ordered_of_entries ?_ ?_ ?_
    · revert r
      decide +kernel
    · revert r
      decide +kernel
    · revert r
      decide +kernel
  · show (stacked.paths.sends[r]).taken ≠ none → (stacked.ring r).send ≠ (stacked.ring r).head
    revert r
    decide +kernel
  · show (stacked.stream k).global = true → (stacked.ring k.castSucc).index = []
    revert k
    decide +kernel
  · show ((stacked.ring 16).head - (stacked.stream k).releaseMark).toNat ≤ (stacked.ring 16).index.length
    revert k
    decide +kernel

theorem witness_PathsStayEvaluated :
    let s : State := { st base with pending := [.pathReset c0 3] }
    s.hub.PathsEvaluated ∧ s.hub.FifosFit ∧ ∃ t, step s = .next t := by
  refine ⟨base_pathsEvaluated, ?_, _, rfl⟩
  show base.FifosFit
  unfold Hub.FifosFit
  decide

/-- Port 3 is ABSENT and holds nothing; port 0 holds a path reset. -/
theorem witness_AbsentPortsHoldNothing :
    let h := (base.modPort 3 fun x => { x with present := false }).modPath 0 fun x => { x with holder := some 0 }
    let s : State := { st h with pending := [.portAbsent {} 0] }
    s.hub.AbsentHoldNothing ∧ (h.ports[(3 : Fin 4)]).present = false ∧ ∃ t, step s = .next t := by
  refine ⟨?_, by decide, _, rfl⟩
  show Hub.AbsentHoldNothing _
  unfold Hub.AbsentHoldNothing
  decide

theorem witness_BoundsAreKept :
    let s : State := { st (coding none) with pending := [.pictureStart {} 0] }
    s.hub.ListsFit ∧ s.hub.FixedRights ∧ s.hub.EnginesFit ∧ s.hub.BuffersFit ∧ s.hub.ClipsOrdered ∧
      ∃ t, step s = .next t := by
  refine ⟨?_, ?_, ?_, ?_, ⟨List.Pairwise.nil, by show 1 ≤ 4294967296; decide, fun _ h => absurd h List.not_mem_nil⟩, _, rfl⟩
  · show Hub.ListsFit _
    unfold Hub.ListsFit
    decide
  · show Hub.FixedRights _
    unfold Hub.FixedRights
    decide
  · show Hub.EnginesFit _
    unfold Hub.EnginesFit
    decide
  · show Hub.BuffersFit _
    unfold Hub.BuffersFit
    intro k
    refine ⟨?_, ?_, ?_⟩
    · revert k
      decide
    · revert k
      decide
    · intro f hf x hx
      have : ∀ k : Fin 4, ∀ f ∈ ((coding none).coders[k]).flight, f.coding = none := by decide
      rw [this k f (List.mem_of_mem_head? hf)] at hx
      cases hx

/-! ### The spec's worked examples and tables -/

/-- Table 12: the increment of 00:04:59;29 in DF counting is 00:05:00;02. -/
theorem test_increment_skips_dropped_labels :
    Timecode.increment .r2997 true { hours := 0, minutes := 4, seconds := 59, frames := 29, df := true } =
      ({ hours := 0, minutes := 5, seconds := 0, frames := 2, df := true }, false) := by decide

/-- Table 12: JAM TIMECODE 00:05:00;01 is refused, 00:05:00;02 is taken. -/
theorem test_jam_refuses_dropped_label :
    let g : Hub := { base with tb := { base.tb with rate := .r2997, frameRate := .r2997, df := true } }
    outcome (st g) (.jamTimecode c0 0x00050081) = some .badArg ∧
      outcome (st g) (.jamTimecode c0 0x00050082) = some .done := by decide

/-- Table 13: the pair 10:00:00:10 and 10:00:00:11 puts 10:00:00:12 into the jam slot. -/
theorem test_reader_pair_jams :
    let v (n : Nat) : Timecode := { hours := 10, minutes := 0, seconds := 0, frames := n, df := false }
    let g : Hub := { base with tb := { base.tb with follow := true, reader := some (v 10) } }
    (after (st g) (.readerArrival {} (some (v 11)))).hub.tb.jam = some (v 12) := by decide

/-- Table 9: the samples of the five frames of a cadence at 29.97 and 59.94. -/
theorem test_cadence :
    ((List.range 5).map (Rate.samples .r2997), (List.range 5).map (Rate.samples .r5994)) =
      ([1602, 1601, 1602, 1601, 1602], [801, 801, 801, 801, 800]) := by decide

/-- R7: a tick forms frame 1 at the nominal period. -/
theorem test_tick_forms_next_frame :
    let t := (after (st base) (.dividerExpiry {})).hub.tb
    (t.frame.serial, t.frame.phase, t.frame.tc.frames, t.lastTick) = (1, 1, 1, 1080000) := by decide +kernel

/-- LOCKED with a rate change pending and the previous pulse at cycle 0. -/
def latePulse : State :=
  st { pulsed .locked 8 with tb := { (pulsed .locked 8).tb with ratePending := true, rate := .r50 } }

/-- R2, R16: a pulse after the timeout whose tick took a new rate is the first pulse of SEEKING, and is not measured. -/
theorem test_late_pulse_after_rate_change :
    let b := (after latePulse (.referencePulse { dt := 1080542 })).hub.tb
    (b.ref, b.good, b.lastInterval, b.prevPulse, b.lastTick) = (.seeking, 0, 0, some 1080542, 1080541) := by decide +kernel

/-- R48: a good picture returns the input at the tick, whatever picture came after it in the frame. -/
theorem test_good_picture_of_the_frame_returns_input :
    let good : Measured := { format := some .hd, rate := some .r25 }
    let bad : Measured := { format := none, rate := some .r25 }
    let g := base.modInput 0 fun x => { x with locked := true, delivered := [good, bad] }
    ((after (st g) (.dividerExpiry {})).hub.inputs[(0 : Fin 4)]).present = true := by decide +kernel

/-- R21: a stream whose ring is not enabled is refused, else opened. -/
theorem test_open_stream :
    outcome (st base) (.openStream c0 15) = some .conflict ∧ outcome (st ringed) (.openStream c0 15) = some .done ∧
      ((after (st ringed) (.openStream c0 15)).hub.stream 15).state = .opened := by decide +kernel

/-- R40: a final INSERT answers the unit number, and the unit reads back by FETCH behind its 64-byte header. -/
theorem test_insert_then_fetch :
    let s := after (st (streams .opened)) (.insert c0 13 [0xAB, 0xCD] true)
    (sent s).map Response.data = some [1, 0, 0, 0, 0, 0, 0, 0, 0, 0] ∧
      (sent (after s (.fetch c0 13 0 64 4096))).map Response.data = some [2, 0, 0xAB, 0xCD] := by decide +kernel

/-- R42: a read that the code corrects returns the corrected data, which are the stored bytes. -/
theorem test_corrected_fetch :
    let s := after (st (streams .opened)) (.insert c0 13 [0xAB, 0xCD] true)
    let c : Caller := { port := 0, env := { ecc := [{ corrected := 1, asRead := [(64, 0)] }] } }
    (sent (after s (.fetch c 13 0 64 4096))).map Response.data = some [2, 0, 0xAB, 0xCD] := by decide +kernel

/-- R29: a payload of 11,520 bytes (a sound unit at 25) takes 23 sectors with its header. -/
theorem test_sectors : sectorsOf 11520 = 23 ∧ sectorsOf 448 = 1 ∧ sectorsOf 449 = 2 := by decide

/-- Table 25, picture 1: the target, buffer and fullness, and the quantisers of slices 34 and 67. -/
theorem test_rate_control :
    let x := (Coder.released).start .r50 16363651
    (x.target, x.size, x.fullness, x.q) = (327273, 1309092, 654546, 24) ∧ x.quantiser 34 200000 = 25 ∧
      x.quantiser 34 180000 = 24 ∧ x.quantiser 67 394000 = 27 := by decide

/-- Table 25, picture 3: a quotient below 0 is rounded down. -/
theorem test_quantiser_floors :
    ({ Coder.released with built := true, target := 327273, size := 1309092, fullness := 727273, q := 35 } :
      Coder).quantiser 67 246000 = 34 := by decide

/-- R63: a picture started after a reassignment that found two in flight takes the rate it kept. -/
theorem test_kept_rate :
    let g : Hub := { coding none with budget := { base.budget with
      pictures := base.budget.pictures.set 0 { base.budget.pictures[(0 : Fin 4)] with kept := [(0, 3000000)] } } }
    ((after (st g) (.pictureStart {} 0)).hub.coders[(0 : Fin 4)]).target = 120000 := by decide +kernel

/-- R125: the rate kept before gives way to one assigned at the moment of the start, which has the picture coded at it. -/
theorem test_rate_at_the_moment_of_the_start :
    let g : Hub := { coding none with budget := { base.budget with
      pictures := base.budget.pictures.set 0 { base.budget.pictures[(0 : Fin 4)] with
        assigned := 4000000, counted := true, kept := [(0, 3000000)], changedAt := some base.now } } }
    let t := (after (st g) (.pictureStart {} 0)).hub
    ((t.coders[(0 : Fin 4)]).rate, (t.budget.pictures[(0 : Fin 4)]).kept) = (4000000, []) := by decide +kernel

/-- R63, R125: a rate assigned to two pictures in flight is kept from them, but not at the moment of a start. -/
theorem test_kept_rates :
    let c : Coder := { Coder.released with flight := [picture none, picture none] }
    let old : PictureBudget := { base.budget.pictures[(0 : Fin 4)] with startedAt := some 7 }
    (c.keptRates old 5 8).length = 2 ∧ c.keptRates old 5 7 = [] := by decide

/-- R64, R62: CODER RESET drops the picture and the REPEAT unit of the aborted one, and offers the one that a tick made. -/
theorem test_coder_reset_offers_repeat :
    let wait (aborted : Bool) : Flight := { picture none with subst := some false, aborted := aborted }
    let g := (streams .opened).modCoder 0 fun c => { c with flight := [picture none, wait true, wait false] }
    let t := (after (st g) (.coderReset c0)).hub
    let c := t.coders[(0 : Fin 4)]
    (c.flight.length, c.counts.discarded, c.counts.repeats, (t.stream 0).committed) = (0, 1, 1, 1) := by decide +kernel

/-- Table 30: the sum of bus 3 through both rounds, and its saturation at unity master gain. -/
theorem test_bus_output :
    busValue 154497008193 14000 = 8057647 ∧ saturate (busValue 154497008193 16384) = 8388607 := by decide

/-- Table 31: the ramp of crosspoint (35, 6), interrupted after two samples. -/
theorem test_ramp :
    let a : Gain := { g := 16384, target := 0, r := 6 }
    let b : Gain := { a.step.step with target := 20000, r := 3 }
    ([a.step, a.step.step, b.step, b.step.step, b.step.step.step].map fun x => (x.g, x.r)) =
      [(13654, 5), (10924, 4), (13949, 2), (16974, 1), (20000, 0)] := by decide

/-- R74: the delay of SET CHANNEL is clamped to 4095 and comes after a mute of two ticks. -/
theorem test_set_channel_clamps :
    let s := after (st base) (.setChannel c0 63 5000 1)
    (sent s).map Response.data = some [0xFF, 0x0F, 1] ∧
      (s.hub.mixer.channels[(63 : Fin 64)]).pendingDelay = some 4095 ∧
      (s.hub.mixer.channels[(63 : Fin 64)]).muteEnd = some 2 := by decide

/-- R91: a path that became PAUSED for the coming tick is counted only from the tick after it. -/
theorem test_fresh_pause_is_not_counted :
    let g := (linked .reset false).modPath 0 fun x =>
      { x with hold := true, releaseDue := true, resetCount := 3, pauseCount := 0, pauseLimit := 1 }
    let s := after (st g) (.releaseDue { lines := 6 } 0)
    let t := after s (.dividerExpiry { lines := 6 })
    let u := after t (.dividerExpiry { lines := 6 })
    ([s, t, u].map fun x => (x.hub.paths.path[(0 : Fin 8)]).state) = [.paused, .paused, .down] := by decide +kernel

/-- Table 39: unit 8002 of stream 5 over a bonded pair and paths 3 and 5, all UP, and with paths 0 and 5 DOWN. -/
theorem test_mapping :
    let with' (up : List (Fin 8)) : Paths :=
      { base.paths with
        spread := 0x2B
        bonds := base.paths.bonds.set 0 { setting := true, inForce := true, odd := false }
        path := Vector.ofFn fun p => { base.paths.path[p] with state := if p ∈ up then .up else .down } }
    ([0, 1, 2].map ((with' [0, 1, 2, 3, 4, 5, 6, 7]).mapTo 5 8002)) = [some (3, false), some (5, false), some (0, true)] ∧
      ([0, 1, 2].map ((with' [1, 3]).mapTo 5 8002)) = [some (3, false), some (1, false), some (1, false)] := by decide

/-- Table 40, placement 1: ring 0 is first after none, its deficit takes 3600 and gives 1200. -/
theorem test_arbiter_first_round :
    let g := (sending [0]).modCoder 0 fun x => { x with weight := 3 }
    let h := g.modSend 0 fun x => { x with taken := some { taken 0 with bytes := List.replicate 2400 1 } }
    let t := (after (st h) (.fragmentPlacement {} 0)).hub
    ((t.paths.arbiters[(0 : Fin 8)]).deficits[(0 : Fin 17)], (t.paths.arbiters[(0 : Fin 8)]).cur1,
      ((t.paths.path[(0 : Fin 8)]).fifo.map List.length)) = (2400, some 0, [1232]) := by decide +kernel

/-- R36, R43: a unit that FETCH flagged before its first fragment was placed is passed unsent, and the next one taken up. -/
theorem test_flagged_unit_is_passed :
    let c := (after (st hurtHeld) (.unitTakeUp {} 13)).hub.paths.sends[(13 : Fin 17)]
    (c.passedDamaged, c.sent, c.taken.map Taken.unit) = (1, 0, some 1) := by decide +kernel

/-- Table 43: the three cycles at rate 50 with W 25. -/
theorem test_gauge_results :
    (cycleC 1250000 13500000 14062500, cycleS 1250000 13500000 14062500) = (2400000, 960) ∧
      (cycleC 750000 13500000 13500000, cycleS 750000 13500000 13500000) = (1500000, 1000) ∧
      (cycleC 600000 13500000 54000000, cycleS 600000 13500000 54000000) = (300000, 250) := by decide

/-- Tables 46 and 47: the payload capacity, the headroom and the sound reserve of one stream. -/
theorem test_budget_figures :
    payloadCapacity 30432000 = 29641558 ∧ afterHeadroom 29641558 100 = 26677402 ∧ soundReserveOf .r50 = 2329600 ∧
      payloadCapacity 18432000 = 17953246 ∧ afterHeadroom 17953246 100 = 16157921 := by decide

/-- R119: START GAUGE is refused while the path is neither UP nor PAUSED, and starts on one that is. -/
theorem test_start_gauge :
    outcome (st base) (.startGauge c0 0 0 10) = some .conflict ∧
      outcome (st (gauged id)) (.startGauge c0 0 0 10) = some .started := by decide

/-- R135: the first clip is number 1 and starts with the next frame. -/
theorem test_open_clip :
    (sent (after (st base) (.openClip c0 0xFFFF none))).map Response.data = some [1, 0, 0, 0, 1, 0, 0, 0] := by decide

/-- Table 76: clip number 31 of a part that has given none is refused. -/
theorem test_close_unknown_clip : outcome (st base) (.closeClip c0 31) = some .badArg := by decide

/-- R145: a NOTE is filed as label 0. -/
theorem test_add_label :
    let s := after (st base) (.addLabel c0 0 (some 5) { len := 1, bytes := 0x41 :: zeros 63 } none)
    (sent s).map Response.data = some [1, 0, 0, 0, 0] ∧ s.hub.log.labels.map Label.text = [[0x41]] := by decide +kernel

/-- R149: a trigger on the label kind TRIGGER (11) is refused. -/
theorem test_trigger_kind : outcome (st base) (.setTrigger c0 0 11 255 0 0 (.stop 1) 0) = some .badArg := by decide

/-- R163: source kind 3 is NONE; its number byte is not judged (log entry 59). -/
theorem test_set_tally_none : outcome (st base) (.setTally c0 15 3 9) = some .done ∧
    outcome (st base) (.setTally c0 15 1 8) = some .badArg := by decide

/-- R164: FORCE_RED shows red from its acceptance on. -/
theorem test_override_red :
    (((after (st base) (.setOverride c0 2 2)).hub.tally.entries[(2 : Fin 16)]).shown) = .red := by decide

/-- R174: the RIGHTS bit is as the editor mask has it, whatever SET RIGHTS asks. -/
theorem test_rights_bit_fixed :
    (sent (after (st base) (.setRights c0 1 0 1))).map Response.data = some [0, 1, 1, 0] := by decide

/-- R178: ODD first is refused, EVEN is taken. -/
theorem test_presence_alternates :
    outcome (st base) (.presence c0 1) = some .conflict ∧ outcome (st base) (.presence c0 0) = some .done := by decide

/-- R177: the tick that makes the port ABSENT is taken first, and the ODD at that moment still completes the pair. -/
theorem test_odd_at_the_absence :
    let s := after (st (base.modPort 0 fun x => { x with timer := 24, expectOdd := true })) (.dividerExpiry {})
    (s.hub.ports[(0 : Fin 4)]).present = false ∧ outcome s (.presence c0 1) = some .done ∧
      ((after s (.presence c0 1)).hub.ports[(0 : Fin 4)]).present = true := by decide +kernel

/-- R186: a mask of 0 still passes SUPPLY_WARN, kind 20. -/
theorem test_notice_mask_keeps_supply :
    ((after (st base) (.setNoticeMask c0 0)).hub.notices[(0 : Fin 4)]).mask = 0x100000 := by decide

/-- R197: the CRC-32 of the nine digits 1 to 9 is CBF43926h. -/
theorem test_crc32 : crc32 [0x31, 0x32, 0x33, 0x34, 0x35, 0x36, 0x37, 0x38, 0x39] = 0xCBF43926 := by decide +kernel

/-- The worked example of chapter 11: CLOSE CLIP 31 with tag 7 is a record of 12 bytes that begins 0C 00 07 71 1F 00 00 00. -/
theorem test_close_clip_record :
    (recordOf 7 0x71 (arguments (.closeClip c0 31))).take 8 = [0x0C, 0, 7, 0x71, 0x1F, 0, 0, 0] ∧
      (recordOf 7 0x71 (arguments (.closeClip c0 31))).length = 12 ∧
      recordGood (recordOf 7 0x71 (arguments (.closeClip c0 31))) = true := by decide +kernel

/-- R171: a good record reaches its block: READ PART from the link answers under its tag. -/
theorem test_record_is_taken :
    ((sent (after (st base) (.commandRecordArrival {} 0 true (recordOf 9 0xB1 [])))).map fun x => (x.tag, x.outcome)) =
      some (9, .done) := by decide +kernel

/-- The table gives no row any bits, so no word changes the queue. -/
theorem test_no_word_spells_a_command : State.reset.withFetchWord 16 0x1234 = State.reset := by decide

end Sys2Proof.Tests
end

section
/-! Proofs: JAM TIMECODE and SET RATE (R12, R15).  Each command's block is said once, an equation per outcome; under
`State.Serves` the answer then stands on the link. -/

namespace Sys2Proof

/-! ### The codes of the rates (section 11.7) -/

@[simp] theorem Rate.ofCode_code (r : Rate) : Rate.ofCode r.code = some r := by cases r <;> rfl

theorem Rate.ofCode_eq_none {n : Nat} (hn : 3 < n) : Rate.ofCode n = none := by
  match n, hn with
  | _ + 4, _ => rfl

theorem Rate.ofByte_of_toNat_eq_code {a : Byte} {r : Rate} (ha : a.toNat = r.code) : Rate.ofByte a = some r := by
  rw [Rate.ofByte, ha, Rate.ofCode_code]

/-! ### Legal timecodes (R10, R12) -/

theorem Timecode.skippedAt_eq_true_iff (r : Rate) (df : Bool) (m s f : Nat) :
    Timecode.skippedAt r df m s f = true ↔ df = true ∧ s = 0 ∧ m % 10 ≠ 0 ∧ f < r.dropCount := by
  simp [Timecode.skippedAt, and_assoc]

theorem Timecode.legal_eq_true_iff (r : Rate) (df : Bool) (t : Timecode) :
    t.legal r df = true ↔ t.hours < 24 ∧ t.minutes < 60 ∧ t.seconds < 60 ∧ t.frames < r.fps ∧ t.df = df ∧
      ¬ (df = true ∧ t.seconds = 0 ∧ t.minutes % 10 ≠ 0 ∧ t.frames < r.dropCount) := by
  rw [← Timecode.skippedAt_eq_true_iff]
  simp [Timecode.legal, and_assoc]

end Sys2Proof

namespace Sys2Proof.Machine

/-! ### JAM TIMECODE (R12) -/

theorem Hub.jamTimecode_legal {h : Hub} {w : BitVec 32} (hl : (timecodeOf w).legal h.tb.rate h.tb.df = true) :
    h.jamTimecode w = ({ h with tb := { h.tb with jam := some (timecodeOf w) } }).ok := if_pos hl

theorem Hub.jamTimecode_illegal {h : Hub} {w : BitVec 32} (hl : ¬ (timecodeOf w).legal h.tb.rate h.tb.df = true) :
    h.jamTimecode w = h.refuse .badArg := if_neg hl

/-! ### SET RATE (R15) -/

theorem Hub.anyStreamOpen_iff (h : Hub) :
    ((List.finRange 16).any fun k => (h.stream k).state != .closed) = true ↔ ∃ k, (h.stream k).state ≠ .closed := by
  simp

theorem Hub.setRate_unknown {h : Hub} {a : Byte} (ha : 3 < a.toNat) : h.setRate a = h.refuse .badArg := by
  simp only [Hub.setRate, Rate.ofByte, Rate.ofCode_eq_none ha]

/-- What a byte that names a rate is taken for: CONFLICT comes first, then the rate already set. -/
theorem Hub.setRate_known {h : Hub} {a : Byte} {r : Rate} (ha : a.toNat = r.code) :
    h.setRate a =
      if ∃ k, (h.stream k).state ≠ .closed then h.refuse .conflict
      else if r = h.tb.rate then h.ok
      else
        ({ h with
           tb := { h.tb with rate := r, ratePending := true, df := h.tb.df && r.fractional, jam := none,
                             reader := none } }).ok := by
  simp only [Hub.setRate, Rate.ofByte_of_toNat_eq_code ha, Hub.anyStreamOpen_iff]

/-! ### The obligation -/

/-- Settles O10: JAM TIMECODE by the legality of its value, SET RATE by the order of its refusals. -/
theorem jamAndRateAreChecked : Obligations.JamAndRateAreChecked := by
  unfold Obligations.JamAndRateAreChecked
  constructor
  · intro c w s hs
    simp only [← Timecode.legal_eq_true_iff]
    exact ⟨fun hl => hs.run_none (Hub.jamTimecode_legal (h := s.hub.arrive c.env) hl) nofun,
      fun hl => hs.run_none (Hub.jamTimecode_illegal (h := s.hub.arrive c.env) hl) nofun⟩
  · intro c a s hs
    refine ⟨fun ha => hs.run_none (Hub.setRate_unknown ha) nofun, fun r ha => ?_⟩
    have hblock := Hub.setRate_known (h := s.hub.arrive c.env) ha
    refine ⟨fun hopen => hs.run_none (hblock.trans (if_pos hopen)) nofun, fun hclosed => ?_⟩
    have hnone : ¬ ∃ k, (s.hub.stream k).state ≠ .closed := by simpa using hclosed
    exact ⟨fun hr => hs.run_none (hblock.trans ((if_neg hnone).trans (if_pos hr))) nofun,
      fun hr => hs.run_none (hblock.trans ((if_neg hnone).trans (if_neg hr))) nofun⟩

end Sys2Proof.Machine
end

section
/-! Proofs: the gains of the Sound Mixer (R75).  What a ramp step makes of a gain, that a sample steps every gain, and that a
tick steps none: its mixer part writes other fields alone, and the other blocks leave the mixer as it is. -/

namespace Sys2Proof.Machine

/-! ### The ramp step of one gain -/

section
variable {g : Gain}

theorem Gain.step_of_r_eq_zero (hr : g.r = 0) : g.step = g := if_pos hr

theorem Gain.step_of_r_eq_one (hr : g.r = 1) : g.step = { g with g := g.target, r := 0 } := by
  simp [Gain.step, hr]

theorem Gain.step_rising (hr : 2 ≤ g.r) (hg : g.g ≤ g.target) :
    g.step = { g with g := g.g + (g.target - g.g) / g.r, r := g.r - 1 } := by
  simp [Gain.step, hg, show g.r ≠ 0 by omega, show g.r ≠ 1 by omega]

theorem Gain.step_falling (hr : 2 ≤ g.r) (hg : g.target < g.g) :
    g.step = { g with g := g.g - (g.g - g.target) / g.r, r := g.r - 1 } := by
  simp [Gain.step, Nat.not_le.mpr hg, show g.r ≠ 0 by omega, show g.r ≠ 1 by omega]

/-- The four branches of a ramp step. -/
theorem Gain.step_cases (g : Gain) :
    (g.r = 0 ∧ g.step = g) ∨ (g.r = 1 ∧ g.step = { g with g := g.target, r := 0 }) ∨
      (2 ≤ g.r ∧ g.g ≤ g.target ∧ g.step = { g with g := g.g + (g.target - g.g) / g.r, r := g.r - 1 }) ∨
      (2 ≤ g.r ∧ g.target < g.g ∧ g.step = { g with g := g.g - (g.g - g.target) / g.r, r := g.r - 1 }) := by
  obtain hr | hr | hr : g.r = 0 ∨ g.r = 1 ∨ 2 ≤ g.r := by omega
  · exact .inl ⟨hr, Gain.step_of_r_eq_zero hr⟩
  · exact .inr (.inl ⟨hr, Gain.step_of_r_eq_one hr⟩)
  · obtain hg | hg := Nat.lt_or_ge g.target g.g
    · exact .inr (.inr (.inr ⟨hr, hg, Gain.step_falling hr hg⟩))
    · exact .inr (.inr (.inl ⟨hr, hg, Gain.step_rising hr hg⟩))

@[simp] theorem Gain.step_target (g : Gain) : g.step.target = g.target := by
  obtain ⟨-, h⟩ | ⟨-, h⟩ | ⟨-, -, h⟩ | ⟨-, -, h⟩ := g.step_cases <;> rw [h]

@[simp] theorem Gain.step_r (g : Gain) : g.step.r = g.r - 1 := by
  obtain ⟨hr, h⟩ | ⟨hr, h⟩ | ⟨-, -, h⟩ | ⟨-, -, h⟩ := g.step_cases <;> simp [*]

/-- R75: the step of a ramp with samples to go, in exact integers. -/
theorem Gain.step_g_eq_tdiv (hr : 2 ≤ g.r) :
    (g.step.g : Int) = g.g + ((g.target : Int) - g.g).tdiv g.r := by
  obtain hg | hg := Nat.lt_or_ge g.target g.g
  · have hq : (g.g - g.target) / g.r ≤ g.g := (Nat.div_le_self _ _).trans (Nat.sub_le _ _)
    rw [Gain.step_falling hr hg, ← Int.neg_sub, Int.neg_tdiv, ← Int.ofNat_sub hg.le, ← Int.ofNat_tdiv]
    exact Int.ofNat_sub hq
  · rw [Gain.step_rising hr hg, ← Int.ofNat_sub hg]
    rfl

theorem Gain.ramped_step (g : Gain) : g.Ramped g.step :=
  ⟨g.step_target, Gain.step_of_r_eq_zero, fun hr => by simp [Gain.step_of_r_eq_one hr],
    fun hr => ⟨g.step_r, Gain.step_g_eq_tdiv hr⟩⟩

/-- A step stays between the current gain and the target. -/
theorem Gain.step_within (g : Gain) : min g.g g.target ≤ g.step.g ∧ g.step.g ≤ max g.g g.target := by
  obtain ⟨-, h⟩ | ⟨-, h⟩ | ⟨-, hg, h⟩ | ⟨-, hg, h⟩ := g.step_cases
  · simp [h]
  · simp [h]
  · have hq := Nat.div_le_self (g.target - g.g) g.r
    simp only [h]
    generalize (g.target - g.g) / g.r = q at hq
    omega
  · have hq := Nat.div_le_self (g.g - g.target) g.r
    simp only [h]
    generalize (g.g - g.target) / g.r = q at hq
    omega

/-! ### A whole ramp -/

theorem Gain.iterate_step_of_r_eq_succ :
    ∀ (n : Nat) {g : Gain}, g.r = n + 1 → Gain.step^[n + 1] g = { g with g := g.target, r := 0 }
  | 0, _, hr => Gain.step_of_r_eq_one hr
  | n + 1, g, hr => by
    have ih := Gain.iterate_step_of_r_eq_succ n (g := g.step) (by rw [g.step_r, hr]; rfl)
    rw [Function.iterate_succ_apply, ih, g.step_target]

theorem Gain.iterate_step_r (hr : 0 < g.r) : Gain.step^[g.r] g = { g with g := g.target, r := 0 } := by
  obtain ⟨n, hn⟩ := Nat.exists_eq_succ_of_ne_zero hr.ne'
  rw [hn]
  exact Gain.iterate_step_of_r_eq_succ n hn

/-- The interval to the target only narrows, so a gain never leaves the one it starts with. -/
theorem Gain.iterate_step_within :
    ∀ (n : Nat) (g : Gain), min g.g g.target ≤ (Gain.step^[n] g).g ∧ (Gain.step^[n] g).g ≤ max g.g g.target
  | 0, g => ⟨Nat.min_le_left _ _, Nat.le_max_left _ _⟩
  | n + 1, g => by
    have hstep := g.step_within
    have ih := Gain.iterate_step_within n g.step
    rw [g.step_target] at ih
    rw [Function.iterate_succ_apply]
    omega

end

/-! ### A sample (R76) -/

@[simp] theorem Channel.sample_gains (c : Channel) (valid : Bool) (x : BitVec 24) (k : Fin 16) :
    (c.sample valid x).gains[k] = (c.gains[k]).step := by
  simp [Channel.sample]

theorem Hub.mixSample_gains (h : Hub) (x : SampleIn) (c : Fin 64) (k : Fin 16) :
    ((h.mixSample x).mixer.channels[c]).gains[k] = ((h.mixer.channels[c]).gains[k]).step := by
  have hc : (h.mixSample x).mixer.channels[c] =
      (h.mixer.channels[c]).sample (h.channelValid x c) (x.samples.getD c.val 0) := by
    simp [Hub.mixSample]
  rw [hc, Channel.sample_gains]

theorem Hub.mixSample_master (h : Hub) (x : SampleIn) (k : Fin 16) :
    ((h.mixSample x).mixer.buses[k]).master = ((h.mixer.buses[k]).master).step := by
  simp [Hub.mixSample, Bus.sample]

theorem exec_mixerSample_of_lt {s : State} (e : Env) (x : SampleIn) (hs : s.held = false)
    (hn : s.hub.mixer.sampleNo < s.hub.tb.frameRate.samples s.hub.tb.frame.phase) :
    exec (.mixerSample e x) s = s.became ((s.hub.arrive e).mixSample x) :=
  (State.run_free hs fun h => Hub.mixerSample x (h.arrive e)).trans (congrArg s.became (if_pos hn))

/-! ### What the blocks but the mixer can change at a tick -/

section
variable (h : Hub)

theorem Hub.withTimebase_only (t : Timebase) : Hub.OnlyChanges [.timebase] h { h with tb := t } := by
  intro x hx; cases x <;> simp_all [Part.same]

theorem Hub.withTally_only (t : Tally) : Hub.OnlyChanges [.tally] h { h with tally := t } := by
  intro x hx; cases x <;> simp_all [Part.same]

theorem Hub.timebaseNotices_only (old : Timebase) : Hub.OnlyChanges unitParts h (h.timebaseNotices old) := by
  have hn : ∀ (g : Hub) (k : NoticeKind) (n : Nat), Hub.OnlyChanges unitParts g (g.notify k n) := fun g k n =>
    (g.notify_only k n).mono (by decide)
  unfold Hub.timebaseNotices
  exact .opt (.opt (.opt (.opt (.refl _ h) (hn _ _ _)) ((hn _ _ _).trans (Hub.label_only _ _))) (hn _ _ _)) (hn _ _ _)

/-- The parts that the Picture Coder's tick work can change. -/
def coderParts : List Part := [.inputs, .coders, .budget, .tally] ++ unitParts

/-! The Picture Coder -/

theorem Hub.modCoder_coderParts (k : Fin 4) (f : Coder → Coder) : Hub.OnlyChanges coderParts h (h.modCoder k f) :=
  (h.modCoder_only k f).mono (by decide)

theorem Hub.offerPicture_only (k : Fin 4) (o : Offer) : Hub.OnlyChanges coderParts h (h.offerPicture k o).1 :=
  (h.modCoder_coderParts k _).trans ((Hub.offer_only _ _).mono (by decide))

theorem Hub.offerSubstitute_only (k : Fin 4) (f : Flight) (black : Bool) :
    Hub.OnlyChanges coderParts h (h.offerSubstitute k f black) :=
  (h.modCoder_coderParts k _).trans (Hub.offerPicture_only _ k _)

theorem Hub.flush_only (k : Fin 4) : ∀ (n : Nat) (h : Hub), Hub.OnlyChanges coderParts h (Hub.flush k n h)
  | 0, h => .refl _ h
  | n + 1, h => by
    unfold Hub.flush
    split
    · exact .refl _ h
    · split
      · exact .refl _ h
      · exact ((h.modCoder_coderParts k _).trans (Hub.offerSubstitute_only _ k _ _)).trans (Hub.flush_only k n _)

theorem Hub.settle_only (k : Fin 4) : Hub.OnlyChanges coderParts h (h.settle k) :=
  .opt (Hub.flush_only k _ h) ((Hub.endClosing_only _ _).mono (by decide))

theorem Hub.dropPicture_only (k : Fin 4) (f : Flight) (why : DropReason) :
    Hub.OnlyChanges coderParts h (h.dropPicture k f why) :=
  (((h.modCoder_coderParts k _).trans ((Hub.notify_only _ _ _).mono (by decide))).trans
    ((Hub.label_only _ _).mono (by decide))).trans ((Hub.testClips_only _ _ _).mono (by decide))

theorem Hub.inputChanged_only (i : Fin 4) (kind : LabelKind) : Hub.OnlyChanges unitParts h (h.inputChanged i kind) :=
  ((h.notify_only _ _).mono (by decide)).trans (Hub.label_only _ _)

theorem Hub.abortFrom_only (i k : Fin 4) : Hub.OnlyChanges coderParts h (Hub.abortFrom i k h) := by
  unfold Hub.abortFrom
  exact .ite (.refl _ h) ((h.modCoder_coderParts k _).trans (Hub.settle_only _ k))

theorem Hub.loseInput_only (i : Fin 4) : Hub.OnlyChanges coderParts h (h.loseInput i) :=
  ((((h.modInput_only i _).mono (by decide)).trans ((Hub.withTally_only _ _).mono (by decide))).trans
    ((Hub.inputChanged_only _ i _).mono (by decide))).trans (.forEach (fun k g => g.abortFrom_only i k) _)

theorem Hub.tickInput_only (i : Fin 4) : Hub.OnlyChanges coderParts h (Hub.tickInput i h) := by
  have hm : ∀ (g : Hub) (f : VideoInput → VideoInput), Hub.OnlyChanges coderParts g (g.modInput i f) := fun g f =>
    (g.modInput_only i f).mono (by decide)
  unfold Hub.tickInput
  refine (hm h _).trans (.ite (.ite (.refl _ _) (Hub.loseInput_only _ i)) (.ite ?_ ?_))
  · exact (hm _ _).trans ((Hub.inputChanged_only _ i _).mono (by decide))
  · exact (hm _ _).trans ((Hub.withTally_only _ _).mono (by decide))

theorem Hub.lateDrop_only (k : Fin 4) : Hub.OnlyChanges coderParts h (Hub.lateDrop k h) := by
  unfold Hub.lateDrop
  split
  · exact .refl _ h
  · exact .ite (((h.modCoder_coderParts k _).trans (Hub.dropPicture_only _ k _ _)).trans (Hub.settle_only _ k)) (.refl _ h)

theorem Hub.beginPicture_only (k : Fin 4) : Hub.OnlyChanges coderParts h (Hub.beginPicture k h) := by
  unfold Hub.beginPicture
  refine .ite (.ite ?_ ?_) (.refl _ h)
  · exact ((h.forgetRates_only k).mono (by decide)).trans (Hub.modCoder_coderParts _ k _)
  · exact (h.modCoder_coderParts k _).trans (Hub.settle_only _ k)

theorem Hub.tickCoder_only : Hub.OnlyChanges coderParts h h.tickCoder :=
  ((Hub.OnlyChanges.forEach (fun k g => g.lateDrop_only k) h).trans (.forEach (fun i g => g.tickInput_only i) _)).trans
    (.forEach (fun k g => g.beginPicture_only k) _)

/-! The Gauge -/

theorem Hub.beginStep1_only (p : Fin 8) : Hub.OnlyChanges [.gauges] h (Hub.beginStep1 p h) :=
  .ite (h.modGauge_only p _) (.refl _ h)

theorem Hub.endStep1_only (p : Fin 8) : Hub.OnlyChanges [.gauges, .budget, .notices] h (Hub.endStep1 p h) :=
  ((h.modGauge_only p _).mono (by decide)).trans
    (.ite (Hub.endCycle_only _ p _ _) ((Hub.modGauge_only _ p _).mono (by decide)))

theorem Hub.tickAuto_only (p : Fin 8) : Hub.OnlyChanges [.gauges, .budget, .notices] h (Hub.tickAuto p h) := by
  unfold Hub.tickAuto
  refine .ite (.ite ?_ ((h.modGauge_only p _).mono (by decide))) ((h.beginStep1_only p).mono (by decide))
  exact (h.endStep1_only p).trans ((Hub.beginStep1_only _ p).mono (by decide))

theorem Hub.tickManual_only (p : Fin 8) : Hub.OnlyChanges [.gauges, .notices] h (Hub.tickManual p h) := by
  have hg : ∀ f : Gauge → Gauge, Hub.OnlyChanges [.gauges, .notices] h (h.modGauge p f) := fun f =>
    (h.modGauge_only p f).mono (by decide)
  unfold Hub.tickManual
  dsimp only
  split
  · exact .refl _ h
  · exact hg _
  · exact .ite (h.endManual_only p _) (hg _)

/-! Presence -/

/-- The parts that the blocks can change for a port that goes ABSENT. -/
def absenceParts : List Part := [.tally, .ports] ++ pathParts

theorem Hub.releaseHold_only (k : Fin 16) :
    Hub.OnlyChanges [.streams, .rings, .sending, .budget, .log, .notices] h (h.releaseHold k) :=
  (((h.endHold_only k).mono (by decide)).trans ((Hub.modStream_only _ k _).mono (by decide))).trans
    ((Hub.streamChanged_only _ k).mono (by decide))

theorem Hub.absentStream_only (p : Fin 4) (k : Fin 16) :
    Hub.OnlyChanges [.streams, .rings, .sending, .budget, .log, .notices] h (Hub.absentStream p k h) := by
  unfold Hub.absentStream
  refine .opt (.ite ?_ (.refl _ h)) ((Hub.discardBuffer_only _ k).mono (by decide))
  split
  · exact h.releaseHold_only k
  · exact (h.endHold_only k).mono (by decide)
  · exact (h.modStream_only k _).mono (by decide)
  · exact (h.modStream_only k _).mono (by decide)

theorem Hub.absentPath_only (p : Fin 4) (q : Fin 8) : Hub.OnlyChanges pathParts h (Hub.absentPath p q h) := by
  have hp : ∀ f : Path → Path, Hub.OnlyChanges pathParts h (h.modPath q f) := fun f =>
    (h.modPath_only q f).mono (by decide)
  unfold Hub.absentPath
  exact .ite (.ite ((hp _).trans (Hub.evaluatePath_only _ q)) (hp _)) (.refl _ h)

theorem Hub.absentClips_only (p : Fin 4) : Hub.OnlyChanges [.log] h (Hub.absentClips p h) :=
  (h.mapClips_only _).trans (Hub.mapClips_only _ _)

theorem Hub.goAbsent_only (p : Fin 4) (period : Nat) : Hub.OnlyChanges absenceParts h (Hub.goAbsent p period h) := by
  unfold Hub.goAbsent
  dsimp only
  refine .trans (.trans ?_ ((Hub.withTally_only _ _).mono (by decide))) ((Hub.notify_only _ _ _).mono (by decide))
  refine .trans ?_ ((Hub.absentClips_only _ p).mono (by decide))
  refine .trans ?_ (.forEach (fun q g => (g.absentPath_only p q).mono (by decide)) _)
  refine .trans ?_ (.forEach (fun k g => (g.absentStream_only p k).mono (by decide)) _)
  exact (h.modPort_only p _).mono (by decide)

theorem Hub.tickPort_only (p : Fin 4) : Hub.OnlyChanges absenceParts h (Hub.tickPort p h) := by
  unfold Hub.tickPort
  split
  · exact .refl _ h
  · exact .ite (h.goAbsent_only p _) (.ite ((h.modPort_only p _).mono (by decide)) (.refl _ h))

end

/-! ### Gains that stay -/

/-- Every crosspoint and every master gain of g stands as it was in h. -/
def Hub.SameGains (h g : Hub) : Prop :=
  (∀ (c : Fin 64) (k : Fin 16), (g.mixer.channels[c]).gains[k] = (h.mixer.channels[c]).gains[k]) ∧
    ∀ k : Fin 16, (g.mixer.buses[k]).master = (h.mixer.buses[k]).master

theorem Hub.SameGains.refl (h : Hub) : h.SameGains h := ⟨fun _ _ => rfl, fun _ => rfl⟩

theorem Hub.SameGains.trans {a b c : Hub} (h₁ : a.SameGains b) (h₂ : b.SameGains c) : a.SameGains c :=
  ⟨fun x k => (h₂.1 x k).trans (h₁.1 x k), fun k => (h₂.2 k).trans (h₁.2 k)⟩

theorem Hub.SameGains.foldl {α : Type} {f : Hub → α → Hub} (hf : ∀ (h : Hub) x, h.SameGains (f h x)) :
    ∀ (xs : List α) (h : Hub), h.SameGains (xs.foldl f h)
  | [], h => .refl h
  | x :: xs, h => (hf h x).trans (Hub.SameGains.foldl hf xs (f h x))

theorem Hub.SameGains.forEach {n : Nat} {f : Fin n → Hub → Hub} (hf : ∀ i (h : Hub), h.SameGains (f i h)) (h : Hub) :
    h.SameGains (h.forEach n f) :=
  Hub.SameGains.foldl (fun h i => hf i h) _ h

/-- An operation that leaves the mixer alone leaves its gains. -/
theorem Hub.OnlyChanges.sameGains {parts : List Part} {h g : Hub} (hg : Hub.OnlyChanges parts h g)
    (hp : Part.mixer ∉ parts) : h.SameGains g := by
  have hm : h.mixer = g.mixer := hg .mixer hp
  unfold Hub.SameGains
  simp only [hm, implies_true, and_self]

theorem Hub.SameGains.label {h g : Hub} (hg : h.SameGains g) (d : Draft) : h.SameGains (g.label d) :=
  hg.trans ((g.label_only d).sameGains (by decide))

theorem Hub.SameGains.give {h g : Hub} (hg : h.SameGains g) (x : Notice) : h.SameGains (g.give x) := hg

section
variable (h : Hub)

/-- A change of a bus record that keeps its master gain. -/
theorem Hub.modBus_sameGains (k : Fin 16) {f : Bus → Bus} (hf : ∀ b, (f b).master = b.master) :
    h.SameGains (h.modBus k f) := by
  refine ⟨fun _ _ => rfl, fun j => ?_⟩
  by_cases hj : j = k
  · rw [hj, Hub.modBus_self, hf]
  · rw [Hub.modBus_ne h f hj]

/-! ### The mixer's part of a tick -/

theorem Hub.judgeOverload_sameGains (ended : Frame) (k : Fin 16) : h.SameGains (h.judgeOverload ended k) := by
  unfold Hub.judgeOverload
  split
  · exact .refl h
  · refine .give (.label ?_ _) _
    exact h.modBus_sameGains k fun _ => rfl

theorem Hub.judgeSilence_sameGains (ended : Frame) (k : Fin 16) : h.SameGains (h.judgeSilence ended k) := by
  unfold Hub.judgeSilence
  dsimp only
  split
  · split
    · refine .label ?_ _
      exact h.modBus_sameGains k fun _ => rfl
    · exact h.modBus_sameGains k fun _ => rfl
  · split
    · refine .label ?_ _
      exact h.modBus_sameGains k fun _ => rfl
    · exact h.modBus_sameGains k fun _ => rfl

theorem Hub.tickPack_sameGains (ended : Frame) (n : Nat) (k : Fin 8) : h.SameGains (Hub.tickPack ended n k h) := by
  unfold Hub.tickPack
  dsimp only
  refine .trans ?_ ((Hub.OnlyChanges.ite (Hub.endClosing_only _ _) (.refl _ _)).sameGains (by decide))
  split
  · refine .trans ?_ ((Hub.offer_only _ _).sameGains (by decide))
    exact .refl h
  · exact .refl h
  · exact .refl h

@[simp] theorem Channel.tick_gains (c : Channel) : c.tick.gains = c.gains := by
  unfold Channel.tick Channel.endMute
  split
  · rfl
  · split <;> rfl

/-- R78: what the mixer does before the buses are judged. -/
def Hub.closeMeters (h : Hub) : Hub :=
  { h with mixer := { h.mixer with buses := Vector.ofFn fun k => (h.mixer.buses[k]).closeFrame } }

/-- R69, R72: what the mixer does after the units are offered. -/
def Hub.openMixerFrame (h : Hub) : Hub :=
  { h with
    mixer := { h.mixer with
      channels := Vector.ofFn fun c => (h.mixer.channels[c]).tick
      buses := Vector.ofFn fun k => { h.mixer.buses[k] with inputError := false }
      sampleNo := 0 } }

theorem Hub.tickMixer_eq (old : Timebase) :
    h.tickMixer old =
      ((h.closeMeters.forEach 16 fun k g => (g.judgeOverload old.frame k).judgeSilence old.frame k).forEach 8
        (Hub.tickPack old.frame (old.frameRate.samples old.frame.phase))).openMixerFrame := by
  simp only [Hub.tickMixer, Hub.openMixerFrame, Hub.closeMeters]

theorem Hub.closeMeters_sameGains : h.SameGains h.closeMeters :=
  ⟨fun _ _ => rfl, fun k => by simp [Hub.closeMeters, Bus.closeFrame]⟩

theorem Hub.openMixerFrame_sameGains : h.SameGains h.openMixerFrame :=
  ⟨fun c k => by simp [Hub.openMixerFrame], fun k => by simp [Hub.openMixerFrame]⟩

theorem Hub.tickMixer_sameGains (old : Timebase) : h.SameGains (h.tickMixer old) := by
  rw [Hub.tickMixer_eq]
  refine .trans (.trans (.trans h.closeMeters_sameGains (.forEach (fun k g => ?_) _)) (.forEach (fun k g => ?_) _))
    (Hub.openMixerFrame_sameGains _)
  · exact (g.judgeOverload_sameGains old.frame k).trans (Hub.judgeSilence_sameGains _ old.frame k)
  · exact g.tickPack_sameGains old.frame _ k

/-! ### A whole tick -/

theorem Hub.tickGauge_sameGains (p : Fin 8) : h.SameGains (Hub.tickManual p (Hub.tickAuto p h)) :=
  ((h.tickAuto_only p).sameGains (by decide)).trans ((Hub.tickManual_only _ p).sameGains (by decide))

theorem Hub.tickTests_only : Hub.OnlyChanges [.log, .notices] h h.tickTests :=
  .forEach (fun k g => g.testClips_only k none) h

theorem Hub.tickTally_only : Hub.OnlyChanges [.tally] h h.tickTally :=
  (h.withTally_only _).trans (Hub.withTally_only _ _)

/-- The work that a tick does before the mixer's. -/
theorem Hub.timebaseTick_sameGains (moment : Nat) :
    h.SameGains ((({ h with tb := h.tb.tick moment } : Hub).dateClips.closeLimits).timebaseNotices h.tb) :=
  ((((h.withTimebase_only _).mono (by decide)).trans ((Hub.mapClips_only _ _).mono (by decide))).trans
    (((Hub.mapClips_only _ _).mono (by decide)).trans ((Hub.timebaseNotices_only _ _).mono (by decide)))
      : Hub.OnlyChanges (.timebase :: unitParts) _ _).sameGains (by decide)

theorem Hub.tick_sameGains (moment : Nat) : h.SameGains (h.tick moment) := by
  unfold Hub.tick
  dsimp only
  refine .trans ?_ ((Hub.tickTally_only _).sameGains (by decide))
  refine .trans ?_ ((Hub.tickTests_only _).sameGains (by decide))
  refine .trans ?_ (.forEach (fun p g => (g.modPath_only p _).sameGains (by decide)) _)
  refine .trans ?_ (.forEach (fun p g => (g.tickPort_only p).sameGains (by decide)) _)
  refine .trans ?_ (.forEach (fun p g => g.tickGauge_sameGains p) _)
  refine .trans ?_ (.forEach (fun p g => (g.tickPath_only p).sameGains (by decide)) _)
  refine .trans ?_ ((Hub.tickCoder_only _).sameGains (by decide))
  exact (h.timebaseTick_sameGains moment).trans (Hub.tickMixer_sameGains _ _)

end

/-! ### The obligation -/

/-- Settles O29: a sample is a step of every gain, a tick of none, and a ramp by induction on its samples to go. -/
theorem rampReachesTarget : Obligations.RampReachesTarget := by
  unfold Obligations.RampReachesTarget
  refine ⟨fun e x s hs hn => ?_, Hub.tick_sameGains, fun g => ?_⟩
  · exact ⟨_, exec_mixerSample_of_lt e x hs hn, Hub.mixSample_gains (s.hub.arrive e) x,
      Hub.mixSample_master (s.hub.arrive e) x⟩
  · exact ⟨g.ramped_step, Gain.step_of_r_eq_zero, Gain.iterate_step_r, fun n _ => g.iterate_step_within n⟩

end Sys2Proof.Machine
end

section
/-! Proofs: what a step can do to the parts that the invariants read.  A change of the hub is either tame, which leaves
each record of those parts within what its invariant allows, or one of the four moves of the Store that touch several
parts at once.  Every operation is a chain of such changes. -/

namespace Sys2Proof.Machine

-- In order, so that the package in one text stays within the memory of its check.
set_option Elab.async false

/-! ### What a tame change leaves of each record -/

/-- The longest insert buffer of a stream (R39). -/
def bufferCap (k : Fin 16) : Nat := if 13 ≤ k.val then 65536 else 0

/-- R103, R107 for one path. -/
def Path.FifoOk (x : Path) : Prop := x.fifo.length ≤ 64 ∧ (x.carrying = false → x.fifo = [])

/-- A stream record may lose its setter and its buffer, and gain those of a port that is PRESENT alone. -/
structure Stream.Tame (g : Hub) (k : Fin 16) (x y : Stream) : Prop where
  global : y.global = true → x.global = true ∨ (g.ring k.castSucc).index = []
  mark : y.releaseMark = x.releaseMark ∨ y.releaseMark = (g.ring 16).head
  setter : ∀ q, y.setter = some q → x.setter = some q ∨ (g.ports[q]).present = true
  builder : ∀ q, y.buffer ≠ [] → y.builder = some q →
    (x.buffer ≠ [] ∧ x.builder = some q) ∨ (g.ports[q]).present = true
  fits : x.buffer.length ≤ bufferCap k → y.buffer.length ≤ bufferCap k

/-- A ring may change its settings and the flags of its units, not its numbers. -/
structure Ring.Tame (r : Fin 17) (x y : Ring) : Prop where
  head : y.head = x.head
  send : y.send = x.send
  count : y.index.length = x.index.length
  fits : (x.index.map Entry.len).sum ≤ x.sectors → (y.index.map Entry.len).sum ≤ y.sectors
  ordered : x.Ordered r → y.Ordered r

/-- A path record stays evaluated and its FIFO within bounds, and gains a holder that is PRESENT alone. -/
structure Path.Tame (g : Hub) (x y : Path) : Prop where
  table : x.Table38 → y.Table38
  fifo : x.FifoOk → y.FifoOk
  holder : ∀ q, y.holder = some q → x.holder = some q ∨ (g.ports[q]).present = true

/-- The Clip Table stays in order and within bounds, and gains an OPEN clip of a port that is PRESENT alone. -/
structure ClipLog.Tame (g : Hub) (x y : ClipLog) : Prop where
  ordered : (x.clips.Pairwise (fun a b => a.number.toNat < b.number.toNat) ∧ x.nextClip ≤ 4294967296 ∧
      ∀ c ∈ x.clips, c.number.toNat < x.nextClip) →
    y.clips.Pairwise (fun a b => a.number.toNat < b.number.toNat) ∧ y.nextClip ≤ 4294967296 ∧
      ∀ c ∈ y.clips, c.number.toNat < y.nextClip
  clips : x.clips.length ≤ 256 → y.clips.length ≤ 256
  labels : x.labels.length ≤ 4096 → y.labels.length ≤ 4096
  owner : ∀ c ∈ y.clips, c.state = .opened → ∀ q, c.owner = .port q →
    (∃ d ∈ x.clips, d.state = .opened ∧ d.owner = .port q) ∨ (g.ports[q]).present = true

/-- A port's lists stay within bounds, its RIGHTS bit stays or is that of the editor mask, and it does not go ABSENT. -/
structure PortRecord.Tame (strap : BitVec 16) (p : Fin 4) (x y : PortRecord) : Prop where
  queue : x.queue.length ≤ 16 → y.queue.length ≤ 16
  fullList : x.fullList.length ≤ 16 → y.fullList.length ≤ 16
  rights : y.classes.getLsbD 8 = x.classes.getLsbD 8 ∨ y.classes.getLsbD 8 = strapEditor strap p
  present : x.present = true → y.present = true

/-- A notice queue and the pulses owed stay within bounds, and SUPPLY_WARN stays in the mask. -/
structure NoticePort.Tame (x y : NoticePort) : Prop where
  queue : x.queue.length ≤ 32 → y.queue.length ≤ 32
  owed : x.owed ≤ 255 → y.owed ≤ 255
  mask : x.mask.getLsbD 20 = true → y.mask.getLsbD 20 = true

/-- A change that leaves every record that an invariant reads within what the invariant allows.  The virtual buffers are
included where `strict` holds: coding and its reset break theirs for a moment. -/
structure Hub.Tame (strict : Prop) (g h : Hub) : Prop where
  strap : h.strap = g.strap
  memory : h.store.mem = g.store.mem
  streams : ∀ k, Stream.Tame g k (g.stream k) (h.stream k)
  rings : ∀ r, Ring.Tame r (g.ring r) (h.ring r)
  taken : ∀ r : Fin 17, (h.paths.sends[r]).taken ≠ none →
    (g.paths.sends[r]).taken ≠ none ∨ (g.ring r).send ≠ (g.ring r).head
  engines : g.EnginesFit → h.EnginesFit
  buffers : strict → ∀ k : Fin 4, (g.coders[k]).BufferOk → (h.coders[k]).BufferOk
  paths : ∀ p : Fin 8, Path.Tame g g.paths.path[p] h.paths.path[p]
  log : ClipLog.Tame g g.log h.log
  tally : ∀ (o : Fin 16) q, (h.tally.entries[o]).holder = some q →
    (g.tally.entries[o]).holder = some q ∨ (g.ports[q]).present = true
  ports : ∀ p : Fin 4, PortRecord.Tame g.strap p g.ports[p] h.ports[p]
  notices : ∀ p : Fin 4, NoticePort.Tame g.notices[p] h.notices[p]

/-! ### Nothing is tame -/

theorem Stream.Tame.refl (g : Hub) (k : Fin 16) (x : Stream) : Stream.Tame g k x x :=
  ⟨.inl, .inl rfl, fun _ => .inl, fun _ hb hq => .inl ⟨hb, hq⟩, id⟩

theorem Ring.Tame.refl (r : Fin 17) (x : Ring) : Ring.Tame r x x := ⟨rfl, rfl, rfl, id, id⟩

theorem Path.Tame.refl (g : Hub) (x : Path) : Path.Tame g x x := ⟨id, id, fun _ => .inl⟩

theorem ClipLog.Tame.refl (g : Hub) (x : ClipLog) : ClipLog.Tame g x x :=
  ⟨id, id, id, fun c hc ho _ hq => .inl ⟨c, hc, ho, hq⟩⟩

theorem PortRecord.Tame.refl (strap : BitVec 16) (p : Fin 4) (x : PortRecord) : PortRecord.Tame strap p x x :=
  ⟨id, id, .inl rfl, id⟩

theorem NoticePort.Tame.refl (x : NoticePort) : NoticePort.Tame x x := ⟨id, id, id⟩

theorem Hub.Tame.refl (strict : Prop) (h : Hub) : h.Tame strict h where
  strap := rfl
  memory := rfl
  streams k := .refl h k _
  rings r := .refl r _
  taken _ := .inl
  engines := id
  buffers _ _ := id
  paths _ := .refl h _
  log := .refl h _
  tally _ _ := .inl
  ports p := .refl _ p _
  notices _ := .refl _

/-! ### One table -/

section
variable {strict : Prop} {g h : Hub}

/-- The parts that no invariant reads. -/
def freeParts : List Part := [.timebase, .inputs, .mixer, .mapping, .gauges, .budget]

theorem Hub.engineLoad_congr (hs : h.store.streams = g.store.streams) (hc : h.coders = g.coders) :
    h.engineLoad = g.engineLoad := by
  unfold Hub.engineLoad Hub.stream
  rw [hs, hc]

/-- A change of the parts that no invariant reads is tame. -/
theorem Hub.OnlyChanges.tame (hg : Hub.OnlyChanges freeParts g h) : g.Tame strict h := by
  have hstreams : g.store.streams = h.store.streams := hg .streams (by decide)
  have hrings : g.store.rings = h.store.rings := hg .rings (by decide)
  have hcoders : g.coders = h.coders := hg .coders (by decide)
  have hpaths : g.paths.path = h.paths.path := hg .pathRecords (by decide)
  have hsends : g.paths.sends = h.paths.sends ∧ _ := hg .sending (by decide)
  have hlog : g.log = h.log := hg .log (by decide)
  have htally : g.tally = h.tally := hg .tally (by decide)
  have hports : g.ports = h.ports := hg .ports (by decide)
  have hnotices : g.notices = h.notices := hg .notices (by decide)
  exact
    { strap := (hg .strap (by decide)).symm
      memory := (hg .memory (by decide)).symm
      streams := fun k => by simpa only [Hub.stream, ← hstreams] using Stream.Tame.refl g k (g.stream k)
      rings := fun r => by simpa only [Hub.ring, ← hrings] using Ring.Tame.refl r (g.ring r)
      taken := fun r => by rw [← hsends.1]; exact .inl
      engines := fun he => by rw [Hub.EnginesFit, Hub.engineLoad_congr hstreams.symm hcoders.symm]; exact he
      buffers := fun _ k => by rw [← hcoders]; exact id
      paths := fun p => by rw [← hpaths]; exact .refl g _
      log := by rw [← hlog]; exact .refl g _
      tally := fun o q => by rw [← htally]; exact .inl
      ports := fun p => by rw [← hports]; exact .refl _ p _
      notices := fun p => by rw [← hnotices]; exact .refl _ }

/-- The engine load does not rise while no stream opens and no format changes. -/
theorem Hub.EnginesFit.of_le (he : g.EnginesFit)
    (hs : ∀ k : Fin 4, (h.stream (pictureStream k)).state = .closed ∨
      (g.stream (pictureStream k)).state ≠ .closed ∧ (h.coders[k]).format = (g.coders[k]).format) : h.EnginesFit := by
  refine le_trans ?_ he
  unfold Hub.engineLoad
  refine List.sum_le_sum fun k _ => ?_
  obtain hc | ⟨ho, hf⟩ := hs k
  · simp [hc]
  · rw [if_neg ho, hf]
    split <;> omega

/-- A stream record may change in all that it allows, as long as the engines carry the streams. -/
theorem Hub.modStream_tame_of (k : Fin 16) {f : Stream → Stream} (hf : Stream.Tame h k (h.stream k) (f (h.stream k)))
    (he : h.EnginesFit → (h.modStream k f).EnginesFit) : h.Tame strict (h.modStream k f) :=
  { Hub.Tame.refl strict h with
    streams := fun j => by
      by_cases hj : j = k
      · subst hj; rw [Hub.modStream_self]; exact hf
      · rw [Hub.modStream_ne h f hj]; exact .refl h j _
    engines := he }

/-- No stream opens. -/
theorem Hub.modStream_tame (k : Fin 16) {f : Stream → Stream} (hf : Stream.Tame h k (h.stream k) (f (h.stream k)))
    (hs : (f (h.stream k)).state = .closed ∨ (h.stream k).state ≠ .closed) : h.Tame strict (h.modStream k f) :=
  Hub.modStream_tame_of k hf fun he => he.of_le fun j => by
    by_cases hj : pictureStream j = k
    · subst hj; rw [Hub.modStream_self]; exact hs.imp_right fun hs => ⟨hs, rfl⟩
    · rw [Hub.modStream_ne h f hj]
      by_cases hc : (h.stream (pictureStream j)).state = .closed
      · exact .inl hc
      · exact .inr ⟨hc, rfl⟩

theorem Hub.modRing_tame (r : Fin 17) {f : Ring → Ring} (hf : Ring.Tame r (h.ring r) (f (h.ring r))) :
    h.Tame strict (h.modRing r f) :=
  { Hub.Tame.refl strict h with
    rings := fun q => by
      by_cases hq : q = r
      · subst hq; rw [Hub.modRing_self]; exact hf
      · rw [Hub.modRing_ne h f hq]; exact .refl q _ }

theorem Hub.modSend_tame (r : Fin 17) {f : SendContext → SendContext}
    (hf : (f h.paths.sends[r]).taken ≠ none → (h.paths.sends[r]).taken ≠ none ∨ (h.ring r).send ≠ (h.ring r).head) :
    h.Tame strict (h.modSend r f) :=
  { Hub.Tame.refl strict h with
    taken := fun q => by
      by_cases hq : q = r
      · subst hq; rw [Hub.modSend_self]; exact hf
      · rw [Hub.modSend_ne h f hq]; exact .inl }

/-- Every context may change, as long as its format stays. -/
theorem Hub.coders_tame {v : Vector Coder 4} (hf : ∀ k : Fin 4, (v[k]).format = (h.coders[k]).format)
    (hb : strict → ∀ k : Fin 4, (h.coders[k]).BufferOk → (v[k]).BufferOk) : h.Tame strict { h with coders := v } :=
  { Hub.Tame.refl strict h with
    engines := fun he => he.of_le fun k => by
      by_cases hc : (h.stream (pictureStream k)).state = .closed
      · exact .inl hc
      · exact .inr ⟨hc, hf k⟩
    buffers := hb }

theorem Hub.modCoder_tame (k : Fin 4) {f : Coder → Coder}
    (hf : (f h.coders[k]).format = (h.coders[k]).format ∨ (h.stream (pictureStream k)).state = .closed)
    (hb : strict → (h.coders[k]).BufferOk → (f h.coders[k]).BufferOk) : h.Tame strict (h.modCoder k f) :=
  { Hub.Tame.refl strict h with
    engines := fun he => he.of_le fun j => by
      by_cases hc : (h.stream (pictureStream j)).state = .closed
      · exact .inl hc
      · refine .inr ⟨hc, ?_⟩
        by_cases hj : j = k
        · subst hj
          rw [Hub.modCoder_self]
          exact hf.resolve_right hc
        · rw [Hub.modCoder_ne h f hj]
    buffers := fun hst j => by
      by_cases hj : j = k
      · subst hj; rw [Hub.modCoder_self]; exact hb hst
      · rw [Hub.modCoder_ne h f hj]; exact id }

theorem Hub.modPath_tame (p : Fin 8) {f : Path → Path} (hf : Path.Tame h h.paths.path[p] (f h.paths.path[p])) :
    h.Tame strict (h.modPath p f) :=
  { Hub.Tame.refl strict h with
    paths := fun q => by
      by_cases hq : q = p
      · subst hq; rw [Hub.modPath_self]; exact hf
      · rw [Hub.modPath_ne h f hq]; exact .refl h _ }

theorem Hub.modLog_tame {f : ClipLog → ClipLog} (hf : ClipLog.Tame h h.log (f h.log)) : h.Tame strict (h.modLog f) :=
  { Hub.Tame.refl strict h with log := hf }

theorem Hub.modTally_tame (o : Fin 16) {f : TallyEntry → TallyEntry}
    (hf : ∀ q, (f h.tally.entries[o]).holder = some q →
      (h.tally.entries[o]).holder = some q ∨ (h.ports[q]).present = true) : h.Tame strict (h.modTally o f) :=
  { Hub.Tame.refl strict h with
    tally := fun n => by
      by_cases hn : n = o
      · subst hn; rw [Hub.modTally_self]; exact hf
      · rw [Hub.modTally_ne h f hn]; exact fun _ => .inl }

/-- The tally may change in all but its holders. -/
theorem Hub.withTally_tame {t : Tally}
    (ht : ∀ (o : Fin 16) q, (t.entries[o]).holder = some q → (h.tally.entries[o]).holder = some q) :
    h.Tame strict { h with tally := t } :=
  { Hub.Tame.refl strict h with tally := fun o q hq => .inl (ht o q hq) }

theorem Hub.modPort_tame (p : Fin 4) {f : PortRecord → PortRecord}
    (hf : PortRecord.Tame h.strap p h.ports[p] (f h.ports[p])) : h.Tame strict (h.modPort p f) :=
  { Hub.Tame.refl strict h with
    ports := fun q => by
      by_cases hq : q = p
      · subst hq; rw [Hub.modPort_self]; exact hf
      · rw [Hub.modPort_ne h f hq]; exact .refl _ q _ }

theorem Hub.modNotice_tame (p : Fin 4) {f : NoticePort → NoticePort}
    (hf : NoticePort.Tame h.notices[p] (f h.notices[p])) : h.Tame strict (h.modNotice p f) :=
  { Hub.Tame.refl strict h with
    notices := fun q => by
      by_cases hq : q = p
      · subst hq; rw [Hub.modNotice_self]; exact hf
      · rw [Hub.modNotice_ne h f hq]; exact .refl _ }

end

/-! ### Changes and chains of them -/

/-- R32 step 3: the tail unit of a ring leaves its index, and ring G carries the release marks that it passes along. -/
def Hub.dropTail (h : Hub) (r : Fin 17) (e : Entry) : Hub :=
  let g := h.modRing r fun x => { x with index := x.index.drop 1 }
  if r = 16 then g.carryMarks (e.key r) else g

/-- What the Store is asked for before it writes a unit of `o` into ring r (R31, R32): the ring is the stream's, the
numbers are the next ones, and there is room. -/
structure Hub.MayWrite (h : Hub) (r : Fin 17) (o : Offer) (unit : Word) (g : Option Word) : Prop where
  ring : r = h.boundRing o.stream
  unit : unit = h.nextUnit o.stream
  g : g = if r = 16 then some (h.ring 16).head else none
  room : sectorsOf o.payload.length ≤ (h.ring r).free
  count : (h.ring r).index.length < 1024

/-- One change of the hub. -/
inductive Hub.Change (strict : Prop) : Hub → Hub → Prop
  | tame {g h : Hub} (ht : g.Tame strict h) : Change strict g h
  | moveSend (h : Hub) (r : Fin 17) (w : Word)
      (hw : (h.ring r).Ordered r → ((h.paths.sends[r]).taken ≠ none → (h.ring r).send ≠ (h.ring r).head) →
        ((h.ring r).head - w).toNat ≤ (h.ring r).index.length) : Change strict h (h.moveSend r w)
  | emptyRing (h : Hub) (r : Fin 17) : Change strict h (h.emptyRing r)
  | dropTail (h : Hub) (r : Fin 17) (e : Entry) (hi : (h.ring r).index.head? = some e) (hu : h.unsent r e = false) :
      Change strict h (h.dropTail r e)
  | writeUnit (h : Hub) (r : Fin 17) (o : Offer) (unit : Word) (g : Option Word) (hm : h.MayWrite r o unit g) :
      Change strict h (h.writeUnit r o unit g)

/-- A chain of changes. -/
def Hub.Evolves (strict : Prop) : Hub → Hub → Prop := Relation.ReflTransGen (Hub.Change strict)

section
variable {strict : Prop} {a b c : Hub}

theorem Hub.Evolves.refl (h : Hub) : h.Evolves strict h := Relation.ReflTransGen.refl

theorem Hub.Evolves.trans (h₁ : a.Evolves strict b) (h₂ : b.Evolves strict c) : a.Evolves strict c :=
  Relation.ReflTransGen.trans h₁ h₂

theorem Hub.Change.evolves (h : a.Change strict b) : a.Evolves strict b := Relation.ReflTransGen.single h

theorem Hub.Tame.evolves (h : a.Tame strict b) : a.Evolves strict b := (Hub.Change.tame h).evolves

theorem Hub.OnlyChanges.evolves (h : Hub.OnlyChanges freeParts a b) : a.Evolves strict b := h.tame.evolves

theorem Hub.Evolves.ite {p : Prop} [Decidable p] (h₁ : a.Evolves strict b) (h₂ : a.Evolves strict c) :
    a.Evolves strict (if p then b else c) := by
  split
  · exact h₁
  · exact h₂

theorem Hub.Evolves.opt {p : Prop} [Decidable p] (h₁ : a.Evolves strict b) (h₂ : b.Evolves strict c) :
    a.Evolves strict (if p then c else b) := .ite (h₁.trans h₂) h₁

theorem Hub.Evolves.foldl {α : Type} {f : Hub → α → Hub} (hf : ∀ (h : Hub) x, h.Evolves strict (f h x)) :
    ∀ (xs : List α) (h : Hub), h.Evolves strict (xs.foldl f h)
  | [], h => .refl h
  | x :: xs, h => (hf h x).trans (Hub.Evolves.foldl hf xs (f h x))

theorem Hub.Evolves.forEach {n : Nat} {f : Fin n → Hub → Hub} (hf : ∀ i (h : Hub), h.Evolves strict (f i h)) (h : Hub) :
    h.Evolves strict (h.forEach n f) := Hub.Evolves.foldl (fun h i => hf i h) _ h

/-- What every change keeps a chain keeps. -/
theorem Hub.Evolves.keeps {P : Hub → Prop} (hP : ∀ g h, Hub.Change strict g h → P g → P h) (h : a.Evolves strict b)
    (ha : P a) : P b := by
  induction h with
  | refl => exact ha
  | tail _ hc ih => exact hP _ _ hc ih

end

end Sys2Proof.Machine
end

section
/-! Proofs: every shared operation of the blocks is a chain of changes (`Hub.Evolves`). -/

namespace Sys2Proof.Machine

-- In order, so that the package in one text stays within the memory of its check.
set_option Elab.async false

section
variable {strict : Prop} (h : Hub)

/-! ### Notices and the Budget -/

theorem NoticePort.raise_tame (n : NoticePort) : NoticePort.Tame n n.raise := by
  unfold NoticePort.raise
  split
  · exact ⟨id, fun _ => Nat.min_le_left _ _, id⟩
  · exact ⟨id, id, id⟩
  · exact ⟨id, id, id⟩

theorem NoticePort.Tame.trans {x y z : NoticePort} (h₁ : NoticePort.Tame x y) (h₂ : NoticePort.Tame y z) :
    NoticePort.Tame x z := ⟨h₂.queue ∘ h₁.queue, h₂.owed ∘ h₁.owed, h₂.mask ∘ h₁.mask⟩

theorem NoticePort.join_tame {n : NoticePort} (hn : n.queue.length < 32) (x : Notice) : NoticePort.Tame n (n.join x) :=
  .trans (y := { n with queue := n.queue ++ [x] }) ⟨fun _ => by simpa using hn, id, id⟩ (NoticePort.raise_tame _)

/-- R185: an entry that takes the place of the oldest finds one place free. -/
theorem NoticePort.overflow_tame (n : NoticePort) (x : Notice) : NoticePort.Tame n (n.overflow x) := by
  unfold NoticePort.overflow
  split
  · refine .trans (y := { n.lose with queue := n.queue.drop 1 ++ [x] }) ⟨fun hq => ?_, id, id⟩ (NoticePort.raise_tame _)
    simp only [List.length_append, List.length_drop, List.length_singleton]
    omega
  · exact ⟨id, id, id⟩

theorem NoticePort.offer_tame (n : NoticePort) (x : Notice) : NoticePort.Tame n (n.offer x) := by
  refine .trans (y := { n with summary := setBit n.summary x.kind.code }) ⟨id, id, id⟩ ?_
  unfold NoticePort.offer
  dsimp only
  split
  · exact .refl _
  · split
    · rename_i hq
      exact NoticePort.join_tame (n := { n with summary := setBit n.summary x.kind.code }) hq x
    · exact NoticePort.overflow_tame _ x

theorem Hub.give_tame (x : Notice) : h.Tame strict (h.give x) :=
  { Hub.Tame.refl strict h with
    notices := fun p => by
      rw [Hub.give_notices]
      split
      · exact NoticePort.offer_tame _ x
      · exact .refl _ }

theorem Hub.notify_evolves (k : NoticeKind) (n : Nat) : h.Evolves strict (h.notify k n) := (h.give_tame _).evolves

theorem Hub.recompute_evolves : h.Evolves strict h.recompute := by
  unfold Hub.recompute
  refine .trans (b := { h with budget := h.budgetNow }) (Hub.OnlyChanges.evolves ?_)
    (.trans (.ite (.refl _) (Hub.notify_evolves _ _ _)) (.forEach (fun k g => .ite (Hub.notify_evolves _ _ _) (.refl _)) _))
  intro x hx; cases x <;> simp_all [Part.same, freeParts]

/-! ### Clips -/

/-- A map over the Clip Table that keeps the numbers, opens no clip and gives none to a port. -/
structure ClipMap (f : Clip → Clip) : Prop where
  number : ∀ c, (f c).number = c.number
  opened : ∀ c, (f c).state = .opened → c.state = .opened
  owner : ∀ c q, (f c).owner = .port q → c.owner = .port q

/-- A map that leaves no clip OPEN. -/
theorem ClipMap.of_not_opened {f : Clip → Clip} (hn : ∀ c, (f c).number = c.number) (hs : ∀ c, (f c).state ≠ .opened)
    (ho : ∀ c, (f c).owner = c.owner) : ClipMap f :=
  ⟨hn, fun c h => absurd h (hs c), fun c _ => (ho c).symm.trans⟩

theorem ClipMap.ite {f : Clip → Clip} (hf : ClipMap f) {p : Clip → Prop} [DecidablePred p] :
    ClipMap fun c => if p c then f c else c where
  number c := by
    by_cases hp : p c
    · simpa only [if_pos hp] using hf.number c
    · simp only [if_neg hp]
  opened c := by
    by_cases hp : p c
    · simpa only [if_pos hp] using hf.opened c
    · simp only [if_neg hp, imp_self]
  owner c q := by
    by_cases hp : p c
    · simpa only [if_pos hp] using hf.owner c q
    · simp only [if_neg hp, imp_self]

theorem ClipLog.Tame.map {f : Clip → Clip} (hf : ClipMap f) {l y : ClipLog} (hc : y.clips = l.clips.map f)
    (hn : y.nextClip = l.nextClip) (hl : l.labels.length ≤ 4096 → y.labels.length ≤ 4096) : ClipLog.Tame h l y where
  ordered := by
    rintro ⟨hp, hk, hb⟩
    refine ⟨?_, by rwa [hn], ?_⟩
    · rw [hc, List.pairwise_map]
      simpa only [hf.number] using hp
    · rw [hc, hn]
      rintro c hc
      obtain ⟨d, hd, rfl⟩ := List.mem_map.mp hc
      rw [hf.number]
      exact hb d hd
  clips := by rw [hc, List.length_map]; exact id
  labels := hl
  owner := by
    rw [hc]
    rintro c hc ho q hq
    obtain ⟨d, hd, rfl⟩ := List.mem_map.mp hc
    exact .inl ⟨d, hd, hf.opened d ho, hf.owner d q hq⟩

/-- A change of the Clip Log beside its clips. -/
theorem ClipLog.Tame.of_clips {l y : ClipLog} (hc : y.clips = l.clips) (hn : y.nextClip = l.nextClip)
    (hl : l.labels.length ≤ 4096 → y.labels.length ≤ 4096) : ClipLog.Tame h l y :=
  .map h (f := id) ⟨fun _ => rfl, fun _ => id, fun _ _ => id⟩ (by rw [hc, List.map_id]) hn hl

/-- Clips may leave the table. -/
theorem ClipLog.Tame.sublist {l y : ClipLog} (hc : y.clips.Sublist l.clips) (hn : y.nextClip = l.nextClip)
    (hl : l.labels.length ≤ 4096 → y.labels.length ≤ 4096) : ClipLog.Tame h l y where
  ordered := fun ⟨hp, hk, hb⟩ => ⟨hp.sublist hc, hn ▸ hk, fun c hm => hn ▸ hb c (hc.subset hm)⟩
  clips := hc.length_le.trans
  labels := hl
  owner c hm ho _ hq := .inl ⟨c, hc.subset hm, ho, hq⟩

theorem Hub.mapClips_evolves {f : Clip → Clip} (hf : ClipMap f) : h.Evolves strict (h.mapClips f) :=
  (Hub.modLog_tame (.map h hf rfl rfl id)).evolves

theorem Hub.modClip_evolves (n : Word) {f : Clip → Clip} (hf : ClipMap f) : h.Evolves strict (h.modClip n f) :=
  h.mapClips_evolves hf.ite

/-- A change of the Clip Log beside its clips and labels. -/
theorem Hub.modLog_evolves {f : ClipLog → ClipLog}
    (hf : ∀ l, ((f l).clips, (f l).nextClip, (f l).labels) = (l.clips, l.nextClip, l.labels)) :
    h.Evolves strict (h.modLog f) := by
  obtain ⟨hc, hn, hl⟩ := Prod.mk.injEq .. ▸ Prod.mk.injEq .. ▸ hf h.log
  exact (Hub.modLog_tame (.of_clips h hc hn (by rw [hl]; exact id))).evolves

theorem Hub.modTrigger_evolves (t : Fin 4) (f : Trigger → Trigger) : h.Evolves strict (h.modTrigger t f) :=
  h.modLog_evolves fun _ => rfl

theorem Clip.finish_clipMap : ClipMap Clip.finish :=
  .of_not_opened (fun _ => rfl) (fun _ => by simp [Clip.finish]) fun _ => rfl

theorem Hub.finishClips_evolves : h.Evolves strict h.finishClips :=
  .foldl (fun g _ => (g.modClip_evolves _ Clip.finish_clipMap).trans (Hub.notify_evolves _ _ _)) _ _

theorem Hub.markPassed_evolves (k : Fin 16) (dated : Option Word) : h.Evolves strict (h.markPassed k dated) :=
  h.mapClips_evolves (ClipMap.ite (f := fun c => { c with passed := c.passed ||| (1#16 <<< k.val) })
    ⟨fun _ => rfl, fun _ => id, fun _ _ => id⟩)

theorem Hub.testClips_evolves (k : Fin 16) (dated : Option Word) : h.Evolves strict (h.testClips k dated) :=
  (h.markPassed_evolves k dated).trans (Hub.finishClips_evolves _)

theorem Hub.lapse_evolves (n : Word) : h.Evolves strict (h.lapse n) := by
  have hf : ClipMap fun c => { c with state := .lapsed, limitDue := false } :=
    .of_not_opened (fun _ => rfl) (fun _ => by simp) fun _ => rfl
  exact ((h.modClip_evolves n hf).trans (Hub.modLog_evolves _ (f := fun l => { l with lapses := l.lapses + 1 })
    fun _ => rfl)).trans (Hub.notify_evolves _ _ _)

theorem Hub.lapseRetainers_evolves (k : Fin 16) (u : Word) :
    ∀ (n : Nat) (h : Hub), h.Evolves strict (Hub.lapseRetainers k u n h)
  | 0, h => .refl h
  | n + 1, h => by
    unfold Hub.lapseRetainers
    split
    · exact .refl h
    · exact (h.lapse_evolves _).trans (Hub.lapseRetainers_evolves k u n _)

theorem Hub.damageClips_evolves (k : Fin 16) (u : Word) : h.Evolves strict (h.damageClips k u) :=
  h.mapClips_evolves (ClipMap.ite (f := fun c => { c with damaged := true }) ⟨fun _ => rfl, fun _ => id, fun _ _ => id⟩)

theorem Hub.closeClips_evolves (select : Clip → Bool) (reason : EndReason) :
    h.Evolves strict (h.closeClips select reason) :=
  h.mapClips_evolves (ClipMap.ite (f := fun c => c.close h.tb.frame.serial reason)
    (.of_not_opened (fun _ => rfl) (fun _ => by simp [Clip.close]) fun _ => rfl))

/-- What opens a clip (R135): room for a number and a descriptor. -/
theorem ClipLog.canOpen_iff (l : ClipLog) :
    l.canOpen = true ↔
      l.active < 16 ∧ (l.clips.length < 256 ∨ ∃ c ∈ l.clips, c.state = .lapsed) ∧ l.nextClip ≤ 4294967295 := by
  simp [ClipLog.canOpen, and_assoc]

/-- R135 check 4: the table then has room, and what is left of it was there. -/
theorem ClipLog.makeRoom_clips (l : ClipLog) : l.makeRoom.clips.Sublist l.clips := by
  unfold ClipLog.makeRoom
  split
  · exact .refl _
  · exact List.eraseP_sublist

theorem ClipLog.makeRoom_length {l : ClipLog} (hl : l.clips.length ≤ 256) (ho : l.canOpen = true) :
    l.makeRoom.clips.length < 256 := by
  obtain ⟨-, hroom, -⟩ := l.canOpen_iff.mp ho
  unfold ClipLog.makeRoom
  split
  · assumption
  · rename_i hfull
    obtain ⟨c, hc, hs⟩ := hroom.resolve_left hfull
    have := List.length_eraseP_of_mem (p := fun c : Clip => decide (c.state = .lapsed)) hc (by simpa using hs)
    dsimp only
    omega

@[simp] theorem ClipLog.makeRoom_labels (l : ClipLog) : l.makeRoom.labels = l.labels := by
  unfold ClipLog.makeRoom
  split <;> rfl

/-- R135: a clip opens for a port that is PRESENT, or for a trigger. -/
theorem Hub.addClip_evolves {owner : Owner} (mask : BitVec 16) (name : Bytes) (hc : h.log.canOpen = true)
    (ho : ∀ q, owner = .port q → (h.ports[q]).present = true) : h.Evolves strict (h.addClip owner mask name) := by
  refine (Hub.modLog_tame ⟨?_, fun hl => ?_, ?_, ?_⟩).evolves
  · rintro ⟨hp, hn, hb⟩
    obtain ⟨-, -, hnext⟩ := h.log.canOpen_iff.mp hc
    have hnew : (BitVec.ofNat 32 h.log.nextClip).toNat = h.log.nextClip := by
      rw [BitVec.toNat_ofNat]
      exact Nat.mod_eq_of_lt (by omega)
    have hold : ∀ c ∈ h.log.makeRoom.clips, c.number.toNat < h.log.nextClip := fun c hc =>
      hb c (h.log.makeRoom_clips.subset hc)
    refine ⟨?_, Nat.succ_le_succ hnext, fun c hc => ?_⟩
    · rw [List.pairwise_append]
      refine ⟨hp.sublist h.log.makeRoom_clips, List.pairwise_singleton _ _, fun c hc d hd => ?_⟩
      rw [List.mem_singleton.mp hd]
      exact (hold c hc).trans_eq hnew.symm
    · obtain hc | hc := List.mem_append.mp hc
      · exact (hold c hc).trans (Nat.lt_succ_self _)
      · rw [List.mem_singleton.mp hc]
        exact hnew.trans_lt (Nat.lt_succ_self _)
  · simpa using ClipLog.makeRoom_length hl hc
  · simp
  · intro c hc hs q hq
    obtain hc | hc := List.mem_append.mp hc
    · exact .inl ⟨c, h.log.makeRoom_clips.subset hc, hs, hq⟩
    · rw [List.mem_singleton.mp hc] at hq
      exact .inr (ho q hq)

/-! ### The Store -/

/-- A ring whose settings, numbers and sectors stay: its counts, and the flags of its units, may change. -/
theorem Ring.Tame.mapFlags {x : Ring} {r : Fin 17} (f : Entry → Entry) (corrected damaged : Word)
    (hf : ∀ e, ∃ flags, f e = { e with flags := flags }) :
    Ring.Tame r x { x with corrected := corrected, damaged := damaged, index := x.index.map f } where
  head := rfl
  send := rfl
  count := by simp
  fits := by
    have hlen : ∀ e : Entry, (f e).len = e.len := fun e => by
      obtain ⟨flags, he⟩ := hf e
      rw [he]
    simp [Ring.sectors, Function.comp_def, hlen]
  ordered := by
    rintro ⟨ho, hs, he⟩
    refine ⟨ho, by simpa using hs, fun i e hi => ?_⟩
    rw [List.getElem?_map] at hi
    obtain ⟨d, hd, rfl⟩ := Option.map_eq_some_iff.mp hi
    have hlen : ∀ e : Entry, (f e).len = e.len := fun e => by
      obtain ⟨flags, he⟩ := hf e
      rw [he]
    have hfd : (f d).key r = d.key r ∧ (f d).g = d.g ∧ (f d).stream = d.stream ∧ (f d).start = d.start := by
      obtain ⟨flags, he⟩ := hf d
      rw [he]
      exact ⟨rfl, rfl, rfl, rfl⟩
    obtain ⟨hk, hg, hst, hss⟩ := hfd
    simpa [hk, hg, hst, hss, ← List.map_drop, Function.comp_def, hlen, Ring.sectors] using he i d hd

theorem Hub.meetErrors_evolves (r : Fin 17) (e : Entry) (f : ReadFault) : h.Evolves strict (h.meetErrors r e f) := by
  unfold Hub.meetErrors
  dsimp only
  refine .trans (b := h.modRing r fun g => { g with corrected := g.corrected + BitVec.ofNat 32 f.corrected })
    (Hub.modRing_tame r ⟨rfl, rfl, rfl, id, id⟩).evolves (.ite ?_ (.refl _))
  refine .trans (Hub.modRing_tame r ?_).evolves ((Hub.notify_evolves _ _ _).trans (Hub.damageClips_evolves _ _ _))
  refine Ring.Tame.mapFlags _ _ _ fun x => ?_
  split
  · exact ⟨_, rfl⟩
  · exact ⟨x.flags, rfl⟩

theorem Hub.dropFault_evolves : h.Evolves strict h.dropFault := (h.dropFault_only.mono (by simp)).evolves

theorem Hub.calmDeficits_evolves (r : Fin 17) : h.Evolves strict (h.calmDeficits r) := by
  unfold Hub.calmDeficits
  exact .ite (.refl h) (Hub.Tame.evolves { Hub.Tame.refl strict h with })

/-- A stream record whose rights, binding and buffer stay. -/
theorem Hub.modStream_evolves (k : Fin 16) {f : Stream → Stream}
    (hf : Stream.Tame h k (h.stream k) (f (h.stream k)))
    (hs : (f (h.stream k)).state = .closed ∨ (h.stream k).state ≠ .closed) : h.Evolves strict (h.modStream k f) :=
  (Hub.modStream_tame k hf hs).evolves

/-- A count of a stream changes. -/
theorem Hub.countStream_evolves (k : Fin 16) (c d l s : Stream → Word) :
    h.Evolves strict (h.modStream k fun st =>
      { st with committed := c st, discarded := d st, lost := l st, skipped := s st }) :=
  h.modStream_evolves k ⟨.inl, .inl rfl, fun _ => .inl, fun _ hb hq => .inl ⟨hb, hq⟩, id⟩ (em _)

theorem Hub.countDiscard_evolves (k : Fin 16) : h.Evolves strict (h.countDiscard k) :=
  h.countStream_evolves k Stream.committed (fun st => st.discarded + 1) Stream.lost Stream.skipped

/-- R36: the send pointer moves to the head. -/
theorem Hub.moveSendHead_evolves (r : Fin 17) : h.Evolves strict (h.moveSend r (h.ring r).head) :=
  (Hub.Change.moveSend h r _ fun _ _ => by simp).evolves

/-- R36: below the head the send pointer advances; a unit taken up stands below it. -/
theorem Hub.advance_evolves {r : Fin 17}
    (hr : (h.ring r).send ≠ (h.ring r).head ∨ (h.paths.sends[r]).taken ≠ none) : h.Evolves strict (h.advance r) :=
  (Hub.Change.moveSend h r _ fun ho ht => (ho.advance (hr.elim id ht)).2.1).evolves

/-- A move of a send pointer touches no stream record. -/
@[simp] theorem Hub.moveSend_stream (r : Fin 17) (w : Word) (k : Fin 16) : (h.moveSend r w).stream k = h.stream k := by
  have hs : h.store.streams = (h.moveSend r w).store.streams := h.moveSend_only r w .streams (by simp)
  rw [Hub.stream, ← hs]
  rfl

/-- The end of a hold leaves the state of its stream. -/
@[simp] theorem Hub.endHold_state (k : Fin 16) : ((h.endHold k).stream k).state = (h.stream k).state := by
  unfold Hub.endHold
  rw [Hub.modStream_self]
  split <;> simp

theorem Hub.endHold_evolves (k : Fin 16) : h.Evolves strict (h.endHold k) := by
  unfold Hub.endHold
  dsimp only
  refine .trans (.ite ?_ ?_) (Hub.modStream_evolves _ k ⟨.inl, .inl rfl, nofun, fun _ hb hq => .inl ⟨hb, hq⟩, id⟩ (em _))
  · exact h.modStream_evolves k ⟨.inl, .inr rfl, fun _ => .inl, fun _ hb hq => .inl ⟨hb, hq⟩, id⟩ (em _)
  · exact (h.countStream_evolves k Stream.committed Stream.discarded Stream.lost
      fun st => st.skipped + ((h.ring k.castSucc).head - (h.ring k.castSucc).send)).trans
        (Hub.moveSendHead_evolves _ k.castSucc)

theorem Hub.streamChanged_evolves (k : Fin 16) : h.Evolves strict (h.streamChanged k) :=
  (((h.calmDeficits_evolves _).trans (Hub.notify_evolves _ _ _)).trans (Hub.recompute_evolves _)).trans
    (Hub.testClips_evolves _ _ _)

theorem Hub.endClosing_evolves (k : Fin 16) : h.Evolves strict (h.endClosing k) := by
  unfold Hub.endClosing
  refine .trans (.ite (h.endHold_evolves k) (.refl h)) (.trans (Hub.modStream_evolves _ k ?_ (.inl rfl))
    (Hub.streamChanged_evolves _ k))
  exact ⟨.inl, .inl rfl, nofun, fun _ hb hq => .inl ⟨hb, hq⟩, id⟩

theorem Hub.discardBuffer_evolves (k : Fin 16) : h.Evolves strict (h.discardBuffer k) := by
  unfold Hub.discardBuffer
  refine .ite (.refl h) (.trans (h.modStream_evolves k ?_ (em _)) (Hub.countDiscard_evolves _ k))
  exact ⟨.inl, .inl rfl, fun _ => .inl, fun _ hb => absurd rfl hb, fun _ => Nat.zero_le _⟩

theorem Hub.releaseHold_evolves {k : Fin 16} (hk : (h.stream k).state ≠ .closed) :
    h.Evolves strict (h.releaseHold k) := by
  refine .trans (.trans (h.endHold_evolves k) (Hub.modStream_evolves _ k ?_ (.inr (by simpa using hk))))
    (Hub.streamChanged_evolves _ k)
  exact ⟨.inl, .inl rfl, fun _ => .inl, fun _ hb hq => .inl ⟨hb, hq⟩, id⟩

end

end Sys2Proof.Machine
end

section
/-! Proofs: emptying, commits, offers and labels are chains of changes (`Hub.Evolves`); what makes room for a unit leaves
of a ring. -/

namespace Sys2Proof.Machine

-- In order, so that the package in one text stays within the memory of its check.
set_option Elab.async false

/-! ### Moves of a send pointer, release marks -/

section
variable (h : Hub)

@[simp] theorem Hub.calmDeficits_store (r : Fin 17) : (h.calmDeficits r).store = h.store := by
  unfold Hub.calmDeficits
  split <;> rfl

@[simp] theorem Hub.calmDeficits_ring (r q : Fin 17) : (h.calmDeficits r).ring q = h.ring q := by
  simp [Hub.ring]

@[simp] theorem Hub.moveSend_self (r : Fin 17) (w : Word) : (h.moveSend r w).ring r = { h.ring r with send := w } := by
  simp [Hub.moveSend]

theorem Hub.moveSend_ne {r q : Fin 17} (w : Word) (hq : q ≠ r) : (h.moveSend r w).ring q = h.ring q := by
  simp [Hub.moveSend, Hub.modRing_ne _ _ hq]

@[simp] theorem Hub.carryMarks_ring (old : Word) (r : Fin 17) : (h.carryMarks old).ring r = h.ring r := rfl

/-- R37: the release marks that the tail of ring G passes become the new tail. -/
theorem Hub.carryMarks_stream (old : Word) (k : Fin 16) :
    (h.carryMarks old).stream k =
      if dist old (h.stream k).releaseMark < dist old (h.tail 16) then { h.stream k with releaseMark := h.tail 16 }
      else h.stream k := by
  simp [Hub.carryMarks, Hub.stream]
  rfl

/-- Two hubs agree on a part that no step between them changes. -/
theorem Hub.OnlyChanges.stream_eq {parts : List Part} {g h : Hub} (hg : Hub.OnlyChanges parts g h)
    (hp : Part.streams ∉ parts) (k : Fin 16) : h.stream k = g.stream k := by
  have hs : g.store.streams = h.store.streams := hg .streams hp
  rw [Hub.stream, Hub.stream, hs]

theorem Hub.OnlyChanges.ring_eq {parts : List Part} {g h : Hub} (hg : Hub.OnlyChanges parts g h)
    (hp : Part.rings ∉ parts) (r : Fin 17) : h.ring r = g.ring r := by
  have hs : g.store.rings = h.store.rings := hg .rings hp
  rw [Hub.ring, Hub.ring, hs]

/-! ### Emptying a ring (R28) -/

/-- R28: units lost before send, counted at their streams. -/
def Hub.countLost (h : Hub) (es : List Entry) : Hub :=
  es.foldl (fun h e => h.modStream e.stream fun st => { st with lost := st.lost + 1 }) h

@[simp] theorem Hub.countLost_ring (es : List Entry) (r : Fin 17) : (h.countLost es).ring r = h.ring r := by
  unfold Hub.countLost
  induction es generalizing h with
  | nil => rfl
  | cons e es ih => exact ih _

theorem Hub.countLost_stream (es : List Entry) (k : Fin 16) :
    (h.countLost es).stream k =
      { h.stream k with lost := (h.stream k).lost + BitVec.ofNat 32 (es.countP fun e => decide (e.stream = k)) } := by
  unfold Hub.countLost
  induction es generalizing h with
  | nil => simp
  | cons e es ih =>
    rw [List.foldl_cons, ih, List.countP_cons]
    by_cases hk : e.stream = k
    · subst hk
      simp only [Hub.modStream_self, decide_true, if_true, Stream.mk.injEq, true_and, and_true]
      rw [BitVec.ofNat_add, BitVec.add_assoc, BitVec.add_comm 1]
      rfl
    · rw [Hub.modStream_ne _ _ (Ne.symm hk)]
      simp [hk]

/-- R28: the emptied ring, before ring G carries the release marks along. -/
def Hub.emptied (h : Hub) (r : Fin 17) : Hub :=
  ((h.countLost ((h.ring r).index.filter fun e => h.unsent r e)).modRing r fun g =>
    { g with index := [], headOff := 0 }).moveSend r (h.ring r).head

theorem Hub.emptyRing_eq (r : Fin 17) :
    h.emptyRing r = if r = 16 then (h.emptied r).carryMarks (h.tail r) else h.emptied r := by
  have hh : (((h.countLost ((h.ring r).index.filter fun e => h.unsent r e)).modRing r fun g =>
      { g with index := [], headOff := 0 }).ring r).head = (h.ring r).head := by simp
  unfold Hub.emptied
  rw [← hh]
  rfl

/-- R28: emptying leaves no unit of its ring and moves the send pointer to the head. -/
@[simp] theorem Hub.emptyRing_self (r : Fin 17) :
    (h.emptyRing r).ring r = { h.ring r with index := [], headOff := 0, send := (h.ring r).head } := by
  have he : (h.emptied r).ring r = { h.ring r with index := [], headOff := 0, send := (h.ring r).head } := by
    simp [Hub.emptied]
  rw [Hub.emptyRing_eq]
  split
  · rw [Hub.carryMarks_ring, he]
  · exact he

theorem Hub.emptyRing_ne {r q : Fin 17} (hq : q ≠ r) : (h.emptyRing r).ring q = h.ring q := by
  have he : (h.emptied r).ring q = h.ring q := by
    simp [Hub.emptied, Hub.moveSend_ne _ _ hq, Hub.modRing_ne _ _ hq]
  rw [Hub.emptyRing_eq]
  split
  · rw [Hub.carryMarks_ring, he]
  · exact he

/-- R28, R37: emptying counts the losses of its streams and, in ring G, moves the release marks that the tail passes. -/
theorem Hub.emptyRing_stream (r : Fin 17) (k : Fin 16) :
    (h.emptyRing r).stream k =
      let st := h.stream k
      let lost := ((h.ring r).index.filter fun e => h.unsent r e).countP fun e => decide (e.stream = k)
      { st with
        lost := st.lost + BitVec.ofNat 32 lost
        releaseMark :=
          if r = 16 ∧ dist (h.tail 16) st.releaseMark < dist (h.tail 16) (h.ring 16).head then (h.ring 16).head
          else st.releaseMark } := by
  have he : (h.emptied r).stream k = (h.countLost ((h.ring r).index.filter fun e => h.unsent r e)).stream k := by
    unfold Hub.emptied
    rw [Hub.moveSend_stream]
    rfl
  rw [Hub.emptyRing_eq]
  dsimp only
  split
  · rename_i hr
    subst hr
    have ht : (h.emptied 16).tail 16 = (h.ring 16).head := by
      unfold Hub.tail Hub.emptied
      simp
    rw [Hub.carryMarks_stream, he, ht, Hub.countLost_stream]
    simp only [true_and]
    split <;> rfl
  · rename_i hr
    rw [he, Hub.countLost_stream]
    simp [hr]

/-! ### The tail unit leaves (R32) -/

theorem Hub.loseUnsent_ring (r : Fin 17) (e : Entry) :
    (h.loseUnsent r e).ring r = { h.ring r with send := e.key r + 1 } := by
  unfold Hub.loseUnsent
  dsimp only
  split <;> simp

theorem Hub.loseUnsent_global (r : Fin 17) (e : Entry) (k : Fin 16) :
    ((h.loseUnsent r e).stream k).global = (h.stream k).global := by
  have hs : (((h.moveSend r (e.key r + 1)).modStream e.stream fun st => { st with lost := st.lost + 1 }).stream k).global =
      (h.stream k).global := by
    by_cases hk : k = e.stream
    · subst hk; simp
    · rw [Hub.modStream_ne _ _ hk, Hub.moveSend_stream]
  unfold Hub.loseUnsent
  dsimp only
  split
  · exact hs
  · exact hs

/-- R32 step 1: the clips that retain the tail unit lapse. -/
def Hub.lapseTail (h : Hub) (r : Fin 17) (e : Entry) : Hub :=
  if h.boundRing e.stream = r then Hub.lapseRetainers e.stream e.unit h.log.clips.length h else h

/-- R32 steps 1 and 2: the clips of the tail unit lapse, and it is lost if it was not sent. -/
def Hub.beforeDrop (h : Hub) (r : Fin 17) (e : Entry) : Hub :=
  if (h.lapseTail r e).unsent r e then (h.lapseTail r e).loseUnsent r e else h.lapseTail r e

theorem Hub.removeTail_eq (r : Fin 17) (e : Entry) : h.removeTail r e = (h.beforeDrop r e).dropTail r e := rfl

theorem Hub.lapseTail_only (r : Fin 17) (e : Entry) : Hub.OnlyChanges [.log, .notices] h (h.lapseTail r e) :=
  .ite (Hub.lapseRetainers_only _ _ _ h) (.refl _ h)

/-- Before the removal the ring keeps all but its send pointer. -/
theorem Hub.beforeDrop_ring (r : Fin 17) (e : Entry) : ∃ w, (h.beforeDrop r e).ring r = { h.ring r with send := w } := by
  have hl := (h.lapseTail_only r e).ring_eq (by decide) r
  unfold Hub.beforeDrop
  split
  · exact ⟨e.key r + 1, by rw [Hub.loseUnsent_ring, hl]⟩
  · exact ⟨(h.ring r).send, by rw [hl]⟩

theorem Hub.beforeDrop_global (r : Fin 17) (e : Entry) (k : Fin 16) :
    ((h.beforeDrop r e).stream k).global = (h.stream k).global := by
  have hl := (h.lapseTail_only r e).stream_eq (by decide) k
  unfold Hub.beforeDrop
  split
  · rw [Hub.loseUnsent_global, hl]
  · rw [hl]

theorem Hub.dropTail_ring (r : Fin 17) (e : Entry) :
    (h.dropTail r e).ring r = { h.ring r with index := (h.ring r).index.drop 1 } := by
  unfold Hub.dropTail
  dsimp only
  split <;> simp

theorem Hub.dropTail_global (r : Fin 17) (e : Entry) (k : Fin 16) :
    ((h.dropTail r e).stream k).global = (h.stream k).global := by
  unfold Hub.dropTail
  dsimp only
  split
  · rw [Hub.carryMarks_stream]
    split <;> simp
  · simp

theorem Hub.removeTail_ring (r : Fin 17) (e : Entry) :
    ∃ w, (h.removeTail r e).ring r = { h.ring r with index := (h.ring r).index.drop 1, send := w } := by
  obtain ⟨w, hw⟩ := h.beforeDrop_ring r e
  exact ⟨w, by rw [Hub.removeTail_eq, Hub.dropTail_ring, hw]⟩

theorem Hub.removeTail_global (r : Fin 17) (e : Entry) (k : Fin 16) :
    ((h.removeTail r e).stream k).global = (h.stream k).global := by
  rw [Hub.removeTail_eq, Hub.dropTail_global, Hub.beforeDrop_global]

/-- R32: the Store makes room for a unit that the ring can hold. -/
theorem Hub.makeRoom_room {r : Fin 17} {len : Nat} :
    ∀ (n : Nat) (h : Hub), (h.ring r).index.length ≤ n → len ≤ (h.ring r).sectors →
      len ≤ ((Hub.makeRoom r len n h).ring r).free ∧ ((Hub.makeRoom r len n h).ring r).index.length < 1024
  | 0, h, hn, hlen => by
    have hi : (h.ring r).index = [] := List.length_eq_zero_iff.mp (by omega)
    simpa [Hub.makeRoom, Ring.free, hi] using hlen
  | n + 1, h, hn, hlen => by
    unfold Hub.makeRoom
    split
    · split
      · rename_i hi
        simpa [Ring.free, hi] using hlen
      · rename_i e rest hi
        obtain ⟨w, hw⟩ := h.removeTail_ring r e
        refine Hub.makeRoom_room n _ ?_ (by rw [hw]; exact hlen)
        rw [hw, List.length_drop]
        omega
    · omega

theorem Hub.makeRoom_global (r : Fin 17) (len : Nat) (k : Fin 16) :
    ∀ (n : Nat) (h : Hub), ((Hub.makeRoom r len n h).stream k).global = (h.stream k).global
  | 0, _ => rfl
  | n + 1, h => by
    unfold Hub.makeRoom
    split
    · split
      · rfl
      · exact (Hub.makeRoom_global r len k n _).trans (h.removeTail_global r _ k)
    · rfl

end

/-! ### Emptying, removal and commit as changes -/

section
variable {strict : Prop} (h : Hub)

theorem Hub.emptyRing_evolves (r : Fin 17) : h.Evolves strict (h.emptyRing r) := (Hub.Change.emptyRing h r).evolves

theorem Hub.tail_of_head? {h : Hub} {r : Fin 17} {e : Entry} (hi : (h.ring r).index.head? = some e) :
    h.tail r = e.key r := by
  unfold Hub.tail
  split
  · simp_all
  · simp_all

/-- R33: the send pointer moves past a tail unit that was not sent. -/
theorem Hub.loseUnsent_evolves {r : Fin 17} {e : Entry} (hi : (h.ring r).index.head? = some e) :
    h.Evolves strict (h.loseUnsent r e) := by
  unfold Hub.loseUnsent
  refine .trans (Hub.Change.moveSend h r _ fun ho _ => ?_).evolves
    (.trans (Hub.countStream_evolves _ e.stream Stream.committed Stream.discarded (fun st => st.lost + 1) Stream.skipped)
      (.ite (.refl _) (Hub.notify_evolves _ _ _)))
  have hk := (ho.2.2 0 e (by rw [← List.head?_eq_getElem?]; exact hi)).1
  have hlen : 0 < (h.ring r).index.length := List.length_pos_of_mem (List.mem_of_head? hi)
  rw [hk, Nat.sub_zero]
  generalize (h.ring r).index.length = n at hlen
  generalize (h.ring r).head = a
  have : a - (a - BitVec.ofNat 32 n + 1) = BitVec.ofNat 32 n - 1 := by bv_omega
  rw [this, BitVec.toNat_sub, BitVec.toNat_ofNat]
  change (2 ^ 32 - 1 + n % 2 ^ 32) % 2 ^ 32 ≤ n
  omega

theorem Hub.removeTail_evolves {r : Fin 17} {e : Entry} (hi : (h.ring r).index.head? = some e) :
    h.Evolves strict (h.removeTail r e) := by
  have hring := (h.lapseTail_only r e).ring_eq (by decide) r
  have hlapse : h.Evolves strict (h.lapseTail r e) := .ite (Hub.lapseRetainers_evolves _ _ _ h) (.refl h)
  have hbefore : h.Evolves strict (h.beforeDrop r e) :=
    hlapse.trans (.ite (Hub.loseUnsent_evolves _ (by rw [hring]; exact hi)) (.refl _))
  obtain ⟨w, hw⟩ := h.beforeDrop_ring r e
  have hi' : ((h.beforeDrop r e).ring r).index.head? = some e := by rw [hw]; exact hi
  refine hbefore.trans (Hub.Change.dropTail _ r e hi' ?_).evolves
  rw [Hub.unsent, Hub.tail_of_head? hi']
  unfold Hub.beforeDrop
  split
  · rw [Hub.loseUnsent_ring]
    simp [dist]
  · rename_i hu
    rw [Hub.unsent, Hub.tail_of_head? (by rw [hring]; exact hi)] at hu
    simpa using hu

theorem Hub.makeRoom_evolves (r : Fin 17) (len : Nat) :
    ∀ (n : Nat) (h : Hub), h.Evolves strict (Hub.makeRoom r len n h)
  | 0, h => .refl h
  | n + 1, h => by
    unfold Hub.makeRoom
    split
    · split
      · exact .refl h
      · rename_i e rest hi
        exact (h.removeTail_evolves (by rw [hi]; rfl)).trans (Hub.makeRoom_evolves r len n _)
    · exact .refl h

theorem Hub.ringNotices_evolves (r : Fin 17) (start len : Nat) : h.Evolves strict (h.ringNotices r start len) := by
  unfold Hub.ringNotices
  exact .ite (h.notify_evolves _ _) (.ite (h.notify_evolves _ _) (.refl h))

theorem Hub.spanCommit_evolves (k : Fin 16) (u serial : Word) : h.Evolves strict (h.spanCommit k u serial) :=
  h.mapClips_evolves (ClipMap.ite
    (f := fun c => { c with starts := c.starts.set k (some (c.starts[k].getD u)), running := c.running.set k (some u) })
    ⟨fun _ => rfl, fun _ => id, fun _ _ => id⟩)

theorem Hub.measureClips_evolves (r : Fin 17) : h.Evolves strict (h.measureClips r) :=
  h.mapClips_evolves (ClipMap.ite (f := fun c => { c with limitDue := true }) ⟨fun _ => rfl, fun _ => id, fun _ _ => id⟩)

theorem Hub.commit_evolves {o : Offer} (ho : sectorsOf o.payload.length ≤ (h.ring (h.boundRing o.stream)).sectors) :
    h.Evolves strict (h.commit o).1 := by
  obtain ⟨hfree, hcount⟩ := Hub.makeRoom_room _ h le_rfl ho
  have hbound : h.boundRing o.stream = (Hub.makeRoom (h.boundRing o.stream) (sectorsOf o.payload.length)
      (h.ring (h.boundRing o.stream)).index.length h).boundRing o.stream := by
    unfold Hub.boundRing
    rw [Hub.makeRoom_global]
  unfold Hub.commit
  exact ((((Hub.makeRoom_evolves _ _ _ h).trans
    (Hub.Change.writeUnit _ _ o _ _ ⟨hbound, rfl, rfl, hfree, hcount⟩).evolves).trans
      (Hub.ringNotices_evolves _ _ _ _)).trans (Hub.spanCommit_evolves _ _ _ _)).trans (Hub.measureClips_evolves _ _)

theorem Hub.judge_evolves (o : Offer) : h.Evolves strict (h.judge o).1 := by
  unfold Hub.judge
  dsimp only
  repeat' split
  · exact .refl h
  · exact h.countDiscard_evolves _
  · exact h.countDiscard_evolves _
  · exact h.countDiscard_evolves _
  · exact h.commit_evolves (by omega)

theorem Hub.offer_evolves (o : Offer) : h.Evolves strict (h.offer o).1 :=
  (h.judge_evolves o).trans (Hub.testClips_evolves _ _ _)

/-! ### Labels -/

theorem Hub.fired_evolves (t : Fin 4) : h.Evolves strict (h.fired t) :=
  (h.modTrigger_evolves t _).trans (Hub.notify_evolves _ _ _)

theorem Hub.attemptFire_evolves (t : Fin 4) : h.Evolves strict (h.attemptFire t).1 := by
  unfold Hub.attemptFire
  split
  · split
    · exact h.modTrigger_evolves t fun x => { x with ignored := x.ignored + 1 }
    · split
      · rename_i hc
        exact (h.addClip_evolves _ _ hc (fun _ hq => by cases hq)).trans (Hub.fired_evolves _ t)
      · exact h.modTrigger_evolves t fun x => { x with misses := x.misses + 1 }
  · exact (h.closeClips_evolves _ _).trans (Hub.fired_evolves _ t)

theorem Hub.offerTriggers_evolves (d : Draft) : h.Evolves strict (h.offerTriggers d).1 := by
  have key : ∀ (ts : List (Fin 4)) (x : Hub × List Draft), x.1.Evolves strict
      (ts.foldl (fun x t =>
        if (x.1.log.triggers[t]).matches d then ((x.1.attemptFire t).1, x.2 ++ (x.1.attemptFire t).2) else x) x).1 := by
    intro ts
    induction ts with
    | nil => exact fun x => .refl _
    | cons t ts ih =>
      intro x
      refine Hub.Evolves.trans ?_ (ih _)
      dsimp only
      split
      · exact x.1.attemptFire_evolves t
      · exact .refl _
  exact key (List.finRange 4) (h, [])

/-- R144: a full Label Store loses its oldest label before it takes the new one. -/
theorem ClipLog.store_tame (l : ClipLog) (d : Draft) : ClipLog.Tame h l (l.store d) := by
  unfold ClipLog.store
  split
  · rename_i hlt
    exact .of_clips h rfl rfl fun _ => by simpa using hlt
  · unfold ClipLog.dropOldest
    split
    · rename_i hfull _ hnil
      simp [hnil] at hfull
    · rename_i x rest hx
      refine .map h (f := fun c => if x.number ∈ c.labels then
        { c with labels := c.labels.filter fun n => n ≠ x.number, truncated := true } else c) (ClipMap.ite
          (f := fun c => { c with labels := c.labels.filter fun n => n ≠ x.number, truncated := true })
          ⟨fun _ => rfl, fun _ => id, fun _ _ => id⟩) rfl rfl fun hl => ?_
      simpa [hx] using hl

theorem ClipLog.linkTo_clipMap (l : ClipLog) (number : Word) (kind : LabelKind) : ClipMap (l.linkTo number kind) where
  number c := by unfold ClipLog.linkTo; split <;> rfl
  opened c := by unfold ClipLog.linkTo; split <;> exact id
  owner c _ := by unfold ClipLog.linkTo; split <;> exact id

theorem ClipLog.link_tame (l : ClipLog) (number : Word) (d : Draft) (named : Option Word) :
    ClipLog.Tame h l (l.link number d named) := .map h (l.linkTo_clipMap number d.kind).ite rfl rfl id

theorem Hub.offerLabel_evolves (number : Word) (d : Draft) : h.Evolves strict (h.offerLabel number d) := by
  unfold Hub.offerLabel
  exact .ite (h.offer_evolves _) (.refl h)

theorem Hub.fileLabel_evolves (d : Draft) (named : Option Word) : h.Evolves strict (h.fileLabel d named).1 := by
  unfold Hub.fileLabel
  split
  · exact ((Hub.modLog_tame (h.log.store_tame h d)).evolves.trans
      (Hub.modLog_tame (ClipLog.link_tame _ _ _ _ _)).evolves).trans
      (Hub.offerLabel_evolves _ _ _)
  · exact h.modLog_evolves (f := fun l => { l with ignored := l.ignored + 1 }) fun _ => rfl

theorem Hub.arriveLabel_evolves (d : Draft) (named : Option Word) : h.Evolves strict (h.arriveLabel d named).1 := by
  rw [Hub.arriveLabel_fst]
  exact ((h.offerTriggers_evolves d).trans (Hub.fileLabel_evolves _ d named)).trans
    (.foldl (fun g t => g.fileLabel_evolves t none) _ _)

theorem Hub.label_evolves (d : Draft) : h.Evolves strict (h.label d) := h.arriveLabel_evolves d none

end

end Sys2Proof.Machine
end

section
/-! Proofs: what the blocks do at a tick, at an event and for a port that goes ABSENT is a chain of changes
(`Hub.Evolves`). -/

namespace Sys2Proof.Machine

-- In order, so that the package in one text stays within the memory of its check.
set_option Elab.async false

section
variable {strict : Prop} (h : Hub)

/-! ### Tables that no invariant reads -/

theorem Hub.modInput_evolves (i : Fin 4) (f : VideoInput → VideoInput) : h.Evolves strict (h.modInput i f) :=
  ((h.modInput_only i f).mono (by decide)).evolves

theorem Hub.modGauge_evolves (p : Fin 8) (f : Gauge → Gauge) : h.Evolves strict (h.modGauge p f) :=
  ((h.modGauge_only p f).mono (by decide)).evolves

theorem Hub.modBond_evolves (j : Fin 4) (f : Bond → Bond) : h.Evolves strict (h.modBond j f) :=
  ((h.modBond_only j f).mono (by decide)).evolves

theorem Hub.modShare_evolves (k : Fin 4) (f : PictureBudget → PictureBudget) : h.Evolves strict (h.modShare k f) :=
  ((h.modShare_only k f).mono (by decide)).evolves

theorem Hub.modChannel_evolves (c : Fin 64) (f : Channel → Channel) : h.Evolves strict (h.modChannel c f) :=
  ((h.modChannel_only c f).mono (by decide)).evolves

theorem Hub.modBus_evolves (k : Fin 16) (f : Bus → Bus) : h.Evolves strict (h.modBus k f) :=
  ((h.modBus_only k f).mono (by decide)).evolves

theorem Hub.modPack_evolves (k : Fin 8) (f : Pack → Pack) : h.Evolves strict (h.modPack k f) :=
  ((h.modPack_only k f).mono (by decide)).evolves

theorem Hub.withTimebase_evolves (t : Timebase) : h.Evolves strict { h with tb := t } :=
  ((h.withTimebase_only t).mono (by decide)).evolves

theorem Hub.withMixer_evolves (m : Mixer) : h.Evolves strict { h with mixer := m } :=
  Hub.OnlyChanges.evolves fun x hx => by cases x <;> simp_all [Part.same, freeParts]

theorem Hub.withBudget_evolves (b : Budget) : h.Evolves strict { h with budget := b } :=
  Hub.OnlyChanges.evolves fun x hx => by cases x <;> simp_all [Part.same, freeParts]

theorem Hub.withGauges_evolves (x : Gauges) : h.Evolves strict { h with gauges := x } :=
  Hub.OnlyChanges.evolves fun x hx => by cases x <;> simp_all [Part.same, freeParts]

theorem Hub.withNow_evolves (n : Nat) : h.Evolves strict { h with now := n } :=
  Hub.OnlyChanges.evolves fun x hx => by cases x <;> simp_all [Part.same]

theorem Hub.arrive_evolves (e : Env) : h.Evolves strict (h.arrive e) := ((h.arrive_only e).mono (by simp)).evolves

theorem Hub.withFlash_evolves (v : Vector Nat 4) : h.Evolves strict { h with tally := { h.tally with flash := v } } :=
  (Hub.withTally_tame (t := { h.tally with flash := v }) fun _ _ => id).evolves

/-! ### The virtual buffers (R55 to R58) -/

section
variable {c : Coder}

/-- The oldest picture leaves the flight; no other has begun coding. -/
theorem Coder.BufferOk.tail {f : Flight} {rest : List Flight} (hc : c.BufferOk) (hf : c.flight = f :: rest) :
    ({ c with flight := rest } : Coder).BufferOk := by
  obtain ⟨hb, hrest, -⟩ := hc
  rw [hf] at hrest
  refine ⟨hb, fun x hx => hrest x (List.mem_of_mem_drop hx), fun x hx y hy => ?_⟩
  rw [hrest x (List.mem_of_mem_head? hx)] at hy
  cases hy

/-- A picture joins the flight without coding. -/
theorem Coder.BufferOk.join {f : Flight} (hc : c.BufferOk) (hf : f.coding = none) :
    ({ c with flight := c.flight ++ [f] } : Coder).BufferOk := by
  obtain ⟨hb, hrest, hhead⟩ := hc
  cases hfl : c.flight with
  | nil => exact ⟨hb, by simp, by simp [hf]⟩
  | cons x xs =>
    rw [hfl] at hrest hhead
    refine ⟨hb, fun y hy => ?_, hhead⟩
    obtain hy | hy := List.mem_append.mp hy
    · exact hrest y hy
    · rw [List.mem_singleton.mp hy, hf]

/-- The pictures keep their coding or lose it. -/
theorem Coder.BufferOk.map {m : Flight → Flight} (hc : c.BufferOk)
    (hm : ∀ f, (m f).coding = f.coding ∨ (m f).coding = none) :
    ({ c with flight := c.flight.map m } : Coder).BufferOk := by
  obtain ⟨hb, hrest, hhead⟩ := hc
  refine ⟨hb, fun y hy => ?_, fun y hy x hx => ?_⟩
  · rw [← List.map_drop] at hy
    obtain ⟨f, hf, rfl⟩ := List.mem_map.mp hy
    exact (hm f).elim (fun h => h.trans (hrest f hf)) id
  · rw [List.head?_map] at hy
    obtain ⟨f, hf, rfl⟩ := Option.map_eq_some_iff.mp hy
    obtain h | h := hm f
    · exact hhead f hf x (h.symm.trans hx)
    · rw [h] at hx
      cases hx

/-- R55: a picture at the front of the flight begins coding. -/
theorem Coder.BufferOk.start {f : Flight} {rest : List Flight} (hc : c.BufferOk) (hf : c.flight = f :: rest) (r : Rate)
    (x : Nat) :
    ({ c.start r x with flight := { f with coding := some (c.start r x).beginCoding } :: rest } : Coder).BufferOk := by
  have hsize : (c.start r x).fullness ≤ (c.start r x).size := by
    unfold Coder.start
    dsimp only
    split
    · exact Nat.min_le_right _ _
    · exact Nat.div_le_self _ _
  refine ⟨fun _ => hsize, by simpa [hf] using hc.2.1, fun y hy z hz => ?_⟩
  obtain rfl : { f with coding := some (c.start r x).beginCoding } = y := by simpa using hy
  obtain rfl : (c.start r x).beginCoding = z := by simpa using hz
  refine ⟨?_, Nat.zero_le _⟩
  change (c.start r x).size - (c.start r x).fullness + (c.start r x).target + (c.start r x).fullness =
    (c.start r x).size + (c.start r x).target
  omega

/-- The coding of the picture at the front goes on below its ceiling. -/
theorem Coder.BufferOk.code {f : Flight} {rest : List Flight} {x y : Coding} (hc : c.BufferOk)
    (hf : c.flight = f :: rest) (hx : f.coding = some x) (hp : y.cPic = x.cPic) (hb : y.b ≤ y.cPic) :
    ({ c with flight := { f with coding := some y } :: rest } : Coder).BufferOk := by
  refine ⟨hc.1, by simpa [hf] using hc.2.1, fun g hg z hz => ?_⟩
  obtain rfl : { f with coding := some y } = g := by simpa using hg
  obtain rfl : y = z := by simpa using hz
  refine ⟨?_, hb⟩
  rw [hp]
  exact (hc.2.2 f (by simp [hf]) x hx).1

end

theorem Hub.modCoder_evolves (k : Fin 4) {f : Coder → Coder} (hf : (f h.coders[k]).format = (h.coders[k]).format)
    (hb : strict → (h.coders[k]).BufferOk → (f h.coders[k]).BufferOk) : h.Evolves strict (h.modCoder k f) :=
  (Hub.modCoder_tame k (.inl hf) hb).evolves

/-- R59, R58: the oldest of the flight leaves it. -/
theorem Hub.popFlight_evolves {k : Fin 4} {f : Flight} {rest : List Flight} (hf : (h.coders[k]).flight = f :: rest) :
    h.Evolves strict (h.modCoder k fun c => { c with flight := rest }) :=
  h.modCoder_evolves k rfl fun _ hb => hb.tail hf

/-! ### The Picture Coder -/

theorem Hub.offerPicture_evolves (k : Fin 4) (o : Offer) : h.Evolves strict (h.offerPicture k o).1 :=
  (h.modCoder_evolves k (f := fun c => { c with sourceChange := false }) rfl fun _ => id).trans (Hub.offer_evolves _ _)

theorem Hub.offerSubstitute_evolves (k : Fin 4) (f : Flight) (black : Bool) :
    h.Evolves strict (h.offerSubstitute k f black) :=
  (h.modCoder_evolves k (f := fun c => { c with
      counts := if black then { c.counts with blacks := c.counts.blacks + 1 }
                else { c.counts with repeats := c.counts.repeats + 1 } }) rfl fun _ => id).trans
    (Hub.offerPicture_evolves _ _ _)

theorem Hub.flush_evolves (k : Fin 4) : ∀ (n : Nat) (h : Hub), h.Evolves strict (Hub.flush k n h)
  | 0, h => .refl h
  | n + 1, h => by
    unfold Hub.flush
    split
    · exact .refl h
    · rename_i hf
      split
      · exact .refl h
      · exact ((h.popFlight_evolves hf).trans (Hub.offerSubstitute_evolves _ k _ _)).trans (Hub.flush_evolves k n _)

theorem Hub.settle_evolves (k : Fin 4) : h.Evolves strict (h.settle k) :=
  .opt (Hub.flush_evolves k _ h) (Hub.endClosing_evolves _ _)

theorem Hub.dropPicture_evolves (k : Fin 4) (f : Flight) (why : DropReason) : h.Evolves strict (h.dropPicture k f why) :=
  (((h.modCoder_evolves k (f := fun c => { c with q := min 63 (c.q + 8), counts := c.counts.drop why }) rfl
    fun _ => id).trans (Hub.notify_evolves _ _ _)).trans (Hub.label_evolves _ _)).trans (Hub.testClips_evolves _ _ _)

/-- R58: the unit that a complete picture offers. -/
def Hub.pictureOffer (h : Hub) (k : Fin 4) (f : Flight) (x : Coding) : Offer :=
  { stream := pictureStream k
    payload := x.coded
    frame := f.frame
    flags := { inputError := f.lineError }
    producer := pictureProducer (h.coders[k]).format f.source x.first x.last x.b }

theorem Hub.completePicture_eq (k : Fin 4) (f : Flight) (x : Coding) :
    h.completePicture k f x =
      if (h.offerPicture k (h.pictureOffer k f x)).2 = .tooLarge then
        (h.offerPicture k (h.pictureOffer k f x)).1.dropPicture k f .tooLarge
      else (h.offerPicture k (h.pictureOffer k f x)).1.modCoder k fun c => c.complete x.b x.last := by
  unfold Hub.completePicture
  dsimp only
  rw [← Hub.pictureOffer]
  cases (h.offerPicture k (h.pictureOffer k f x)).2 <;> rfl

/-- The completion writes the virtual buffer, which its picture bounds. -/
theorem Hub.completePicture_evolves (k : Fin 4) (f : Flight) (x : Coding) :
    h.Evolves False (h.completePicture k f x) := by
  rw [Hub.completePicture_eq]
  exact (h.offerPicture_evolves k _).trans
    (.ite (Hub.dropPicture_evolves _ k f _) (Hub.modCoder_evolves _ k (f := fun c => c.complete x.b x.last) rfl False.elim))

theorem Hub.inputChanged_evolves (i : Fin 4) (kind : LabelKind) : h.Evolves strict (h.inputChanged i kind) :=
  (h.notify_evolves _ _).trans (Hub.label_evolves _ _)

theorem Hub.abortFrom_evolves (i k : Fin 4) : h.Evolves strict (Hub.abortFrom i k h) := by
  unfold Hub.abortFrom
  refine .ite (.refl h) ((h.modCoder_evolves k rfl fun _ hb => ?_).trans (Hub.settle_evolves _ k))
  refine Coder.BufferOk.map hb fun f => ?_
  split
  · exact .inr rfl
  · exact .inl rfl

theorem Hub.loseInput_evolves (i : Fin 4) : h.Evolves strict (h.loseInput i) :=
  (((h.modInput_evolves i _).trans (Hub.withFlash_evolves _ _)).trans (Hub.inputChanged_evolves _ i _)).trans
    (.forEach (fun k g => g.abortFrom_evolves i k) _)

theorem Hub.tickInput_evolves (i : Fin 4) : h.Evolves strict (Hub.tickInput i h) := by
  unfold Hub.tickInput
  refine .trans (h.modInput_evolves i _) (.ite (.ite (.refl _) (Hub.loseInput_evolves _ i)) (.ite ?_ ?_))
  · exact (Hub.modInput_evolves _ i _).trans (Hub.inputChanged_evolves _ i _)
  · exact (Hub.modInput_evolves _ i _).trans (Hub.withFlash_evolves _ _)

theorem Hub.lateDrop_evolves (k : Fin 4) : h.Evolves strict (Hub.lateDrop k h) := by
  unfold Hub.lateDrop
  split
  · exact .refl h
  · rename_i hf
    exact .ite (((h.popFlight_evolves hf).trans (Hub.dropPicture_evolves _ k _ _)).trans (Hub.settle_evolves _ k)) (.refl h)

theorem Hub.beginPicture_evolves (k : Fin 4) : h.Evolves strict (Hub.beginPicture k h) := by
  unfold Hub.beginPicture
  refine .ite (.ite ?_ ?_) (.refl h)
  · refine (h.modShare_evolves k _).trans (Hub.modCoder_evolves _ k (f := fun c => c.capture h.tb.frame) rfl fun _ hb => ?_)
    exact Coder.BufferOk.join hb rfl
  · exact (h.modCoder_evolves k rfl fun _ hb => Coder.BufferOk.join hb rfl).trans (Hub.settle_evolves _ k)

theorem Hub.tickCoder_evolves : h.Evolves strict h.tickCoder :=
  ((Hub.Evolves.forEach (fun k g => g.lateDrop_evolves k) h).trans (.forEach (fun i g => g.tickInput_evolves i) _)).trans
    (.forEach (fun k g => g.beginPicture_evolves k) _)

/-- Every picture of every context is marked, its coding untouched. -/
theorem Hub.mapFlights_evolves {m : Flight → Flight} (hm : ∀ f, (m f).coding = f.coding) :
    h.Evolves strict { h with
      coders := Vector.ofFn fun k => { h.coders[k] with flight := (h.coders[k]).flight.map m } } := by
  refine (Hub.coders_tame (fun k => ?_) fun _ k hb => ?_).evolves
  · simp
  · simpa using hb.map fun f => .inl (hm f)

theorem Hub.lossOfLock_evolves (i : Fin 4) : h.Evolves strict (Hub.lossOfLock i h) :=
  .opt (h.modInput_evolves i _) (Hub.loseInput_evolves _ i)

theorem Hub.formatReport_evolves (i : Fin 4) (m : Measured) : h.Evolves strict (Hub.formatReport i m h) :=
  .opt (h.modInput_evolves i _) (Hub.loseInput_evolves _ i)

theorem Hub.lineCheck_evolves (i : Fin 4) : h.Evolves strict (Hub.lineCheck i h) :=
  (h.modInput_evolves i _).trans (Hub.mapFlights_evolves _
    (m := fun f => if f.capturingFrom i then { f with lineError := true } else f) fun f => by split <;> rfl)

theorem Hub.captureEnd_evolves (i : Fin 4) : h.Evolves strict (Hub.captureEnd i h) := by
  unfold Hub.captureEnd
  exact .ite ((h.modInput_evolves i _).trans (Hub.mapFlights_evolves _
    (m := fun f => if f.capturingFrom i then { f with captured := true } else f) fun f => by split <;> rfl)) (.refl h)

theorem Hub.pictureStart_evolves (k : Fin 4) : h.Evolves strict (Hub.pictureStart k h) := by
  unfold Hub.pictureStart
  split
  · exact .refl h
  · rename_i f rest hf
    refine .ite (.trans (h.modCoder_evolves k rfl fun _ hb => ?_) (Hub.modShare_evolves _ k _)) (.refl h)
    exact hb.start hf _ _

theorem Hub.sliceStart_evolves (k : Fin 4) : h.Evolves strict (Hub.sliceStart k h) := by
  unfold Hub.sliceStart
  dsimp only
  split
  · exact .refl h
  · rename_i f rest hf
    split
    · exact .refl h
    · rename_i x hx
      refine .ite (h.modCoder_evolves k rfl fun _ hb => ?_) (.refl h)
      exact hb.code hf hx rfl (hb.2.2 f (by rw [hf]; rfl) x hx).2

theorem Hub.sliceEnd_evolves (k : Fin 4) (coded : Bytes) : h.Evolves False (Hub.sliceEnd k coded h) := by
  unfold Hub.sliceEnd
  dsimp only
  split
  · exact .refl h
  · rename_i f rest hf
    split
    · exact .refl h
    · split
      · exact .refl h
      · refine .ite ?_ (.ite ?_ (h.modCoder_evolves k rfl False.elim))
        · exact ((h.popFlight_evolves hf).trans (Hub.dropPicture_evolves _ k f _)).trans (Hub.settle_evolves _ k)
        · exact ((h.popFlight_evolves hf).trans (Hub.completePicture_evolves _ k f _)).trans (Hub.settle_evolves _ k)

/-- R64: the reset of a rate state comes before the pictures that it abandons are gone. -/
theorem Hub.resetCoder_evolves (k : Fin 4) : h.Evolves False (Hub.resetCoder k h) := by
  unfold Hub.resetCoder
  dsimp only
  refine .trans (.trans (h.modCoder_evolves k ?_ False.elim) (.foldl (fun g f => g.testClips_evolves _ _) _ _))
    (Hub.settle_evolves _ k)
  split <;> rfl

/-! ### The Sound Mixer -/

theorem Hub.judgeOverload_evolves (ended : Frame) (k : Fin 16) : h.Evolves strict (h.judgeOverload ended k) := by
  unfold Hub.judgeOverload
  exact .ite (.refl h) (((h.modBus_evolves k _).trans (Hub.label_evolves _ _)).trans (Hub.give_tame _ _).evolves)

theorem Hub.judgeSilence_evolves (ended : Frame) (k : Fin 16) : h.Evolves strict (h.judgeSilence ended k) := by
  unfold Hub.judgeSilence
  dsimp only
  exact .ite (.ite ((h.modBus_evolves k _).trans (Hub.label_evolves _ _)) (h.modBus_evolves k _))
    (.ite ((h.modBus_evolves k _).trans (Hub.label_evolves _ _)) (h.modBus_evolves k _))

theorem Hub.startPack_evolves (k : Fin 8) : h.Evolves strict (h.startPack k) := by
  unfold Hub.startPack
  exact h.modPack_evolves k _

theorem Hub.tickPack_evolves (ended : Frame) (n : Nat) (k : Fin 8) : h.Evolves strict (Hub.tickPack ended n k h) := by
  unfold Hub.tickPack
  dsimp only
  refine .opt (.trans (h.startPack_evolves k) ?_) (Hub.endClosing_evolves _ _)
  split
  · exact (Hub.modPack_evolves _ k _).trans (Hub.offer_evolves _ _)
  · exact Hub.modPack_evolves _ k _
  · exact .refl _

theorem Hub.tickMixer_evolves (old : Timebase) : h.Evolves strict (h.tickMixer old) := by
  rw [Hub.tickMixer_eq]
  refine .trans (.trans (.trans (h.withMixer_evolves _) (.forEach (fun k g => ?_) _)) (.forEach (fun k g => ?_) _))
    (Hub.withMixer_evolves _ _)
  · exact (g.judgeOverload_evolves _ k).trans (Hub.judgeSilence_evolves _ _ k)
  · exact g.tickPack_evolves _ _ k

/-! ### The Gauge -/

theorem Hub.endManual_evolves (p : Fin 8) (n : Nat) : h.Evolves strict (h.endManual p n) :=
  (h.modGauge_evolves p _).trans (Hub.notify_evolves _ _ _)

theorem Hub.abortManual_evolves (p : Fin 8) : h.Evolves strict (Hub.abortManual p h) :=
  .ite (.refl h) (h.endManual_evolves p _)

theorem Hub.endCycle_evolves (p : Fin 8) (v0 t1 : Nat) : h.Evolves strict (h.endCycle p v0 t1) :=
  ((h.modGauge_evolves p _).trans (Hub.notify_evolves _ _ _)).trans (Hub.recompute_evolves _)

theorem Hub.endStep2_evolves (p : Fin 8) (t1 : Nat) : h.Evolves strict (h.endStep2 p t1) :=
  (h.modGauge_evolves p _).trans (Hub.endCycle_evolves _ p _ t1)

theorem Hub.gaugeLeave_evolves (p : Fin 8) : h.Evolves strict (h.gaugeLeave p) :=
  (h.modGauge_evolves p _).trans (Hub.abortManual_evolves _ p)

theorem Hub.increment_evolves (p : Fin 8) (n : Nat) : h.Evolves strict (h.increment p n) := by
  unfold Hub.increment
  refine .trans (b := h.autoIncrement p n) ?_ ?_
  · unfold Hub.autoIncrement
    dsimp only
    split
    · exact .refl h
    · exact h.modGauge_evolves p _
    · exact .opt (h.modGauge_evolves p _) (Hub.endStep2_evolves _ p _)
  · unfold Hub.manualIncrement
    exact .ite (.opt (Hub.modGauge_evolves _ p _) (Hub.endManual_evolves _ p _)) (.refl _)

theorem Hub.beginStep1_evolves (p : Fin 8) : h.Evolves strict (Hub.beginStep1 p h) :=
  .ite (h.modGauge_evolves p _) (.refl h)

theorem Hub.endStep1_evolves (p : Fin 8) : h.Evolves strict (Hub.endStep1 p h) :=
  (h.modGauge_evolves p _).trans (.ite (Hub.endCycle_evolves _ p _ _) (Hub.modGauge_evolves _ p _))

theorem Hub.tickAuto_evolves (p : Fin 8) : h.Evolves strict (Hub.tickAuto p h) := by
  unfold Hub.tickAuto
  exact .ite (.ite ((h.endStep1_evolves p).trans (Hub.beginStep1_evolves _ p)) (h.modGauge_evolves p _))
    (h.beginStep1_evolves p)

theorem Hub.tickManual_evolves (p : Fin 8) : h.Evolves strict (Hub.tickManual p h) := by
  unfold Hub.tickManual
  dsimp only
  split
  · exact .refl h
  · exact h.modGauge_evolves p _
  · exact .ite (h.endManual_evolves p _) (h.modGauge_evolves p _)

end

end Sys2Proof.Machine
end

section
/-! Proofs: the Path Controller's operations and the absence of a port as chains of changes.  A path record is written and
evaluated at once, so that it never stands apart from Table 38. -/

namespace Sys2Proof.Machine

-- In order, so that the package in one text stays within the memory of its check.
set_option Elab.async false

/-! ### The evaluation of a written path record (R89) -/

/-- R89: a path record in the state that its evaluation gives. -/
def Path.settled (x : Path) (serial : Word) : Path :=
  if x.evaluate.1 = x.state then { x with reason := x.evaluate.2 } else x.enter x.evaluate.1 x.evaluate.2 serial

section
variable {x : Path}

/-- OFF and RESET follow the enabled flag and the hold alone, so that they may clear the pause-timeout mark. -/
theorem Path.evaluate_enter (w : Word) :
    (x.enter x.evaluate.1 x.evaluate.2 w).evaluate = x.evaluate := by
  have hkeep : ∀ s why, (x.enter s why w).hold = x.hold ∧ (x.enter s why w).enabled = x.enabled ∧
      (x.enter s why w).loss = x.loss := fun s why => by
    cases s <;> simp [Path.enter, Path.abandon, Path.startTransmission, apply_ite Path.hold, apply_ite Path.enabled,
      apply_ite Path.loss]
  obtain ⟨hh, he, hl⟩ := hkeep x.evaluate.1 x.evaluate.2
  have hlines := x.enter_lines x.evaluate.1 x.evaluate.2 w
  by_cases hidle : x.hold = true ∨ x.enabled = false
  · unfold Path.evaluate at *
    rw [hh, he]
    obtain hr | hr := hidle
    · simp [hr]
    · simp [hr]
  · have hm : (x.enter x.evaluate.1 x.evaluate.2 w).timeoutMark = x.timeoutMark := by
      have hs : x.evaluate.1 ≠ .off ∧ x.evaluate.1 ≠ .reset := by
        simp only [not_or, Bool.not_eq_true, Bool.not_eq_false] at hidle
        unfold Path.evaluate
        rw [hidle.1, hidle.2]
        constructor <;> simp only [Bool.not_true, Bool.false_eq_true, if_false] <;> repeat' split
        all_goals nofun
      revert hs
      cases x.evaluate.1 <;> simp [Path.enter, Path.abandon, Path.startTransmission, apply_ite Path.timeoutMark]
    exact Path.evaluate_congr hh he hlines hl hm

theorem Path.settled_table38 (w : Word) : (x.settled w).Table38 := by
  refine Path.table38_of_evaluate ?_
  unfold Path.settled
  split
  · rename_i hs
    exact Prod.ext hs rfl
  · rw [Path.evaluate_enter, Path.enter_state, Path.enter_reason]

theorem Path.FifoOk.settled (hx : x.FifoOk) (w : Word) : (x.settled w).FifoOk := by
  unfold Path.settled
  split
  · exact hx
  · obtain ⟨hlen, -⟩ := hx
    have hent := Path.enter_entered (x := x) x.evaluate.1 x.evaluate.2 w
    have hst := x.enter_state x.evaluate.1 x.evaluate.2 w
    unfold Path.Entered at hent
    rw [hst] at hent
    unfold Path.FifoOk Path.carrying
    rw [hst]
    obtain ⟨hempty, -, hpaused, hup⟩ := hent
    revert hempty hpaused hup
    generalize x.evaluate.1 = s
    cases s with
    | off => exact fun he _ _ => by simp [(he (.inl rfl)).1]
    | reset => exact fun he _ _ => by simp [(he (.inr (.inl rfl))).1]
    | down => exact fun he _ _ => by simp [(he (.inr (.inr rfl))).1]
    | up => exact fun _ _ hu => by simp [(hu rfl).1.1, hlen]
    | paused => exact fun _ hp _ => by simp [(hp rfl).1.1, hlen]

@[simp] theorem Path.enter_holder (s : PathState) (why : DownReason) (w : Word) : (x.enter s why w).holder = x.holder := by
  cases s <;> simp [Path.enter, Path.abandon, Path.startTransmission, apply_ite Path.holder]

@[simp] theorem Path.settled_holder (w : Word) : (x.settled w).holder = x.holder := by
  unfold Path.settled
  split
  · rfl
  · simp

end

/-- What follows the entry of path p, whose record was `old`, into a new state (R92, R99, R118). -/
def Hub.afterChange (h : Hub) (p : Fin 8) (old : Path) (s : PathState) (why : DownReason) : Hub :=
  let h := if old.state = .off ∨ old.state = .reset then h.modBond (pairOf p) Bond.refresh else h
  let h := h.notify .pathState (p.val + 256 * pathStateCode s)
  let h := h.label
    { kind := if s = .up then .pathUp else .pathDown, source := .link, frame := h.tb.frame,
      value := some (BitVec.ofNat 32 p.val), text := pathText s why }
  let h := if old.carrying ∧ s ≠ .up ∧ s ≠ .paused then h.gaugeLeave p else h
  h.recompute

section
variable {strict : Prop} (h : Hub)

theorem Hub.changePath_eq (p : Fin 8) (s : PathState) (why : DownReason) :
    h.changePath p s why =
      (h.modPath p fun x => x.enter s why h.tb.frame.serial).afterChange p h.paths.path[p] s why := rfl

theorem Hub.modPath_modPath (p : Fin 8) (f g : Path → Path) :
    (h.modPath p f).modPath p g = h.modPath p fun x => g (f x) := by
  simp [Hub.modPath]

/-- A record may be written by what the written functions make of it. -/
theorem Hub.modPath_congr {p : Fin 8} {f g : Path → Path} (hfg : f h.paths.path[p] = g h.paths.path[p]) :
    h.modPath p f = h.modPath p g := by
  unfold Hub.modPath
  rw [hfg]

/-- R89: a record written and then evaluated is written in the state that its evaluation gives, whose change has its
effects. -/
theorem Hub.evaluatePath_modPath (p : Fin 8) (f : Path → Path) :
    Hub.evaluatePath p (h.modPath p f) =
      if (f h.paths.path[p]).evaluate.1 = (f h.paths.path[p]).state then
        h.modPath p fun x => (f x).settled h.tb.frame.serial
      else
        (h.modPath p fun x => (f x).settled h.tb.frame.serial).afterChange p (f h.paths.path[p])
          (f h.paths.path[p]).evaluate.1 (f h.paths.path[p]).evaluate.2 := by
  unfold Hub.evaluatePath
  dsimp only
  rw [Hub.modPath_self]
  split
  · rename_i he
    rw [Hub.modPath_modPath]
    refine h.modPath_congr ?_
    simp only [Path.settled, if_pos he]
  · rename_i he
    rw [Hub.changePath_eq, Hub.modPath_modPath, Hub.modPath_self, Hub.modPath_tb]
    refine congrArg (Hub.afterChange · p _ _ _) (h.modPath_congr ?_)
    simp only [Path.settled, if_neg he]

theorem Hub.afterChange_evolves (p : Fin 8) (old : Path) (s : PathState) (why : DownReason) :
    h.Evolves strict (h.afterChange p old s why) := by
  unfold Hub.afterChange
  dsimp only
  exact .trans (.opt (.trans (.trans (.opt (.refl h) (Hub.modBond_evolves _ _ _)) (Hub.notify_evolves _ _ _))
    (Hub.label_evolves _ _)) (Hub.gaugeLeave_evolves _ p)) (Hub.recompute_evolves _)

/-- A path record written and evaluated. -/
theorem Hub.evaluate_evolves (p : Fin 8) {f : Path → Path}
    (hf : (h.paths.path[p]).FifoOk → (f h.paths.path[p]).FifoOk)
    (hh : ∀ q, (f h.paths.path[p]).holder = some q →
      (h.paths.path[p]).holder = some q ∨ (h.ports[q]).present = true) :
    h.Evolves strict (Hub.evaluatePath p (h.modPath p f)) := by
  rw [Hub.evaluatePath_modPath]
  have hw : h.Evolves strict (h.modPath p fun x => (f x).settled h.tb.frame.serial) :=
    (Hub.modPath_tame p ⟨fun _ => Path.settled_table38 _, fun hx => (hf hx).settled _, fun q hq =>
      hh q (by simpa using hq)⟩).evolves
  exact .ite hw (hw.trans (Hub.afterChange_evolves _ _ _ _ _))

/-- A path record whose evaluation, FIFO and holder stay. -/
theorem Hub.modPath_evolves (p : Fin 8) {f : Path → Path} (ht : (h.paths.path[p]).Table38 → (f h.paths.path[p]).Table38)
    (hf : (h.paths.path[p]).FifoOk → (f h.paths.path[p]).FifoOk)
    (hh : ∀ q, (f h.paths.path[p]).holder = some q → (h.paths.path[p]).holder = some q) :
    h.Evolves strict (h.modPath p f) := (Hub.modPath_tame p ⟨ht, hf, fun q hq => .inl (hh q hq)⟩).evolves

/-! ### The sampling of the lines (R90) -/

/-- R90: the record of a path whose lines are sampled. -/
def Path.sampled (x : Path) (new : BitVec 4) : Path := if new = x.lines then x else { x with lines := new, change := true }

/-- R90: PATH_CHANGE for the lines that differ. -/
def Hub.tellLines (h : Hub) (p : Fin 8) : Hub :=
  if h.pins p = (h.paths.path[p]).lines then h
  else h.notify .pathChange (p.val + 256 * (h.paths.path[p]).lines.toNat + 65536 * (h.pins p).toNat)

theorem Hub.samplePath_eq (p : Fin 8) :
    h.samplePath p = (h.tellLines p).modPath p fun x => x.sampled (h.pins p) := by
  unfold Hub.samplePath Hub.tellLines
  dsimp only
  split
  · rename_i he
    rw [Hub.modPath]
    simp [Path.sampled, he]
  · rename_i he
    rw [(h.notify _ _).modPath_congr (f := fun x => x.sampled (h.pins p))
      (g := fun x => { x with lines := h.pins p, change := true }) (if_neg he)]
    rfl

theorem Hub.tellLines_evolves (p : Fin 8) : h.Evolves strict (h.tellLines p) := .ite (.refl h) (h.notify_evolves _ _)

@[simp] theorem Hub.tellLines_paths (p : Fin 8) : (h.tellLines p).paths = h.paths := by
  unfold Hub.tellLines
  split <;> rfl

@[simp] theorem Hub.tellLines_ports (p : Fin 8) : (h.tellLines p).ports = h.ports := by
  unfold Hub.tellLines
  split <;> rfl

/-- A path whose lines are sampled, whose record is written, and which is then evaluated. -/
theorem Hub.sampleEvaluate_evolves (p : Fin 8) {f : Path → Path}
    (hf : ∀ x, (f x).fifo = x.fifo ∧ (f x).state = x.state ∧ ∀ q, (f x).holder = some q → x.holder = some q) :
    h.Evolves strict (Hub.evaluatePath p ((h.samplePath p).modPath p f)) := by
  rw [Hub.samplePath_eq, Hub.modPath_modPath]
  have hs : ∀ x l, (Path.sampled x l).fifo = x.fifo ∧ (x.sampled l).state = x.state ∧ (x.sampled l).holder = x.holder := by
    intro x l
    unfold Path.sampled
    split <;> exact ⟨rfl, rfl, rfl⟩
  refine (h.tellLines_evolves p).trans (Hub.evaluate_evolves _ p (fun hx => ?_) fun q hq => .inl ?_)
  · obtain ⟨hfifo, hstate, -⟩ := hf ((h.paths.path[p]).sampled (h.pins p))
    obtain ⟨hfifo', hstate', -⟩ := hs (h.paths.path[p]) (h.pins p)
    unfold Path.FifoOk Path.carrying at hx ⊢
    simpa only [Hub.tellLines_paths, hfifo, hfifo', hstate, hstate'] using hx
  · rw [Hub.tellLines_paths] at hq ⊢
    rw [← (hs (h.paths.path[p]) (h.pins p)).2.2]
    exact (hf _).2.2 q hq

/-! ### The tick work of a path -/

/-- What the tick, and its parts ahead of it, write in a path record before the evaluation: FIFO, state and holder stay,
but for a release. -/
structure TickWrite (f : Path → Path) : Prop where
  fifo : ∀ x, (f x).fifo = x.fifo
  state : ∀ x, (f x).state = x.state
  holder : ∀ x q, (f x).holder = some q → x.holder = some q

theorem TickWrite.comp {f g : Path → Path} (hf : TickWrite f) (hg : TickWrite g) : TickWrite fun x => g (f x) :=
  ⟨fun x => (hg.fifo _).trans (hf.fifo x), fun x => (hg.state _).trans (hf.state x),
    fun x q hq => hf.holder x q (hg.holder _ q hq)⟩

theorem TickWrite.ite {f : Path → Path} (hf : TickWrite f) {c : Path → Prop} [DecidablePred c] :
    TickWrite fun x => if c x then f x else x where
  fifo x := by
    by_cases hc : c x
    · simpa only [if_pos hc] using hf.fifo x
    · simp only [if_neg hc]
  state x := by
    by_cases hc : c x
    · simpa only [if_pos hc] using hf.state x
    · simp only [if_neg hc]
  holder x _ := by
    by_cases hc : c x
    · simpa only [if_pos hc] using hf.holder x _
    · simp only [if_neg hc, imp_self]

theorem Path.takeBreak_tickWrite : TickWrite Path.takeBreak := ⟨fun _ => rfl, fun _ => rfl, fun _ _ => id⟩

theorem Path.release_tickWrite : TickWrite Path.release :=
    ⟨fun _ => rfl, fun _ => rfl, fun _ _ h => absurd h (by simp [Path.release])⟩

theorem Path.countPause_tickWrite (w : Word) : TickWrite fun x => x.countPause w :=
  (TickWrite.ite (f := fun x => { x with timeoutMark := false }) (c := fun x => readyOf x.lines = true)
    ⟨fun _ => rfl, fun _ => rfl, fun _ _ => id⟩).comp
  (TickWrite.ite (c := fun x => x.pausing w = true)
    (f := fun x => { x with
      pauseCount := min 250 (x.pauseCount + 1)
      timeoutMark := x.timeoutMark || decide (x.pauseLimit ≤ x.pauseCount + 1) })
    ⟨fun _ => rfl, fun _ => rfl, fun _ _ => id⟩)

theorem Path.countReset_tickWrite : TickWrite Path.countReset :=
  TickWrite.ite (f := fun x => { x with resetCount := min 4 (x.resetCount + 1) })
    (c := fun x => x.state = .reset) ⟨fun _ => rfl, fun _ => rfl, fun _ _ => id⟩

theorem Path.dueRelease_tickWrite : TickWrite Path.dueRelease :=
  TickWrite.ite (c := fun x => (x.hold && x.releaseDue && x.resetCount == 4) = true) Path.release_tickWrite

theorem TickWrite.evolves {f : Path → Path} (hf : TickWrite f) (p : Fin 8) :
    h.Evolves strict (Hub.evaluatePath p ((h.samplePath p).modPath p f)) :=
  h.sampleEvaluate_evolves p fun x => ⟨hf.fifo x, hf.state x, hf.holder x⟩

theorem Hub.tickPath_evolves (p : Fin 8) : h.Evolves strict (Hub.tickPath p h) := by
  unfold Hub.tickPath
  dsimp only
  rw [Hub.modPath_modPath]
  exact TickWrite.evolves h (Path.takeBreak_tickWrite.ite.comp
    (((Path.countPause_tickWrite _).comp Path.countReset_tickWrite).comp Path.dueRelease_tickWrite)) p

theorem Hub.pauseTimeout_evolves (p : Fin 8) : h.Evolves strict (Hub.pauseTimeout p h) := by
  unfold Hub.pauseTimeout
  exact .ite (TickWrite.evolves h (Path.countPause_tickWrite _) p) (.refl h)

theorem Hub.backChannelBreak_evolves (p : Fin 8) : h.Evolves strict (Hub.backChannelBreak p h) := by
  unfold Hub.backChannelBreak
  exact .ite (TickWrite.evolves h Path.takeBreak_tickWrite p) (.refl h)

theorem Hub.releaseDue_evolves (p : Fin 8) : h.Evolves strict (Hub.releaseDue p h) := by
  unfold Hub.releaseDue
  exact .ite (TickWrite.evolves h (Path.countReset_tickWrite.comp Path.dueRelease_tickWrite) p) (.refl h)

theorem Hub.openFrame_evolves (p : Fin 8) : h.Evolves strict (h.modPath p Path.openFrame) :=
  h.modPath_evolves p id id fun _ => id

/-! ### The back channel, and the lines of a path -/

theorem Hub.framingError_evolves (p : Fin 8) : h.Evolves strict (Hub.framingError p h) := by
  unfold Hub.framingError
  dsimp only
  refine .opt (h.modPath_evolves p ?_ ?_ ?_) (Hub.evaluate_evolves _ p ?_ ?_)
  · exact id
  · exact id
  · exact fun _ => id
  · exact id
  · exact fun _ => .inl

theorem Hub.takeReport_evolves (p : Fin 8) (count : Word) : h.Evolves strict (Hub.takeReport p count h) := by
  unfold Hub.takeReport
  dsimp only
  refine .trans (h.modPath_evolves p (f := fun x => { x with counts := { x.counts with reports := x.counts.reports + 1 } })
    id id fun _ => id) ?_
  split
  · exact Hub.modPath_evolves _ p (f := fun x => { x with baseline := some count }) id id fun _ => id
  · refine .ite ?_ (.trans ?_ (Hub.increment_evolves _ p _))
    · exact Hub.modPath_evolves _ p (f := fun x => { x with counts := { x.counts with stale := x.counts.stale + 1 } })
        id id fun _ => id
    · exact Hub.modPath_evolves _ p (f := fun x => { x with baseline := some count }) id id fun _ => id

theorem Hub.receiptReport_evolves (p : Fin 8) (unused : BitVec 24) (count check : Word) :
    h.Evolves strict (Hub.receiptReport p unused count check h) := by
  unfold Hub.receiptReport
  dsimp only
  refine .opt (h.modPath_evolves p (f := fun x => { x with heard := true }) id id fun _ => id)
    (.ite (Hub.takeReport_evolves _ p count) ?_)
  exact Hub.modPath_evolves _ p (f := fun x => { x with counts := { x.counts with bad := x.counts.bad + 1 } })
    id id fun _ => id

theorem Path.startTransmission_cases (x : Path) :
    x.startTransmission = x ∨ x.startTransmission = { x with transmitting := true, txRate := x.lineRate } := by
  unfold Path.startTransmission
  split
  · exact .inr rfl
  · exact .inl rfl

theorem Path.endTransmission_cases (x : Path) :
    x.endTransmission = x ∨ ∃ counts transmitting rate, x.endTransmission =
      { x with fifo := x.fifo.drop 1, counts := counts, transmitting := transmitting, txRate := rate } := by
  unfold Path.endTransmission
  split
  · refine .inr ?_
    generalize { x.counts with
      sent := x.counts.sent + 1, bytes := x.counts.bytes + BitVec.ofNat 32 (x.fifo.headD []).length } = counts
    obtain h | h := Path.startTransmission_cases
      { x with fifo := x.fifo.drop 1, transmitting := false, counts := counts }
    · exact ⟨_, _, _, h⟩
    · exact ⟨_, _, _, h⟩
  · exact .inl rfl

theorem Hub.endTransmission_evolves (p : Fin 8) : h.Evolves strict (h.modPath p Path.endTransmission) := by
  obtain hx | ⟨counts, transmitting, rate, hx⟩ := Path.endTransmission_cases h.paths.path[p]
  · exact h.modPath_evolves p (by rw [hx]; exact id) (by rw [hx]; exact id) fun q => by rw [hx]; exact id
  · refine h.modPath_evolves p (by rw [hx]; exact id) (fun hf => ?_) fun q => by rw [hx]; exact id
    rw [hx]
    refine ⟨?_, fun hc => ?_⟩
    · exact (List.length_drop ▸ Nat.sub_le _ _ : (List.drop 1 _).length ≤ _).trans hf.1
    · exact (congrArg (List.drop 1) (hf.2 hc)).trans List.drop_nil

/-! ### Take-up and placement (R101 to R106) -/

theorem Hub.passUnit_evolves {r : Fin 17} (k : Fin 16)
    (hr : (h.ring r).send ≠ (h.ring r).head ∨ (h.paths.sends[r]).taken ≠ none) : h.Evolves strict (h.passUnit r k) :=
  (h.countStream_evolves k Stream.committed Stream.discarded Stream.lost fun st => st.skipped + 1).trans
    (Hub.advance_evolves _ hr)

theorem Hub.passDamaged_evolves {r : Fin 17} (hr : (h.ring r).send ≠ (h.ring r).head) :
    h.Evolves strict (h.passDamaged r) :=
  (Hub.modSend_tame r .inl).evolves.trans (Hub.advance_evolves _ (.inl hr))

theorem Hub.backlogged_send {h : Hub} {r : Fin 17} (hb : h.backlogged r = true) : (h.ring r).send ≠ (h.ring r).head := by
  unfold Hub.backlogged at hb
  rw [Bool.and_eq_true] at hb
  simpa using hb.1

theorem Hub.meetErrors_send (r : Fin 17) (e : Entry) (f : ReadFault) :
    ((h.meetErrors r e f).ring r).send = (h.ring r).send ∧ ((h.meetErrors r e f).ring r).head = (h.ring r).head := by
  unfold Hub.meetErrors
  dsimp only
  split
  · simp [Hub.damageClips, Hub.mapClips]
  · simp

theorem Hub.takeUp_evolves (r : Fin 17) : ∀ (n : Nat) (h : Hub), h.Evolves strict (Hub.takeUp r n h)
  | 0, h => .refl h
  | n + 1, h => by
    unfold Hub.takeUp
    split
    · rename_i hb
      have hsend := Hub.backlogged_send hb
      have hmet : ∀ e f, ((h.meetErrors r e f).dropFault.ring r).send ≠ ((h.meetErrors r e f).dropFault.ring r).head :=
        fun e f => by
          obtain ⟨hs, hh⟩ := h.meetErrors_send r e f
          change ((h.meetErrors r e f).ring r).send ≠ ((h.meetErrors r e f).ring r).head
          rwa [hs, hh]
      split
      · exact .refl h
      · refine .ite (.refl h) (.ite ?_ (.ite ?_ (.ite ?_ ?_)))
        · exact (h.passUnit_evolves _ (.inl hsend)).trans (Hub.takeUp_evolves r n _)
        · exact (h.passDamaged_evolves hsend).trans (Hub.takeUp_evolves r n _)
        · exact ((h.meetErrors_evolves r _ _).trans (Hub.dropFault_evolves _)).trans
            ((Hub.passDamaged_evolves _ (hmet _ _)).trans (Hub.takeUp_evolves r n _))
        · exact ((h.meetErrors_evolves r _ _).trans (Hub.dropFault_evolves _)).trans
            (Hub.modSend_tame r fun _ => .inr (hmet _ _)).evolves
    · exact .refl h

theorem Hub.prepare_evolves (r : Fin 17) : h.Evolves strict (Hub.prepare r h) := by
  unfold Hub.prepare
  refine .trans ?_ (Hub.takeUp_evolves r _ _)
  split
  · rename_i t ht
    exact .ite (h.passUnit_evolves _ (.inr (by rw [ht]; nofun))) (.refl h)
  · exact .refl h

theorem Hub.unitSent_evolves {r : Fin 17} (k : Fin 16) (hr : (h.ring r).send ≠ (h.ring r).head) :
    h.Evolves strict (h.unitSent r k) := by
  unfold Hub.unitSent
  refine .trans (b := h.modSend r fun c => { c with sent := c.sent + 1 }) (Hub.modSend_tame r .inl).evolves ?_
  dsimp only
  split
  · rename_i hk
    exact (Hub.withTally_tame (h := h.modSend r fun c => { c with sent := c.sent + 1 })
      (t := { h.tally with sent := h.tally.sent.set k.val true hk }) fun _ _ => id).evolves.trans
        (Hub.advance_evolves _ (.inl (by exact hr)))
  · exact Hub.advance_evolves _ (.inl (by exact hr))

/-- R103: a packet joins the FIFO of an UP path with room. -/
theorem Path.put_tame {x : Path} (hx : x.hasRoom = true) (packet : Bytes) : Path.Tame h x (x.put packet) := by
  simp only [Path.hasRoom, Bool.and_eq_true, beq_iff_eq, decide_eq_true_eq] at hx
  obtain ⟨hup, hroom⟩ := hx
  have hf : ∀ y : Path, y.fifo = x.fifo ++ [packet] → y.state = x.state → x.FifoOk → y.FifoOk := by
    intro y hfifo hs _
    refine ⟨by rw [hfifo]; simpa using hroom, fun hc => ?_⟩
    simp [Path.carrying, hs, hup] at hc
  unfold Path.put
  obtain hs | hs := Path.startTransmission_cases
    { x with fifo := x.fifo ++ [packet], seq := x.seq + 1, counts := { x.counts with placed := x.counts.placed + 1 } }
  · rw [hs]
    exact ⟨id, hf _ rfl rfl, fun _ => .inl⟩
  · rw [hs]
    exact ⟨id, hf _ rfl rfl, fun _ => .inl⟩

/-- R102, R103: a packet enters the FIFO of path p, and the unit of ring r goes on to its next fragment. -/
def Hub.putPacket (h : Hub) (p : Fin 8) (r : Fin 17) (t : Taken) (flip : Bool) : Hub :=
  let g := h.modPath p fun x => x.put (h.packet p t)
  let g := if flip then g.modBond (pairOf p) fun b => { b with odd := !b.odd } else g
  g.modSend r fun c => { c with taken := some { t with next := t.next + 1 } }

theorem Hub.place_eq (p : Fin 8) (r : Fin 17) (t : Taken) (flip : Bool) :
    h.place p r t flip =
      if t.fragments ≤ t.next + 1 then (h.putPacket p r t flip).unitSent r t.stream else h.putPacket p r t flip := rfl

theorem Hub.putPacket_ring (p : Fin 8) (r : Fin 17) (t : Taken) (flip : Bool) (q : Fin 17) :
    (h.putPacket p r t flip).ring q = h.ring q := by
  unfold Hub.putPacket
  cases flip <;> rfl

theorem Hub.putPacket_evolves {p : Fin 8} {r : Fin 17} (t : Taken) (flip : Bool)
    (hp : (h.paths.path[p]).hasRoom = true) (hr : (h.ring r).send ≠ (h.ring r).head) :
    h.Evolves strict (h.putPacket p r t flip) := by
  have hput : h.Evolves strict (h.modPath p fun x => x.put (h.packet p t)) :=
    (Hub.modPath_tame p (Path.put_tame h hp _)).evolves
  have htake : ∀ g : Hub, g.ring r = h.ring r →
      g.Evolves strict (g.modSend r fun c => { c with taken := some { t with next := t.next + 1 } }) := fun g hg =>
    (Hub.modSend_tame r fun _ => .inr (by rwa [hg])).evolves
  unfold Hub.putPacket
  cases flip with
  | true => exact (hput.trans (Hub.modBond_evolves _ (pairOf p) fun b => { b with odd := !b.odd })).trans (htake _ rfl)
  | false => exact hput.trans (htake _ rfl)

theorem Hub.place_evolves {p : Fin 8} {r : Fin 17} (t : Taken) (flip : Bool) (hp : (h.paths.path[p]).hasRoom = true)
    (hr : (h.ring r).send ≠ (h.ring r).head) : h.Evolves strict (h.place p r t flip) := by
  rw [Hub.place_eq]
  exact .opt (h.putPacket_evolves t flip hp hr) (Hub.unitSent_evolves _ _ (by rwa [Hub.putPacket_ring]))

theorem Hub.candidate_send {h : Hub} {p : Fin 8} {r : Fin 17} {x : Taken × Bool} (hx : h.candidate p r = some x) :
    (h.ring r).send ≠ (h.ring r).head := by
  unfold Hub.candidate at hx
  split at hx
  · exact Hub.backlogged_send ‹_›
  · cases hx

theorem Hub.firstOf_send {h : Hub} {p : Fin 8} {zero : Bool} {order : List (Fin 17)} {x : Fin 17 × Taken × Bool}
    (hx : h.firstOf p zero order = some x) : (h.ring x.1).send ≠ (h.ring x.1).head := by
  obtain ⟨r, -, hr⟩ := List.exists_of_findSome?_eq_some hx
  split at hr
  · cases hr
  · rename_i y hy
    split at hr
    · cases hr
      exact Hub.candidate_send hy
    · cases hr

theorem Hub.modArbiter_evolves (p : Fin 8) (f : Arbiter → Arbiter) : h.Evolves strict (h.modArbiter p f) :=
  Hub.Tame.evolves { Hub.Tame.refl strict h with }

theorem Hub.current1_send {h : Hub} {p : Fin 8} {x : Fin 17 × Taken × Bool} (hx : h.current1 p = some x) :
    (h.ring x.1).send ≠ (h.ring x.1).head := by
  unfold Hub.current1 at hx
  split at hx
  · cases hx
  · split at hx
    · cases hx
    · rename_i y hy
      split at hx
      · cases hx
        exact Hub.firstOf_send hy
      · cases hx

theorem Hub.arbitrate_evolves {p : Fin 8} (hp : (h.paths.path[p]).hasRoom = true) :
    h.Evolves strict (h.arbitrate p) := by
  unfold Hub.arbitrate
  split
  · rename_i x hx
    have hr := Hub.firstOf_send hx
    exact (h.modArbiter_evolves p _).trans (Hub.place_evolves _ _ _ hp (by exact hr))
  · split
    · rename_i x hx
      have hr := Hub.current1_send hx
      exact (h.modArbiter_evolves p _).trans (Hub.place_evolves _ _ _ hp (by exact hr))
    · split
      · rename_i x hx
        have hr := Hub.firstOf_send hx
        exact (h.modArbiter_evolves p _).trans (Hub.place_evolves _ _ _ hp (by exact hr))
      · exact .refl h

theorem Hub.prepare_only (r : Fin 17) :
    Hub.OnlyChanges [.streams, .rings, .sending, .log, .notices] h (Hub.prepare r h) := by
  unfold Hub.prepare
  refine .trans ?_ (Hub.takeUp_only r _ _)
  split
  · exact .ite (((h.modStream_only _ _).mono (by decide)).trans ((Hub.moveSend_only _ r _).mono (by decide))) (.refl _ h)
  · exact .refl _ h

theorem Hub.fragmentPlacement_evolves (p : Fin 8) : h.Evolves strict (Hub.fragmentPlacement p h) := by
  unfold Hub.fragmentPlacement
  split
  · rename_i hp
    refine (Hub.Evolves.forEach (fun r g => g.prepare_evolves r) h).trans (Hub.arbitrate_evolves _ ?_)
    have hs : h.paths.path = (h.forEach 17 Hub.prepare).paths.path :=
      Hub.OnlyChanges.forEach (fun r g => g.prepare_only r) h .pathRecords (by decide)
    rwa [← hs]
  · exact .refl h

/-! ### A port goes ABSENT (R44, R109, R153, R165) -/

theorem Hub.absentStream_evolves (p : Fin 4) (k : Fin 16) : h.Evolves strict (Hub.absentStream p k h) := by
  have hnone : h.Evolves strict (h.modStream k fun x => { x with setter := none }) :=
    h.modStream_evolves k ⟨.inl, .inl rfl, nofun, fun _ hb hq => .inl ⟨hb, hq⟩, id⟩ (em _)
  unfold Hub.absentStream
  dsimp only
  refine .opt (.ite ?_ (.refl h)) (Hub.discardBuffer_evolves _ k)
  split
  · rename_i hs
    exact h.releaseHold_evolves (by rw [hs]; nofun)
  · exact h.endHold_evolves k
  · exact hnone
  · exact hnone

theorem Hub.absentPath_evolves (p : Fin 4) (q : Fin 8) : h.Evolves strict (Hub.absentPath p q h) := by
  unfold Hub.absentPath
  refine .ite (.ite (h.evaluate_evolves q id nofun) ?_) (.refl h)
  exact h.modPath_evolves q (f := fun y => { y with holder := none, releaseDue := true }) id id nofun

theorem Hub.absentClips_evolves (p : Fin 4) : h.Evolves strict (Hub.absentClips p h) :=
  (h.closeClips_evolves _ _).trans (Hub.mapClips_evolves _ (ClipMap.ite (p := fun c => c.owner = .port p)
    (f := fun c => { c with owner := .none }) ⟨fun _ => rfl, fun _ => id, fun _ _ hq => by cases hq⟩))

theorem Hub.absentTally_evolves (p : Fin 4) : h.Evolves strict (Hub.absentTally p h) := by
  refine (Hub.withTally_tame fun o q hq => ?_).evolves
  simp only [Fin.getElem_fin, Vector.getElem_ofFn] at hq
  split at hq
  · cases hq
  · exact hq

/-- R179: once the port record says ABSENT, the blocks act for it. -/
theorem Hub.goAbsent_evolves (p : Fin 4) (period : Nat) :
    (h.modPort p fun x => x.goAbsent period h.tb.lastTick).Evolves strict (Hub.goAbsent p period h) := by
  unfold Hub.goAbsent
  exact ((((Hub.Evolves.forEach (fun k g => g.absentStream_evolves p k) _).trans
    (.forEach (fun q g => g.absentPath_evolves p q) _)).trans (Hub.absentClips_evolves _ p)).trans
      (Hub.absentTally_evolves _ p)).trans (Hub.notify_evolves _ _ _)

end

end Sys2Proof.Machine
end

section
/-! Proofs: every event and every command moves the hub by chains of changes and by the four operations that break an
invariant for a moment: the absence of a port, the end of a slice, a coder reset and the two resets of the part. -/

namespace Sys2Proof.Machine

-- In order, so that the package in one text stays within the memory of its check.
set_option Elab.async false

/-- One move of the hub. -/
inductive Hub.Move : Hub → Hub → Prop
  | change {g h : Hub} (hc : g.Change True h) : Move g h
  | goAbsent (p : Fin 4) (n : Nat) (h : Hub) : Move h (Hub.goAbsent p n h)
  | sliceEnd (k : Fin 4) (coded : Bytes) (h : Hub) : Move h (Hub.sliceEnd k coded h)
  | resetCoder (k : Fin 4) (h : Hub) : Move h (Hub.resetCoder k h)
  | reset (h : Hub) : Move h h.reset
  | released (strap : BitVec 16) (supw : Bool) (e : Env) (h : Hub) : Move h (Hub.released strap supw e)

/-- A chain of moves. -/
def Hub.Moves : Hub → Hub → Prop := Relation.ReflTransGen Hub.Move

section
variable {a b c : Hub}

theorem Hub.Moves.refl (h : Hub) : h.Moves h := Relation.ReflTransGen.refl

theorem Hub.Moves.trans (h₁ : a.Moves b) (h₂ : b.Moves c) : a.Moves c := Relation.ReflTransGen.trans h₁ h₂

theorem Hub.Move.moves (h : a.Move b) : a.Moves b := Relation.ReflTransGen.single h

theorem Hub.Evolves.moves (h : a.Evolves True b) : a.Moves b := by
  induction h with
  | refl => exact .refl a
  | tail _ hc ih => exact ih.trans (Hub.Move.change hc).moves

theorem Hub.Moves.ite {p : Prop} [Decidable p] (h₁ : a.Moves b) (h₂ : a.Moves c) : a.Moves (if p then b else c) := by
  split
  · exact h₁
  · exact h₂

theorem Hub.Moves.forEach {n : Nat} {f : Fin n → Hub → Hub} (hf : ∀ i (h : Hub), h.Moves (f i h)) (h : Hub) :
    h.Moves (h.forEach n f) := by
  unfold Hub.forEach
  generalize List.finRange n = xs
  induction xs generalizing h with
  | nil => exact .refl h
  | cons i xs ih => exact (hf i h).trans (ih _)

/-- What every move keeps a chain of moves keeps. -/
theorem Hub.Moves.keeps {P : Hub → Prop} (hP : ∀ g h, Hub.Move g h → P g → P h) (h : a.Moves b) (ha : P a) : P b := by
  induction h with
  | refl => exact ha
  | tail _ hm ih => exact hP _ _ hm ih

end

section
variable (h : Hub)

/-! ### Ticks -/

theorem Hub.tickPort_moves (p : Fin 4) : h.Moves (Hub.tickPort p h) := by
  unfold Hub.tickPort
  split
  · exact .refl h
  · refine .ite (Hub.Move.goAbsent p _ h).moves (.ite ?_ (.refl h))
    exact (Hub.modPort_tame p (f := fun y => { y with timer := y.timer + 1 }) ⟨id, id, .inl rfl, id⟩).evolves.moves

theorem Hub.timebaseNotices_evolves {strict : Prop} (old : Timebase) : h.Evolves strict (h.timebaseNotices old) := by
  unfold Hub.timebaseNotices
  exact .opt (.opt (.opt (.opt (.refl h) (Hub.notify_evolves _ _ _))
    ((Hub.notify_evolves _ _ _).trans (Hub.label_evolves _ _))) (Hub.notify_evolves _ _ _)) (Hub.notify_evolves _ _ _)

theorem Hub.dateClips_evolves {strict : Prop} : h.Evolves strict h.dateClips :=
  h.mapClips_evolves ⟨fun _ => rfl, fun _ => id, fun _ _ => id⟩

theorem Hub.formLamps_evolves {strict : Prop} : h.Evolves strict h.formLamps := by
  refine (Hub.withTally_tame fun o q hq => ?_).evolves
  simpa using hq

theorem Hub.tickTally_evolves {strict : Prop} : h.Evolves strict h.tickTally := by
  refine h.formLamps_evolves.trans (Hub.withTally_tame (h := h.formLamps) (t := { h.formLamps.tally with
    sent := Vector.replicate 4 false }) fun _ _ => id).evolves

/-- A tick up to the port timers. -/
def Hub.tickBlocks (moment : Nat) (h : Hub) : Hub :=
  let g := ({ h with tb := h.tb.tick moment } : Hub).dateClips.closeLimits.timebaseNotices h.tb
  (((g.tickMixer h.tb).tickCoder).forEach 8 Hub.tickPath).forEach 8 fun p h => Hub.tickManual p (Hub.tickAuto p h)

theorem Hub.tick_eq (moment : Nat) :
    h.tick moment =
      (((h.tickBlocks moment).forEach 4 Hub.tickPort).forEach 8 fun p h =>
        h.modPath p Path.openFrame).tickTests.tickTally := rfl

theorem Hub.tickBlocks_evolves {strict : Prop} (moment : Nat) : h.Evolves strict (h.tickBlocks moment) := by
  unfold Hub.tickBlocks
  refine .trans (.trans (.trans ?_ (Hub.tickCoder_evolves _)) (.forEach (fun p g => g.tickPath_evolves p) _))
    (.forEach (fun p g => (g.tickAuto_evolves p).trans (Hub.tickManual_evolves _ p)) _)
  exact (((h.withTimebase_evolves _).trans (Hub.dateClips_evolves _)).trans ((Hub.closeClips_evolves _ _ _).trans
    (Hub.timebaseNotices_evolves _ _))).trans (Hub.tickMixer_evolves _ _)

theorem Hub.tickEnd_evolves {strict : Prop} :
    h.Evolves strict (h.forEach 8 fun p h => h.modPath p Path.openFrame).tickTests.tickTally :=
  ((Hub.Evolves.forEach (fun p g => g.openFrame_evolves p) h).trans
    (.forEach (fun k g => g.testClips_evolves k none) _)).trans (Hub.tickTally_evolves _)

theorem Hub.tick_moves (moment : Nat) : h.Moves (h.tick moment) := by
  rw [Hub.tick_eq]
  exact ((h.tickBlocks_evolves moment).moves.trans (.forEach (fun p g => g.tickPort_moves p) _)).trans
    (Hub.tickEnd_evolves _).moves

/-- A part of a tick taken ahead of it. -/
theorem Hub.atTick_moves {f : Hub → Hub} (hf : ∀ g : Hub, g.Moves (f g)) : h.Moves (h.atTick f) :=
  ((h.withTimebase_evolves _).moves.trans (hf _)).trans (Hub.withTimebase_evolves _ _).moves

theorem Hub.atTick_evolves {f : Hub → Hub} (hf : ∀ g : Hub, g.Evolves True (f g)) : h.Moves (h.atTick f) :=
  h.atTick_moves fun g => (hf g).moves

/-! ### Events of the Timebase -/

theorem Hub.setRef_evolves {strict : Prop} (r : RefState) (good : Nat) (prev : Option Nat) :
    h.Evolves strict (h.setRef r good prev) := (h.withTimebase_evolves _).trans (Hub.notify_evolves _ _ _)

theorem Hub.overdueTick_moves (moment : Nat) : h.Moves (h.overdueTick moment) := .ite (h.tick_moves moment) (.refl h)

theorem Hub.toHoldover_moves (moment : Nat) (prev : Option Nat) : h.Moves (h.toHoldover moment prev) :=
  (h.setRef_evolves _ _ _).moves.trans (Hub.overdueTick_moves _ _)

theorem Hub.dividerExpiry_moves (e : Env) : h.Moves (Hub.dividerExpiry e h) := by
  unfold Hub.dividerExpiry
  refine .trans (h.arrive_evolves e).moves ?_
  dsimp only
  split
  · exact .refl _
  all_goals exact (Hub.withNow_evolves _ _).moves.trans (Hub.tick_moves _ _)

theorem Hub.measurePulse_moves (prev : Nat) : h.Moves (h.measurePulse prev) := by
  unfold Hub.measurePulse
  refine .ite (.ite (h.withTimebase_evolves _).moves ?_) (h.withTimebase_evolves _).moves
  dsimp only
  split
  · exact (h.setRef_evolves _ _ _).moves.trans (Hub.tick_moves _ _)
  · exact (h.setRef_evolves _ _ _).moves

theorem Hub.seekingPulse_moves : h.Moves h.seekingPulse := by
  unfold Hub.seekingPulse
  split
  · exact (h.withTimebase_evolves _).moves
  · exact h.measurePulse_moves _

theorem Hub.lockedPulse_moves (prev : Nat) : h.Moves (h.lockedPulse prev) := by
  unfold Hub.lockedPulse
  refine .ite (h.toHoldover_moves _ _) (.ite ?_ ((h.toHoldover_moves _ _).trans (Hub.seekingPulse_moves _)))
  exact (h.withTimebase_evolves _).moves.trans (Hub.tick_moves _ _)

theorem Hub.referencePulse_moves (e : Env) : h.Moves (Hub.referencePulse e h) := by
  unfold Hub.referencePulse
  refine .trans (h.arrive_evolves e).moves ?_
  dsimp only
  split
  · exact .refl _
  · exact Hub.seekingPulse_moves _
  · exact Hub.seekingPulse_moves _
  · exact (Hub.withTimebase_evolves _ _).moves
  · exact Hub.lockedPulse_moves _ _

theorem Hub.pulseTimeout_moves (e : Env) : h.Moves (Hub.pulseTimeout e h) := by
  unfold Hub.pulseTimeout
  refine .trans (h.arrive_evolves e).moves ?_
  dsimp only
  split
  · exact (Hub.withNow_evolves _ _).moves.trans (Hub.toHoldover_moves _ _ _)
  · exact .refl _

/-! ### Other events -/

theorem Hub.step2Expiry_evolves {strict : Prop} (p : Fin 8) : h.Evolves strict (Hub.step2Expiry p h) :=
  .ite ((h.withNow_evolves _).trans (Hub.endStep2_evolves _ p _)) (.refl h)

theorem Hub.volumeExpiry_evolves {strict : Prop} (p : Fin 8) : h.Evolves strict (Hub.volumeExpiry p h) :=
  .ite ((h.withNow_evolves _).trans (Hub.endManual_evolves _ p _)) (.refl h)

theorem Hub.portAbsent_moves (p : Fin 4) : h.Moves (Hub.portAbsent p h) := by
  unfold Hub.portAbsent
  split
  · exact .refl h
  · exact .ite (Hub.Move.goAbsent p _ h).moves (.refl h)

theorem Hub.supplyAssert_evolves {strict : Prop} : h.Evolves strict h.supplyAssert := by
  unfold Hub.supplyAssert
  refine .ite (.refl h) (((h.closeClips_evolves _ _).trans (Hub.modLog_evolves _ (f := fun l =>
    { l with supply := true, triggers := Vector.ofFn fun t => { l.triggers[t] with state := .disarmed } })
    fun _ => rfl)).trans (Hub.notify_evolves _ _ _))

theorem Hub.supplyDeassert_evolves {strict : Prop} : h.Evolves strict h.supplyDeassert :=
  .ite ((h.modLog_evolves (f := fun l => { l with supply := false }) fun _ => rfl).trans (Hub.notify_evolves _ _ _)) (.refl h)

theorem Hub.modNotice_evolves {strict : Prop} (p : Fin 4) {f : NoticePort → NoticePort}
    (hf : ∀ n, NoticePort.Tame n (f n)) : h.Evolves strict (h.modNotice p f) := (Hub.modNotice_tame p (hf _)).evolves

theorem NoticePort.beginPulse_tame (n : NoticePort) : NoticePort.Tame n n.beginPulse := by
  unfold NoticePort.beginPulse
  split
  · exact ⟨id, fun ho => (Nat.sub_le _ _).trans ho, id⟩
  · exact .refl n

theorem NoticePort.dropPulse_tame (n : NoticePort) : NoticePort.Tame n n.dropPulse := by
  unfold NoticePort.dropPulse
  split
  · exact ⟨id, id, id⟩
  · exact .refl n

theorem NoticePort.endPulse_tame (n : NoticePort) : NoticePort.Tame n n.endPulse := by
  unfold NoticePort.endPulse
  split
  · exact .refl n
  · exact ⟨id, id, id⟩

theorem Hub.muteEnd_evolves {strict : Prop} (c : Fin 64) : h.Evolves strict (Hub.muteEnd c h) :=
  .ite (h.modChannel_evolves c _) (.refl h)

theorem Hub.mixerSample_evolves {strict : Prop} (x : SampleIn) : h.Evolves strict (Hub.mixerSample x h) :=
  .ite (h.withMixer_evolves _) (.refl h)

end

end Sys2Proof.Machine
end

section
/-! Proofs: every command of a master port moves the hub by chains of changes and by the moves of `Hub.Move`. -/

namespace Sys2Proof.Machine

-- In order, so that the package in one text stays within the memory of its check.
set_option Elab.async false

section
variable (h : Hub)

/-! ### What a READ command leaves of the hub -/

@[simp] theorem Hub.refuse_hub (o : Answer) : (h.refuse o).1 = h := rfl

@[simp] theorem Hub.ok_hub : h.ok.1 = h := rfl

@[simp] theorem Hub.presenceReply_hub (p : Fin 4) (o : Answer) : (h.presenceReply p o).1 = h := rfl

@[simp] theorem Hub.readInput_hub (i : Byte) : (h.readInput i).1 = h := by
  unfold Hub.readInput
  split <;> rfl

@[simp] theorem Hub.readPicture_hub (k : Byte) : (h.readPicture k).1 = h := by
  unfold Hub.readPicture
  split <;> rfl

@[simp] theorem Hub.readStream_hub (k : Byte) : (h.readStream k).1 = h := by
  unfold Hub.readStream
  split <;> rfl

@[simp] theorem Hub.readRing_hub (p : Fin 4) (r : Byte) : (h.readRing p r).1 = h := by
  unfold Hub.readRing
  split
  · rfl
  · split <;> rfl

@[simp] theorem Hub.readUnit_hub (k : Byte) (u : Word) : (h.readUnit k u).1 = h := by
  unfold Hub.readUnit
  split
  · rfl
  · split <;> rfl

@[simp] theorem Hub.readChannel_hub (c : Byte) : (h.readChannel c).1 = h := by
  unfold Hub.readChannel
  split <;> rfl

@[simp] theorem Hub.readBus_hub (k : Byte) : (h.readBus k).1 = h := by
  unfold Hub.readBus
  split <;> rfl

@[simp] theorem Hub.readPath_hub (p : Byte) : (h.readPath p).1 = h := by
  unfold Hub.readPath
  split <;> rfl

@[simp] theorem Hub.readSend_hub (r : Byte) : (h.readSend r).1 = h := by
  unfold Hub.readSend
  split <;> rfl

@[simp] theorem Hub.readGauge_hub (p : Byte) : (h.readGauge p).1 = h := by
  unfold Hub.readGauge
  split <;> rfl

@[simp] theorem Hub.readClip_hub (n : Word) : (h.readClip n).1 = h := by
  unfold Hub.readClip
  split <;> rfl

@[simp] theorem Hub.readLabels_hub (n : Word) (count : Byte) : (h.readLabels n count).1 = h := by
  unfold Hub.readLabels
  split
  · rfl
  · split
    · rfl
    · split <;> rfl

/-! ### Classes TIME and CODE -/

theorem Hub.setReference_moves (source : Byte) : h.Moves (h.setReference source).1 := by
  unfold Hub.setReference
  dsimp only
  split
  · exact .refl h
  · split
    · exact ((h.withTimebase_evolves _).trans (Hub.setRef_evolves _ _ _ _)).moves
    all_goals exact .refl h
  · split
    · exact .refl h
    · exact ((h.withTimebase_evolves _).trans (Hub.setRef_evolves _ _ _ _)).moves
    · exact ((h.withTimebase_evolves _).trans (Hub.setRef_evolves _ _ _ _)).moves
    · exact ((h.withTimebase_evolves _).trans (Hub.setRef_evolves _ _ _ _)).moves.trans (Hub.overdueTick_moves _ _)

theorem Hub.setTimecodeMode_moves (mode counting : Byte) : h.Moves (h.setTimecodeMode mode counting).1 := by
  unfold Hub.setTimecodeMode
  split
  · split
    · exact .refl h
    · exact (h.withTimebase_evolves _).moves
  · exact .refl h

theorem Hub.jamTimecode_moves (w : BitVec 32) : h.Moves (h.jamTimecode w).1 := by
  unfold Hub.jamTimecode
  dsimp only
  split
  · exact (h.withTimebase_evolves _).moves
  · exact .refl h

theorem Hub.setRate_moves (rate : Byte) : h.Moves (h.setRate rate).1 := by
  unfold Hub.setRate
  split
  · exact .refl h
  · split
    · exact .refl h
    · split
      · exact .refl h
      · exact (h.withTimebase_evolves _).moves

theorem Hub.setInput_moves (input format : Byte) : h.Moves (h.setInput input format).1 := by
  unfold Hub.setInput
  split
  · exact (h.modInput_evolves _ fun x => { x with expected := _ }).moves
  · exact .refl h

theorem Hub.setPicture_moves (stream : Byte) (a : PictureArgs) : h.Moves (h.setPicture stream a).1 := by
  unfold Hub.setPicture
  split
  · rename_i k source format fixed _ _ _ _
    split
    · exact .refl h
    · split
      · exact .refl h
      · rename_i hc
        refine ((Hub.modCoder_tame k ?_ fun _ => ?_).evolves.trans (Hub.recompute_evolves _)).moves
        · by_cases hf : format = (h.coders[k]).format
          · exact .inl hf
          · exact .inr (not_not.mp fun hs => hc ⟨hf, hs⟩)
        · exact id
  · exact .refl h

theorem Hub.coderReset_moves : h.Moves h.coderReset.1 := by
  have hall : h.Moves (h.forEach 4 Hub.resetCoder) := .forEach (fun k g => (Hub.Move.resetCoder k g).moves) h
  rwa [Hub.coderReset, Hub.ok_hub]

/-! ### Class STORE -/

/-- R53: the load that the check of an open allows is the load with the stream open. -/
theorem Hub.engineLoad_open {k : Fin 16} (f : Stream → Stream) (hk : (h.stream k).state = .closed)
    (hl : h.loadAllows k = true) (he : h.EnginesFit) : (h.modStream k f).EnginesFit := by
  obtain hp | ⟨j, hp⟩ := Option.eq_none_or_eq_some (pictureOf k)
  · refine he.of_le fun i => ?_
    have hi : pictureStream i ≠ k := by
      rintro rfl
      simp [pictureOf, pictureStream] at hp
    rw [Hub.modStream_ne h f hi]
    by_cases hc : (h.stream (pictureStream i)).state = .closed
    · exact .inl hc
    · exact .inr ⟨hc, rfl⟩
  · have hl : h.engineLoad + (h.coders[j]).format.load ≤ 4 := by simpa [Hub.loadAllows, hp] using hl
    have hkj : k = pictureStream j := by
      unfold pictureOf at hp
      split at hp
      · rw [← Option.some.inj hp]
        rfl
      · exact absurd hp nofun
    have hone : ((List.finRange 4).map fun i => if i = j then (h.coders[j]).format.load else 0).sum =
        (h.coders[j]).format.load := by
      generalize (h.coders[j]).format.load = n
      have hfour : List.finRange 4 = [0, 1, 2, 3] := rfl
      rw [hfour]
      fin_cases j <;> simp
    refine le_trans ?_ hl
    rw [← hone]
    unfold Hub.engineLoad
    rw [← List.sum_map_add]
    refine List.sum_le_sum fun i _ => ?_
    by_cases hi : i = j
    · subst hi
      rw [if_pos rfl]
      split
      · exact Nat.zero_le _
      · exact Nat.le_add_left _ _
    · have hik : pictureStream i ≠ k := by
        rw [hkj]
        exact fun hp => hi (Fin.ext (congrArg (fun x : Fin 16 => x.val) hp))
      rw [Hub.modStream_ne h f hik]
      exact Nat.le_add_right _ _

theorem Hub.openPicture_evolves {strict : Prop} (k : Fin 16) : h.Evolves strict (h.openPicture k) := by
  unfold Hub.openPicture
  split
  · exact .refl h
  · exact .trans (h.modCoder_evolves (f := fun c => { c with built := false, sourceChange := false, remembered := c.source })
      _ rfl fun _ hb => ⟨nofun, hb.2⟩) (Hub.withBudget_evolves _ _)

theorem Hub.openStream_moves (stream : Byte) : h.Moves (h.openStream stream).1 := by
  unfold Hub.openStream
  split
  · exact .refl h
  · rename_i k _
    split
    · exact .refl h
    · rename_i hk
      obtain ⟨hs, -, hl⟩ := not_or.mp hk |>.imp_right not_or.mp
      refine (Hub.Evolves.trans (.trans (Hub.modStream_tame_of k (f := fun st =>
        { st with state := .opened, setter := none }) ?_ ?_).evolves (Hub.openPicture_evolves _ k))
        (Hub.streamChanged_evolves _ k)).moves
      · exact ⟨.inl, .inl rfl, nofun, fun _ hb hq => .inl ⟨hb, hq⟩, id⟩
      · exact h.engineLoad_open _ (not_not.mp hs) (not_not.mp hl)

theorem Hub.holdStream_moves {p : Fin 4} (hp : (h.ports[p]).present = true) (stream policy : Byte) :
    h.Moves (h.holdStream p stream policy).1 := by
  unfold Hub.holdStream
  split
  · rename_i k discard _ _
    split
    · exact .refl h
    · rename_i hs
      refine ((h.modStream_evolves k (f := fun st => { st with state := .held, discard := discard, setter := some p }) ?_
        (.inr ?_)).trans (Hub.streamChanged_evolves _ k)).moves
      · exact ⟨.inl, .inl rfl, fun q hq => .inr (Option.some.inj hq ▸ hp), fun _ hb hq => .inl ⟨hb, hq⟩, id⟩
      · rw [not_not.mp hs]
        exact nofun
  · exact .refl h

theorem Hub.releaseStream_moves (stream : Byte) : h.Moves (h.releaseStream stream).1 := by
  unfold Hub.releaseStream
  split
  · exact .refl h
  · split
    · exact .refl h
    · rename_i hs
      refine (h.releaseHold_evolves ?_).moves
      rw [not_not.mp hs]
      exact nofun

/-- R24: a stream enters CLOSING. -/
theorem Hub.closing_evolves {k : Fin 16} (hk : (h.stream k).state ≠ .closed) (held : Bool) :
    h.Evolves True (h.modStream k fun x => { x with state := .closing, fromHeld := held }) :=
  h.modStream_evolves k ⟨.inl, .inl rfl, fun _ => .inl, fun _ hb hq => .inl ⟨hb, hq⟩, id⟩ (.inr hk)

theorem Hub.closeStream_moves (stream : Byte) : h.Moves (h.closeStream stream).1 := by
  unfold Hub.closeStream
  split
  · exact .refl h
  · rename_i k _
    dsimp only
    split
    · rename_i hs
      have hopen : (h.stream k).state ≠ .closed := by
        rintro hc
        simp [hc] at hs
      have hclosing := (h.closing_evolves hopen ((h.stream k).state == .held)).trans (Hub.discardBuffer_evolves _ k)
      split
      · rw [Hub.ok_hub]
        exact (hclosing.trans (Hub.endClosing_evolves _ k)).moves
      · dsimp only
        exact (hclosing.trans (Hub.streamChanged_evolves _ k)).moves
    · exact .refl h

theorem Hub.setStream_moves (stream binding : Byte) : h.Moves (h.setStream stream binding).1 := by
  unfold Hub.setStream
  split
  · rename_i k toGlobal _ _
    split
    · exact .refl h
    · split
      · exact .refl h
      · split
        · exact .refl h
        · have hempty : h.Evolves True (if toGlobal = true then h.emptyRing k.castSucc else h) :=
            .ite (h.emptyRing_evolves _) (.refl h)
          refine (hempty.trans (Hub.modStream_evolves _ k (f := fun st => { st with global := toGlobal })
            ⟨fun hg => .inr ?_, .inl rfl, fun _ => .inl, fun _ hb hq => .inl ⟨hb, hq⟩, id⟩ (em _))).moves
          rw [if_pos hg, Hub.emptyRing_self]
  · exact .refl h

theorem Hub.setRing_moves (p : Fin 4) (ring : Byte) (base size : Word) (enabled : Bool) (policy : Byte) :
    h.Moves (h.setRing p ring base size enabled policy).1 := by
  unfold Hub.setRing
  split
  · exact .refl h
  · rename_i r _
    split
    · exact .refl h
    · split
      · exact .refl h
      · rename_i keep _
        split
        · exact .refl h
        · rename_i hsize
          have hpos : 0 < size.toNat * 8 := by
            have hok : ringSizeOk size.toNat = true := by simpa using (not_or.mp hsize).1
            have : size.toNat ≠ 0 := fun hz => by rw [hz] at hok; exact absurd hok (by decide)
            omega
          have hset : h.Moves ((h.emptyRing r).modRing r fun x =>
              { x with base := base.toNat, size := size.toNat, enabled := enabled, keep := keep }) := by
            refine ((h.emptyRing_evolves r).trans (Hub.modRing_tame r ?_).evolves).moves
            rw [Hub.emptyRing_self]
            exact ⟨rfl, rfl, rfl, fun _ => Nat.zero_le _, fun _ => ⟨hpos, by simp, by simp⟩⟩
          split
          · exact .refl h
          · split
            · exact .refl h
            · split
              · exact .refl h
              · exact hset

theorem Hub.fetch_moves (stream : Byte) (u offset : Word) (length : BitVec 16) :
    h.Moves (h.fetch stream u offset length).1 := by
  unfold Hub.fetch
  split
  · exact .refl h
  · split
    · exact .refl h
    · split
      · exact .refl h
      · split
        · exact .refl h
        · exact ((h.meetErrors_evolves _ _ _).trans (Hub.dropFault_evolves _)).moves

/-- R39: the buffer of a stream given up. -/
theorem Hub.dropBuffer_evolves {strict : Prop} (k : Fin 16) :
    h.Evolves strict (h.modStream k fun x => { x with buffer := [], builder := none }) :=
  h.modStream_evolves k ⟨.inl, .inl rfl, fun _ => .inl, fun _ hb => absurd rfl hb, fun _ => Nat.zero_le _⟩ (em _)

theorem auxOf_le {stream : Byte} {k : Fin 16} (hk : auxOf stream = some k) : 13 ≤ k.val := by
  unfold auxOf at hk
  split at hk
  · exact absurd hk nofun
  · split at hk
    · rename_i h13
      exact Option.some.inj hk ▸ h13
    · exact absurd hk nofun

theorem Hub.insert_moves {p : Fin 4} (hp : (h.ports[p]).present = true) (stream : Byte) (data : Bytes) (final : Bool) :
    h.Moves (h.insert p stream data final).1 := by
  unfold Hub.insert
  split
  · exact .refl h
  · rename_i k hk
    dsimp only
    split
    · exact .refl h
    · split
      · exact .refl h
      · split
        · exact .refl h
        · split
          · exact ((h.dropBuffer_evolves k).trans (Hub.countDiscard_evolves _ k)).moves
          · rename_i hlen
            split
            · exact ((h.dropBuffer_evolves k).trans (Hub.offer_evolves _ _)).moves
            · refine (h.modStream_evolves k (f := fun x =>
                { x with buffer := (h.stream k).buffer ++ data, builder := some p }) ?_ (em _)).moves
              refine ⟨.inl, .inl rfl, fun _ => .inl, fun q _ hq => .inr (Option.some.inj hq ▸ hp), fun _ => ?_⟩
              rw [List.length_append, bufferCap, if_pos (auxOf_le hk)]
              omega

/-! ### Classes MIX, LINK and GAUGE -/

theorem Hub.setChannel_moves (channel : Byte) (delay : BitVec 16) (polarity : Byte) :
    h.Moves (h.setChannel channel delay polarity).1 := by
  unfold Hub.setChannel
  split
  · exact (h.modChannel_evolves _ fun x => x.write _ _).moves
  · exact .refl h

theorem Hub.setGain_moves (channel bus : Byte) (target ramp : BitVec 16) :
    h.Moves (h.setGain channel bus target ramp).1 := by
  unfold Hub.setGain
  split
  · rename_i k _ _
    exact (h.modChannel_evolves _ fun x => { x with gains := x.gains.set k (x.gains[k].head target ramp) }).moves
  · exact .refl h

theorem Hub.setBusGain_moves (bus : Byte) (target ramp : BitVec 16) : h.Moves (h.setBusGain bus target ramp).1 := by
  unfold Hub.setBusGain
  split
  · exact (h.modBus_evolves _ fun b => { b with master := b.master.head target ramp }).moves
  · exact .refl h

theorem Hub.setMeter_moves (bus : Byte) (threshold : Word) (frames : Byte) :
    h.Moves (h.setMeter bus threshold frames).1 := by
  unfold Hub.setMeter
  split
  · exact (h.modBus_evolves _ fun b => { b with threshold := _, silenceFrames := _ }).moves
  · exact .refl h

theorem Hub.mixerReset_moves : h.Moves h.mixerReset.1 := (h.withMixer_evolves _).moves

theorem Hub.setPath_moves (path : Byte) (enabled : Bool) (pauseLimit : Byte) (lineRate : BitVec 16) :
    h.Moves (h.setPath path enabled pauseLimit lineRate).1 := by
  unfold Hub.setPath
  split
  · exact .refl h
  · exact (h.evaluate_evolves _ (f := fun x =>
      { x with enabled := enabled, pauseLimit := clamp 1 250 pauseLimit.toNat, lineRate := clamp 1 1000 lineRate.toNat })
      id fun _ => .inl).moves

theorem Hub.clearLoss_moves (path selector : Byte) : h.Moves (h.clearLoss path selector).1 := by
  unfold Hub.clearLoss
  split
  · rename_i p z _ _
    exact (h.evaluate_evolves p (f := fun x => { x with loss := x.loss && !z.1, change := x.change && !z.2 })
      id fun _ => .inl).moves
  · exact .refl h

theorem Hub.withMapping_evolves {strict : Prop} (spread : BitVec 8) (directed : List (Fin 16 × BitVec 8)) :
    h.Evolves strict { h with paths := { h.paths with spread := spread, directed := directed } } :=
  Hub.Tame.evolves { Hub.Tame.refl strict h with }

theorem Hub.addDirected_moves (stream mask : Byte) : h.Moves (h.addDirected stream mask).1 := by
  unfold Hub.addDirected
  split
  · exact .refl h
  · split
    · exact .refl h
    · split
      · exact .refl h
      · exact (h.withMapping_evolves _ _).moves

theorem Hub.removeDirected_moves (stream : Byte) : h.Moves (h.removeDirected stream).1 := by
  unfold Hub.removeDirected
  split
  · exact .refl h
  · exact (h.withMapping_evolves _ _).moves

theorem Hub.setBond_moves (pair : Byte) (bonded : Bool) : h.Moves (h.setBond pair bonded).1 := by
  unfold Hub.setBond
  split
  · exact .refl h
  · split
    · exact .refl h
    · exact (h.modBond_evolves _ fun b => { b with setting := bonded }).moves

theorem Hub.pathReset_moves {q : Fin 4} (hq : (h.ports[q]).present = true) (path : Byte) :
    h.Moves (h.pathReset q path).1 := by
  unfold Hub.pathReset
  split
  · exact .refl h
  · split
    · exact .refl h
    · exact (h.evaluate_evolves _ (f := fun x =>
        { x with hold := true, holder := some q, resetCount := 0, releaseDue := false, loss := false })
        id fun _ hn => .inr (Option.some.inj hn ▸ hq)).moves

theorem Hub.pathRelease_moves (path : Byte) : h.Moves (h.pathRelease path).1 := by
  unfold Hub.pathRelease
  split
  · exact .refl h
  · split
    · exact .refl h
    · exact (h.evaluate_evolves _ id fun _ hn => .inl (Path.release_tickWrite.holder _ _ hn)).moves

theorem Hub.setGauge_moves (auto : Bool) (window : Byte) : h.Moves (h.setGauge auto window).1 := by
  unfold Hub.setGauge
  dsimp only
  refine .trans (h.withGauges_evolves { h.gauges with auto := auto, window := clamp 1 250 window.toNat }).moves ?_
  split
  · exact Hub.Evolves.moves (.forEach (fun p g => g.abortManual_evolves p) _)
  · split
    · exact Hub.Evolves.moves (.forEach (fun p g => g.modGauge_evolves p _) _)
    · exact .refl _

theorem Hub.startGauge_moves (path mode : Byte) (gate : Word) : h.Moves (h.startGauge path mode gate).1 := by
  unfold Hub.startGauge
  split
  · split
    · exact .refl h
    · split
      · exact .refl h
      · exact (h.modGauge_evolves _ fun x => x.start _ _ _).moves
  · exact .refl h

theorem Hub.setBudget_moves (source : Byte) (a : BudgetArgs) : h.Moves (h.setBudget source a).1 := by
  unfold Hub.setBudget
  split
  · exact .refl h
  · exact ((h.withBudget_evolves _).trans (Hub.recompute_evolves _)).moves

/-! ### Class LOG -/

theorem Hub.openClip_moves {p : Fin 4} (hp : (h.ports[p]).present = true) (mask : BitVec 16) (name : Option TextArg) :
    h.Moves (h.openClip p mask name).1 := by
  unfold Hub.openClip
  split
  · exact .refl h
  · split
    · exact .refl h
    · split
      · exact .refl h
      · split
        · exact .refl h
        · rename_i ho
          exact (h.addClip_evolves mask _ (not_not.mp ho) fun q hq => Owner.port.inj hq ▸ hp).moves

theorem Hub.closeClip_moves (p : Fin 4) (clip : Word) : h.Moves (h.closeClip p clip).1 := by
  unfold Hub.closeClip
  split
  · exact .refl h
  · split
    · exact .refl h
    · split
      · exact .refl h
      · exact (h.closeClips_evolves _ _).moves

theorem Hub.releaseClip_moves (p : Fin 4) (clip : Word) : h.Moves (h.releaseClip p clip).1 := by
  unfold Hub.releaseClip
  split
  · exact .refl h
  · split
    · exact .refl h
    · split
      · exact .refl h
      · exact (Hub.modLog_tame (f := fun l => { l with clips := l.clips.filter fun x => x.number != clip })
          (.sublist h List.filter_sublist rfl id)).evolves.moves

theorem Hub.rename_evolves {strict : Prop} (kind : LabelKind) (clip : Option Word) (text : Bytes) :
    h.Evolves strict (h.rename kind clip text) := by
  unfold Hub.rename
  split
  · exact h.modClip_evolves _ ⟨fun _ => rfl, fun _ => id, fun _ _ => id⟩
  · exact .refl h

theorem Hub.addLabel_moves (p : Fin 4) (kind : Byte) (value : Option Word) (text : TextArg) (clip : Option Word) :
    h.Moves (h.addLabel p kind value text clip).1 := by
  unfold Hub.addLabel
  split
  · split
    · exact .refl h
    · dsimp only
      exact ((h.rename_evolves _ _ _).trans (Hub.arriveLabel_evolves _ _ _)).moves
  · exact .refl h

theorem Hub.setSelection_moves (kind source setting : Byte) : h.Moves (h.setSelection kind source setting).1 := by
  unfold Hub.setSelection
  split
  · rw [Hub.ok_hub]
    refine (h.modLog_evolves fun l => ?_).moves
    dsimp only
  · exact .refl h

theorem Hub.setTrigger_moves (p : Fin 4) (trigger kind source : Byte) (pattern mask : Word) (action : ActionArg)
    (rearm : Byte) : h.Moves (h.setTrigger p trigger kind source pattern mask action rearm).1 := by
  unfold Hub.setTrigger
  split
  · split
    · exact .refl h
    · split
      · exact .refl h
      · rw [Hub.ok_hub]
        exact (h.modTrigger_evolves _ _).moves
  · exact .refl h

theorem Hub.armTrigger_moves (trigger : Byte) : h.Moves (h.armTrigger trigger).1 := by
  unfold Hub.armTrigger
  split
  · exact .refl h
  · split
    · exact .refl h
    · rw [Hub.ok_hub]
      exact (h.modTrigger_evolves _ _).moves

theorem Hub.disarmTrigger_moves (trigger : Byte) : h.Moves (h.disarmTrigger trigger).1 := by
  unfold Hub.disarmTrigger
  split
  · exact .refl h
  · rw [Hub.ok_hub]
    exact (h.modTrigger_evolves _ _).moves

theorem Hub.logReset_moves : h.Moves h.logReset.1 := by
  have hl : ClipLog.Tame h h.log h.log.empty :=
    ⟨fun ⟨_, hn, _⟩ => ⟨.nil, hn, by simp [ClipLog.empty]⟩, fun _ => Nat.zero_le _, fun _ => Nat.zero_le _,
      by simp [ClipLog.empty]⟩
  exact (Hub.modLog_tame hl).evolves.moves

/-! ### Classes TALLY, RIGHTS and NOTICE, and the commands of no class -/

theorem Hub.setTally_moves (output kind number : Byte) : h.Moves (h.setTally output kind number).1 := by
  unfold Hub.setTally
  split
  · rw [Hub.ok_hub]
    exact (Hub.modTally_tame _ fun _ => .inl).evolves.moves
  · exact .refl h

theorem Hub.setOverride_moves {p : Fin 4} (hp : (h.ports[p]).present = true) (output value : Byte) :
    h.Moves (h.setOverride p output value).1 := by
  unfold Hub.setOverride
  split
  · rw [Hub.ok_hub]
    refine (Hub.modTally_tame _ fun q hq => .inr ?_).evolves.moves
    unfold TallyEntry.force at hq
    dsimp only at hq
    split at hq
    · exact absurd hq nofun
    · exact Option.some.inj hq ▸ hp
  · exact .refl h

theorem takeFirst_length (pass : Notice → Bool) : ∀ (n : Nat) (xs : List Notice),
    (takeFirst pass n xs).2.length ≤ xs.length
  | _, [] => Nat.le_refl _
  | n, x :: xs => by
    unfold takeFirst
    split
    · exact (takeFirst_length pass (n - 1) xs).trans (Nat.le_succ _)
    · exact Nat.succ_le_succ (takeFirst_length pass n xs)

theorem Hub.takeNotices_moves (p : Fin 4) (selector : Byte) : h.Moves (h.takeNotices p selector).1 := by
  unfold Hub.takeNotices
  split
  · exact .refl h
  · rename_i pass _
    exact (Hub.modNotice_tame p (f := fun n => n.leave (takeFirst pass 8 (h.notices[p]).queue).2)
      ⟨(takeFirst_length pass 8 _).trans, id, id⟩).evolves.moves

theorem NoticePort.ack_tame (n : NoticePort) : NoticePort.Tame n n.ack := by
  unfold NoticePort.ack
  split
  · exact ⟨id, id, id⟩
  · exact .refl n

theorem maskWritten_supply (mask : Word) : (maskWritten mask).getLsbD 20 = true := by
  simp [maskWritten, setBit]

theorem Hub.setAttention_moves (p : Fin 4) (mode : Byte) : h.Moves (h.setAttention p mode).1 := by
  unfold Hub.setAttention
  split
  · exact .refl h
  · exact (h.modNotice_evolves p (f := fun n => n.setMode _) fun n => ⟨id, fun _ => Nat.zero_le _, id⟩).moves

/-- R174: RIGHTS is written as the editor mask has it. -/
theorem classesWritten_rights (strap : BitVec 16) (q : Fin 4) (classes : BitVec 16) :
    (classesWritten strap q classes).getLsbD 8 = strapEditor strap q := by
  unfold classesWritten
  split
  · rename_i hq
    simp [hq]
  · rename_i hq
    simp [hq]

theorem Hub.setRights_moves (p : Fin 4) (port : Byte) (classes streams : BitVec 16) :
    h.Moves (h.setRights p port classes streams).1 := by
  unfold Hub.setRights
  split
  · exact .refl h
  · split
    · exact .refl h
    · rename_i q _
      exact (Hub.modPort_tame q (f := fun x => { x with classes := classesWritten h.strap q classes, streams := streams })
        ⟨id, id, .inr (classesWritten_rights _ _ _), id⟩).evolves.moves

theorem Hub.completePair_moves (p : Fin 4) : h.Moves (h.completePair p) := by
  have hp : h.Evolves True (h.modPort p PortRecord.completePair) :=
    (Hub.modPort_tame p (f := PortRecord.completePair) ⟨id, id, .inl rfl, fun _ => rfl⟩).evolves
  exact (hp.trans (.ite (.refl _) (Hub.notify_evolves _ _ _))).moves

theorem Hub.presence_moves (p : Fin 4) (phase : Byte) : h.Moves (h.presence p phase).1 := by
  unfold Hub.presence
  split
  · exact .refl h
  · split
    · exact .refl h
    · split
      · exact (Hub.modPort_tame p (f := fun x => { x with
          counts := { x.counts with wrongPhase := x.counts.wrongPhase + 1 } }) ⟨id, id, .inl rfl, id⟩).evolves.moves
      · split
        · exact h.completePair_moves p
        · exact (Hub.modPort_tame p (f := fun x => { x with expectOdd := true, half := none })
            ⟨id, id, .inl rfl, id⟩).evolves.moves

end

end Sys2Proof.Machine
end

section
/-! Proofs: a step moves the hub by a chain of moves (`Hub.Moves`). -/

namespace Sys2Proof.Machine

-- In order, so that the package in one text stays within the memory of its check.
set_option Elab.async false

/-- What carries every hub along a chain of moves. -/
def Hub.Mover (f : Hub → Hub) : Prop := ∀ h : Hub, h.Moves (f h)

/-! ### A command of a master port -/

theorem PortRecord.respond_tame {strap : BitVec 16} {p : Fin 4} (x : PortRecord) (tag code : Byte) (r : Reply) :
    PortRecord.Tame strap p x (x.respond tag code r) := ⟨id, id, .inl rfl, id⟩

/-- R171: a command reaches its block from a port that is PRESENT, PRESENCE excepted. -/
theorem PortRecord.refusal_none {x : PortRecord} {code : Byte} {cls : Option CommandClass} {stream : Option Byte}
    (hr : x.refusal code cls stream = none) : x.present = true ∨ code = 1 := by
  unfold PortRecord.refusal at hr
  by_contra hn
  obtain ⟨hp, hc⟩ := not_or.mp hn
  rw [if_pos ⟨by simpa using hp, hc⟩] at hr
  exact absurd hr nofun

/-- A command moves the hub as its block does. -/
theorem serve_mover {c : Caller} {code : Byte} {cls : Option CommandClass} {stream : Option Byte}
    {block : Hub → Hub × Reply} (hb : ∀ g : Hub, (g.ports[c.port]).present = true ∨ code = 1 → g.Moves (block g).1) :
    Hub.Mover (serve c code cls stream block) := by
  intro h
  unfold serve
  refine .trans (h.arrive_evolves c.env).moves ?_
  dsimp only
  split
  · exact (Hub.modPort_tame c.port (PortRecord.respond_tame _ _ _ _)).evolves.moves
  · rename_i hr
    exact (hb _ (PortRecord.refusal_none hr)).trans
      (Hub.modPort_tame c.port (PortRecord.respond_tame _ _ _ _)).evolves.moves

/-- A command whose block moves every hub. -/
theorem serve_mover_of {c : Caller} {code : Byte} {cls : Option CommandClass} {stream : Option Byte}
    {block : Hub → Hub × Reply} (hb : ∀ g : Hub, g.Moves (block g).1) : Hub.Mover (serve c code cls stream block) :=
  serve_mover fun g _ => hb g

/-- A command whose block leaves the hub. -/
theorem serve_mover_read {c : Caller} {code : Byte} {cls : Option CommandClass} {stream : Option Byte}
    {block : Hub → Hub × Reply} (hb : ∀ g : Hub, (block g).1 = g) : Hub.Mover (serve c code cls stream block) :=
  serve_mover fun g _ => by
    rw [hb g]
    exact .refl g

section
variable (c : Caller)

theorem cmdSetReference_mover (source : Byte) : Hub.Mover (cmdSetReference c source) :=
  serve_mover_of fun g => g.setReference_moves source

theorem cmdSetTimecodeMode_mover (mode counting : Byte) : Hub.Mover (cmdSetTimecodeMode c mode counting) :=
  serve_mover_of fun g => g.setTimecodeMode_moves mode counting

theorem cmdJamTimecode_mover (w : BitVec 32) : Hub.Mover (cmdJamTimecode c w) :=
  serve_mover_of fun g => g.jamTimecode_moves w

theorem cmdSetRate_mover (rate : Byte) : Hub.Mover (cmdSetRate c rate) := serve_mover_of fun g => g.setRate_moves rate

theorem cmdReadTimebase_mover : Hub.Mover (cmdReadTimebase c) := serve_mover_read fun _ => rfl

theorem cmdSetInput_mover (input format : Byte) : Hub.Mover (cmdSetInput c input format) :=
  serve_mover_of fun g => g.setInput_moves input format

theorem cmdSetPicture_mover (stream : Byte) (a : PictureArgs) : Hub.Mover (cmdSetPicture c stream a) :=
  serve_mover_of fun g => g.setPicture_moves stream a

theorem cmdCoderReset_mover : Hub.Mover (cmdCoderReset c) := serve_mover_of fun g => g.coderReset_moves

theorem cmdReadInput_mover (input : Byte) : Hub.Mover (cmdReadInput c input) :=
  serve_mover_read fun g => g.readInput_hub input

theorem cmdReadPicture_mover (stream : Byte) : Hub.Mover (cmdReadPicture c stream) :=
  serve_mover_read fun g => g.readPicture_hub stream

theorem cmdOpenStream_mover (stream : Byte) : Hub.Mover (cmdOpenStream c stream) :=
  serve_mover_of fun g => g.openStream_moves stream

theorem cmdHoldStream_mover (stream policy : Byte) : Hub.Mover (cmdHoldStream c stream policy) :=
  serve_mover fun g hp => g.holdStream_moves (hp.resolve_right (by decide)) stream policy

theorem cmdReleaseStream_mover (stream : Byte) : Hub.Mover (cmdReleaseStream c stream) :=
  serve_mover_of fun g => g.releaseStream_moves stream

theorem cmdCloseStream_mover (stream : Byte) : Hub.Mover (cmdCloseStream c stream) :=
  serve_mover_of fun g => g.closeStream_moves stream

theorem cmdSetStream_mover (stream binding : Byte) : Hub.Mover (cmdSetStream c stream binding) :=
  serve_mover_of fun g => g.setStream_moves stream binding

theorem cmdSetRing_mover (ring : Byte) (base size : Word) (enabled : Bool) (policy : Byte) :
    Hub.Mover (cmdSetRing c ring base size enabled policy) :=
  serve_mover_of fun g => g.setRing_moves c.port ring base size enabled policy

theorem cmdFetch_mover (stream : Byte) (u offset : Word) (length : BitVec 16) :
    Hub.Mover (cmdFetch c stream u offset length) :=
  serve_mover_of fun g => g.fetch_moves stream u offset length

theorem cmdInsert_mover (stream : Byte) (data : Bytes) (final : Bool) : Hub.Mover (cmdInsert c stream data final) :=
  serve_mover fun g hp => g.insert_moves (hp.resolve_right (by decide)) stream data final

theorem cmdReadStream_mover (stream : Byte) : Hub.Mover (cmdReadStream c stream) :=
  serve_mover_read fun g => g.readStream_hub stream

theorem cmdReadRing_mover (ring : Byte) : Hub.Mover (cmdReadRing c ring) :=
  serve_mover_read fun g => g.readRing_hub c.port ring

theorem cmdReadUnit_mover (stream : Byte) (u : Word) : Hub.Mover (cmdReadUnit c stream u) :=
  serve_mover_read fun g => g.readUnit_hub stream u

theorem cmdSetChannel_mover (channel : Byte) (delay : BitVec 16) (polarity : Byte) :
    Hub.Mover (cmdSetChannel c channel delay polarity) :=
  serve_mover_of fun g => g.setChannel_moves channel delay polarity

theorem cmdSetGain_mover (channel bus : Byte) (target ramp : BitVec 16) :
    Hub.Mover (cmdSetGain c channel bus target ramp) :=
  serve_mover_of fun g => g.setGain_moves channel bus target ramp

theorem cmdSetBusGain_mover (bus : Byte) (target ramp : BitVec 16) : Hub.Mover (cmdSetBusGain c bus target ramp) :=
  serve_mover_of fun g => g.setBusGain_moves bus target ramp

theorem cmdSetMeter_mover (bus : Byte) (threshold : Word) (frames : Byte) :
    Hub.Mover (cmdSetMeter c bus threshold frames) :=
  serve_mover_of fun g => g.setMeter_moves bus threshold frames

theorem cmdMixerReset_mover : Hub.Mover (cmdMixerReset c) := serve_mover_of fun g => g.mixerReset_moves

theorem cmdReadChannel_mover (channel : Byte) : Hub.Mover (cmdReadChannel c channel) :=
  serve_mover_read fun g => g.readChannel_hub channel

theorem cmdReadBus_mover (bus : Byte) : Hub.Mover (cmdReadBus c bus) := serve_mover_read fun g => g.readBus_hub bus

theorem cmdSetPath_mover (path : Byte) (enabled : Bool) (pauseLimit : Byte) (lineRate : BitVec 16) :
    Hub.Mover (cmdSetPath c path enabled pauseLimit lineRate) :=
  serve_mover_of fun g => g.setPath_moves path enabled pauseLimit lineRate

theorem cmdClearLoss_mover (path selector : Byte) : Hub.Mover (cmdClearLoss c path selector) :=
  serve_mover_of fun g => g.clearLoss_moves path selector

theorem cmdSetSpread_mover (mask : Byte) : Hub.Mover (cmdSetSpread c mask) :=
  serve_mover_of fun g => (g.withMapping_evolves mask g.paths.directed).moves

theorem cmdAddDirected_mover (stream mask : Byte) : Hub.Mover (cmdAddDirected c stream mask) :=
  serve_mover_of fun g => g.addDirected_moves stream mask

theorem cmdRemoveDirected_mover (stream : Byte) : Hub.Mover (cmdRemoveDirected c stream) :=
  serve_mover_of fun g => g.removeDirected_moves stream

theorem cmdSetBond_mover (pair : Byte) (bonded : Bool) : Hub.Mover (cmdSetBond c pair bonded) :=
  serve_mover_of fun g => g.setBond_moves pair bonded

theorem cmdPathReset_mover (path : Byte) : Hub.Mover (cmdPathReset c path) :=
  serve_mover fun g hp => g.pathReset_moves (hp.resolve_right (by decide)) path

theorem cmdPathRelease_mover (path : Byte) : Hub.Mover (cmdPathRelease c path) :=
  serve_mover_of fun g => g.pathRelease_moves path

theorem cmdReadPath_mover (path : Byte) : Hub.Mover (cmdReadPath c path) :=
  serve_mover_read fun g => g.readPath_hub path

theorem cmdReadSpread_mover : Hub.Mover (cmdReadSpread c) := serve_mover_read fun _ => rfl

theorem cmdReadSend_mover (ring : Byte) : Hub.Mover (cmdReadSend c ring) :=
  serve_mover_read fun g => g.readSend_hub ring

theorem cmdSetGauge_mover (auto : Bool) (window : Byte) : Hub.Mover (cmdSetGauge c auto window) :=
  serve_mover_of fun g => g.setGauge_moves auto window

theorem cmdStartGauge_mover (path mode : Byte) (gate : Word) : Hub.Mover (cmdStartGauge c path mode gate) :=
  serve_mover_of fun g => g.startGauge_moves path mode gate

theorem cmdReadGauge_mover (path : Byte) : Hub.Mover (cmdReadGauge c path) :=
  serve_mover_read fun g => g.readGauge_hub path

theorem cmdSetBudget_mover (source : Byte) (a : BudgetArgs) : Hub.Mover (cmdSetBudget c source a) :=
  serve_mover_of fun g => g.setBudget_moves source a

theorem cmdReadBudget_mover : Hub.Mover (cmdReadBudget c) := serve_mover_read fun _ => rfl

theorem cmdOpenClip_mover (mask : BitVec 16) (name : Option TextArg) : Hub.Mover (cmdOpenClip c mask name) :=
  serve_mover fun g hp => g.openClip_moves (hp.resolve_right (by decide)) mask name

theorem cmdCloseClip_mover (clip : Word) : Hub.Mover (cmdCloseClip c clip) :=
  serve_mover_of fun g => g.closeClip_moves c.port clip

theorem cmdReleaseClip_mover (clip : Word) : Hub.Mover (cmdReleaseClip c clip) :=
  serve_mover_of fun g => g.releaseClip_moves c.port clip

theorem cmdAddLabel_mover (kind : Byte) (value : Option Word) (text : TextArg) (clip : Option Word) :
    Hub.Mover (cmdAddLabel c kind value text clip) :=
  serve_mover_of fun g => g.addLabel_moves c.port kind value text clip

theorem cmdSetSelection_mover (kind source setting : Byte) : Hub.Mover (cmdSetSelection c kind source setting) :=
  serve_mover_of fun g => g.setSelection_moves kind source setting

theorem cmdSetTrigger_mover (trigger kind source : Byte) (pattern mask : Word) (action : ActionArg) (rearm : Byte) :
    Hub.Mover (cmdSetTrigger c trigger kind source pattern mask action rearm) :=
  serve_mover_of fun g => g.setTrigger_moves c.port trigger kind source pattern mask action rearm

theorem cmdArmTrigger_mover (trigger : Byte) : Hub.Mover (cmdArmTrigger c trigger) :=
  serve_mover_of fun g => g.armTrigger_moves trigger

theorem cmdDisarmTrigger_mover (trigger : Byte) : Hub.Mover (cmdDisarmTrigger c trigger) :=
  serve_mover_of fun g => g.disarmTrigger_moves trigger

theorem cmdLogReset_mover : Hub.Mover (cmdLogReset c) := serve_mover_of fun g => g.logReset_moves

theorem cmdReadClip_mover (clip : Word) : Hub.Mover (cmdReadClip c clip) :=
  serve_mover_read fun g => g.readClip_hub clip

theorem cmdReadLabels_mover (first : Word) (count : Byte) : Hub.Mover (cmdReadLabels c first count) :=
  serve_mover_read fun g => g.readLabels_hub first count

theorem cmdReadLog_mover : Hub.Mover (cmdReadLog c) := serve_mover_read fun _ => rfl

theorem cmdSetTally_mover (output kind number : Byte) : Hub.Mover (cmdSetTally c output kind number) :=
  serve_mover_of fun g => g.setTally_moves output kind number

theorem cmdSetOverride_mover (output value : Byte) : Hub.Mover (cmdSetOverride c output value) :=
  serve_mover fun g hp => g.setOverride_moves (hp.resolve_right (by decide)) output value

theorem cmdReadTally_mover : Hub.Mover (cmdReadTally c) := serve_mover_read fun _ => rfl

theorem cmdTakeNotices_mover (selector : Byte) : Hub.Mover (cmdTakeNotices c selector) :=
  serve_mover_of fun g => g.takeNotices_moves c.port selector

theorem cmdAckAttention_mover : Hub.Mover (cmdAckAttention c) :=
  serve_mover_of fun g => (g.modNotice_evolves c.port NoticePort.ack_tame).moves

theorem cmdSetNoticeMask_mover (mask : Word) : Hub.Mover (cmdSetNoticeMask c mask) :=
  serve_mover_of fun g => (g.modNotice_evolves c.port (f := fun n => { n with mask := maskWritten mask }) fun _ =>
    ⟨id, id, fun _ => maskWritten_supply mask⟩).moves

theorem cmdReadSummary_mover : Hub.Mover (cmdReadSummary c) :=
  serve_mover_of fun g => (g.modNotice_evolves c.port (f := fun n => { n with summary := 0 }) fun _ =>
    ⟨id, id, id⟩).moves

theorem cmdSetAttention_mover (mode : Byte) : Hub.Mover (cmdSetAttention c mode) :=
  serve_mover_of fun g => g.setAttention_moves c.port mode

theorem cmdReadNotices_mover : Hub.Mover (cmdReadNotices c) := serve_mover_read fun _ => rfl

theorem cmdPresence_mover (phase : Byte) : Hub.Mover (cmdPresence c phase) :=
  serve_mover_of fun g => g.presence_moves c.port phase

theorem cmdSetRights_mover (port : Byte) (classes streams : BitVec 16) :
    Hub.Mover (cmdSetRights c port classes streams) :=
  serve_mover_of fun g => g.setRights_moves c.port port classes streams

theorem cmdReadRights_mover : Hub.Mover (cmdReadRights c) := serve_mover_read fun _ => rfl

theorem cmdHubReset_mover : Hub.Mover (cmdHubReset c) := serve_mover_of fun g => (Hub.Move.reset g).moves

theorem cmdReadPart_mover : Hub.Mover (cmdReadPart c) := serve_mover_read fun _ => rfl

theorem cmdUnread_mover (code : Byte) : Hub.Mover (cmdUnread c code) :=
  serve_mover_read fun g => by split <;> rfl

/-! ### A command record -/

/-- Every command that a reading of a record gives is a mover. -/
def Yields (o : Option (Hub → Hub)) : Prop := ∀ f ∈ o, Hub.Mover f

theorem Yields.none : Yields none := nofun

theorem Yields.whole {f : Hub → Hub} (hf : Hub.Mover f) (rest : Bytes) : Yields (whole rest f) := by
  unfold Machine.whole
  split
  · intro g hg
    exact Option.some.inj hg ▸ hf
  · exact .none

theorem Yields.bind {α : Type} {k : α × Bytes → Option (Hub → Hub)} (hk : ∀ a x, Yields (k (a, x)))
    (o : Option (α × Bytes)) : Yields (o >>= k) := by
  cases o with
  | none => exact .none
  | some y => exact hk y.1 y.2

theorem parseNone_yields (code : Byte) (x : Bytes) : Yields (parseNone c code x) := by
  unfold parseNone
  split
  · exact .bind (fun _ _ => .whole (cmdPresence_mover c _) _) _
  · exact .bind (fun _ _ => .whole (cmdTakeNotices_mover c _) _) _
  · exact .whole (cmdAckAttention_mover c) _
  · exact .none

theorem parseTime_yields (code : Byte) (x : Bytes) : Yields (parseTime c code x) := by
  unfold parseTime
  split
  · exact .bind (fun _ _ => .whole (cmdSetReference_mover c _) _) _
  · exact .bind (fun _ _ => .bind (fun _ _ => .whole (cmdSetTimecodeMode_mover c _ _) _) _) _
  · exact .bind (fun _ _ => .whole (cmdJamTimecode_mover c _) _) _
  · exact .bind (fun _ _ => .whole (cmdSetRate_mover c _) _) _
  · exact .whole (cmdReadTimebase_mover c) _
  · exact .none

theorem parseStore_yields (code : Byte) (x : Bytes) : Yields (parseStore c code x) := by
  unfold parseStore
  split
  · exact .bind (fun _ _ => .whole (cmdOpenStream_mover c _) _) _
  · exact .bind (fun _ _ => .bind (fun _ _ => .whole (cmdHoldStream_mover c _ _) _) _) _
  · exact .bind (fun _ _ => .whole (cmdReleaseStream_mover c _) _) _
  · exact .bind (fun _ _ => .whole (cmdCloseStream_mover c _) _) _
  · exact .bind (fun _ _ => .bind (fun _ _ => .whole (cmdSetStream_mover c _ _) _) _) _
  · iterate 5 refine .bind (fun _ _ => ?_) _
    exact .whole (cmdSetRing_mover c _ _ _ _ _) _
  · iterate 4 refine .bind (fun _ _ => ?_) _
    exact .whole (cmdFetch_mover c _ _ _ _) _
  · exact .bind (fun _ _ => .bind (fun _ _ => .bind (fun _ _ => .whole (cmdInsert_mover c _ _ _) _) _) _) _
  · exact .bind (fun _ _ => .whole (cmdReadStream_mover c _) _) _
  · exact .bind (fun _ _ => .whole (cmdReadRing_mover c _) _) _
  · exact .bind (fun _ _ => .bind (fun _ _ => .whole (cmdReadUnit_mover c _ _) _) _) _
  · exact .none

theorem parseCode_yields (code : Byte) (x : Bytes) : Yields (parseCode c code x) := by
  unfold parseCode
  split
  · exact .bind (fun _ _ => .bind (fun _ _ => .whole (cmdSetInput_mover c _ _) _) _) _
  · iterate 9 refine .bind (fun _ _ => ?_) _
    exact .whole (cmdSetPicture_mover c _ _) _
  · exact .whole (cmdCoderReset_mover c) _
  · exact .bind (fun _ _ => .whole (cmdReadInput_mover c _) _) _
  · exact .bind (fun _ _ => .whole (cmdReadPicture_mover c _) _) _
  · exact .none

theorem parseMix_yields (code : Byte) (x : Bytes) : Yields (parseMix c code x) := by
  unfold parseMix
  split
  · exact .bind (fun _ _ => .bind (fun _ _ => .bind (fun _ _ => .whole (cmdSetChannel_mover c _ _ _) _) _) _) _
  · iterate 4 refine .bind (fun _ _ => ?_) _
    exact .whole (cmdSetGain_mover c _ _ _ _) _
  · exact .bind (fun _ _ => .bind (fun _ _ => .bind (fun _ _ => .whole (cmdSetBusGain_mover c _ _ _) _) _) _) _
  · exact .bind (fun _ _ => .bind (fun _ _ => .bind (fun _ _ => .whole (cmdSetMeter_mover c _ _ _) _) _) _) _
  · exact .whole (cmdMixerReset_mover c) _
  · exact .bind (fun _ _ => .whole (cmdReadChannel_mover c _) _) _
  · exact .bind (fun _ _ => .whole (cmdReadBus_mover c _) _) _
  · exact .none

theorem parseLink_yields (code : Byte) (x : Bytes) : Yields (parseLink c code x) := by
  unfold parseLink
  split
  · iterate 4 refine .bind (fun _ _ => ?_) _
    exact .whole (cmdSetPath_mover c _ _ _ _) _
  · exact .bind (fun _ _ => .bind (fun _ _ => .whole (cmdClearLoss_mover c _ _) _) _) _
  · exact .bind (fun _ _ => .whole (cmdSetSpread_mover c _) _) _
  · exact .bind (fun _ _ => .bind (fun _ _ => .whole (cmdAddDirected_mover c _ _) _) _) _
  · exact .bind (fun _ _ => .whole (cmdRemoveDirected_mover c _) _) _
  · exact .bind (fun _ _ => .bind (fun _ _ => .whole (cmdSetBond_mover c _ _) _) _) _
  · exact .bind (fun _ _ => .whole (cmdPathReset_mover c _) _) _
  · exact .bind (fun _ _ => .whole (cmdPathRelease_mover c _) _) _
  · exact .bind (fun _ _ => .whole (cmdReadPath_mover c _) _) _
  · exact .whole (cmdReadSpread_mover c) _
  · exact .bind (fun _ _ => .whole (cmdReadSend_mover c _) _) _
  · exact .none

theorem parseGauge_yields (code : Byte) (x : Bytes) : Yields (parseGauge c code x) := by
  unfold parseGauge
  split
  · exact .bind (fun _ _ => .bind (fun _ _ => .whole (cmdSetGauge_mover c _ _) _) _) _
  · exact .bind (fun _ _ => .bind (fun _ _ => .bind (fun _ _ => .whole (cmdStartGauge_mover c _ _ _) _) _) _) _
  · exact .bind (fun _ _ => .whole (cmdReadGauge_mover c _) _) _
  · iterate 7 refine .bind (fun _ _ => ?_) _
    exact .whole (cmdSetBudget_mover c _ _) _
  · exact .whole (cmdReadBudget_mover c) _
  · exact .none

theorem parseLog_yields (code : Byte) (x : Bytes) : Yields (parseLog c code x) := by
  unfold parseLog
  split
  · exact .bind (fun _ _ => .bind (fun _ _ => .whole (cmdOpenClip_mover c _ _) _) _) _
  · exact .bind (fun _ _ => .whole (cmdCloseClip_mover c _) _) _
  · exact .bind (fun _ _ => .whole (cmdReleaseClip_mover c _) _) _
  · iterate 4 refine .bind (fun _ _ => ?_) _
    exact .whole (cmdAddLabel_mover c _ _ _ _) _
  · exact .bind (fun _ _ => .bind (fun _ _ => .bind (fun _ _ => .whole (cmdSetSelection_mover c _ _ _) _) _) _) _
  · iterate 7 refine .bind (fun _ _ => ?_) _
    exact .whole (cmdSetTrigger_mover c _ _ _ _ _ _ _) _
  · exact .bind (fun _ _ => .whole (cmdArmTrigger_mover c _) _) _
  · exact .bind (fun _ _ => .whole (cmdDisarmTrigger_mover c _) _) _
  · exact .whole (cmdLogReset_mover c) _
  · exact .bind (fun _ _ => .whole (cmdReadClip_mover c _) _) _
  · exact .bind (fun _ _ => .bind (fun _ _ => .whole (cmdReadLabels_mover c _ _) _) _) _
  · exact .whole (cmdReadLog_mover c) _
  · exact .none

theorem parseTally_yields (code : Byte) (x : Bytes) : Yields (parseTally c code x) := by
  unfold parseTally
  split
  · exact .bind (fun _ _ => .bind (fun _ _ => .bind (fun _ _ => .whole (cmdSetTally_mover c _ _ _) _) _) _) _
  · exact .bind (fun _ _ => .bind (fun _ _ => .whole (cmdSetOverride_mover c _ _) _) _) _
  · exact .whole (cmdReadTally_mover c) _
  · exact .none

theorem parseRights_yields (code : Byte) (x : Bytes) : Yields (parseRights c code x) := by
  unfold parseRights
  split
  · exact .bind (fun _ _ => .bind (fun _ _ => .bind (fun _ _ => .whole (cmdSetRights_mover c _ _ _) _) _) _) _
  · exact .whole (cmdReadRights_mover c) _
  · exact .none

theorem parseNotice_yields (code : Byte) (x : Bytes) : Yields (parseNotice c code x) := by
  unfold parseNotice
  split
  · exact .bind (fun _ _ => .whole (cmdSetNoticeMask_mover c _) _) _
  · exact .whole (cmdReadSummary_mover c) _
  · exact .bind (fun _ _ => .whole (cmdSetAttention_mover c _) _) _
  · exact .whole (cmdReadNotices_mover c) _
  · exact .none

theorem parsePart_yields (code : Byte) (x : Bytes) : Yields (parsePart c code x) := by
  unfold parsePart
  split
  · exact .whole (cmdHubReset_mover c) _
  · exact .whole (cmdReadPart_mover c) _
  · exact .none

theorem parseCommand_yields (code : Byte) (x : Bytes) : Yields (parseCommand c code x) := by
  unfold parseCommand
  split
  · exact parseNone_yields c code x
  · exact parseTime_yields c code x
  · exact parseStore_yields c code x
  · exact parseCode_yields c code x
  · exact parseMix_yields c code x
  · exact parseLink_yields c code x
  · exact parseGauge_yields c code x
  · exact parseLog_yields c code x
  · exact parseTally_yields c code x
  · exact parseRights_yields c code x
  · exact parseNotice_yields c code x
  · exact parsePart_yields c code x
  · exact .none

theorem runRecord_mover (code : Byte) (args : Bytes) : Hub.Mover (runRecord c code args) := by
  unfold runRecord
  cases hp : parseCommand c code args with
  | none => exact cmdUnread_mover c code
  | some f => exact parseCommand_yields c code args f hp

end

/-! ### The command link -/

section
variable (h : Hub)

theorem Hub.pump_moves (p : Fin 4) (e : Env) : h.Moves (h.pump p e) := by
  unfold Hub.pump
  dsimp only
  split
  · exact .refl h
  · split
    · exact (Hub.modPort_tame p (f := fun y => y.answerFull _) ⟨id, id, .inl rfl, id⟩).evolves.moves
    · split
      · exact .refl h
      · rename_i r rest hq
        have ht : h.Tame True (h.modPort p fun y => { y with queue := rest }) := by
          refine Hub.modPort_tame p ⟨fun hl => ?_, id, .inl rfl, id⟩
          rw [hq, List.length_cons] at hl
          exact Nat.le_of_succ_le hl
        exact ht.evolves.moves.trans (runRecord_mover _ _ _ _)

theorem PortRecord.judge_tame {strap : BitVec 16} {p : Fin 4} (x : PortRecord) (r : Bytes) :
    PortRecord.Tame strap p x (x.judge r) := by
  unfold PortRecord.judge
  dsimp only
  split
  · rename_i hq
    exact ⟨fun _ => by simpa using hq, id, .inl rfl, id⟩
  · split
    · rename_i hq
      exact ⟨id, fun _ => by simpa using hq, .inl rfl, id⟩
    · exact ⟨id, id, .inl rfl, id⟩

theorem Hub.recordArrival_mover (e : Env) (p : Fin 4) (framed : Bool) (r : Bytes) :
    Hub.Mover (Hub.recordArrival e p framed r) := by
  intro h
  unfold Hub.recordArrival
  refine .trans (h.arrive_evolves e).moves ?_
  dsimp only
  split
  · exact (Hub.modPort_tame p (PortRecord.judge_tame _ r)).evolves.moves.trans (Hub.pump_moves _ p e)
  · exact (Hub.modPort_tame p (f := fun x => { x with counts := { x.counts with bad := x.counts.bad + 1 } })
      ⟨id, id, .inl rfl, id⟩).evolves.moves

theorem PortRecord.linkFree_tame {strap : BitVec 16} {p : Fin 4} (x : PortRecord) (full : Bool) :
    PortRecord.Tame strap p x (x.linkFree full) := by
  refine ⟨id, fun hl => ?_, .inl rfl, id⟩
  unfold PortRecord.linkFree
  dsimp only
  split
  · rw [List.length_drop]
    omega
  · exact hl

theorem Hub.responseEnd_mover (e : Env) (p : Fin 4) : Hub.Mover (Hub.responseEnd e p) := by
  intro h
  unfold Hub.responseEnd
  refine .trans (h.arrive_evolves e).moves ?_
  dsimp only
  split
  · exact .refl _
  · exact (Hub.modPort_tame p (PortRecord.linkFree_tame _ _)).evolves.moves.trans (Hub.pump_moves _ p e)

end

/-! ### A step -/

theorem Hub.step1End_evolves {strict : Prop} (h : Hub) (p : Fin 8) : h.Evolves strict (Hub.step1End p h) :=
  .ite (h.endStep1_evolves p) (.refl h)

theorem Hub.timeGaugeEnd_evolves {strict : Prop} (h : Hub) (p : Fin 8) : h.Evolves strict (Hub.timeGaugeEnd p h) :=
  .ite (h.endManual_evolves p _) (.refl h)

theorem State.run_moves {s t : State} {f : Hub → Hub} (hf : Hub.Mover f) (h : s.run f = .next t) :
    s.hub.Moves t.hub := by
  unfold State.run at h
  obtain rfl := Host.Outcome.next.inj h
  split
  · exact .refl _
  · exact hf _

/-- An event's moment comes before its work. -/
theorem Hub.Mover.arrive {f : Hub → Hub} (hf : Hub.Mover f) (e : Env) : Hub.Mover fun h => f (h.arrive e) := fun h =>
  (h.arrive_evolves e).moves.trans (hf _)

/-- A part of a tick at its moment. -/
theorem Hub.Mover.atTick {f : Hub → Hub} (hf : Hub.Mover f) (e : Env) : Hub.Mover fun h => (h.arrive e).atTick f :=
  Hub.Mover.arrive (fun h => h.atTick_moves hf) e

/-- An event whose work is a chain of changes. -/
theorem Hub.Mover.event {f : Hub → Hub} (hf : ∀ h : Hub, h.Evolves True (f h)) (e : Env) :
    Hub.Mover fun h => f (h.arrive e) := Hub.Mover.arrive (fun h => (hf h).moves) e

/-- A part of a tick whose work is a chain of changes. -/
theorem Hub.Mover.tickPart {f : Hub → Hub} (hf : ∀ h : Hub, h.Evolves True (f h)) (e : Env) :
    Hub.Mover fun h => (h.arrive e).atTick f := Hub.Mover.atTick (fun h => (hf h).moves) e

/-- Every command and every event moves the hub by a chain of moves. -/
theorem exec_moves {i : Instr} {s t : State} (h : exec i s = .next t) : s.hub.Moves t.hub := by
  cases i with
  | partReset e =>
    rw [← Host.Outcome.next.inj h]
    exact .refl _
  | resetRelease e strap supw =>
    rw [← Host.Outcome.next.inj h]
    exact (Hub.Move.released strap supw e s.hub).moves
  | dividerExpiry e => exact State.run_moves (fun g => g.dividerExpiry_moves e) h
  | referencePulse e => exact State.run_moves (fun g => g.referencePulse_moves e) h
  | pulseTimeout e => exact State.run_moves (fun g => g.pulseTimeout_moves e) h
  | readerArrival e value =>
    exact State.run_moves (fun g =>
      ((g.arrive_evolves e).trans (Hub.withTimebase_evolves _ (g.tb.readerArrival value))).moves) h
  | readerStateTimeout e =>
    exact State.run_moves (fun g =>
      ((g.arrive_evolves e).trans (Hub.withTimebase_evolves _ g.tb.readerTimeout)).moves) h
  | receiverLossOfLock e input => exact State.run_moves (.event (fun g => g.lossOfLock_evolves input) e) h
  | receiverFormatReport e input measured =>
    exact State.run_moves (.event (fun g => g.formatReport_evolves input measured) e) h
  | lineCheckFailure e input => exact State.run_moves (.event (fun g => g.lineCheck_evolves input) e) h
  | captureEnd e input => exact State.run_moves (.event (fun g => g.captureEnd_evolves input) e) h
  | pictureStart e stream => exact State.run_moves (.event (fun g => g.pictureStart_evolves stream) e) h
  | sliceStart e stream => exact State.run_moves (.event (fun g => g.sliceStart_evolves stream) e) h
  | sliceEnd e stream coded =>
    exact State.run_moves (Hub.Mover.arrive (fun g => (Hub.Move.sliceEnd stream coded g).moves) e) h
  | lateDrop e stream => exact State.run_moves (.tickPart (fun g => g.lateDrop_evolves stream) e) h
  | limitClose e clip => exact State.run_moves (.tickPart (fun g => g.closeClips_evolves _ _) e) h
  | mixerSample e x => exact State.run_moves (.event (fun g => g.mixerSample_evolves x) e) h
  | muteEnd e channel => exact State.run_moves (.event (fun g => g.muteEnd_evolves channel) e) h
  | pauseTimeout e path => exact State.run_moves (.tickPart (fun g => g.pauseTimeout_evolves path) e) h
  | backChannelBreak e path => exact State.run_moves (.tickPart (fun g => g.backChannelBreak_evolves path) e) h
  | framingError e path => exact State.run_moves (.event (fun g => g.framingError_evolves path) e) h
  | idleFill e path =>
    exact State.run_moves (.event (fun g => g.modPath_evolves path
      (f := fun x => { x with heard := true }) id id fun _ => id) e) h
  | receiptReport e path unused count check =>
    exact State.run_moves (.event (fun g => g.receiptReport_evolves path unused count check) e) h
  | unitTakeUp e ring =>
    exact State.run_moves (f := _) (fun g => ((g.arrive_evolves e).trans (Hub.takeUp_evolves ring _ _)).moves) h
  | fragmentPlacement e path => exact State.run_moves (.event (fun g => g.fragmentPlacement_evolves path) e) h
  | transmissionEnd e path => exact State.run_moves (.event (fun g => g.endTransmission_evolves path) e) h
  | releaseDue e path => exact State.run_moves (.tickPart (fun g => g.releaseDue_evolves path) e) h
  | step1End e path => exact State.run_moves (.tickPart (fun g => g.step1End_evolves path) e) h
  | step2Expiry e path => exact State.run_moves (.event (fun g => g.step2Expiry_evolves path) e) h
  | timeGaugeEnd e path => exact State.run_moves (.tickPart (fun g => g.timeGaugeEnd_evolves path) e) h
  | volumeGaugeExpiry e path => exact State.run_moves (.event (fun g => g.volumeExpiry_evolves path) e) h
  | supplyWarningAssert e => exact State.run_moves (.event (fun g => g.supplyAssert_evolves) e) h
  | supplyWarningDeassert e => exact State.run_moves (.event (fun g => g.supplyDeassert_evolves) e) h
  | commandRecordArrival e port framed record =>
    exact State.run_moves (Hub.recordArrival_mover e port framed record) h
  | responseEnd e port => exact State.run_moves (Hub.responseEnd_mover e port) h
  | portAbsent e port => exact State.run_moves (Hub.Mover.atTick (fun g => g.portAbsent_moves port) e) h
  | attentionPulse e port =>
    exact State.run_moves (.event (fun g => g.modNotice_evolves port NoticePort.beginPulse_tame) e) h
  | attentionPulseEnd e port =>
    exact State.run_moves (.event (fun g => g.modNotice_evolves port NoticePort.endPulse_tame) e) h
  | presence c phase => exact State.run_moves (cmdPresence_mover c phase) h
  | takeNotices c selector => exact State.run_moves (cmdTakeNotices_mover c selector) h
  | ackAttention c => exact State.run_moves (cmdAckAttention_mover c) h
  | setReference c source => exact State.run_moves (cmdSetReference_mover c source) h
  | setTimecodeMode c mode counting => exact State.run_moves (cmdSetTimecodeMode_mover c mode counting) h
  | jamTimecode c timecode => exact State.run_moves (cmdJamTimecode_mover c timecode) h
  | setRate c rate => exact State.run_moves (cmdSetRate_mover c rate) h
  | readTimebase c => exact State.run_moves (cmdReadTimebase_mover c) h
  | openStream c stream => exact State.run_moves (cmdOpenStream_mover c stream) h
  | holdStream c stream policy => exact State.run_moves (cmdHoldStream_mover c stream policy) h
  | releaseStream c stream => exact State.run_moves (cmdReleaseStream_mover c stream) h
  | closeStream c stream => exact State.run_moves (cmdCloseStream_mover c stream) h
  | setStream c stream binding => exact State.run_moves (cmdSetStream_mover c stream binding) h
  | setRing c ring base size enabled policy =>
    exact State.run_moves (cmdSetRing_mover c ring base size enabled policy) h
  | fetch c stream unit offset length => exact State.run_moves (cmdFetch_mover c stream unit offset length) h
  | insert c stream data final => exact State.run_moves (cmdInsert_mover c stream data final) h
  | readStream c stream => exact State.run_moves (cmdReadStream_mover c stream) h
  | readRing c ring => exact State.run_moves (cmdReadRing_mover c ring) h
  | readUnit c stream unit => exact State.run_moves (cmdReadUnit_mover c stream unit) h
  | setInput c input format => exact State.run_moves (cmdSetInput_mover c input format) h
  | setPicture c stream source format mode rFix rMin rMax weight bf =>
    exact State.run_moves (cmdSetPicture_mover c stream _) h
  | coderReset c => exact State.run_moves (cmdCoderReset_mover c) h
  | readInput c input => exact State.run_moves (cmdReadInput_mover c input) h
  | readPicture c stream => exact State.run_moves (cmdReadPicture_mover c stream) h
  | setChannel c channel delay polarity => exact State.run_moves (cmdSetChannel_mover c channel delay polarity) h
  | setGain c channel bus target ramp => exact State.run_moves (cmdSetGain_mover c channel bus target ramp) h
  | setBusGain c bus target ramp => exact State.run_moves (cmdSetBusGain_mover c bus target ramp) h
  | setMeter c bus threshold frames => exact State.run_moves (cmdSetMeter_mover c bus threshold frames) h
  | mixerReset c => exact State.run_moves (cmdMixerReset_mover c) h
  | readChannel c channel => exact State.run_moves (cmdReadChannel_mover c channel) h
  | readBus c bus => exact State.run_moves (cmdReadBus_mover c bus) h
  | setPath c path enabled pauseLimit lineRate =>
    exact State.run_moves (cmdSetPath_mover c path enabled pauseLimit lineRate) h
  | clearLoss c path selector => exact State.run_moves (cmdClearLoss_mover c path selector) h
  | setSpread c mask => exact State.run_moves (cmdSetSpread_mover c mask) h
  | addDirected c stream mask => exact State.run_moves (cmdAddDirected_mover c stream mask) h
  | removeDirected c stream => exact State.run_moves (cmdRemoveDirected_mover c stream) h
  | setBond c pair bonded => exact State.run_moves (cmdSetBond_mover c pair bonded) h
  | pathReset c path => exact State.run_moves (cmdPathReset_mover c path) h
  | pathRelease c path => exact State.run_moves (cmdPathRelease_mover c path) h
  | readPath c path => exact State.run_moves (cmdReadPath_mover c path) h
  | readSpread c => exact State.run_moves (cmdReadSpread_mover c) h
  | readSend c ring => exact State.run_moves (cmdReadSend_mover c ring) h
  | setGauge c auto window => exact State.run_moves (cmdSetGauge_mover c auto window) h
  | startGauge c path mode gate => exact State.run_moves (cmdStartGauge_mover c path mode gate) h
  | readGauge c path => exact State.run_moves (cmdReadGauge_mover c path) h
  | setBudget c source fixed headroom res12 res13 res14 res15 =>
    exact State.run_moves (cmdSetBudget_mover c source _) h
  | readBudget c => exact State.run_moves (cmdReadBudget_mover c) h
  | openClip c mask name => exact State.run_moves (cmdOpenClip_mover c mask name) h
  | closeClip c clip => exact State.run_moves (cmdCloseClip_mover c clip) h
  | releaseClip c clip => exact State.run_moves (cmdReleaseClip_mover c clip) h
  | addLabel c kind value text clip => exact State.run_moves (cmdAddLabel_mover c kind value text clip) h
  | setSelection c kind source setting => exact State.run_moves (cmdSetSelection_mover c kind source setting) h
  | setTrigger c trigger kind source pattern mask action rearm =>
    exact State.run_moves (cmdSetTrigger_mover c trigger kind source pattern mask action rearm) h
  | armTrigger c trigger => exact State.run_moves (cmdArmTrigger_mover c trigger) h
  | disarmTrigger c trigger => exact State.run_moves (cmdDisarmTrigger_mover c trigger) h
  | logReset c => exact State.run_moves (cmdLogReset_mover c) h
  | readClip c clip => exact State.run_moves (cmdReadClip_mover c clip) h
  | readLabels c first count => exact State.run_moves (cmdReadLabels_mover c first count) h
  | readLog c => exact State.run_moves (cmdReadLog_mover c) h
  | setTally c output kind number => exact State.run_moves (cmdSetTally_mover c output kind number) h
  | setOverride c output value => exact State.run_moves (cmdSetOverride_mover c output value) h
  | readTally c => exact State.run_moves (cmdReadTally_mover c) h
  | setRights c port classes streams => exact State.run_moves (cmdSetRights_mover c port classes streams) h
  | readRights c => exact State.run_moves (cmdReadRights_mover c) h
  | setNoticeMask c mask => exact State.run_moves (cmdSetNoticeMask_mover c mask) h
  | readSummary c => exact State.run_moves (cmdReadSummary_mover c) h
  | setAttention c mode => exact State.run_moves (cmdSetAttention_mover c mode) h
  | readNotices c => exact State.run_moves (cmdReadNotices_mover c) h
  | hubReset c => exact State.run_moves (cmdHubReset_mover c) h
  | readPart c => exact State.run_moves (cmdReadPart_mover c) h
  | pulseLineDeasserted e port =>
    exact State.run_moves (.event (fun g => g.modNotice_evolves port NoticePort.dropPulse_tame) e) h

/-- A step that gives a next state moves the hub by a chain of moves. -/
theorem step_moves {s t : State} (h : step s = .next t) : s.hub.Moves t.hub := by
  unfold step at h
  split at h
  · rw [← Host.Outcome.next.inj h]
    exact .refl _
  · exact (exec_moves h :)

end Sys2Proof.Machine
end

section
/-! Proofs: what a move leaves of the parts beside the rings, and the properties of those parts that every step keeps
(R53, R89, R103, R134, R174, R186). -/

namespace Sys2Proof.Machine

-- In order, so that the package in one text stays within the memory of its check.
set_option Elab.async false

/-- What a change leaves of the parts beside the rings, the memory and the release marks. -/
structure Hub.Mild (strict : Prop) (g h : Hub) : Prop where
  strap : h.strap = g.strap
  setter : ∀ k q, (h.stream k).setter = some q → (g.stream k).setter = some q ∨ (g.ports[q]).present = true
  builder : ∀ k q, (h.stream k).buffer ≠ [] → (h.stream k).builder = some q →
    ((g.stream k).buffer ≠ [] ∧ (g.stream k).builder = some q) ∨ (g.ports[q]).present = true
  fits : ∀ k, (g.stream k).buffer.length ≤ bufferCap k → (h.stream k).buffer.length ≤ bufferCap k
  engines : g.EnginesFit → h.EnginesFit
  buffers : strict → ∀ k : Fin 4, (g.coders[k]).BufferOk → (h.coders[k]).BufferOk
  paths : ∀ p : Fin 8, Path.Tame g g.paths.path[p] h.paths.path[p]
  log : ClipLog.Tame g g.log h.log
  tally : ∀ (o : Fin 16) q, (h.tally.entries[o]).holder = some q →
    (g.tally.entries[o]).holder = some q ∨ (g.ports[q]).present = true
  ports : ∀ p : Fin 4, PortRecord.Tame g.strap p g.ports[p] h.ports[p]
  notices : ∀ p : Fin 4, NoticePort.Tame g.notices[p] h.notices[p]

section
variable {strict : Prop} {g h : Hub}

theorem Hub.Tame.mild (ht : g.Tame strict h) : g.Mild strict h where
  strap := ht.strap
  setter k := (ht.streams k).setter
  builder k := (ht.streams k).builder
  fits k := (ht.streams k).fits
  engines := ht.engines
  buffers := ht.buffers
  paths := ht.paths
  log := ht.log
  tally := ht.tally
  ports := ht.ports
  notices := ht.notices

/-- The parts that the moves of the Store change. -/
def storeParts : List Part := [.streams, .rings, .sending, .memory]

/-- A change of the Store that leaves states, setters and buffers. -/
theorem Hub.OnlyChanges.mild (hg : Hub.OnlyChanges storeParts g h)
    (hs : ∀ k, ((h.stream k).state, (h.stream k).setter, (h.stream k).buffer, (h.stream k).builder) =
      ((g.stream k).state, (g.stream k).setter, (g.stream k).buffer, (g.stream k).builder)) : g.Mild strict h := by
  have hcoders : g.coders = h.coders := hg .coders (by decide)
  have hpaths : g.paths.path = h.paths.path := hg .pathRecords (by decide)
  have hlog : g.log = h.log := hg .log (by decide)
  have htally : g.tally = h.tally := hg .tally (by decide)
  have hports : g.ports = h.ports := hg .ports (by decide)
  have hnotices : g.notices = h.notices := hg .notices (by decide)
  have hstate k : (h.stream k).state = (g.stream k).state := congrArg (·.1) (hs k)
  have hsetter k : (h.stream k).setter = (g.stream k).setter := congrArg (·.2.1) (hs k)
  have hbuffer k : (h.stream k).buffer = (g.stream k).buffer := congrArg (·.2.2.1) (hs k)
  have hbuilder k : (h.stream k).builder = (g.stream k).builder := congrArg (·.2.2.2) (hs k)
  exact
    { strap := (hg .strap (by decide)).symm
      setter := fun k q => by rw [hsetter]; exact .inl
      builder := fun k q hb hq => .inl (by rw [← hbuffer, ← hbuilder]; exact ⟨hb, hq⟩)
      fits := fun k => by rw [hbuffer]; exact id
      engines := fun he => he.of_le fun k => by
        rw [hstate, ← hcoders]
        exact (em _).imp_right fun hc => ⟨hc, rfl⟩
      buffers := fun _ k => by rw [← hcoders]; exact id
      paths := fun p => by rw [← hpaths]; exact .refl g _
      log := by rw [← hlog]; exact .refl g _
      tally := fun o q => by rw [← htally]; exact .inl
      ports := fun p => by rw [← hports]; exact .refl _ p _
      notices := fun p => by rw [← hnotices]; exact .refl _ }

theorem Hub.carryMarks_holders (h : Hub) (old : Word) (k : Fin 16) :
    (((h.carryMarks old).stream k).state, ((h.carryMarks old).stream k).setter, ((h.carryMarks old).stream k).buffer,
      ((h.carryMarks old).stream k).builder) =
      ((h.stream k).state, (h.stream k).setter, (h.stream k).buffer, (h.stream k).builder) := by
  rw [Hub.carryMarks_stream]
  split <;> rfl

theorem Hub.dropTail_only (h : Hub) (r : Fin 17) (e : Entry) :
    Hub.OnlyChanges [.streams, .rings] h (h.dropTail r e) := by
  unfold Hub.dropTail
  exact ((h.modRing_only r _).mono (by simp)).trans (.ite ((Hub.carryMarks_only _ _).mono (by simp)) (.refl _ _))

/-- Every change leaves the parts beside the Store as a tame change does. -/
theorem Hub.Change.mild (hc : g.Change strict h) : g.Mild strict h := by
  cases hc with
  | tame ht => exact ht.mild
  | moveSend r w _ =>
    exact ((Hub.moveSend_only g r w).mono (by simp [storeParts])).mild fun k => by rw [Hub.moveSend_stream]
  | emptyRing r =>
    exact ((Hub.emptyRing_only g r).mono (by simp [storeParts])).mild fun k => by rw [Hub.emptyRing_stream]
  | dropTail r e _ _ =>
    refine ((Hub.dropTail_only g r e).mono (by simp [storeParts])).mild fun k => ?_
    unfold Hub.dropTail
    dsimp only
    split
    · exact Hub.carryMarks_holders _ _ k
    · rfl
  | writeUnit r o unit n _ =>
    refine ((Hub.writeUnit_only g r o unit n).mono (by simp [storeParts])).mild fun k => ?_
    unfold Hub.writeUnit
    dsimp only
    have hk : ∀ x : Hub, (((x.modStream o.stream fun st => { st with committed := st.committed + 1 }).stream k).state,
        ((x.modStream o.stream fun st => { st with committed := st.committed + 1 }).stream k).setter,
        ((x.modStream o.stream fun st => { st with committed := st.committed + 1 }).stream k).buffer,
        ((x.modStream o.stream fun st => { st with committed := st.committed + 1 }).stream k).builder) =
        ((x.stream k).state, (x.stream k).setter, (x.stream k).buffer, (x.stream k).builder) := fun x => by
      by_cases hk : k = o.stream
      · subst hk; simp
      · rw [Hub.modStream_ne x _ hk]
    split
    · exact hk _
    · exact hk _

end

/-! ### Paths (R89, R103) -/

/-- R89, R103 together. -/
def Hub.PathsOk (h : Hub) : Prop := h.PathsEvaluated ∧ h.FifosFit

theorem Hub.Mild.pathsOk {strict : Prop} {g h : Hub} (hm : g.Mild strict h) (hg : g.PathsOk) : h.PathsOk :=
  ⟨fun p => (hm.paths p).table (hg.1 p), fun p => (hm.paths p).fifo (hg.2 p)⟩

theorem Hub.Evolves.pathsOk {strict : Prop} {g h : Hub} (he : g.Evolves strict h) (hg : g.PathsOk) : h.PathsOk :=
  he.keeps (fun _ _ hc => hc.mild.pathsOk) hg

theorem Path.hubReset_ok (x : Path) (lines : BitVec 4) : (x.hubReset lines).Table38 ∧ (x.hubReset lines).FifoOk := by
  refine ⟨Path.table38_of_evaluate ?_, Nat.zero_le _, fun _ => rfl⟩
  unfold Path.hubReset
  exact Path.evaluate_congr rfl rfl rfl rfl rfl

theorem Path.released_ok (lines : BitVec 4) : (Path.released lines).Table38 ∧ (Path.released lines).FifoOk := by
  refine ⟨?_, Nat.zero_le _, fun _ => rfl⟩
  simp [Path.Table38, Path.released]

theorem Hub.reset_path (h : Hub) (p : Fin 8) :
    h.reset.paths.path[p] = (h.paths.path[p]).hubReset (pathLines h.env.lines p) := by
  simp [Hub.reset, Hub.formLamps, Paths.hubReset]

theorem Hub.released_path (strap : BitVec 16) (supw : Bool) (e : Env) (p : Fin 8) :
    (Hub.released strap supw e).paths.path[p] = Path.released (pathLines e.lines p) := by
  simp [Hub.released, Paths.released]

theorem Hub.released_pathsOk (strap : BitVec 16) (supw : Bool) (e : Env) : (Hub.released strap supw e).PathsOk := by
  refine ⟨fun p => ?_, fun p => ?_⟩
  · rw [Hub.released_path]
    exact (Path.released_ok _).1
  · rw [Hub.released_path]
    exact (Path.released_ok _).2

theorem Hub.Move.pathsOk {g h : Hub} (hm : g.Move h) (hg : g.PathsOk) : h.PathsOk := by
  cases hm with
  | change hc => exact hc.mild.pathsOk hg
  | goAbsent p n => exact (Hub.goAbsent_evolves (strict := True) g p n).pathsOk hg
  | sliceEnd k coded => exact (Hub.sliceEnd_evolves g k coded).pathsOk hg
  | resetCoder k => exact (Hub.resetCoder_evolves g k).pathsOk hg
  | reset =>
    refine ⟨fun p => ?_, fun p => ?_⟩
    · rw [Hub.reset_path]
      exact (Path.hubReset_ok _ _).1
    · rw [Hub.reset_path]
      exact (Path.hubReset_ok _ _).2
  | released strap supw e => exact Hub.released_pathsOk strap supw e

/-- Settles O57: every move keeps the paths evaluated and their FIFOs bounded. -/
theorem pathsStayEvaluated : Obligations.PathsStayEvaluated := by
  intro s t hp hf hs
  exact (step_moves hs).keeps (fun _ _ => Hub.Move.pathsOk) ⟨hp, hf⟩

end Sys2Proof.Machine
end

section
/-! Proofs: what the operations on streams and paths leave of their records (R22 to R25, R89), and a port that goes ABSENT
holds nothing (R44, R109, R153, R165). -/

namespace Sys2Proof.Machine

-- In order, so that the package in one text stays within the memory of its check.
set_option Elab.async false

section
variable (h : Hub)

/-! ### Stream records -/

@[simp] theorem Hub.streamChanged_stream (k j : Fin 16) : (h.streamChanged k).stream j = h.stream j :=
  (h.streamChanged_only k).stream_eq (by decide) j

/-- R23, R24: what the end of a hold makes of its stream. -/
theorem Hub.endHold_self (k : Fin 16) :
    (h.endHold k).stream k =
      let st := h.stream k
      let ring := h.ring k.castSucc
      { st with
        setter := none
        fromHeld := false
        releaseMark := if st.global then (h.ring 16).head else st.releaseMark
        skipped := if st.global then st.skipped else st.skipped + (ring.head - ring.send) } := by
  unfold Hub.endHold
  rw [Hub.modStream_self]
  dsimp only
  split <;> simp [*]

theorem Hub.endHold_ne {k j : Fin 16} (hj : j ≠ k) : (h.endHold k).stream j = h.stream j := by
  unfold Hub.endHold
  rw [Hub.modStream_ne _ _ hj]
  split
  · rw [Hub.modStream_ne _ _ hj]
  · rw [Hub.moveSend_stream, Hub.modStream_ne _ _ hj]

theorem Hub.releaseHold_self (k : Fin 16) :
    (h.releaseHold k).stream k = { (h.endHold k).stream k with state := .opened } := by
  unfold Hub.releaseHold
  rw [Hub.streamChanged_stream, Hub.modStream_self]

theorem Hub.releaseHold_ne {k j : Fin 16} (hj : j ≠ k) : (h.releaseHold k).stream j = h.stream j := by
  unfold Hub.releaseHold
  rw [Hub.streamChanged_stream, Hub.modStream_ne _ _ hj, h.endHold_ne hj]

/-- R41: what the discard of a buffer makes of its stream. -/
theorem Hub.discardBuffer_self (k : Fin 16) :
    (h.discardBuffer k).stream k =
      if (h.stream k).buffer = [] then h.stream k
      else { h.stream k with buffer := [], builder := none, discarded := (h.stream k).discarded + 1 } := by
  unfold Hub.discardBuffer Hub.countDiscard
  split <;> simp

/-! ### Path records -/

theorem Hub.afterChange_only (p : Fin 8) (old : Path) (s : PathState) (why : DownReason) :
    Hub.OnlyChanges (unitParts ++ [.mapping, .gauges, .budget]) h (h.afterChange p old s why) := by
  unfold Hub.afterChange
  dsimp only
  refine .trans (.opt (.trans (.trans (.opt (.refl _ h) ((Hub.modBond_only _ _ _).mono ?_))
    ((Hub.notify_only _ _ _).mono ?_)) ((Hub.label_only _ _).mono ?_)) ((Hub.gaugeLeave_only _ p).mono ?_))
    ((Hub.recompute_only _).mono ?_)
  all_goals simp [unitParts]

@[simp] theorem Hub.afterChange_path (p : Fin 8) (old : Path) (s : PathState) (why : DownReason) (q : Fin 8) :
    (h.afterChange p old s why).paths.path[q] = h.paths.path[q] :=
  congrArg (fun v : Vector Path 8 => v[q]) ((h.afterChange_only p old s why) .pathRecords (by decide)).symm

/-- R89: the record that an evaluation leaves. -/
@[simp] theorem Hub.evaluatePath_self (p : Fin 8) (f : Path → Path) :
    (Hub.evaluatePath p (h.modPath p f)).paths.path[p] = (f h.paths.path[p]).settled h.tb.frame.serial := by
  rw [Hub.evaluatePath_modPath]
  split
  · rw [Hub.modPath_self]
  · rw [Hub.afterChange_path, Hub.modPath_self]

theorem Hub.evaluatePath_ne {p q : Fin 8} (hq : q ≠ p) (f : Path → Path) :
    (Hub.evaluatePath p (h.modPath p f)).paths.path[q] = h.paths.path[q] := by
  rw [Hub.evaluatePath_modPath]
  split
  · rw [Hub.modPath_ne _ _ hq]
  · rw [Hub.afterChange_path, Hub.modPath_ne _ _ hq]

end

/-! ### What a port holds (R179) -/

/-- Port q is PRESENT, or holds nothing of stream k. -/
def Hub.StreamFree (q : Fin 4) (k : Fin 16) (h : Hub) : Prop :=
  (h.ports[q]).present = true ∨
    (h.stream k).setter ≠ some q ∧ ((h.stream k).buffer ≠ [] → (h.stream k).builder ≠ some q)

/-- Port q is PRESENT, or does not hold path p in reset. -/
def Hub.PathFree (q : Fin 4) (p : Fin 8) (h : Hub) : Prop :=
  (h.ports[q]).present = true ∨ (h.paths.path[p]).holder ≠ some q

/-- Port q is PRESENT, or owns no OPEN clip. -/
def Hub.ClipsFree (q : Fin 4) (h : Hub) : Prop :=
  (h.ports[q]).present = true ∨ ∀ c ∈ h.log.clips, c.state = .opened → c.owner ≠ .port q

/-- Port q is PRESENT, or holds no override. -/
def Hub.TallyFree (q : Fin 4) (h : Hub) : Prop :=
  (h.ports[q]).present = true ∨ ∀ o : Fin 16, (h.tally.entries[o]).holder ≠ some q

/-- Port q is PRESENT or holds nothing. -/
structure Hub.PortFree (q : Fin 4) (h : Hub) : Prop where
  streams : ∀ k, h.StreamFree q k
  paths : ∀ p, h.PathFree q p
  clips : h.ClipsFree q
  tally : h.TallyFree q

theorem Hub.absentHoldNothing_iff (h : Hub) : h.AbsentHoldNothing ↔ ∀ q, h.PortFree q := by
  constructor
  · intro ha q
    cases hp : (h.ports[q]).present with
    | true => exact ⟨fun _ => .inl hp, fun _ => .inl hp, .inl hp, .inl hp⟩
    | false =>
      obtain ⟨hs, hb, hh, hc, ht⟩ := ha q hp
      exact ⟨fun k => .inr ⟨hs k, hb k⟩, fun p => .inr (hh p), .inr hc, .inr ht⟩
  · intro ha q hp
    have hn {P : Prop} (h : (h.ports[q]).present = true ∨ P) : P := h.resolve_left (Bool.eq_false_iff.mp hp)
    exact ⟨fun k => (hn ((ha q).streams k)).1, fun k => (hn ((ha q).streams k)).2, fun p => hn ((ha q).paths p),
      hn (ha q).clips, hn (ha q).tally⟩

section
variable {strict : Prop} {g h : Hub} {q : Fin 4}

/-- A change brings holdings to a port that is PRESENT alone. -/
theorem Hub.Mild.free {P Q : Prop} (hm : g.Mild strict h) (hP : (g.ports[q]).present = true ∨ P)
    (hPQ : (g.ports[q]).present = false → P → Q) : (h.ports[q]).present = true ∨ Q := by
  cases hp : (g.ports[q]).present with
  | true => exact .inl ((hm.ports q).present hp)
  | false => exact .inr (hPQ hp (hP.resolve_left (Bool.eq_false_iff.mp hp)))

theorem Hub.Mild.streamFree (hm : g.Mild strict h) {k : Fin 16} (hg : g.StreamFree q k) : h.StreamFree q k :=
  hm.free hg fun hp ⟨hs, hb⟩ => ⟨fun hq => (hm.setter k q hq).elim hs (Bool.eq_false_iff.mp hp), fun hne hq =>
    (hm.builder k q hne hq).elim (fun h => hb h.1 h.2) (Bool.eq_false_iff.mp hp)⟩

theorem Hub.Mild.pathFree (hm : g.Mild strict h) {p : Fin 8} (hg : g.PathFree q p) : h.PathFree q p :=
  hm.free hg fun hp hn hq => ((hm.paths p).holder q hq).elim hn (Bool.eq_false_iff.mp hp)

theorem Hub.Mild.clipsFree (hm : g.Mild strict h) (hg : g.ClipsFree q) : h.ClipsFree q :=
  hm.free hg fun hp hn c hc ho hq =>
    (hm.log.owner c hc ho q hq).elim (fun ⟨d, hd, hdo, hdq⟩ => hn d hd hdo hdq) (Bool.eq_false_iff.mp hp)

theorem Hub.Mild.tallyFree (hm : g.Mild strict h) (hg : g.TallyFree q) : h.TallyFree q :=
  hm.free hg fun hp hn o hq => (hm.tally o q hq).elim (hn o) (Bool.eq_false_iff.mp hp)

theorem Hub.Mild.portFree (hm : g.Mild strict h) (hg : g.PortFree q) : h.PortFree q :=
  ⟨fun k => hm.streamFree (hg.streams k), fun p => hm.pathFree (hg.paths p), hm.clipsFree hg.clips,
    hm.tallyFree hg.tally⟩

theorem Hub.Evolves.portFree (he : g.Evolves strict h) (hg : g.PortFree q) : h.PortFree q :=
  he.keeps (fun _ _ hc => hc.mild.portFree) hg

/-- What each step of a walk establishes for itself and every step keeps holds for all after the walk. -/
theorem Hub.forEach_establishes {n : Nat} {f : Fin n → Hub → Hub} {P : Fin n → Hub → Prop} (hf : ∀ i h, P i (f i h))
    (hk : ∀ i j h, P j h → P j (f i h)) (h : Hub) (j : Fin n) : P j (h.forEach n f) := by
  have hall : ∀ (xs : List (Fin n)) (h : Hub), (j ∈ xs ∨ P j h) → P j (xs.foldl (fun h i => f i h) h) := by
    intro xs
    induction xs with
    | nil => exact fun h hj => hj.resolve_left List.not_mem_nil
    | cons i xs ih =>
      refine fun h hj => ih _ ?_
      obtain hj | hj := hj
      · obtain rfl | hj := List.mem_cons.mp hj
        · exact .inr (hf _ h)
        · exact .inl hj
      · exact .inr (hk i j h hj)
  exact hall _ h (.inl (List.mem_finRange j))

end

/-! ### A port that goes ABSENT -/

section
variable (h : Hub) (p : Fin 4)

/-- R44: port p is no longer the setter of stream k. -/
def Hub.dropSetter (h : Hub) (p : Fin 4) (k : Fin 16) : Hub :=
  if (h.stream k).setter = some p then
    match (h.stream k).state with
    | .held => h.releaseHold k
    | .closing => h.endHold k
    | .opened => h.modStream k fun x => { x with setter := none }
    | .closed => h.modStream k fun x => { x with setter := none }
  else h

theorem Hub.absentStream_eq (k : Fin 16) :
    Hub.absentStream p k h =
      if (h.stream k).builder = some p then (h.dropSetter p k).discardBuffer k else h.dropSetter p k := rfl

theorem Hub.dropSetter_self (k : Fin 16) :
    ((h.dropSetter p k).stream k).setter ≠ some p ∧ ((h.dropSetter p k).stream k).buffer = (h.stream k).buffer ∧
      ((h.dropSetter p k).stream k).builder = (h.stream k).builder := by
  unfold Hub.dropSetter
  split
  · split
    · rw [Hub.releaseHold_self, Hub.endHold_self]
      exact ⟨nofun, rfl, rfl⟩
    · rw [Hub.endHold_self]
      exact ⟨nofun, rfl, rfl⟩
    all_goals
      rw [Hub.modStream_self]
      exact ⟨nofun, rfl, rfl⟩
  · rename_i hs
    exact ⟨hs, rfl, rfl⟩

/-- R44: the holds and buffers of port p on stream k end. -/
theorem Hub.absentStream_free (k : Fin 16) : (Hub.absentStream p k h).StreamFree p k := by
  obtain ⟨hs, hbuf, hbuild⟩ := h.dropSetter_self p k
  refine .inr ?_
  rw [Hub.absentStream_eq]
  split
  · rw [Hub.discardBuffer_self]
    split
    · rename_i hb
      exact ⟨hs, fun hne => absurd hb hne⟩
    · exact ⟨hs, fun hne => absurd rfl hne⟩
  · rename_i hb
    exact ⟨hs, fun _ => by rwa [hbuild]⟩

theorem Hub.absentPath_free (q : Fin 8) : (Hub.absentPath p q h).PathFree p q := by
  refine .inr ?_
  unfold Hub.absentPath
  dsimp only
  split
  · split
    · rw [Hub.evaluatePath_self, Path.settled_holder]
      simp [Path.release]
    · simp
  · assumption

theorem Hub.absentClips_free : (Hub.absentClips p h).ClipsFree p := by
  refine .inr fun c hc _ => ?_
  obtain ⟨d, -, rfl⟩ := List.mem_map.mp hc
  split
  · exact nofun
  · assumption

theorem Hub.absentTally_free : (Hub.absentTally p h).TallyFree p := by
  refine .inr fun o => ?_
  unfold Hub.absentTally
  simp only [Fin.getElem_fin, Vector.getElem_ofFn]
  split
  · exact nofun
  · assumption

/-- R179: a port that has gone ABSENT holds nothing. -/
theorem Hub.goAbsent_portFree (period : Nat) : (Hub.goAbsent p period h).PortFree p := by
  unfold Hub.goAbsent
  generalize (h.modPort p fun x => x.goAbsent period h.tb.lastTick) = a
  have hpaths (g : Hub) : g.Evolves True (g.forEach 8 (Hub.absentPath p)) :=
    .forEach (fun q g => g.absentPath_evolves p q) g
  have hclips (g : Hub) : g.Evolves True (Hub.absentClips p g) := g.absentClips_evolves p
  have htally (g : Hub) : g.Evolves True (Hub.absentTally p g) := g.absentTally_evolves p
  have hnotify (g : Hub) : g.Evolves True (g.notify .portAbsent p.val) := g.notify_evolves _ _
  refine ⟨fun k => ?_, fun q => ?_, ?_, ?_⟩
  · refine ((((hpaths _).trans (hclips _)).trans (htally _)).trans (hnotify _)).keeps
      (fun _ _ hc => hc.mild.streamFree) ?_
    exact Hub.forEach_establishes (P := fun k g => g.StreamFree p k) (fun k g => g.absentStream_free p k)
      (fun i j g hg => (g.absentStream_evolves (strict := True) p i).keeps (fun _ _ hc => hc.mild.streamFree) hg) a k
  · refine (((hclips _).trans (htally _)).trans (hnotify _)).keeps (fun _ _ hc => hc.mild.pathFree) ?_
    exact Hub.forEach_establishes (P := fun q g => g.PathFree p q) (fun q g => g.absentPath_free p q)
      (fun i j g hg => (g.absentPath_evolves (strict := True) p i).keeps (fun _ _ hc => hc.mild.pathFree) hg) _ q
  · exact ((htally _).trans (hnotify _)).keeps (fun _ _ hc => hc.mild.clipsFree) (Hub.absentClips_free _ p)
  · exact (hnotify _).keeps (fun _ _ hc => hc.mild.tallyFree) (Hub.absentTally_free _ p)

/-- R179: another port that goes ABSENT takes nothing to a port. -/
theorem Hub.goAbsent_portFree_ne {q : Fin 4} (hq : q ≠ p) (period : Nat) (hf : h.PortFree q) :
    (Hub.goAbsent p period h).PortFree q := by
  refine (h.goAbsent_evolves (strict := True) p period).portFree ?_
  have hport : ((h.modPort p fun x => x.goAbsent period h.tb.lastTick).ports[q]).present = (h.ports[q]).present := by
    rw [Hub.modPort_ne _ _ hq]
  exact ⟨fun k => (hf.streams k).imp_left hport.trans, fun k => (hf.paths k).imp_left hport.trans,
    hf.clips.imp_left hport.trans, hf.tally.imp_left hport.trans⟩

end

/-! ### Every move -/

/-- After a reset nobody holds anything. -/
theorem Hub.portFree_of_present {h : Hub} {q : Fin 4} (hp : (h.ports[q]).present = true) : h.PortFree q :=
  ⟨fun _ => .inl hp, fun _ => .inl hp, .inl hp, .inl hp⟩

theorem Hub.reset_ports (h : Hub) (q : Fin 4) : h.reset.ports[q] = (h.ports[q]).hubReset := by
  simp [Hub.reset, Hub.formLamps]

theorem Hub.released_ports (strap : BitVec 16) (supw : Bool) (e : Env) (q : Fin 4) :
    (Hub.released strap supw e).ports[q] = .released strap q := by
  simp [Hub.released]

theorem Hub.released_portFree (strap : BitVec 16) (supw : Bool) (e : Env) (q : Fin 4) :
    (Hub.released strap supw e).PortFree q := by
  refine Hub.portFree_of_present ?_
  rw [Hub.released_ports]
  rfl

theorem Hub.Move.portFree {g h : Hub} (hm : g.Move h) {q : Fin 4} (hg : g.PortFree q) : h.PortFree q := by
  cases hm with
  | change hc => exact hc.mild.portFree hg
  | goAbsent p n =>
    by_cases hq : q = p
    · subst hq
      exact g.goAbsent_portFree q n
    · exact g.goAbsent_portFree_ne p hq n hg
  | sliceEnd k coded => exact (Hub.sliceEnd_evolves g k coded).portFree hg
  | resetCoder k => exact (Hub.resetCoder_evolves g k).portFree hg
  | reset =>
    refine Hub.portFree_of_present ?_
    rw [Hub.reset_ports]
    rfl
  | released strap supw e => exact Hub.released_portFree strap supw e q

/-- Settles O58: a change brings holdings to a PRESENT port alone, and a port that goes ABSENT loses all of its own. -/
theorem absentPortsHoldNothing : Obligations.AbsentPortsHoldNothing := by
  intro s t hs hstep
  rw [Hub.absentHoldNothing_iff] at hs ⊢
  exact fun q => (step_moves hstep).keeps (fun _ _ hm => hm.portFree) (hs q)

end Sys2Proof.Machine
end

section
/-! Proofs: the bounds of the lists, the fixed rights, the engine load, the virtual buffers and the order of the clips are
kept by every move (R53, R55 to R58, R134, R174, R186). -/

namespace Sys2Proof.Machine

-- In order, so that the package in one text stays within the memory of its check.
set_option Elab.async false

/-! ### Contexts that are flushed -/

section
variable (h : Hub)

/-- An offer leaves every context but the mark that it takes along. -/
theorem Hub.offerPicture_coders (k : Fin 4) (o : Offer) :
    (h.offerPicture k o).1.coders = (h.modCoder k fun c => { c with sourceChange := false }).coders :=
  (Hub.offer_only _ _ .coders (by decide)).symm

theorem Hub.offerSubstitute_self (k : Fin 4) (f : Flight) (black : Bool) :
    ∃ counts, (h.offerSubstitute k f black).coders[k] = { h.coders[k] with sourceChange := false, counts := counts } := by
  unfold Hub.offerSubstitute
  dsimp only
  simp only [Hub.offerPicture_coders]
  rw [Hub.modCoder_self, Hub.modCoder_self]
  exact ⟨_, rfl⟩

theorem Hub.offerSubstitute_ne {k j : Fin 4} (hj : j ≠ k) (f : Flight) (black : Bool) :
    (h.offerSubstitute k f black).coders[j] = h.coders[j] := by
  unfold Hub.offerSubstitute
  dsimp only
  simp only [Hub.offerPicture_coders]
  rw [Hub.modCoder_ne _ _ hj, Hub.modCoder_ne _ _ hj]

/-- A flush stops at an empty order and at a picture. -/
theorem Hub.flush_stop {h : Hub} {k : Fin 4} (hf : ∀ f ∈ (h.coders[k]).flight.head?, f.subst = none) (n : Nat) :
    Hub.flush k n h = h := by
  cases n with
  | zero => rfl
  | succ n =>
    unfold Hub.flush
    split
    · rfl
    · rename_i f rest hfl
      rw [hfl] at hf
      split
      · rfl
      · rename_i hs
        exact absurd (hf f rfl) (by rw [hs]; nofun)

/-- A property of the front of an empty order. -/
theorem forall_head?_nil {α : Type} {l : List α} (hl : l = []) (P : α → Prop) : ∀ x ∈ l.head?, P x := by
  rw [hl]
  exact fun x hx => absurd hx (Option.not_mem_none x)

theorem Hub.flush_empty {h : Hub} {k : Fin 4} (hf : (h.coders[k]).flight = []) (n : Nat) : Hub.flush k n h = h :=
  Hub.flush_stop (forall_head?_nil hf _) n

/-- A flush offers a substitute unit at the front. -/
theorem Hub.flush_offer {h : Hub} {k : Fin 4} {f : Flight} {rest : List Flight} {black : Bool}
    (hf : (h.coders[k]).flight = f :: rest) (hs : f.subst = some black) (n : Nat) :
    Hub.flush k (n + 1) h =
      Hub.flush k n ((h.modCoder k fun c => { c with flight := rest }).offerSubstitute k f black) := by
  conv_lhs => unfold Hub.flush
  rw [hf]
  dsimp only
  rw [hs]

/-- What a flush leaves of the contexts: the other ones, and of its own all but the order, the mark and the counts. -/
theorem Hub.flush_coders (k : Fin 4) (n : Nat) (h : Hub) :
    (∀ j, j ≠ k → (Hub.flush k n h).coders[j] = h.coders[j]) ∧ ∃ mark flight counts,
      (Hub.flush k n h).coders[k] = { h.coders[k] with sourceChange := mark, flight := flight, counts := counts } := by
  induction n generalizing h with
  | zero => exact ⟨fun _ _ => rfl, _, _, _, rfl⟩
  | succ n ih =>
    match hf : (h.coders[k]).flight with
    | [] =>
      rw [Hub.flush_empty hf]
      exact ⟨fun _ _ => rfl, _, _, _, rfl⟩
    | f :: rest =>
      cases hs : f.subst with
      | none =>
        rw [Hub.flush_stop (by rw [hf]; simpa using hs)]
        exact ⟨fun _ _ => rfl, _, _, _, rfl⟩
      | some black =>
        rw [Hub.flush_offer hf hs]
        obtain ⟨hne, mark, flight, counts, he⟩ :=
          ih ((h.modCoder k fun c => { c with flight := rest }).offerSubstitute k f black)
        obtain ⟨counts', hc⟩ := Hub.offerSubstitute_self (h.modCoder k fun c => { c with flight := rest }) k f black
        refine ⟨fun j hj => ?_, mark, flight, counts, ?_⟩
        · rw [hne j hj, Hub.offerSubstitute_ne _ hj, Hub.modCoder_ne _ _ hj]
        · rw [he, hc, Hub.modCoder_self]

/-- R64: substitute units alone are all offered. -/
theorem Hub.flush_nil (k : Fin 4) (n : Nat) (h : Hub) (hn : (h.coders[k]).flight.length ≤ n)
    (hs : ∀ f ∈ (h.coders[k]).flight, f.subst ≠ none) : ((Hub.flush k n h).coders[k]).flight = [] := by
  induction n generalizing h with
  | zero => exact List.length_eq_zero_iff.mp (Nat.le_zero.mp hn)
  | succ n ih =>
    match hf : (h.coders[k]).flight with
    | [] => rwa [Hub.flush_empty hf]
    | f :: rest =>
      rw [hf] at hn hs
      obtain ⟨black, hb⟩ := Option.ne_none_iff_exists'.mp (hs f (List.mem_cons_self ..))
      obtain ⟨counts, hc⟩ := Hub.offerSubstitute_self (h.modCoder k fun c => { c with flight := rest }) k f black
      rw [Hub.flush_offer hf hb]
      refine ih _ ?_ ?_
      · rw [hc, Hub.modCoder_self]
        exact Nat.le_of_succ_le_succ hn
      · rw [hc, Hub.modCoder_self]
        exact fun x hx => hs x (List.mem_cons_of_mem _ hx)

theorem Hub.settle_coders (k : Fin 4) :
    (h.settle k).coders = (Hub.flush k (h.coders[k]).flight.length h).coders := by
  unfold Hub.settle Hub.closeIfDone
  split
  · exact (Hub.endClosing_only _ _ .coders (by decide)).symm
  · rfl

/-- R64: the context of stream k as CODER RESET leaves it before what waited is offered. -/
def Hub.discardPictures (h : Hub) (k : Fin 4) : Hub :=
  let s := pictureStream k
  let st := (h.stream s).state
  let pictures := (h.coders[k]).flight.filter fun f => f.subst == none
  let h := h.modCoder k fun c =>
    let c : Coder := { c with
      flight := c.flight.filter Flight.waits
      counts := { c.counts with discarded := c.counts.discarded + BitVec.ofNat 32 pictures.length } }
    if c.built ∧ (st = .opened ∨ st = .held) then { c with fullness := c.size / 2, q := 24 } else c
  pictures.foldl (fun h f => h.testClips s (some f.frame.serial)) h

theorem Hub.resetCoder_eq (k : Fin 4) : Hub.resetCoder k h = (h.discardPictures k).settle k := rfl

end

/-! ### Virtual buffers (R55 to R58) -/

/-- A context without pictures. -/
theorem Coder.BufferOk.of_empty {c : Coder} (hf : c.flight = []) (hb : c.built = true → c.fullness ≤ c.size) :
    c.BufferOk := ⟨hb, by simp [hf], by simp [hf]⟩

/-- R58: the completion of a picture within its ceiling leaves the virtual buffer within B. -/
theorem Coder.BufferOk.complete {c d : Coder} {f : Flight} {rest : List Flight} {x y : Coding} (hc : c.BufferOk)
    (hf : c.flight = f :: rest) (hx : f.coding = some x) (hp : y.cPic = x.cPic) (hb : y.b ≤ y.cPic)
    (hd : d = { c with flight := rest, sourceChange := false }) : (d.complete y.b y.last).BufferOk := by
  obtain ⟨hfull, hsecond, hfirst⟩ := hc.tail hf
  have hceil := (hc.2.2 f (by rw [hf]; rfl) x hx).1
  have hrest : ∀ g ∈ rest, g.coding = none := by simpa [hf] using hc.2.1
  subst hd
  refine ⟨fun _ => ?_, hsecond, fun g hg z hz => ?_⟩
  · change c.fullness + y.b - c.target ≤ c.size
    omega
  · rw [hrest g (List.mem_of_mem_head? hg)] at hz
    exact absurd hz nofun

section
variable {h : Hub}

theorem Hub.Evolves.buffersFit {g h : Hub} (he : g.Evolves True h) (hg : g.BuffersFit) : h.BuffersFit :=
  he.keeps (P := Hub.BuffersFit) (fun _ _ hc hb k => hc.mild.buffers trivial k (hb k)) hg

/-- R58: a picture that ends within its ceiling leaves every virtual buffer within B. -/
theorem Hub.completePicture_buffersFit {k : Fin 4} {f : Flight} {rest : List Flight} {x y : Coding} (hb : h.BuffersFit)
    (hf : (h.coders[k]).flight = f :: rest) (hx : f.coding = some x) (hp : y.cPic = x.cPic) (hy : y.b ≤ y.cPic) :
    ((h.modCoder k fun c => { c with flight := rest }).completePicture k f y).BuffersFit := by
  have hpop : (h.modCoder k fun c => { c with flight := rest }).BuffersFit := (h.popFlight_evolves hf).buffersFit hb
  rw [Hub.completePicture_eq]
  split
  · exact ((Hub.offerPicture_evolves _ k _).trans (Hub.dropPicture_evolves _ k f _)).buffersFit hpop
  · intro j
    by_cases hj : j = k
    · subst hj
      rw [Hub.modCoder_self]
      refine (hb j).complete hf hx hp hy ?_
      simp only [Hub.offerPicture_coders]
      rw [Hub.modCoder_self, Hub.modCoder_self]
    · rw [Hub.modCoder_ne _ _ hj]
      exact (Hub.offerPicture_evolves _ k _).buffersFit hpop j

theorem Hub.sliceEnd_buffersFit (k : Fin 4) (coded : Bytes) (hb : h.BuffersFit) : (Hub.sliceEnd k coded h).BuffersFit := by
  unfold Hub.sliceEnd
  dsimp only
  split
  · exact hb
  · rename_i f rest hf
    split
    · exact hb
    · rename_i x hx
      split
      · exact hb
      · split
        · exact (((h.popFlight_evolves hf).trans (Hub.dropPicture_evolves _ k f _)).trans
            (Hub.settle_evolves _ k)).buffersFit hb
        · rename_i hceil
          have hy := Nat.le_of_not_lt hceil
          split
          · exact (Hub.settle_evolves _ k).buffersFit (Hub.completePicture_buffersFit hb hf hx rfl hy)
          · exact (h.modCoder_evolves k rfl fun _ hc => hc.code (y := x.afterSlice _ coded) hf hx rfl hy).buffersFit hb

theorem Hub.discardPictures_coders (k : Fin 4) :
    (∀ j, j ≠ k → (h.discardPictures k).coders[j] = h.coders[j]) ∧ ∃ fullness q counts,
      (h.discardPictures k).coders[k] = { h.coders[k] with
        flight := (h.coders[k]).flight.filter Flight.waits, fullness := fullness, q := q, counts := counts } ∧
      (fullness = (h.coders[k]).fullness ∨ fullness = (h.coders[k]).size / 2) := by
  have hfold (fs : List Flight) (g : Hub) :
      (fs.foldl (fun h f => h.testClips (pictureStream k) (some f.frame.serial)) g).coders = g.coders :=
    (Hub.OnlyChanges.foldl (fun g f => g.testClips_only _ _) fs g .coders (by decide)).symm
  unfold Hub.discardPictures
  simp only [hfold]
  refine ⟨fun j hj => Hub.modCoder_ne _ _ hj, ?_⟩
  rw [Hub.modCoder_self]
  split
  · exact ⟨_, _, _, rfl, .inr rfl⟩
  · exact ⟨_, _, _, rfl, .inl rfl⟩

theorem Hub.resetCoder_buffersFit (k : Fin 4) (hb : h.BuffersFit) : (Hub.resetCoder k h).BuffersFit := by
  intro j
  obtain ⟨hne, fullness, q, counts, hself, hfull⟩ := h.discardPictures_coders k
  rw [Hub.resetCoder_eq]
  simp only [Hub.settle_coders]
  obtain ⟨hflush, mark, flight, counts', hfl⟩ :=
    Hub.flush_coders k ((h.discardPictures k).coders[k]).flight.length (h.discardPictures k)
  by_cases hj : j = k
  · subst hj
    have hnil := Hub.flush_nil j ((h.discardPictures j).coders[j]).flight.length (h.discardPictures j) le_rfl (by
      rw [hself]
      intro f hf hs
      simp [Flight.waits, hs] at hf)
    obtain rfl : flight = [] := by rwa [hfl] at hnil
    rw [hfl, hself]
    refine .of_empty rfl fun hbuilt => ?_
    have hold : (h.coders[j]).fullness ≤ (h.coders[j]).size := (hb j).1 hbuilt
    change fullness ≤ (h.coders[j]).size
    omega
  · rw [hflush j hj, hne j hj]
    exact hb j

end

/-! ### Every move -/

theorem Hub.reset_stream (h : Hub) (k : Fin 16) : h.reset.stream k = (h.stream k).hubReset := by
  simp [Hub.reset, Hub.formLamps, Hub.stream, Store.hubReset]

theorem Hub.reset_coder (h : Hub) (k : Fin 4) : h.reset.coders[k] = (h.coders[k]).hubReset := by
  simp [Hub.reset, Hub.formLamps]

theorem Hub.reset_notice (h : Hub) (p : Fin 4) : h.reset.notices[p] = (h.notices[p]).hubReset := by
  simp [Hub.reset, Hub.formLamps]

theorem Hub.released_stream (strap : BitVec 16) (supw : Bool) (e : Env) (k : Fin 16) :
    (Hub.released strap supw e).stream k = .released := by
  simp [Hub.released, Hub.stream, Store.released]

theorem Hub.released_coder (strap : BitVec 16) (supw : Bool) (e : Env) (k : Fin 4) :
    (Hub.released strap supw e).coders[k] = .released := by
  simp [Hub.released]

theorem Hub.released_notice (strap : BitVec 16) (supw : Bool) (e : Env) (p : Fin 4) :
    (Hub.released strap supw e).notices[p] = .released := by
  simp [Hub.released]

/-- A hub whose streams are all CLOSED has no engine load. -/
theorem Hub.enginesFit_of_closed {h : Hub} (hs : ∀ k, (h.stream k).state = .closed) : h.EnginesFit := by
  simp [Hub.EnginesFit, Hub.engineLoad, hs]

theorem Hub.Mild.listsFit {strict : Prop} {g h : Hub} (hm : g.Mild strict h) (hg : g.ListsFit) : h.ListsFit :=
  ⟨fun p => ⟨(hm.ports p).queue (hg.1 p).1, (hm.ports p).fullList (hg.1 p).2⟩,
    fun p => ⟨(hm.notices p).queue (hg.2.1 p).1, (hm.notices p).owed (hg.2.1 p).2⟩,
    hm.log.clips hg.2.2.1, hm.log.labels hg.2.2.2.1, fun k => hm.fits k (hg.2.2.2.2 k)⟩

theorem Hub.Mild.fixedRights {strict : Prop} {g h : Hub} (hm : g.Mild strict h) (hg : g.FixedRights) : h.FixedRights :=
  fun p => ⟨by
    rw [hm.strap]
    exact (hm.ports p).rights.elim (fun hr => hr.trans (hg p).1) id, (hm.notices p).mask (hg p).2⟩

theorem Hub.Mild.clipsOrdered {strict : Prop} {g h : Hub} (hm : g.Mild strict h) (hg : g.ClipsOrdered) :
    h.ClipsOrdered := hm.log.ordered hg

/-- The record of a port that goes ABSENT keeps its lists and its rights. -/
theorem Hub.modPort_goAbsent (h : Hub) (p : Fin 4) (period moment : Nat) (q : Fin 4) :
    let y := (h.modPort p fun x => x.goAbsent period moment).ports[q]
    y.queue = (h.ports[q]).queue ∧ y.fullList = (h.ports[q]).fullList ∧ y.classes = (h.ports[q]).classes := by
  dsimp only
  by_cases hq : q = p
  · subst hq
    rw [Hub.modPort_self]
    exact ⟨rfl, rfl, rfl⟩
  · rw [Hub.modPort_ne _ _ hq]
    exact ⟨rfl, rfl, rfl⟩

/-- The bounds that a change keeps, whatever it makes of the virtual buffers. -/
structure Hub.Bounded (h : Hub) (lists rights engines clips : Prop) : Prop where
  lists : lists → h.ListsFit
  rights : rights → h.FixedRights
  engines : engines → h.EnginesFit
  clips : clips → h.ClipsOrdered

section
variable {lists rights engines clips : Prop}

theorem Hub.Mild.bounded {strict : Prop} {g h : Hub} (hm : g.Mild strict h) (hg : g.Bounded lists rights engines clips) :
    h.Bounded lists rights engines clips :=
  ⟨fun hp => hm.listsFit (hg.lists hp), fun hp => hm.fixedRights (hg.rights hp), fun hp => hm.engines (hg.engines hp),
    fun hp => hm.clipsOrdered (hg.clips hp)⟩

theorem Hub.Evolves.bounded {strict : Prop} {g h : Hub} (he : g.Evolves strict h)
    (hg : g.Bounded lists rights engines clips) : h.Bounded lists rights engines clips :=
  he.keeps (fun _ _ hc => hc.mild.bounded) hg

/-- The record of a port that goes ABSENT keeps its lists and its rights. -/
theorem Hub.Bounded.goAbsent {h : Hub} (hg : h.Bounded lists rights engines clips) (p : Fin 4) (period moment : Nat) :
    (h.modPort p fun x => x.goAbsent period moment).Bounded lists rights engines clips := by
  have hport := h.modPort_goAbsent p period moment
  refine ⟨fun hp => ?_, fun hp q => ?_, hg.engines, hg.clips⟩
  · obtain ⟨hq, hrest⟩ := hg.lists hp
    refine ⟨fun q => ?_, hrest⟩
    obtain ⟨hqueue, hfull, -⟩ := hport q
    rw [hqueue, hfull]
    exact hq q
  · obtain ⟨-, -, hclasses⟩ := hport q
    rw [hclasses]
    exact hg.rights hp q

theorem Hub.Bounded.reset {h : Hub} (hg : h.Bounded lists rights engines clips) :
    h.reset.Bounded lists rights engines clips := by
  refine ⟨fun hp => ⟨fun p => ?_, fun p => ?_, Nat.zero_le _, Nat.zero_le _, fun k => ?_⟩, fun hp p => ?_, fun _ => ?_,
    fun hp => ?_⟩
  · rw [Hub.reset_ports]
    exact (hg.lists hp).1 p
  · rw [Hub.reset_notice]
    exact ⟨Nat.zero_le _, Nat.zero_le _⟩
  · rw [Hub.reset_stream]
    exact Nat.zero_le _
  · rw [Hub.reset_ports, Hub.reset_notice]
    exact hg.rights hp p
  · exact Hub.enginesFit_of_closed fun k => by rw [Hub.reset_stream]; rfl
  · exact ⟨.nil, (hg.clips hp).2.1, fun c hc => absurd hc List.not_mem_nil⟩

/-- R173: RIGHTS comes from the editor mask alone. -/
theorem strapClasses_rights (strap : BitVec 16) (p : Fin 4) : (strapClasses strap p).getLsbD 8 = strapEditor strap p := by
  have hp : ∀ split, (profileClasses split p).getLsbD 8 = false := by
    revert p
    decide
  unfold strapClasses
  split
  · rename_i he
    rw [BitVec.getLsbD_or, hp, he]
    rfl
  · rename_i he
    rw [hp, Bool.eq_false_iff.mpr he]

theorem Hub.released_bounded (strap : BitVec 16) (supw : Bool) (e : Env) :
    (Hub.released strap supw e).Bounded lists rights engines clips := by
  refine ⟨fun _ => ⟨fun p => ?_, fun p => ?_, Nat.zero_le _, Nat.zero_le _, fun k => ?_⟩, fun _ p => ?_, fun _ => ?_,
    fun _ => ⟨.nil, by simp [Hub.released, ClipLog.released], fun c hc => absurd hc List.not_mem_nil⟩⟩
  · rw [Hub.released_ports]
    exact ⟨Nat.zero_le _, Nat.zero_le _⟩
  · rw [Hub.released_notice]
    exact ⟨Nat.zero_le _, Nat.zero_le _⟩
  · rw [Hub.released_stream]
    exact Nat.zero_le _
  · rw [Hub.released_ports, Hub.released_notice]
    exact ⟨strapClasses_rights strap p, by decide⟩
  · exact Hub.enginesFit_of_closed fun k => by rw [Hub.released_stream]; rfl

theorem Hub.Move.bounded {g h : Hub} (hm : g.Move h) (hg : g.Bounded lists rights engines clips) :
    h.Bounded lists rights engines clips := by
  cases hm with
  | change hc => exact hc.mild.bounded hg
  | goAbsent p n => exact (Hub.goAbsent_evolves (strict := True) g p n).bounded (hg.goAbsent p n _)
  | sliceEnd k coded => exact (Hub.sliceEnd_evolves g k coded).bounded hg
  | resetCoder k => exact (Hub.resetCoder_evolves g k).bounded hg
  | reset => exact hg.reset
  | released strap supw e => exact Hub.released_bounded strap supw e

end

theorem Hub.released_buffersFit (strap : BitVec 16) (supw : Bool) (e : Env) :
    (Hub.released strap supw e).BuffersFit := by
  intro k
  rw [Hub.released_coder]
  exact .of_empty rfl nofun

theorem Hub.Move.buffersFit {g h : Hub} (hm : g.Move h) (hg : g.BuffersFit) : h.BuffersFit := by
  cases hm with
  | change hc => exact fun k => hc.mild.buffers trivial k (hg k)
  | goAbsent p n => exact (Hub.goAbsent_evolves g p n).buffersFit hg
  | sliceEnd k coded => exact Hub.sliceEnd_buffersFit k coded hg
  | resetCoder k => exact Hub.resetCoder_buffersFit k hg
  | reset =>
    intro k
    rw [Hub.reset_coder]
    exact .of_empty rfl nofun
  | released strap supw e => exact Hub.released_buffersFit strap supw e

/-- Settles O59: every move keeps the bounds; coding and its reset move a virtual buffer within B. -/
theorem boundsAreKept : Obligations.BoundsAreKept := by
  intro s t hstep
  have hm := step_moves hstep
  have hb : t.hub.Bounded s.hub.ListsFit s.hub.FixedRights s.hub.EnginesFit s.hub.ClipsOrdered :=
    hm.keeps (fun _ _ => Hub.Move.bounded) ⟨id, id, id, id⟩
  exact ⟨hb.lists, hb.rights, hb.engines, hm.keeps fun _ _ => Hub.Move.buffersFit, hb.clips⟩

end Sys2Proof.Machine
end

section
/-! Proofs: every move keeps the memory canonical, the rings within their bounds, and the rings in order (R31, R32, R34,
R36, R37). -/

namespace Sys2Proof.Machine

-- In order, so that the package in one text stays within the memory of its check.
set_option Elab.async false

/-! ### What the moves of the Store leave of each ring -/

theorem ownRing_ne_ringG (k : Fin 16) : k.castSucc ≠ (16 : Fin 17) := (Fin.castSucc_lt_last k).ne

section
variable (h : Hub)

@[simp] theorem Hub.calmDeficits_sends (r : Fin 17) : (h.calmDeficits r).paths.sends = h.paths.sends := by
  unfold Hub.calmDeficits
  split <;> rfl

theorem Hub.moveSend_sends_self (r : Fin 17) (w : Word) : ((h.moveSend r w).paths.sends[r]).taken = none := by
  unfold Hub.moveSend
  simp

theorem Hub.moveSend_sends_ne {r q : Fin 17} (hq : q ≠ r) (w : Word) :
    (h.moveSend r w).paths.sends[q] = h.paths.sends[q] := by
  unfold Hub.moveSend
  simp only [Hub.calmDeficits_sends]
  rw [Hub.modSend_ne _ _ hq]
  rfl

@[simp] theorem Hub.countLost_paths (es : List Entry) : (h.countLost es).paths = h.paths := by
  unfold Hub.countLost
  induction es generalizing h with
  | nil => rfl
  | cons e es ih => exact ih _

theorem Hub.emptyRing_sends_self (r : Fin 17) : ((h.emptyRing r).paths.sends[r]).taken = none := by
  have he : ((h.emptied r).paths.sends[r]).taken = none := Hub.moveSend_sends_self _ _ _
  rw [Hub.emptyRing_eq]
  split
  · exact he
  · exact he

theorem Hub.emptyRing_sends_ne {r q : Fin 17} (hq : q ≠ r) : (h.emptyRing r).paths.sends[q] = h.paths.sends[q] := by
  have he : (h.emptied r).paths.sends[q] = h.paths.sends[q] := by
    unfold Hub.emptied
    rw [Hub.moveSend_sends_ne _ hq]
    simp
  rw [Hub.emptyRing_eq]
  split
  · exact he
  · exact he

theorem Hub.dropTail_ring_ne {r q : Fin 17} (hq : q ≠ r) (e : Entry) : (h.dropTail r e).ring q = h.ring q := by
  unfold Hub.dropTail
  dsimp only
  split <;> simp [Hub.modRing_ne _ _ hq]

@[simp] theorem Hub.dropTail_paths (r : Fin 17) (e : Entry) : (h.dropTail r e).paths = h.paths := by
  unfold Hub.dropTail
  dsimp only
  split <;> rfl

/-! ### A written unit (R34) -/

/-- R34: the index entry of a unit that is written into ring r. -/
def Hub.newEntry (h : Hub) (r : Fin 17) (o : Offer) (unit : Word) (g : Option Word) : Entry :=
  { stream := o.stream, unit := unit, g := g, start := (h.ring r).headOff, len := sectorsOf o.payload.length,
    payload := o.payload.length, serial := o.frame.serial, tc := o.frame.tc,
    flags := { o.flags with damaged := false, tcJump := o.frame.jump } }

theorem Hub.writeUnit_ring_self {r : Fin 17} (o : Offer) (unit : Word) (g : Option Word) :
    (h.writeUnit r o unit g).ring r =
      { h.ring r with
        index := (h.ring r).index ++ [h.newEntry r o unit g]
        headOff := ((h.ring r).headOff + sectorsOf o.payload.length) % (h.ring r).sectors
        head := (h.ring r).head + 1 } := by
  unfold Hub.writeUnit
  dsimp only
  split
  · rename_i hr
    subst hr
    rw [Hub.modRing_ne _ _ (ownRing_ne_ringG _).symm, Hub.modStream_ring, Hub.modRing_self]
    rfl
  · rw [Hub.modStream_ring, Hub.modRing_self]
    rfl

/-- The own ring of a stream that is bound GLOBAL carries its next unit number. -/
theorem Hub.writeUnit_ring_own (o : Offer) (unit : Word) (g : Option Word) :
    (h.writeUnit 16 o unit g).ring o.stream.castSucc =
      { h.ring o.stream.castSucc with
        head := (h.ring o.stream.castSucc).head + 1, send := (h.ring o.stream.castSucc).head + 1 } := by
  unfold Hub.writeUnit
  dsimp only
  rw [if_pos rfl, Hub.modRing_self, Hub.modStream_ring, Hub.modRing_ne _ _ (ownRing_ne_ringG _)]
  rfl

theorem Hub.writeUnit_ring_ne {r q : Fin 17} {o : Offer} (hq : q ≠ r) (hs : r = 16 → q ≠ o.stream.castSucc) (unit : Word)
    (g : Option Word) : (h.writeUnit r o unit g).ring q = h.ring q := by
  unfold Hub.writeUnit
  dsimp only
  split
  · rename_i hr
    rw [Hub.modRing_ne _ _ (hs hr), Hub.modStream_ring, Hub.modRing_ne _ _ hq]
    rfl
  · rw [Hub.modStream_ring, Hub.modRing_ne _ _ hq]
    rfl

/-- A unit that is written counts at its stream. -/
theorem Hub.writeUnit_stream (r : Fin 17) (o : Offer) (unit : Word) (g : Option Word) (k : Fin 16) :
    (h.writeUnit r o unit g).stream k =
      if k = o.stream then { h.stream k with committed := (h.stream k).committed + 1 } else h.stream k := by
  have hmod (x : Hub) (hx : ∀ k, x.stream k = h.stream k) :
      (x.modStream o.stream fun st => { st with committed := st.committed + 1 }).stream k =
        if k = o.stream then { h.stream k with committed := (h.stream k).committed + 1 } else h.stream k := by
    split
    · rename_i hk
      subst hk
      rw [Hub.modStream_self, hx]
    · rename_i hk
      rw [Hub.modStream_ne _ _ hk, hx]
  unfold Hub.writeUnit
  dsimp only
  split
  · rw [Hub.modRing_stream]
    exact hmod _ fun _ => rfl
  · exact hmod _ fun _ => rfl

theorem Hub.writeUnit_paths (r : Fin 17) (o : Offer) (unit : Word) (g : Option Word) :
    (h.writeUnit r o unit g).paths = h.paths := by
  unfold Hub.writeUnit
  dsimp only
  split <;> rfl

end

/-! ### Memory and bounds -/

section
variable {strict : Prop} {g h : Hub}

theorem Hub.OnlyChanges.memoryOk {parts : List Part} (hg : Hub.OnlyChanges parts g h) (hp : Part.memory ∉ parts)
    (hm : g.MemoryOk) : h.MemoryOk := by
  have he : g.store.mem = h.store.mem := hg .memory hp
  unfold Hub.MemoryOk at hm ⊢
  rwa [← he]

theorem Hub.Change.memoryOk (hc : g.Change strict h) (hm : g.MemoryOk) : h.MemoryOk := by
  cases hc with
  | tame ht =>
    unfold Hub.MemoryOk
    rw [ht.memory]
    exact hm
  | moveSend r w _ => exact (g.moveSend_only r w).memoryOk (by decide) hm
  | emptyRing r => exact (g.emptyRing_only r).memoryOk (by decide) hm
  | dropTail r e _ _ => exact (g.dropTail_only r e).memoryOk (by decide) hm
  | writeUnit r o unit n _ => exact g.writeUnit_memoryOk hm r o unit n

/-- R31 for one ring. -/
def Ring.Fits (x : Ring) : Prop := x.index.length ≤ 1024 ∧ (x.index.map Entry.len).sum ≤ x.sectors

theorem Hub.Change.ringsFit (hc : g.Change strict h) (hg : g.RingsFit) : h.RingsFit := by
  intro q
  change Ring.Fits (h.ring q)
  have hq : Ring.Fits (g.ring q) := hg q
  cases hc with
  | tame ht => exact ⟨(ht.rings q).count.trans_le hq.1, (ht.rings q).fits hq.2⟩
  | moveSend r w _ =>
    by_cases hqr : q = r
    · subst hqr
      rw [Hub.moveSend_self]
      exact hq
    · rwa [Hub.moveSend_ne _ _ hqr]
  | emptyRing r =>
    by_cases hqr : q = r
    · subst hqr
      rw [Hub.emptyRing_self]
      exact ⟨Nat.zero_le _, Nat.zero_le _⟩
    · rwa [Hub.emptyRing_ne _ hqr]
  | dropTail r e _ _ =>
    by_cases hqr : q = r
    · subst hqr
      rw [Hub.dropTail_ring]
      refine ⟨?_, le_trans ?_ hq.2⟩
      · rw [List.length_drop]
        exact (Nat.sub_le _ _).trans hq.1
      · exact ((List.drop_sublist 1 _).map Entry.len).sum_le_sum fun _ _ => Nat.zero_le _
    · rwa [Hub.dropTail_ring_ne _ hqr]
  | writeUnit r o unit n hm =>
    by_cases hqr : q = r
    · subst hqr
      rw [Hub.writeUnit_ring_self]
      have hroom := hm.room
      have hcount := hm.count
      unfold Ring.free at hroom
      refine ⟨?_, ?_⟩
      · rw [List.length_append, List.length_singleton]
        omega
      · rw [List.map_append, List.sum_append, List.map_singleton, List.sum_singleton]
        change _ + sectorsOf o.payload.length ≤ (g.ring q).sectors
        have := hq.2
        omega
    · by_cases hown : r = 16 ∧ q = o.stream.castSucc
      · obtain ⟨rfl, rfl⟩ := hown
        rw [Hub.writeUnit_ring_own]
        exact hq
      · rwa [Hub.writeUnit_ring_ne _ hqr fun hr hs => hown ⟨hr, hs⟩]

/-! ### The order of the rings -/

/-- R31, R36 for ring r: it is in order, and with a unit taken up it is not at its head. -/
def Hub.RingOk (h : Hub) (r : Fin 17) : Prop :=
  (h.ring r).Ordered r ∧ ((h.paths.sends[r]).taken ≠ none → (h.ring r).send ≠ (h.ring r).head)

/-- R26, R37 for stream k: its own ring is empty while it is bound GLOBAL, and its release mark lies within ring G. -/
def Hub.MarkOk (h : Hub) (k : Fin 16) : Prop :=
  ((h.stream k).global = true → (h.ring k.castSucc).index = []) ∧
    ((h.ring 16).head - (h.stream k).releaseMark).toNat ≤ (h.ring 16).index.length

theorem Hub.ringsOrdered_iff (h : Hub) : h.RingsOrdered ↔ (∀ r, h.RingOk r) ∧ ∀ k, h.MarkOk k := Iff.rfl

/-- The tail of a ring whose oldest entry has its number. -/
theorem Hub.tail_eq_of_oldest {r : Fin 17}
    (he : ∀ e, (h.ring r).index[0]? = some e → e.key r = (h.ring r).head - BitVec.ofNat 32 (h.ring r).index.length) :
    h.tail r = (h.ring r).head - BitVec.ofNat 32 (h.ring r).index.length := by
  unfold Hub.tail
  split
  · rename_i hi
    rw [hi]
    simp
  · rename_i e rest hi
    exact he e (by rw [hi]; rfl)

/-- The tail of a ring in order. -/
theorem Hub.tail_eq {r : Fin 17} (ho : (h.ring r).Ordered r) :
    h.tail r = (h.ring r).head - BitVec.ofNat 32 (h.ring r).index.length :=
  Hub.tail_eq_of_oldest fun e he => (ho.2.2 0 e he).1

/-- A move of a send pointer keeps a ring in order. -/
theorem Hub.RingOk.moveSend {r : Fin 17} {w : Word} (hr : g.RingOk r)
    (hw : ((g.ring r).head - w).toNat ≤ (g.ring r).index.length) : (g.moveSend r w).RingOk r := by
  refine ⟨?_, fun ht => absurd (g.moveSend_sends_self r w) ht⟩
  rw [Hub.moveSend_self]
  exact hr.1.move hw

/-- What a change leaves of ring q is in order when the change leaves the ring and its send context. -/
theorem Hub.RingOk.congr {q : Fin 17} (hq : g.RingOk q) (hr : h.ring q = g.ring q)
    (hs : h.paths.sends[q] = g.paths.sends[q]) : h.RingOk q := by
  unfold Hub.RingOk
  rw [hr, hs]
  exact hq

theorem Hub.RingOk.emptyRing {r : Fin 17} (hr : g.RingOk r) : (g.emptyRing r).RingOk r := by
  refine ⟨?_, fun ht => absurd (g.emptyRing_sends_self r) ht⟩
  rw [Hub.emptyRing_self]
  exact Ring.ordered_nil (Nat.lt_of_le_of_lt (Nat.zero_le _) hr.1.1) rfl rfl

/-- A ring whose tail unit was sent keeps its send pointer when the unit leaves. -/
theorem Hub.RingOk.dropTail {r : Fin 17} {e : Entry} (hr : g.RingOk r) (hfit : (g.ring r).Fits)
    (hi : (g.ring r).index.head? = some e) (hu : g.unsent r e = false) : (g.dropTail r e).RingOk r := by
  have htail : g.tail r = e.key r := Hub.tail_of_head? hi
  have hord := Hub.tail_eq hr.1
  have hlen : 0 < (g.ring r).index.length := List.length_pos_iff.mpr fun hn => by simp [hn] at hi
  have hsent : 0 < dist (g.tail r) (g.ring r).send := by
    have : ¬ dist (g.tail r) (g.ring r).send ≤ dist (g.tail r) (e.key r) := by simpa [Hub.unsent] using hu
    rw [htail] at this ⊢
    omega
  have hmove : ((g.ring r).head - (g.ring r).send).toNat ≤ ((g.ring r).index.drop 1).length := by
    have hold := hr.1.2.1
    have hcap := hfit.1
    rw [List.length_drop]
    unfold dist at hsent
    rw [hord] at hsent
    bv_omega
  refine ⟨?_, ?_⟩
  · rw [Hub.dropTail_ring]
    exact hr.1.dropTail hmove
  · rw [Hub.dropTail_ring, Hub.dropTail_paths]
    exact hr.2

/-- R26: a ring other than ring G that the Store writes into is the stream's own, and ring G that of a GLOBAL stream. -/
theorem Hub.MayWrite.ring_own {r : Fin 17} {o : Offer} {unit : Word} {n : Option Word} (hm : g.MayWrite r o unit n)
    (hr : r ≠ 16) : r = o.stream.castSucc := by
  have hb := hm.ring
  unfold Hub.boundRing at hb
  split at hb
  · exact absurd hb hr
  · exact hb

theorem Hub.MayWrite.stream_global {o : Offer} {unit : Word} {n : Option Word} (hm : g.MayWrite 16 o unit n) :
    (g.stream o.stream).global = true := by
  have hb := hm.ring
  unfold Hub.boundRing at hb
  split at hb
  · assumption
  · exact absurd hb.symm (ownRing_ne_ringG _)

/-- A unit that the Store is asked for may be written. -/
theorem Hub.RingOk.writeUnit {r : Fin 17} {o : Offer} {unit : Word} {n : Option Word} (hr : g.RingOk r)
    (hm : g.MayWrite r o unit n) : (g.writeUnit r o unit n).RingOk r := by
  have hcount := hm.count
  have hsend := hr.1.2.1
  refine ⟨?_, ?_⟩
  · rw [Hub.writeUnit_ring_self]
    refine hr.1.commit (e := g.newEntry r o unit n) (by omega) ?_ ?_ ?_ rfl
    · unfold Entry.key
      split
      · rename_i h16
        change n.getD 0 = _
        rw [hm.g, if_pos h16, h16]
        rfl
      · rename_i h16
        change unit = _
        rw [hm.unit, Hub.nextUnit, ← hm.ring_own h16]
    · change n ≠ none ↔ _
      rw [hm.g]
      split <;> simp_all
    · intro k hk
      have h16 : r ≠ 16 := hk ▸ ownRing_ne_ringG k
      exact Fin.castSucc_injective _ ((hm.ring_own h16).symm.trans hk)
  · rw [Hub.writeUnit_ring_self]
    intro _ hs
    have hs : (g.ring r).send = (g.ring r).head + 1 := hs
    rw [hs] at hsend
    bv_omega

/-- A change of a stream record and of no ring keeps the order of the rings. -/
theorem Hub.MarkOk.congr {k : Fin 16} (hk : g.MarkOk k) (hg : (h.stream k).global = (g.stream k).global)
    (hm : (h.stream k).releaseMark = (g.stream k).releaseMark) (hown : h.ring k.castSucc = g.ring k.castSucc)
    (h16 : (h.ring 16).head = (g.ring 16).head ∧ (h.ring 16).index = (g.ring 16).index) : h.MarkOk k := by
  unfold Hub.MarkOk
  rw [hg, hm, hown, h16.1, h16.2]
  exact hk

/-- R37: an emptied ring G takes every release mark to its head. -/
theorem Hub.emptyRing_markOk {k : Fin 16} (r : Fin 17) (h16 : (g.ring 16).Ordered 16) (hfit : (g.ring 16).Fits)
    (hk : g.MarkOk k) : (g.emptyRing r).MarkOk k := by
  obtain ⟨hown, hmark⟩ := hk
  refine ⟨fun hg => ?_, ?_⟩
  · rw [Hub.emptyRing_stream] at hg
    by_cases hr : k.castSucc = r
    · rw [hr, Hub.emptyRing_self]
    · rw [Hub.emptyRing_ne _ hr]
      exact hown hg
  · rw [Hub.emptyRing_stream]
    dsimp only
    by_cases hr : r = 16
    · subst hr
      have htail := Hub.tail_eq h16
      have hcap := hfit.1
      rw [Hub.emptyRing_self, if_congr (and_iff_right rfl) rfl rfl]
      change _ ≤ 0
      split
      · simp
      · rename_i hmoved
        unfold dist at hmoved
        rw [htail] at hmoved
        bv_omega
    · rw [Hub.emptyRing_ne _ (Ne.symm hr), if_neg fun hc => hr hc.1]
      exact hmark

/-- R37: the release marks that ring G's tail passes move with it. -/
theorem Hub.dropTail_markOk {k : Fin 16} {r : Fin 17} {e : Entry} (h16 : (g.ring 16).Ordered 16) (hfit : (g.ring 16).Fits)
    (hi : (g.ring r).index.head? = some e) (hk : g.MarkOk k) : (g.dropTail r e).MarkOk k := by
  obtain ⟨hown, hmark⟩ := hk
  refine ⟨fun hg => ?_, ?_⟩
  · rw [Hub.dropTail_global] at hg
    by_cases hr : k.castSucc = r
    · rw [hr, Hub.dropTail_ring, ← hr, hown hg]
      rfl
    · rw [Hub.dropTail_ring_ne _ hr]
      exact hown hg
  · by_cases hr : r = 16
    · subst hr
      have hlen : 0 < (g.ring 16).index.length := List.length_pos_iff.mpr fun hn => by simp [hn] at hi
      have htail : e.key 16 = _ := (Hub.tail_of_head? hi).symm.trans (Hub.tail_eq h16)
      have hcap := hfit.1
      have hnew : (g.modRing 16 fun x => { x with index := x.index.drop 1 }).tail 16 =
          (g.ring 16).head - BitVec.ofNat 32 ((g.ring 16).index.length - 1) := by
        rw [Hub.tail_eq_of_oldest]
        · simp
        · intro d hd
          rw [Hub.modRing_self] at hd ⊢
          have hd : (g.ring 16).index[1]? = some d := by simpa using hd
          simpa using (h16.2.2 1 d hd).1
      have hstream : ((g.dropTail 16 e).stream k).releaseMark =
          if dist (e.key 16) (g.stream k).releaseMark < dist (e.key 16) ((g.ring 16).head -
            BitVec.ofNat 32 ((g.ring 16).index.length - 1)) then
            (g.ring 16).head - BitVec.ofNat 32 ((g.ring 16).index.length - 1)
          else (g.stream k).releaseMark := by
        rw [← hnew]
        unfold Hub.dropTail
        dsimp only
        rw [if_pos rfl, Hub.carryMarks_stream, Hub.modRing_stream]
        split <;> rfl
      rw [hstream, Hub.dropTail_ring]
      change ((g.ring 16).head - _).toNat ≤ ((g.ring 16).index.drop 1).length
      rw [List.length_drop, htail]
      unfold dist
      split <;> bv_omega
    · have hs : (g.dropTail r e).stream k = g.stream k := by
        unfold Hub.dropTail
        simp [hr]
      rw [Hub.dropTail_ring_ne _ (Ne.symm hr), hs]
      exact hmark

theorem Hub.writeUnit_markOk {k : Fin 16} {r : Fin 17} {o : Offer} {unit : Word} {n : Option Word}
    (hm : g.MayWrite r o unit n) (hk : g.MarkOk k) : (g.writeUnit r o unit n).MarkOk k := by
  obtain ⟨hown, hmark⟩ := hk
  have hstream : ((g.writeUnit r o unit n).stream k).global = (g.stream k).global ∧
      ((g.writeUnit r o unit n).stream k).releaseMark = (g.stream k).releaseMark := by
    rw [Hub.writeUnit_stream]
    split <;> exact ⟨rfl, rfl⟩
  have hcount := hm.count
  refine ⟨fun hg => ?_, ?_⟩
  · rw [hstream.1] at hg
    have hr : k.castSucc ≠ r := by
      rintro rfl
      have hk := Fin.castSucc_injective _ (hm.ring_own (ownRing_ne_ringG k))
      exact ownRing_ne_ringG k (hm.ring.trans (if_pos (hk ▸ hg)))
    by_cases hs : r = 16 ∧ k = o.stream
    · obtain ⟨rfl, rfl⟩ := hs
      rw [Hub.writeUnit_ring_own]
      exact hown hg
    · rw [Hub.writeUnit_ring_ne _ hr fun h16 hk => hs ⟨h16, Fin.castSucc_injective _ hk⟩]
      exact hown hg
  · rw [hstream.2]
    by_cases hr : r = 16
    · subst hr
      rw [Hub.writeUnit_ring_self]
      change ((g.ring 16).head + 1 - _).toNat ≤ ((g.ring 16).index ++ [_]).length
      rw [List.length_append, List.length_singleton]
      bv_omega
    · rw [Hub.writeUnit_ring_ne _ (Ne.symm hr) fun h16 => absurd h16 hr]
      exact hmark

theorem Hub.Tame.ringsOrdered (ht : g.Tame strict h) (hg : g.RingsOrdered) : h.RingsOrdered := by
  obtain ⟨hrings, hmarks⟩ := hg
  refine ⟨fun r => ⟨(ht.rings r).ordered (hrings r).1, fun htaken => ?_⟩, fun k => ⟨fun hglobal => ?_, ?_⟩⟩
  · rw [(ht.rings r).send, (ht.rings r).head]
    exact (ht.taken r htaken).elim (hrings r).2 id
  · have hempty := ((ht.streams k).global hglobal).elim (hmarks k).1 id
    have hcount := (ht.rings k.castSucc).count
    rw [hempty] at hcount
    exact List.length_eq_zero_iff.mp hcount
  · rw [(ht.rings 16).head, (ht.rings 16).count]
    obtain hm | hm := (ht.streams k).mark
    · rw [hm]
      exact (hmarks k).2
    · rw [hm]
      simp

theorem Hub.moveSend_ringsOrdered {r : Fin 17} {w : Word} (hg : g.RingsOrdered)
    (hw : ((g.ring r).head - w).toNat ≤ (g.ring r).index.length) : (g.moveSend r w).RingsOrdered := by
  obtain ⟨hrings, hmarks⟩ := hg
  have hring q : ∃ w', (g.moveSend r w).ring q = { g.ring q with send := w' } := by
    by_cases hq : q = r
    · subst hq
      exact ⟨w, g.moveSend_self q w⟩
    · exact ⟨_, g.moveSend_ne w hq⟩
  refine ⟨fun q => ?_, fun k => ?_⟩
  · by_cases hq : q = r
    · subst hq
      exact Hub.RingOk.moveSend (hrings q) hw
    · exact Hub.RingOk.congr (hrings q) (g.moveSend_ne w hq) (g.moveSend_sends_ne hq w)
  · obtain ⟨w₁, h₁⟩ := hring k.castSucc
    obtain ⟨w₂, h₂⟩ := hring 16
    rw [Hub.moveSend_stream, h₁, h₂]
    exact hmarks k

theorem Hub.writeUnit_ringsOrdered {r : Fin 17} {o : Offer} {unit : Word} {n : Option Word} (hg : g.RingsOrdered)
    (hm : g.MayWrite r o unit n) : (g.writeUnit r o unit n).RingsOrdered := by
  obtain ⟨hrings, hmarks⟩ := hg
  have hpaths (q : Fin 17) : (g.writeUnit r o unit n).paths.sends[q] = g.paths.sends[q] := by
    simp only [Hub.writeUnit_paths]
  refine ⟨fun q => ?_, fun k => Hub.writeUnit_markOk hm (hmarks k)⟩
  by_cases hq : q = r
  · subst hq
    exact Hub.RingOk.writeUnit (hrings q) hm
  · by_cases hs : r = 16 ∧ q = o.stream.castSucc
    · obtain ⟨rfl, rfl⟩ := hs
      have hempty : (g.ring o.stream.castSucc).index = [] := (hmarks o.stream).1 hm.stream_global
      obtain ⟨⟨hoff, hsend, -⟩, htaken⟩ := hrings o.stream.castSucc
      refine ⟨?_, fun ht => ?_⟩
      · rw [Hub.writeUnit_ring_own]
        exact Ring.ordered_nil hoff hempty rfl
      · rw [hpaths] at ht
        have hne := htaken ht
        rw [hempty] at hsend
        have h0 : ((g.ring o.stream.castSucc).head - (g.ring o.stream.castSucc).send).toNat = 0 := Nat.le_zero.mp hsend
        exact absurd (by bv_omega) hne
    · exact Hub.RingOk.congr (hrings q) (g.writeUnit_ring_ne hq (fun h16 hk => hs ⟨h16, hk⟩) unit n) (hpaths q)

/-- A change keeps rings within their bounds in order. -/
theorem Hub.Change.ringsOrdered (hc : g.Change strict h) (hfit : g.RingsFit) (hg : g.RingsOrdered) :
    h.RingsOrdered := by
  cases hc with
  | tame ht => exact ht.ringsOrdered hg
  | moveSend r w hw => exact Hub.moveSend_ringsOrdered hg (hw (hg.1 r).1 (hg.1 r).2)
  | emptyRing r =>
    refine ⟨fun q => ?_, fun k => Hub.emptyRing_markOk r (hg.1 16).1 (hfit 16) (hg.2 k)⟩
    by_cases hq : q = r
    · subst hq
      exact Hub.RingOk.emptyRing (hg.1 q)
    · exact Hub.RingOk.congr (hg.1 q) (g.emptyRing_ne hq) (g.emptyRing_sends_ne hq)
  | dropTail r e hi hu =>
    refine ⟨fun q => ?_, fun k => Hub.dropTail_markOk (hg.1 16).1 (hfit 16) hi (hg.2 k)⟩
    by_cases hq : q = r
    · subst hq
      exact Hub.RingOk.dropTail (hg.1 q) (hfit q) hi hu
    · exact Hub.RingOk.congr (hg.1 q) (g.dropTail_ring_ne hq e) (by simp only [Hub.dropTail_paths])
  | writeUnit r o unit n hm => exact Hub.writeUnit_ringsOrdered hg hm

/-! ### Every move -/

/-- R31, R36: a store in form, and in order where `ordered` says so. -/
structure Hub.StoreOk (h : Hub) (ordered : Prop) : Prop where
  memory : h.MemoryOk
  fit : h.RingsFit
  order : ordered → h.RingsOrdered

variable {ordered : Prop}

theorem Hub.Change.storeOk (hc : g.Change strict h) (hg : g.StoreOk ordered) : h.StoreOk ordered :=
  ⟨hc.memoryOk hg.memory, hc.ringsFit hg.fit, fun ho => hc.ringsOrdered hg.fit (hg.order ho)⟩

theorem Hub.Evolves.storeOk (he : g.Evolves strict h) (hg : g.StoreOk ordered) : h.StoreOk ordered :=
  he.keeps (fun _ _ => Hub.Change.storeOk) hg

theorem Hub.reset_ring (h : Hub) (r : Fin 17) : h.reset.ring r = (h.ring r).hubReset := by
  simp [Hub.reset, Hub.formLamps, Hub.ring, Store.hubReset]

theorem Hub.reset_sends (h : Hub) (r : Fin 17) : h.reset.paths.sends[r] = .released := by
  simp [Hub.reset, Hub.formLamps, Paths.hubReset]

theorem Hub.StoreOk.reset (hg : g.StoreOk ordered) : g.reset.StoreOk ordered := by
  refine ⟨hg.memory, fun r => ?_, fun ho => ⟨fun r => ?_, fun k => ?_⟩⟩
  · rw [Hub.reset_ring]
    exact ⟨Nat.zero_le _, Nat.zero_le _⟩
  · have hpos : 0 < (g.ring r).sectors := Nat.lt_of_le_of_lt (Nat.zero_le _) ((hg.order ho).1 r).1.1
    rw [Hub.reset_ring, Hub.reset_sends]
    exact ⟨Ring.ordered_nil hpos rfl rfl, fun ht => absurd rfl ht⟩
  · rw [Hub.reset_stream, Hub.reset_ring, Hub.reset_ring]
    exact ⟨fun _ => rfl, by simp [Ring.hubReset, Stream.hubReset]⟩

theorem Hub.released_ring (strap : BitVec 16) (supw : Bool) (e : Env) (r : Fin 17) :
    (Hub.released strap supw e).ring r = .released := by
  simp [Hub.released, Hub.ring, Store.released]

theorem Hub.released_sends (strap : BitVec 16) (supw : Bool) (e : Env) (r : Fin 17) :
    (Hub.released strap supw e).paths.sends[r] = .released := by
  simp [Hub.released, Paths.released]

theorem Hub.released_storeOk (strap : BitVec 16) (supw : Bool) (e : Env) :
    (Hub.released strap supw e).StoreOk ordered := by
  refine ⟨rfl, fun r => ?_, fun _ => ⟨fun r => ?_, fun k => ?_⟩⟩
  · rw [Hub.released_ring]
    exact ⟨Nat.zero_le _, Nat.zero_le _⟩
  · rw [Hub.released_ring, Hub.released_sends]
    exact ⟨Ring.ordered_nil (by decide) rfl rfl, fun ht => absurd rfl ht⟩
  · rw [Hub.released_stream, Hub.released_ring, Hub.released_ring]
    exact ⟨fun _ => rfl, by simp [Ring.released, Stream.released]⟩

theorem Hub.Move.storeOk (hm : g.Move h) (hg : g.StoreOk ordered) : h.StoreOk ordered := by
  cases hm with
  | change hc => exact hc.storeOk hg
  | goAbsent p n =>
    exact (Hub.goAbsent_evolves (strict := True) g p n).storeOk ⟨hg.memory, hg.fit, hg.order⟩
  | sliceEnd k coded => exact (Hub.sliceEnd_evolves g k coded).storeOk hg
  | resetCoder k => exact (Hub.resetCoder_evolves g k).storeOk hg
  | reset => exact hg.reset
  | released strap supw e => exact Hub.released_storeOk strap supw e

end

/-- Settles O56: every move keeps the Store in form and, where it is so, in order. -/
theorem storeStaysInForm : Obligations.StoreStaysInForm := by
  intro s t hm hf hstep
  have hok : t.hub.StoreOk s.hub.RingsOrdered := (step_moves hstep).keeps (fun _ _ => Hub.Move.storeOk) ⟨hm, hf, id⟩
  exact ⟨hok.memory, hok.fit, hok.order⟩

/-- Settles O60: reset leaves the hub as a release of the RESET pin does, which leaves every property. -/
theorem resetIsSound : Obligations.ResetIsSound := by
  have hstore : State.reset.hub.StoreOk True := Hub.released_storeOk 0 false {}
  have hpaths : State.reset.hub.PathsOk := Hub.released_pathsOk 0 false {}
  have hports := Hub.released_portFree 0 false {}
  have hbounds : State.reset.hub.Bounded True True True True := Hub.released_bounded 0 false {}
  exact ⟨hstore.memory, hstore.fit, hstore.order trivial, hpaths.1, hpaths.2, (Hub.absentHoldNothing_iff _).mpr hports,
    hbounds.lists trivial, hbounds.rights trivial, hbounds.engines trivial, Hub.released_buffersFit 0 false {},
    hbounds.clips trivial⟩

end Sys2Proof.Machine
end

section
/-! Proofs: what notices an operation can give.  A queue only takes offers (R184), so what an operation leaves of the notice
state is said by the kinds that it offers (`Hub.Heard`), as `Hub.OnlyChanges` says what it leaves of the other parts. -/

namespace Sys2Proof.Machine

-- In order, so that the package in one text stays within the memory of its check.
set_option Elab.async false

/-! ### One offer (R184, R185) -/

theorem getLsbD_setBit (w : Word) {m n : Nat} (hm : m < 32) :
    (setBit w m).getLsbD n = (w.getLsbD n || decide (n = m)) := by
  simp only [setBit, BitVec.getLsbD_or, BitVec.getLsbD_shiftLeft, BitVec.getLsbD_one]
  by_cases hn : n = m
  · subst hn
    simp [hm]
  · have : ¬ (n < 32 ∧ m ≤ n ∧ n - m = 0) := by omega
    by_cases h₁ : n < 32 <;> by_cases h₂ : n < m <;> simp [hn, h₁, h₂]
    omega

theorem NoticeKind.code_lt (k : NoticeKind) : k.code < 23 := by cases k <;> decide

section
variable (n : NoticePort) (x : Notice)

@[simp] theorem NoticePort.raise_summary : n.raise.summary = n.summary := by
  unfold NoticePort.raise; split <;> rfl

@[simp] theorem NoticePort.raise_mask : n.raise.mask = n.mask := by
  unfold NoticePort.raise; split <;> rfl

@[simp] theorem NoticePort.raise_queue : n.raise.queue = n.queue := by
  unfold NoticePort.raise; split <;> rfl

@[simp] theorem NoticePort.overflow_mask : (n.overflow x).mask = n.mask := by
  unfold NoticePort.overflow; split <;> simp [NoticePort.join, NoticePort.lose]

theorem NoticePort.overflow_summary : (n.overflow x).summary = setBit n.summary 23 := by
  unfold NoticePort.overflow; split <;> simp [NoticePort.join, NoticePort.lose]

@[simp] theorem NoticePort.offer_mask : (n.offer x).mask = n.mask := by
  unfold NoticePort.offer
  dsimp only
  split
  · rfl
  · split
    · simp [NoticePort.join]
    · simp

/-- An offer sets the summary flag of its kind, and that of NOTICE_LOST at most. -/
theorem NoticePort.offer_summary {c : Nat} (hc : c < 23) :
    (n.offer x).summary.getLsbD c = (n.summary.getLsbD c || decide (c = x.kind.code)) := by
  have hx := x.kind.code_lt
  unfold NoticePort.offer
  dsimp only
  split
  · exact getLsbD_setBit _ (by omega)
  · split
    · simp [NoticePort.join, getLsbD_setBit _ (show x.kind.code < 32 by omega)]
    · have hne : c ≠ 23 := by omega
      simp [NoticePort.overflow_summary, getLsbD_setBit _ (show 23 < 32 by omega),
        getLsbD_setBit _ (show x.kind.code < 32 by omega), hne]

/-- An entry that is no SUPPLY_WARN joins behind the others where the mask passes it and the queue has room. -/
theorem NoticePort.offer_queue (hx : x.kind ≠ .supplyWarn) :
    (n.offer x).queue =
      if n.mask.getLsbD x.kind.code = true ∧ n.queue.length < 32 then n.queue ++ [x] else n.queue := by
  unfold NoticePort.offer
  dsimp only
  by_cases hm : n.mask.getLsbD x.kind.code = true
  · by_cases hq : n.queue.length < 32
    · simp [hm, hq, NoticePort.join]
    · simp [hm, hq, NoticePort.overflow, hx, NoticePort.lose]
  · simp [hx, hm]

end

/-! ### Offers of some kinds -/

/-- From one hub to another the ports keep their rights, and each has been offered notices of the listed kinds alone. -/
def Hub.Heard (kinds : List NoticeKind) (g h : Hub) : Prop :=
  ∀ p : Fin 4, ∃ xs : List Notice, (∀ x ∈ xs, x.kind ∈ kinds) ∧ h.notices[p] = xs.foldl NoticePort.offer g.notices[p]

section
variable {kinds : List NoticeKind} {a b c : Hub}

theorem Hub.Heard.refl (kinds : List NoticeKind) (h : Hub) : Hub.Heard kinds h h := fun _ => ⟨[], by simp, rfl⟩

theorem Hub.Heard.of_eq (h : b.notices = a.notices) : Hub.Heard kinds a b := fun _ => ⟨[], by simp, by rw [h]; rfl⟩

theorem Hub.Heard.trans (h₁ : Hub.Heard kinds a b) (h₂ : Hub.Heard kinds b c) : Hub.Heard kinds a c := fun p => by
  obtain ⟨xs, hxs, hb⟩ := h₁ p
  obtain ⟨ys, hys, hc⟩ := h₂ p
  refine ⟨xs ++ ys, fun x hx => ?_, by rw [List.foldl_append, ← hb, hc]⟩
  exact (List.mem_append.mp hx).elim (hxs x) (hys x)

theorem Hub.Heard.mono {small large : List NoticeKind} (h : Hub.Heard small a b)
    (hs : ∀ x, x ∈ small → x ∈ large) : Hub.Heard large a b := fun p => by
  obtain ⟨xs, hxs, hb⟩ := h p
  exact ⟨xs, fun x hx => hs _ (hxs x hx), hb⟩

theorem Hub.Heard.ite {p : Prop} [Decidable p] (h₁ : Hub.Heard kinds a b) (h₂ : Hub.Heard kinds a c) :
    Hub.Heard kinds a (if p then b else c) := by
  split
  · exact h₁
  · exact h₂

theorem Hub.Heard.opt {p : Prop} [Decidable p] (h₁ : Hub.Heard kinds a b) (h₂ : Hub.Heard kinds b c) :
    Hub.Heard kinds a (if p then c else b) := .ite (h₁.trans h₂) h₁

theorem Hub.Heard.foldl {α : Type} {f : Hub → α → Hub} (hf : ∀ (h : Hub) x, Hub.Heard kinds h (f h x)) :
    ∀ (xs : List α) (h : Hub), Hub.Heard kinds h (xs.foldl f h)
  | [], h => .refl _ h
  | x :: xs, h => (hf h x).trans (Hub.Heard.foldl hf xs (f h x))

theorem Hub.Heard.forEach {n : Nat} {f : Fin n → Hub → Hub} (hf : ∀ i (h : Hub), Hub.Heard kinds h (f i h)) (h : Hub) :
    Hub.Heard kinds h (h.forEach n f) := Hub.Heard.foldl (fun h i => hf i h) _ h

/-- Where the notices stay none is offered. -/
theorem Hub.OnlyChanges.heard {parts : List Part} (h : Hub.OnlyChanges parts a b) (hn : Part.notices ∉ parts) :
    Hub.Heard kinds a b := .of_eq (h .notices hn).symm

/-- A summary flag that is set stays. -/
theorem Hub.Heard.summary_mono (h : Hub.Heard kinds a b) (p : Fin 4) {k : Nat} (hk : k < 23)
    (ha : (a.notices[p]).summary.getLsbD k = true) : (b.notices[p]).summary.getLsbD k = true := by
  obtain ⟨xs, -, hb⟩ := h p
  rw [hb]
  generalize a.notices[p] = n at ha
  clear hb
  induction xs generalizing n with
  | nil => exact ha
  | cons x xs ih => exact ih _ (by rw [NoticePort.offer_summary _ _ hk, ha]; rfl)

/-- The summary flag of a kind that is not offered stays as it is. -/
theorem Hub.Heard.summary_eq (h : Hub.Heard kinds a b) (p : Fin 4) {k : Nat} (hk : k < 23)
    (hn : ∀ x ∈ kinds, x.code ≠ k) : (b.notices[p]).summary.getLsbD k = (a.notices[p]).summary.getLsbD k := by
  obtain ⟨xs, hxs, hb⟩ := h p
  rw [hb]
  generalize a.notices[p] = n
  clear hb
  induction xs generalizing n with
  | nil => rfl
  | cons x xs ih =>
    have hx : k ≠ x.kind.code := fun he => hn _ (hxs x (by simp)) he.symm
    rw [List.foldl_cons, ih (fun y hy => hxs y (by simp [hy])), NoticePort.offer_summary _ _ hk]
    simp [hx]

@[simp] theorem NoticePort.offers_mask (xs : List Notice) (n : NoticePort) :
    (xs.foldl NoticePort.offer n).mask = n.mask := by
  induction xs generalizing n with
  | nil => rfl
  | cons x xs ih => rw [List.foldl_cons, ih, NoticePort.offer_mask]

theorem Hub.Heard.mask_eq (h : Hub.Heard kinds a b) (p : Fin 4) : (b.notices[p]).mask = (a.notices[p]).mask := by
  obtain ⟨xs, -, hb⟩ := h p
  rw [hb, NoticePort.offers_mask]

/-- Without a SUPPLY_WARN an entry that is in a queue stays in it. -/
theorem Hub.Heard.queue_prefix (h : Hub.Heard kinds a b) (p : Fin 4) (hn : NoticeKind.supplyWarn ∉ kinds) :
    (a.notices[p]).queue <+: (b.notices[p]).queue := by
  obtain ⟨xs, hxs, hb⟩ := h p
  rw [hb]
  generalize a.notices[p] = n
  clear hb
  induction xs generalizing n with
  | nil => exact List.prefix_rfl
  | cons x xs ih =>
    refine List.IsPrefix.trans ?_ (ih (fun y hy => hxs y (by simp [hy])) (n.offer x))
    rw [NoticePort.offer_queue _ _ fun hk => hn (hk ▸ hxs x (by simp))]
    split
    · exact List.prefix_append _ _
    · exact List.prefix_rfl

end

section
variable {kinds : List NoticeKind} (h : Hub)

theorem Hub.give_heard {x : Notice} (hx : x.kind ∈ kinds) : Hub.Heard kinds h (h.give x) := fun p => by
  rw [Hub.give_notices]
  split
  · exact ⟨[x], by simpa using hx, rfl⟩
  · exact ⟨[], by simp, rfl⟩

theorem Hub.notify_heard {k : NoticeKind} (hk : k ∈ kinds) (n : Nat) : Hub.Heard kinds h (h.notify k n) := h.give_heard hk

/-- A notice for every port sets its summary flag at every port. -/
theorem Hub.notify_summary {k : NoticeKind} (n : Nat) {p : Fin 4}
    (ha : h.audience { kind := k, param := BitVec.ofNat 32 n, serial := h.tb.frame.serial } p = true) :
    ((h.notify k n).notices[p]).summary.getLsbD k.code = true := by
  rw [Hub.notify, Hub.give_notices, if_pos ha, NoticePort.offer_summary _ _ k.code_lt]
  simp

/-- Where the mask passes it and the queue has room, the entry joins behind the others. -/
theorem Hub.notify_queue {k : NoticeKind} (n : Nat) {p : Fin 4} (hk : k ≠ .supplyWarn)
    (ha : h.audience { kind := k, param := BitVec.ofNat 32 n, serial := h.tb.frame.serial } p = true)
    (hm : (h.notices[p]).mask.getLsbD k.code = true) (hq : (h.notices[p]).queue.length < 32) :
    ((h.notify k n).notices[p]).queue =
      (h.notices[p]).queue ++ [{ kind := k, param := BitVec.ofNat 32 n, serial := h.tb.frame.serial }] := by
  rw [Hub.notify, Hub.give_notices, if_pos ha, NoticePort.offer_queue _ _ hk]
  exact if_pos ⟨hm, hq⟩

end

end Sys2Proof.Machine
end

section
/-! Proofs: the kinds of notice that each shared operation can offer. -/

namespace Sys2Proof.Machine

-- In order, so that the package in one text stays within the memory of its check.
set_option Elab.async false

/-- The kinds of notice that an offered unit and a label can bring. -/
def unitKinds : List NoticeKind := [.unsentLost, .ringHalf, .ringWrap, .clipClosed, .clipLapsed, .triggerFired]

/-- The kinds that a change of stream state brings (R125, R139). -/
def stateKinds : List NoticeKind := [.streamState, .budgetChange, .starved, .clipClosed]

/-- The kinds that the Picture Coder brings beside those of units and stream states. -/
def coderKinds : List NoticeKind := [.inputState, .pictureDrop] ++ stateKinds ++ unitKinds

/-- The kinds that the Gauge brings (R117, R122). -/
def gaugeKinds : List NoticeKind := [.gaugeDone, .budgetChange, .starved]

/-- The kinds that a change of path state brings (R92). -/
def pathKinds : List NoticeKind := [.pathState] ++ gaugeKinds ++ unitKinds

/-- The kinds that an absence brings (R179). -/
def absenceKinds : List NoticeKind := [.portAbsent] ++ stateKinds ++ pathKinds

/-! ### What offers nothing -/

section
variable {kinds : List NoticeKind} (h : Hub)

theorem Hub.modStream_heard (k : Fin 16) (f : Stream → Stream) : Hub.Heard kinds h (h.modStream k f) := .of_eq rfl

theorem Hub.modRing_heard (r : Fin 17) (f : Ring → Ring) : Hub.Heard kinds h (h.modRing r f) := .of_eq rfl

theorem Hub.modCoder_heard (k : Fin 4) (f : Coder → Coder) : Hub.Heard kinds h (h.modCoder k f) := .of_eq rfl

theorem Hub.modInput_heard (i : Fin 4) (f : VideoInput → VideoInput) : Hub.Heard kinds h (h.modInput i f) := .of_eq rfl

theorem Hub.modPath_heard (p : Fin 8) (f : Path → Path) : Hub.Heard kinds h (h.modPath p f) := .of_eq rfl

theorem Hub.modBond_heard (j : Fin 4) (f : Bond → Bond) : Hub.Heard kinds h (h.modBond j f) := .of_eq rfl

theorem Hub.modGauge_heard (p : Fin 8) (f : Gauge → Gauge) : Hub.Heard kinds h (h.modGauge p f) := .of_eq rfl

theorem Hub.modBus_heard (k : Fin 16) (f : Bus → Bus) : Hub.Heard kinds h (h.modBus k f) := .of_eq rfl

theorem Hub.modPack_heard (k : Fin 8) (f : Pack → Pack) : Hub.Heard kinds h (h.modPack k f) := .of_eq rfl

theorem Hub.modTrigger_heard (t : Fin 4) (f : Trigger → Trigger) : Hub.Heard kinds h (h.modTrigger t f) := .of_eq rfl

theorem Hub.modPort_heard (p : Fin 4) (f : PortRecord → PortRecord) : Hub.Heard kinds h (h.modPort p f) := .of_eq rfl

theorem Hub.modLog_heard (f : ClipLog → ClipLog) : Hub.Heard kinds h (h.modLog f) := .of_eq rfl

theorem Hub.mapClips_heard (f : Clip → Clip) : Hub.Heard kinds h (h.mapClips f) := .of_eq rfl

theorem Hub.withTally_heard (t : Tally) : Hub.Heard kinds h { h with tally := t } := .of_eq rfl

theorem Hub.withMixer_heard (m : Mixer) : Hub.Heard kinds h { h with mixer := m } := .of_eq rfl

theorem Hub.withBudget_heard (b : Budget) : Hub.Heard kinds h { h with budget := b } := .of_eq rfl

theorem Hub.withTimebase_heard (t : Timebase) : Hub.Heard kinds h { h with tb := t } := .of_eq rfl

end

section
variable (h : Hub)

/-! ### Budget and clips -/

theorem Hub.recompute_heard : Hub.Heard [.budgetChange, .starved] h h.recompute := by
  unfold Hub.recompute
  refine Hub.Heard.trans (h.withBudget_heard h.budgetNow) (.trans (.ite (.refl _ _) ?_)
    (.forEach (fun _ g => .ite (g.notify_heard (by decide) _) (.refl _ _)) _))
  exact Hub.notify_heard _ (by decide) _

theorem Hub.finishClips_heard : Hub.Heard [.clipClosed] h h.finishClips :=
  .foldl (fun g c => .trans (g.mapClips_heard _) (Hub.notify_heard _ (by decide) _)) _ _

theorem Hub.testClips_heard (k : Fin 16) (dated : Option Word) : Hub.Heard [.clipClosed] h (h.testClips k dated) :=
  .trans (h.mapClips_heard _) (Hub.finishClips_heard _)

theorem Hub.lapse_heard (n : Word) : Hub.Heard [.clipLapsed] h (h.lapse n) :=
  .trans (.trans (h.mapClips_heard _) (Hub.modLog_heard _ _)) (Hub.notify_heard _ (by decide) _)

theorem Hub.lapseRetainers_heard (k : Fin 16) (u : Word) :
    ∀ (n : Nat) (h : Hub), Hub.Heard [.clipLapsed] h (Hub.lapseRetainers k u n h)
  | 0, h => .refl _ h
  | n + 1, h => by
    unfold Hub.lapseRetainers
    split
    · exact .refl _ h
    · exact (h.lapse_heard _).trans (Hub.lapseRetainers_heard k u n _)

/-! ### Streams and units -/

theorem Hub.streamChanged_heard (k : Fin 16) : Hub.Heard stateKinds h (h.streamChanged k) :=
  ((h.calmDeficits_only k.castSucc).heard (by decide)).trans (((Hub.notify_heard _ (by decide) _)).trans
    (((Hub.recompute_heard _).mono (by decide)).trans ((Hub.testClips_heard _ k none).mono (by decide))))

/-- Every change of a stream's state gives STREAM_STATE to every port. -/
theorem Hub.streamChanged_summary (k : Fin 16) (p : Fin 4) :
    ((h.streamChanged k).notices[p]).summary.getLsbD 4 = true := by
  have hn : (((h.calmDeficits k.castSucc).notify .streamState k.val).notices[p]).summary.getLsbD 4 = true :=
    Hub.notify_summary _ (k := .streamState) k.val rfl
  have hlater := ((Hub.recompute_heard ((h.calmDeficits k.castSucc).notify .streamState k.val)).mono
    (large := stateKinds) (by decide)).trans ((Hub.testClips_heard _ k none).mono (by decide))
  exact hlater.summary_mono p (by decide) hn

theorem Hub.endClosing_heard (k : Fin 16) : Hub.Heard stateKinds h (h.endClosing k) :=
  Hub.Heard.trans (.ite ((h.endHold_only k).heard (by decide)) (.refl _ _))
    (.trans (Hub.modStream_heard _ k _) (Hub.streamChanged_heard _ k))

theorem Hub.endClosing_summary (k : Fin 16) (p : Fin 4) :
    ((h.endClosing k).notices[p]).summary.getLsbD 4 = true := Hub.streamChanged_summary _ k p

theorem Hub.releaseHold_heard (k : Fin 16) : Hub.Heard stateKinds h (h.releaseHold k) :=
  Hub.Heard.trans ((h.endHold_only k).heard (by decide)) (.trans (Hub.modStream_heard _ k _) (Hub.streamChanged_heard _ k))

theorem Hub.releaseHold_summary (k : Fin 16) (p : Fin 4) :
    ((h.releaseHold k).notices[p]).summary.getLsbD 4 = true := Hub.streamChanged_summary _ k p

theorem Hub.loseUnsent_heard (r : Fin 17) (e : Entry) : Hub.Heard [.unsentLost] h (h.loseUnsent r e) := by
  have h₁ : Hub.Heard [.unsentLost] h
      ((h.moveSend r (e.key r + 1)).modStream e.stream fun st => { st with lost := st.lost + 1 }) :=
    ((h.moveSend_only r _).heard (by decide)).trans (Hub.modStream_heard _ _ _)
  unfold Hub.loseUnsent
  dsimp only
  split
  · exact h₁
  · exact h₁.trans (Hub.notify_heard _ (by decide) _)

theorem Hub.removeTail_heard (r : Fin 17) (e : Entry) :
    Hub.Heard [.unsentLost, .clipLapsed] h (h.removeTail r e) := by
  unfold Hub.removeTail
  dsimp only
  refine .opt (.trans (.opt (.opt (.refl _ _) ((Hub.lapseRetainers_heard _ _ _ h).mono (by decide)))
    ((Hub.loseUnsent_heard _ r e).mono (by decide))) (Hub.modRing_heard _ r _)) ((Hub.carryMarks_only _ _).heard (by decide))

theorem Hub.makeRoom_heard (r : Fin 17) (len : Nat) :
    ∀ (n : Nat) (h : Hub), Hub.Heard [.unsentLost, .clipLapsed] h (Hub.makeRoom r len n h)
  | 0, h => .refl _ h
  | n + 1, h => by
    unfold Hub.makeRoom
    split
    · split
      · exact .refl _ h
      · exact (h.removeTail_heard r _).trans (Hub.makeRoom_heard r len n _)
    · exact .refl _ h

theorem Hub.ringNotices_heard (r : Fin 17) (start len : Nat) :
    Hub.Heard [.ringHalf, .ringWrap] h (h.ringNotices r start len) := by
  unfold Hub.ringNotices
  exact .ite (h.notify_heard (by decide) _) (.ite (h.notify_heard (by decide) _) (.refl _ _))

theorem Hub.commit_heard (o : Offer) : Hub.Heard unitKinds h (h.commit o).1 := by
  unfold Hub.commit
  refine ((Hub.makeRoom_heard _ _ _ h).mono (by decide)).trans
    (((Hub.writeUnit_only _ _ o _ _).heard (by decide)).trans
      (((Hub.ringNotices_heard _ _ _ _).mono (by decide)).trans ((Hub.mapClips_heard _ _).trans (Hub.mapClips_heard _ _))))

theorem Hub.judge_heard (o : Offer) : Hub.Heard unitKinds h (h.judge o).1 := by
  have hd : Hub.Heard unitKinds h (h.countDiscard o.stream) := h.modStream_heard _ _
  unfold Hub.judge
  dsimp only
  split
  · exact .refl _ h
  · split
    · exact hd
    · split
      · exact hd
      · split
        · exact hd
        · exact h.commit_heard o

theorem Hub.offer_heard (o : Offer) : Hub.Heard unitKinds h (h.offer o).1 :=
  (h.judge_heard o).trans ((Hub.testClips_heard _ _ _).mono (by decide))

/-! ### Labels -/

theorem Hub.fired_heard (t : Fin 4) : Hub.Heard [.triggerFired] h (h.fired t) :=
  .trans (h.modTrigger_heard t _) (Hub.notify_heard _ (by decide) _)

theorem Hub.attemptFire_heard (t : Fin 4) : Hub.Heard [.triggerFired] h (h.attemptFire t).1 := by
  unfold Hub.attemptFire
  repeat' split
  · exact h.modTrigger_heard t _
  · exact .trans (h.modLog_heard _) (Hub.fired_heard _ t)
  · exact h.modTrigger_heard t _
  · exact .trans (h.mapClips_heard _) (Hub.fired_heard _ t)

theorem Hub.offerTriggers_heard (d : Draft) : Hub.Heard [.triggerFired] h (h.offerTriggers d).1 := by
  have key : ∀ (ts : List (Fin 4)) (x : Hub × List Draft), Hub.Heard [.triggerFired] x.1
      (ts.foldl (fun x t =>
        if (x.1.log.triggers[t]).matches d then ((x.1.attemptFire t).1, x.2 ++ (x.1.attemptFire t).2) else x) x).1 := by
    intro ts
    induction ts with
    | nil => exact fun x => .refl _ _
    | cons t ts ih =>
      intro x
      refine Hub.Heard.trans ?_ (ih _)
      dsimp only
      split
      · exact x.1.attemptFire_heard t
      · exact .refl _ _
  exact key (List.finRange 4) (h, [])

theorem Hub.offerLabel_heard (number : Word) (d : Draft) : Hub.Heard unitKinds h (h.offerLabel number d) :=
  .ite (h.offer_heard _) (.refl _ _)

theorem Hub.fileLabel_heard (d : Draft) (named : Option Word) : Hub.Heard unitKinds h (h.fileLabel d named).1 := by
  unfold Hub.fileLabel
  split
  · exact .trans (.trans (h.modLog_heard _) (Hub.modLog_heard _ _)) (Hub.offerLabel_heard _ _ _)
  · exact h.modLog_heard _

theorem Hub.arriveLabel_heard (d : Draft) (named : Option Word) :
    Hub.Heard unitKinds h (h.arriveLabel d named).1 := by
  rw [Hub.arriveLabel_fst]
  exact (((h.offerTriggers_heard d).mono (by decide)).trans (Hub.fileLabel_heard _ d named)).trans
    (.foldl (fun g t => g.fileLabel_heard t none) _ _)

theorem Hub.label_heard (d : Draft) : Hub.Heard unitKinds h (h.label d) := h.arriveLabel_heard d none

/-! ### The Picture Coder -/

theorem Hub.offerPicture_heard (k : Fin 4) (o : Offer) : Hub.Heard unitKinds h (h.offerPicture k o).1 :=
  .trans (h.modCoder_heard k _) (Hub.offer_heard _ _)

theorem Hub.offerSubstitute_heard (k : Fin 4) (f : Flight) (black : Bool) :
    Hub.Heard unitKinds h (h.offerSubstitute k f black) := .trans (h.modCoder_heard k _) (Hub.offerPicture_heard _ k _)

theorem Hub.flush_heard (k : Fin 4) : ∀ (n : Nat) (h : Hub), Hub.Heard unitKinds h (Hub.flush k n h)
  | 0, h => .refl _ h
  | n + 1, h => by
    unfold Hub.flush
    split
    · exact .refl _ h
    · split
      · exact .refl _ h
      · exact .trans (.trans (h.modCoder_heard k _) (Hub.offerSubstitute_heard _ k _ _)) (Hub.flush_heard k n _)

theorem Hub.settle_heard (k : Fin 4) : Hub.Heard (stateKinds ++ unitKinds) h (h.settle k) :=
  .opt ((Hub.flush_heard k _ h).mono (by decide)) ((Hub.endClosing_heard _ _).mono (by decide))

theorem Hub.dropPicture_heard (k : Fin 4) (f : Flight) (why : DropReason) :
    Hub.Heard ([.pictureDrop] ++ unitKinds) h (h.dropPicture k f why) :=
  .trans (h.modCoder_heard k _) ((Hub.notify_heard _ (k := .pictureDrop) (by decide) _).trans
    (((Hub.label_heard _ _).mono (by decide)).trans ((Hub.testClips_heard _ _ _).mono (by decide))))

theorem Hub.dropPicture_summary (k : Fin 4) (f : Flight) (why : DropReason) (p : Fin 4) :
    ((h.dropPicture k f why).notices[p]).summary.getLsbD 10 = true := by
  refine Hub.Heard.summary_mono (kinds := unitKinds) (((Hub.label_heard _ _)).trans
    ((Hub.testClips_heard _ (pictureStream k) (some f.frame.serial)).mono (by decide))) p (by decide) ?_
  exact Hub.notify_summary _ (k := .pictureDrop) _ rfl

theorem Hub.inputChanged_heard (i : Fin 4) (kind : LabelKind) :
    Hub.Heard ([.inputState] ++ unitKinds) h (h.inputChanged i kind) :=
  (h.notify_heard (by decide) _).trans ((Hub.label_heard _ _).mono (by decide))

theorem Hub.inputChanged_summary (i : Fin 4) (kind : LabelKind) (p : Fin 4) :
    ((h.inputChanged i kind).notices[p]).summary.getLsbD 9 = true :=
  (Hub.label_heard (h.notify .inputState i.val) _).summary_mono p (by decide)
    (Hub.notify_summary _ (k := .inputState) _ rfl)

theorem Hub.abortFrom_heard (i k : Fin 4) : Hub.Heard (stateKinds ++ unitKinds) h (Hub.abortFrom i k h) := by
  unfold Hub.abortFrom
  exact .ite (.refl _ h) (.trans (h.modCoder_heard k _) (Hub.settle_heard _ k))

theorem Hub.loseInput_heard (i : Fin 4) : Hub.Heard coderKinds h (h.loseInput i) :=
  .trans (.trans (h.modInput_heard i _) (Hub.withTally_heard _ _))
    (((Hub.inputChanged_heard _ i .inputLoss).mono (by decide)).trans
    (.forEach (fun k g => (g.abortFrom_heard i k).mono (by decide)) _))

theorem Hub.loseInput_summary (i p : Fin 4) : ((h.loseInput i).notices[p]).summary.getLsbD 9 = true :=
  Hub.Heard.summary_mono (kinds := stateKinds ++ unitKinds) (.forEach (fun k g => g.abortFrom_heard i k) _) p (by decide)
    (Hub.inputChanged_summary _ i .inputLoss p)

theorem Hub.tickInput_heard (i : Fin 4) : Hub.Heard coderKinds h (Hub.tickInput i h) := by
  have h₀ : Hub.Heard coderKinds h (h.modInput i fun x => { x with delivered := [] }) := h.modInput_heard i _
  unfold Hub.tickInput
  dsimp only
  refine .ite (.ite h₀ (h₀.trans (Hub.loseInput_heard _ i)))
    (.ite ?_ (h₀.trans ((Hub.modInput_heard _ i _).trans (Hub.withTally_heard _ _))))
  exact (h₀.trans (Hub.modInput_heard _ i _)).trans ((Hub.inputChanged_heard _ i .inputReturn).mono (by decide))

theorem Hub.lateDrop_heard (k : Fin 4) : Hub.Heard coderKinds h (Hub.lateDrop k h) := by
  unfold Hub.lateDrop
  split
  · exact .refl _ h
  · refine .ite (.trans (h.modCoder_heard k _) (((Hub.dropPicture_heard _ k _ .late).mono (by decide)).trans
      ((Hub.settle_heard _ k).mono (by decide)))) (.refl _ h)

theorem Hub.beginPicture_heard (k : Fin 4) : Hub.Heard coderKinds h (Hub.beginPicture k h) := by
  unfold Hub.beginPicture
  dsimp only
  refine .ite (.ite (((h.forgetRates_only k).heard (by decide)).trans (Hub.modCoder_heard _ k _)) ?_) (.refl _ h)
  exact .trans (h.modCoder_heard k _) ((Hub.settle_heard _ k).mono (by decide))

theorem Hub.tickCoder_heard : Hub.Heard coderKinds h h.tickCoder :=
  .trans (.trans (.forEach (fun k g => g.lateDrop_heard k) _) (.forEach (fun i g => g.tickInput_heard i) _))
    (.forEach (fun k g => g.beginPicture_heard k) _)

/-! ### The Sound Mixer -/

/-- The kinds that the Sound Mixer brings at a tick. -/
def mixerKinds : List NoticeKind := [.audioOverload] ++ stateKinds ++ unitKinds

theorem Hub.judgeOverload_heard (ended : Frame) (k : Fin 16) :
    Hub.Heard ([.audioOverload] ++ unitKinds) h (h.judgeOverload ended k) := by
  unfold Hub.judgeOverload
  exact .ite (.refl _ h) (.trans (.trans (h.modBus_heard k _) ((Hub.label_heard _ _).mono (by decide)))
    (Hub.give_heard _ (by decide : NoticeKind.audioOverload ∈ [NoticeKind.audioOverload] ++ unitKinds)))

theorem Hub.judgeSilence_heard (ended : Frame) (k : Fin 16) : Hub.Heard unitKinds h (h.judgeSilence ended k) := by
  unfold Hub.judgeSilence
  dsimp only
  exact .ite (.ite (.trans (h.modBus_heard k _) (Hub.label_heard _ _)) (h.modBus_heard k _))
    (.ite (.trans (h.modBus_heard k _) (Hub.label_heard _ _)) (h.modBus_heard k _))

theorem Hub.tickPack_heard (ended : Frame) (n : Nat) (k : Fin 8) :
    Hub.Heard (stateKinds ++ unitKinds) h (Hub.tickPack ended n k h) := by
  have hoffer : Hub.Heard (stateKinds ++ unitKinds) h
      (match (h.mixer.packs[k]).state with
        | .packing => (((h.startPack k).modPack k fun p => { p with offered := p.offered + 1 }).offer
            (h.soundOffer ended n k)).1
        | .void => (h.startPack k).modPack k fun p => { p with voided := p.voided + 1 }
        | .idle => h.startPack k) := by
    split
    · exact .trans (.trans (h.modPack_heard k _) (Hub.modPack_heard _ k _)) ((Hub.offer_heard _ _).mono (by decide))
    · exact .trans (h.modPack_heard k _) (Hub.modPack_heard _ k _)
    · exact h.modPack_heard k _
  exact .opt hoffer ((Hub.endClosing_heard _ _).mono (by decide))

theorem Hub.tickMixer_heard (old : Timebase) : Hub.Heard mixerKinds h (h.tickMixer old) := by
  unfold Hub.tickMixer
  dsimp only
  refine .trans (.trans (.trans (h.withMixer_heard _) (.forEach (fun k g => ?_) _)) (.forEach (fun k g => ?_) _))
    (Hub.withMixer_heard _ _)
  · exact ((g.judgeOverload_heard old.frame k).mono (by decide)).trans ((Hub.judgeSilence_heard _ _ k).mono (by decide))
  · exact (g.tickPack_heard _ _ k).mono (by decide)

/-! ### Gauges and paths -/

theorem Hub.endManual_heard (p : Fin 8) (n : Nat) : Hub.Heard [.gaugeDone] h (h.endManual p n) :=
  .trans (h.modGauge_heard p _) (Hub.notify_heard _ (by decide) _)

theorem Hub.abortManual_heard (p : Fin 8) : Hub.Heard [.gaugeDone] h (Hub.abortManual p h) :=
  .ite (.refl _ h) (h.endManual_heard p _)

theorem Hub.gaugeLeave_heard (p : Fin 8) : Hub.Heard [.gaugeDone] h (h.gaugeLeave p) :=
  .trans (h.modGauge_heard p _) (Hub.abortManual_heard _ p)

theorem Hub.endCycle_heard (p : Fin 8) (v0 t1 : Nat) : Hub.Heard gaugeKinds h (h.endCycle p v0 t1) :=
  .trans (.trans (h.modGauge_heard p _) (Hub.notify_heard _ (k := .gaugeDone) (by decide) _))
    ((Hub.recompute_heard _).mono (by decide))

theorem Hub.endCycle_summary (p : Fin 8) (v0 t1 : Nat) (q : Fin 4) :
    ((h.endCycle p v0 t1).notices[q]).summary.getLsbD 14 = true :=
  (Hub.recompute_heard _).summary_mono q (by decide) (Hub.notify_summary _ (k := .gaugeDone) _ rfl)

theorem Hub.endManual_summary (p : Fin 8) (n : Nat) (q : Fin 4) :
    ((h.endManual p n).notices[q]).summary.getLsbD 14 = true := Hub.notify_summary _ (k := .gaugeDone) _ rfl

theorem Hub.endStep2_heard (p : Fin 8) (t1 : Nat) : Hub.Heard gaugeKinds h (h.endStep2 p t1) :=
  .trans (h.modGauge_heard p _) (Hub.endCycle_heard _ p _ t1)

theorem Hub.autoIncrement_heard (p : Fin 8) (n : Nat) : Hub.Heard gaugeKinds h (h.autoIncrement p n) := by
  unfold Hub.autoIncrement
  dsimp only
  split
  · exact .refl _ h
  · exact h.modGauge_heard p _
  · exact .opt (h.modGauge_heard p _) (Hub.endStep2_heard _ p _)

theorem Hub.manualIncrement_heard (p : Fin 8) (n : Nat) : Hub.Heard [.gaugeDone] h (h.manualIncrement p n) := by
  unfold Hub.manualIncrement
  dsimp only
  exact .ite (.opt (h.modGauge_heard p _) (Hub.endManual_heard _ p _)) (.refl _ h)

theorem Hub.increment_heard (p : Fin 8) (n : Nat) : Hub.Heard gaugeKinds h (h.increment p n) :=
  (h.autoIncrement_heard p n).trans ((Hub.manualIncrement_heard _ p n).mono (by decide))

theorem Hub.beginStep1_heard (p : Fin 8) : Hub.Heard gaugeKinds h (Hub.beginStep1 p h) :=
  .ite (h.modGauge_heard p _) (.refl _ h)

theorem Hub.endStep1_heard (p : Fin 8) : Hub.Heard gaugeKinds h (Hub.endStep1 p h) := by
  unfold Hub.endStep1
  exact .ite (.trans (h.modGauge_heard p _) (Hub.endCycle_heard _ p _ _))
    (.trans (h.modGauge_heard p _) (Hub.modGauge_heard _ p _))

theorem Hub.tickAuto_heard (p : Fin 8) : Hub.Heard gaugeKinds h (Hub.tickAuto p h) := by
  unfold Hub.tickAuto
  exact .ite (.ite ((h.endStep1_heard p).trans (Hub.beginStep1_heard _ p)) (h.modGauge_heard p _)) (h.beginStep1_heard p)

theorem Hub.tickManual_heard (p : Fin 8) : Hub.Heard [.gaugeDone] h (Hub.tickManual p h) := by
  unfold Hub.tickManual
  dsimp only
  split
  · exact .refl _ h
  · exact h.modGauge_heard p _
  · exact .ite (h.endManual_heard p _) (h.modGauge_heard p _)

theorem Hub.afterChange_heard (p : Fin 8) (old : Path) (s : PathState) (why : DownReason) :
    Hub.Heard pathKinds h (h.afterChange p old s why) := by
  unfold Hub.afterChange
  refine .trans (.opt (.trans
    (.trans (.opt (.refl _ h) (Hub.modBond_heard _ _ _)) (Hub.notify_heard _ (k := .pathState) (by decide) _))
    ((Hub.label_heard _ _).mono (by decide))) ((Hub.gaugeLeave_heard _ p).mono (by decide)))
    ((Hub.recompute_heard _).mono (by decide))

theorem Hub.evaluatePath_heard (p : Fin 8) : Hub.Heard pathKinds h (Hub.evaluatePath p h) := by
  unfold Hub.evaluatePath
  refine .ite (h.modPath_heard p _) ?_
  rw [Hub.changePath_eq]
  exact .trans (h.modPath_heard p _) (Hub.afterChange_heard _ p _ _ _)

end

end Sys2Proof.Machine
end

section
/-! Proofs: the step, and the Port Controller at the taking of a command (R171).  Every command of a master port is served
under its header; a refusal of the Port Controller answers, and its block is not reached. -/

namespace Sys2Proof.Machine

-- In order, so that the package in one text stays within the memory of its check.
set_option Elab.async false

/-- Settles O1. -/
theorem stepTakesFront : Obligations.StepTakesFront := fun _ _ _ => rfl

/-- Every command of a master port is served under its header. -/
theorem exec_of_header {i : Instr} {H : Header} (hi : header i = some H) :
    ∃ block, ∀ s : State, exec i s = s.run (serve H.caller H.code H.cls H.stream block) := by
  cases i
  all_goals cases hi
  all_goals exact ⟨_, fun _ => rfl⟩

/-- A refusal of the Port Controller is answered, and changes nothing else. -/
theorem State.run_refused {s : State} {c : Caller} {code : Byte} {cls : Option CommandClass} {st : Option Byte}
    {o : Answer} (hs : s.held = false) (hr : (s.hub.ports[c.port]).refusal code cls st = some o)
    (block : Hub → Hub × Reply) :
    s.run (serve c code cls st block) =
      s.became ((s.hub.arrive c.env).answer c code o ((s.hub.ports[c.port]).resultData (.plain o))) := by
  have hr' : ((s.hub.arrive c.env).ports[c.port]).refusal code cls st = some o := hr
  rw [State.run_free hs]
  simp only [serve, hr']
  rfl

section
variable {p : PortRecord} {code : Byte} {cls : Option CommandClass} {st : Option Byte}

/-- R171 step 1. -/
theorem PortRecord.refusal_absent (hp : p.present = false) (hc : code ≠ 1) : p.refusal code cls st = some .absent :=
  if_pos ⟨hp, hc⟩

/-- R171 step 3. -/
theorem PortRecord.refusal_class (hp : p.present = true) {k : CommandClass} (hk : p.classes.getLsbD k.bit = false) :
    p.refusal code (some k) st = some .denied := by
  simp [PortRecord.refusal, hp, hk]

/-- R171 step 4. -/
theorem PortRecord.refusal_stream (hp : p.present = true) (hc : ∀ k, cls = some k → p.classes.getLsbD k.bit = true)
    {n : Byte} (hn : n.toNat < 16) (hs : p.streams.getLsbD n.toNat = false) :
    p.refusal code cls (some n) = some .denied := by
  cases cls with
  | none => simp [PortRecord.refusal, hp, hn, hs, -BitVec.getLsbD_eq_getElem]
  | some k => simp [PortRecord.refusal, hp, hn, hs, hc k rfl, -BitVec.getLsbD_eq_getElem]

end

/-- Settles O3: the three checks of the Port Controller, each by what it makes of the port's record. -/
theorem rightsAreChecked : Obligations.RightsAreChecked := by
  intro i H s hi hs
  obtain ⟨block, hexec⟩ := exec_of_header hi
  refine ⟨fun hp hc => ?_, fun hp ⟨k, hk, hclass⟩ => ?_, fun hp hclass ⟨n, hn, hlt, hstream⟩ => ?_⟩
  · rw [hexec, State.run_refused hs (PortRecord.refusal_absent hp hc)]
    rfl
  · rw [hexec, State.run_refused hs (o := .denied) (by rw [hk]; exact PortRecord.refusal_class hp hclass)]
    rfl
  · rw [hexec, State.run_refused hs (o := .denied) (by rw [hn]; exact PortRecord.refusal_stream hp hclass hlt hstream)]
    rfl

/-! ### Answers on the link -/

section
variable (h : Hub) (c : Caller) (code : Byte) (o : Answer) (data : Bytes)

/-- The response that a command leaves on the link of its port. -/
theorem Hub.answer_sending : ((h.answer c code o data).ports[c.port]).sending =
    some (false, { tag := c.tag, code := code, outcome := o, data := data }) := by
  simp [Hub.answer]

/-- From the moment of a command to its answer the block's changes and the port are all. -/
theorem Hub.OnlyChanges.answered {parts : List Part} {g t : Hub} (ht : Hub.OnlyChanges parts (g.arrive c.env) t)
    (hp : Part.ports ∈ parts) : Hub.OnlyChanges parts g (t.answer c code o data) :=
  ((g.arrive_only c.env).mono (by simp)).trans (ht.trans ((t.answer_only c code o data).mono (by simpa using hp)))

end

/-- What a command became has what its hub has. -/
theorem exists_became {s : State} {x : Host.Outcome State Fault Refusal} {h : Hub} {P : State → Prop}
    (hx : x = s.became h) (hP : P { s with hub := h }) : ∃ t, x = .next t ∧ P t := ⟨_, hx, hP⟩

/-! ### Numbers out of range -/

theorem below_eq_none {n : Nat} {b : Byte} (hb : n ≤ b.toNat) : below n b = none := dif_neg (Nat.not_lt.mpr hb)

theorem below_eq_some {n : Nat} {b : Byte} (hb : b.toNat < n) : below n b = some ⟨b.toNat, hb⟩ := dif_pos hb

/-- A served command whose stream byte names no stream. -/
theorem State.Serves.run_badStream {c : Caller} {code : Byte} {cls : Option CommandClass} {n : Byte} {s : State}
    (hs : s.Serves c cls none) (hn : 15 < n.toNat) {block : Hub → Hub × Reply} {h : Hub} {o : Answer} {data : Bytes}
    (hb : block (s.hub.arrive c.env) = (h, { outcome := o, data := data })) (ho : o ≠ .denied) :
    s.run (serve c code cls (some n) block) = s.became (h.answer c code o data) :=
  hs.run_eq (fun m hm hlt => by cases hm; omega) hb ho

section
variable {h : Hub} {n : Byte} (hn : 15 < n.toNat)
include hn

theorem Hub.openStream_badStream : h.openStream n = h.refuse .badArg := by
  rw [Hub.openStream, below_eq_none hn]

theorem Hub.holdStream_badStream (p : Fin 4) (a : Byte) : h.holdStream p n a = h.refuse .badArg := by
  rw [Hub.holdStream, below_eq_none hn]

theorem Hub.releaseStream_badStream : h.releaseStream n = h.refuse .badArg := by
  rw [Hub.releaseStream, below_eq_none hn]

theorem Hub.closeStream_badStream : h.closeStream n = h.refuse .badArg := by
  rw [Hub.closeStream, below_eq_none hn]

theorem Hub.setStream_badStream (a : Byte) : h.setStream n a = h.refuse .badArg := by
  rw [Hub.setStream, below_eq_none hn]

theorem Hub.fetch_badStream (u offset : Word) (length : BitVec 16) : h.fetch n u offset length = h.refuse .badArg := by
  rw [Hub.fetch, below_eq_none hn]

theorem Hub.readStream_badStream : h.readStream n = h.refuse .badArg := by
  rw [Hub.readStream, below_eq_none hn]

theorem Hub.readUnit_badStream (u : Word) : h.readUnit n u = h.refuse .badArg := by
  rw [Hub.readUnit, below_eq_none hn]

end

/-- Settles O11: each command of section 2.2 refuses the number first. -/
theorem streamNumberIsChecked : Obligations.StreamNumberIsChecked := by
  intro c n a u offset length s hs hn
  exact ⟨hs.run_badStream hn (Hub.openStream_badStream hn) nofun,
    hs.run_badStream hn (Hub.holdStream_badStream hn _ a) nofun,
    hs.run_badStream hn (Hub.releaseStream_badStream hn) nofun,
    hs.run_badStream hn (Hub.closeStream_badStream hn) nofun,
    hs.run_badStream hn (Hub.setStream_badStream hn a) nofun,
    hs.run_badStream hn (Hub.fetch_badStream hn u offset length) nofun,
    hs.run_badStream hn (Hub.readStream_badStream hn) nofun,
    hs.run_badStream hn (Hub.readUnit_badStream hn u) nofun⟩

end Sys2Proof.Machine
end

section
/-! Proofs: the commands on stream states (R21 to R26).  What each leaves of the streams and rings follows from the changes of
state it is made of; the frame is that of `Hub.streamChanged`. -/

namespace Sys2Proof

/-! ### Operands -/

theorem twoWay_eq_none {b : Byte} (hb : 1 < b.toNat) : twoWay b = none := by
  have h₀ : b ≠ 0 := by rintro rfl; simp at hb
  have h₁ : b ≠ 1 := by rintro rfl; simp at hb
  rw [twoWay, if_neg h₀, if_neg h₁]

theorem twoWay_eq_some {b : Byte} (hb : b.toNat ≤ 1) : twoWay b = some (decide (b = 1)) := by
  have hb' : b = 0 ∨ b = 1 := by
    obtain h | h : b.toNat = 0 ∨ b.toNat = 1 := by omega
    · exact .inl (BitVec.eq_of_toNat_eq h)
    · exact .inr (BitVec.eq_of_toNat_eq h)
  obtain rfl | rfl := hb' <;> rfl

@[simp] theorem twoWay_byte (b : Bool) : twoWay (Machine.byte b.toNat) = some b := by cases b <;> rfl

end Sys2Proof

namespace Sys2Proof.Machine

-- In order, so that the package in one text stays within the memory of its check.
set_option Elab.async false

theorem below_stream (k : Fin 16) : below 16 (byte k.val) = some k := below_byte k (by omega)

theorem pictureOf_eq_some {k : Fin 16} {j : Fin 4} : pictureOf k = some j ↔ j.val = k.val := by
  unfold pictureOf
  split
  · simp [Fin.ext_iff, eq_comm]
  · simp only [reduceCtorEq, false_iff]
    omega

theorem pictureOf_eq_none {k : Fin 16} : pictureOf k = none ↔ 4 ≤ k.val := by
  unfold pictureOf
  split
  · simp only [reduceCtorEq, false_iff]
    omega
  · simp only [true_iff]
    omega

/-! ### The state a change leaves -/

section
variable (h : Hub)

@[simp] theorem Hub.streamChanged_ring (k : Fin 16) (r : Fin 17) : (h.streamChanged k).ring r = h.ring r :=
  (h.streamChanged_only k).ring_eq (by decide) r

@[simp] theorem Hub.streamChanged_sends (k : Fin 16) : (h.streamChanged k).paths.sends = h.paths.sends := by
  have hlater : Hub.OnlyChanges [.budget, .log, .notices] (h.calmDeficits k.castSucc) (h.streamChanged k) :=
    ((Hub.notify_only _ _ _).mono (by simp)).trans
      (((Hub.recompute_only _).mono (by simp)).trans ((Hub.testClips_only _ _ _).mono (by simp)))
  have hs : (h.calmDeficits k.castSucc).paths.sends = (h.streamChanged k).paths.sends ∧ _ := hlater .sending (by decide)
  rw [← hs.1, Hub.calmDeficits_sends]

@[simp] theorem Hub.streamChanged_coders (k : Fin 16) : (h.streamChanged k).coders = h.coders :=
  (h.streamChanged_only k .coders (by decide)).symm

/-- R23: an OWN ring's send pointer moves to the head, a GLOBAL stream leaves its own ring as it is. -/
theorem Hub.endHold_ring_self (k : Fin 16) :
    (h.endHold k).ring k.castSucc =
      if (h.stream k).global then h.ring k.castSucc
      else { h.ring k.castSucc with send := (h.ring k.castSucc).head } := by
  unfold Hub.endHold
  split <;> simp

theorem Hub.endHold_ring_ne {k : Fin 16} {r : Fin 17} (hr : r ≠ k.castSucc) : (h.endHold k).ring r = h.ring r := by
  unfold Hub.endHold
  split
  · simp
  · simp [Hub.moveSend_ne _ _ hr]

theorem Hub.releaseHold_ring (k : Fin 16) (r : Fin 17) : (h.releaseHold k).ring r = (h.endHold k).ring r := by
  unfold Hub.releaseHold
  simp

/-- R25: what the end of CLOSING makes of its stream. -/
theorem Hub.endClosing_self (k : Fin 16) :
    (h.endClosing k).stream k =
      { (if (h.stream k).fromHeld then (h.endHold k).stream k else h.stream k) with
        state := .closed, setter := none, fromHeld := false } := by
  unfold Hub.endClosing
  split <;> simp

theorem Hub.endClosing_ne {k j : Fin 16} (hj : j ≠ k) : (h.endClosing k).stream j = h.stream j := by
  unfold Hub.endClosing
  split
  · rw [Hub.streamChanged_stream, Hub.modStream_ne _ _ hj, Hub.endHold_ne _ hj]
  · rw [Hub.streamChanged_stream, Hub.modStream_ne _ _ hj]

theorem Hub.endClosing_ring (k : Fin 16) (r : Fin 17) :
    (h.endClosing k).ring r = if (h.stream k).fromHeld then (h.endHold k).ring r else h.ring r := by
  unfold Hub.endClosing
  split <;> simp

theorem Hub.discardBuffer_ne {k j : Fin 16} (hj : j ≠ k) : (h.discardBuffer k).stream j = h.stream j := by
  unfold Hub.discardBuffer Hub.countDiscard
  split
  · rfl
  · rw [Hub.modStream_ne _ _ hj, Hub.modStream_ne _ _ hj]

@[simp] theorem Hub.discardBuffer_ring (k : Fin 16) (r : Fin 17) : (h.discardBuffer k).ring r = h.ring r :=
  (h.discardBuffer_only k).ring_eq (by decide) r

end

/-! ### OPEN STREAM (R21, R53) -/

section
variable {h : Hub} (k : Fin 16)

/-- R53: the engine-load check fails for a picture stream that the engines have no room for. -/
theorem Hub.loadAllows_iff :
    h.loadAllows k = true ↔ ¬ ∃ j : Fin 4, j.val = k.val ∧ 4 < h.engineLoad + (h.coders[j]).format.load := by
  unfold Hub.loadAllows
  cases hj : pictureOf k with
  | none =>
    have hk := pictureOf_eq_none.mp hj
    simp only [true_iff]
    rintro ⟨i, hi, -⟩
    omega
  | some j =>
    have hjk := pictureOf_eq_some.mp hj
    simp only [decide_eq_true_eq]
    constructor
    · rintro hle ⟨i, hi, hlt⟩
      obtain rfl : i = j := Fin.ext (hi.trans hjk.symm)
      omega
    · intro hn
      by_contra hlt
      exact hn ⟨j, hjk, by omega⟩

theorem Hub.openStream_refused
    (hr : (h.stream k).state ≠ .closed ∨ (h.ring (h.boundRing k)).enabled = false ∨ h.loadAllows k = false) :
    h.openStream (byte k.val) = h.refuse .conflict := by
  simp only [Hub.openStream, below_stream]
  exact if_pos (by simpa using hr)

/-- The hub that an accepted OPEN STREAM makes. -/
def Hub.opened (h : Hub) (k : Fin 16) : Hub :=
  (((h.modStream k fun st => { st with state := .opened, setter := none }).openPicture k).streamChanged k)

theorem Hub.openStream_accepted (hs : (h.stream k).state = .closed) (he : (h.ring (h.boundRing k)).enabled = true)
    (hl : h.loadAllows k = true) : h.openStream (byte k.val) = (h.opened k).ok := by
  simp only [Hub.openStream, below_stream]
  exact if_neg (by simp [hs, he, hl])

theorem Hub.openPicture_only (h : Hub) (k : Fin 16) : Hub.OnlyChanges [.coders, .budget] h (h.openPicture k) := by
  unfold Hub.openPicture
  split
  · exact .refl _ h
  · intro x hx; cases x <;> simp_all [Part.same]

theorem Hub.openPicture_coders (j : Fin 4) :
    (h.openPicture k).coders[j] =
      if j.val = k.val then
        { h.coders[j] with built := false, sourceChange := false, remembered := (h.coders[j]).source }
      else h.coders[j] := by
  cases hp : pictureOf k with
  | none =>
    have hk := pictureOf_eq_none.mp hp
    simp only [Hub.openPicture, hp]
    rw [if_neg (by omega)]
  | some i =>
    have hi := pictureOf_eq_some.mp hp
    simp only [Hub.openPicture, hp]
    by_cases hj : j = i
    · subst hj
      rw [if_pos hi]
      exact vectorSet_self _ _ _
    · rw [if_neg fun hk => hj (Fin.ext (hk.trans hi.symm))]
      exact vectorSet_ne _ hj _

theorem Hub.opened_only (h : Hub) (k : Fin 16) :
    Hub.OnlyChanges [.streams, .coders, .sending, .budget, .log, .ports, .notices] h (h.opened k) :=
  ((h.modStream_only k _).mono (by simp)).trans (((Hub.openPicture_only _ k).mono (by simp)).trans
    ((Hub.streamChanged_only _ k).mono (by simp)))

theorem Hub.opened_self : (h.opened k).stream k = { h.stream k with state := .opened, setter := none } := by
  rw [Hub.opened, Hub.streamChanged_stream, (Hub.openPicture_only _ k).stream_eq (by decide), Hub.modStream_self]

theorem Hub.opened_ne {k j : Fin 16} (hj : j ≠ k) : (h.opened k).stream j = h.stream j := by
  rw [Hub.opened, Hub.streamChanged_stream, (Hub.openPicture_only _ k).stream_eq (by decide), Hub.modStream_ne _ _ hj]

theorem Hub.opened_coders (j : Fin 4) :
    (h.opened k).coders[j] =
      if j.val = k.val then
        { h.coders[j] with built := false, sourceChange := false, remembered := (h.coders[j]).source }
      else h.coders[j] := by
  simp only [Hub.opened, Hub.streamChanged_coders]
  exact Hub.openPicture_coders k j

end

/-- Settles O12: the refusals in one test, and `Hub.opened`. -/
theorem openStreamOpens : Obligations.OpenStreamOpens := by
  intro c k s hs
  have hload := Hub.loadAllows_iff (h := s.hub.arrive c.env) k
  refine ⟨fun hr => hs.run_stream (Hub.openStream_refused (h := s.hub.arrive c.env) k ?_) nofun, fun hc he hl =>
    exists_became (hs.run_stream (Hub.openStream_accepted (h := s.hub.arrive c.env) k hc he (hload.mpr hl)) nofun) ?_⟩
  · refine hr.imp_right (Or.imp_right fun ho => ?_)
    rw [← Bool.not_eq_true, hload, not_not]
    exact ho
  · simp only [Hub.answer_stream, Hub.answer_coders, Hub.answer_notices]
    exact ⟨Hub.opened_self k, fun j hj => Hub.opened_ne hj, fun j => Hub.opened_coders k j, Hub.answer_sending _ _ _ _ _,
      fun p => Hub.streamChanged_summary _ k p, (Hub.opened_only _ k).answered _ _ _ _ (by decide)⟩

/-! ### HOLD STREAM (R22) -/

section
variable {h : Hub} (k : Fin 16)

theorem Hub.holdStream_badPolicy (p : Fin 4) {a : Byte} (ha : 1 < a.toNat) :
    h.holdStream p (byte k.val) a = h.refuse .badArg := by
  simp only [Hub.holdStream, below_stream, twoWay_eq_none ha]

theorem Hub.holdStream_refused (p : Fin 4) {a : Byte} (ha : a.toNat ≤ 1) (hs : (h.stream k).state ≠ .opened) :
    h.holdStream p (byte k.val) a = h.refuse .conflict := by
  simp only [Hub.holdStream, below_stream, twoWay_eq_some ha]
  exact if_pos hs

theorem Hub.holdStream_accepted (p : Fin 4) {a : Byte} (ha : a.toNat ≤ 1) (hs : (h.stream k).state = .opened) :
    h.holdStream p (byte k.val) a =
      ((h.modStream k fun st => { st with state := .held, discard := decide (a = 1), setter := some p }).streamChanged
        k).ok := by
  simp only [Hub.holdStream, below_stream, twoWay_eq_some ha]
  exact if_neg (not_not.mpr hs)

end

/-- Settles O13: the two refusals, and a change of the stream's record with what a change of state brings. -/
theorem holdStreamHolds : Obligations.HoldStreamHolds := by
  intro c k a s hs
  refine ⟨fun ha => hs.run_stream (Hub.holdStream_badPolicy (h := s.hub.arrive c.env) k _ ha) nofun,
    fun ha hn => hs.run_stream (Hub.holdStream_refused (h := s.hub.arrive c.env) k _ ha hn) nofun,
    fun ha ho => exists_became
      (hs.run_stream (Hub.holdStream_accepted (h := s.hub.arrive c.env) k _ ha ho) nofun) ?_⟩
  simp only [Hub.answer_stream, Hub.answer_paths, Hub.answer_notices]
  refine ⟨?_, fun j hj => ?_, Hub.streamChanged_sends _ k, Hub.answer_sending _ _ _ _ _,
    fun p => Hub.streamChanged_summary _ k p, Hub.OnlyChanges.answered _ _ _ _ ?_ (by decide)⟩
  · simp
  · simp [Hub.modStream_ne _ _ hj]
  · exact ((Hub.modStream_only _ k _).mono (by simp)).trans ((Hub.streamChanged_only _ k).mono (by simp))

/-! ### RELEASE STREAM (R23) -/

section
variable {h : Hub} (k : Fin 16)

theorem Hub.releaseStream_refused (hs : (h.stream k).state ≠ .held) :
    h.releaseStream (byte k.val) = h.refuse .conflict := by
  simp only [Hub.releaseStream, below_stream]
  exact if_pos hs

theorem Hub.releaseStream_accepted (hs : (h.stream k).state = .held) :
    h.releaseStream (byte k.val) = (h.releaseHold k).ok := by
  simp only [Hub.releaseStream, below_stream]
  exact if_neg (not_not.mpr hs)

end

/-- Settles O14: the end of the hold (`Hub.endHold`), from HELD alone. -/
theorem releaseStreamReleases : Obligations.ReleaseStreamReleases := by
  intro c k s hs
  refine ⟨fun hn => hs.run_stream (Hub.releaseStream_refused (h := s.hub.arrive c.env) k hn) nofun,
    fun hh => exists_became (hs.run_stream (Hub.releaseStream_accepted (h := s.hub.arrive c.env) k hh) nofun) ?_⟩
  simp only [Hub.answer_stream, Hub.answer_ring, Hub.answer_notices]
  refine ⟨?_, fun j hj => Hub.releaseHold_ne _ hj, ?_, fun r hr => ?_, Hub.answer_sending _ _ _ _ _,
    fun p => Hub.releaseHold_summary _ k p, Hub.OnlyChanges.answered _ _ _ _ ?_ (by decide)⟩
  · rw [Hub.releaseHold_self, Hub.endHold_self]
    by_cases hg : (s.hub.stream k).global = true <;> simp [hg]
  · rw [Hub.releaseHold_ring]
    exact Hub.endHold_ring_self _ k
  · rw [Hub.releaseHold_ring, Hub.endHold_ring_ne _ hr, Hub.arrive_ring]
  · exact (Hub.releaseHold_only _ k).mono (by simp)

end Sys2Proof.Machine
end

section
/-! Proofs: CLOSE STREAM (R24, R25), SET STREAM (R26) and SET RING (R27, R28). -/

namespace Sys2Proof.Machine

-- In order, so that the package in one text stays within the memory of its check.
set_option Elab.async false

/-! ### CLOSE STREAM -/

section
variable {h : Hub} (k : Fin 16)

/-- Table 16: CLOSING ends at once for a label or aux stream, and for a picture stream with nothing in flight. -/
theorem Hub.closesAtOnce_iff :
    h.closesAtOnce k = true ↔ 12 ≤ k.val ∨ ∃ j : Fin 4, j.val = k.val ∧ (h.coders[j]).flight = [] := by
  unfold Hub.closesAtOnce
  cases hj : pictureOf k with
  | none =>
    have hk := pictureOf_eq_none.mp hj
    simp only [decide_eq_true_eq, iff_self_or]
    rintro ⟨i, hi, -⟩
    omega
  | some j =>
    have hjk := pictureOf_eq_some.mp hj
    simp only [beq_iff_eq]
    constructor
    · exact fun hf => .inr ⟨j, hjk, hf⟩
    · rintro (hk | ⟨i, hi, hf⟩)
      · omega
      · obtain rfl : i = j := Fin.ext (hi.trans hjk.symm)
        exact hf

/-- The hub of a CLOSE STREAM that has been taken: CLOSING, with the insert buffer discarded. -/
def Hub.closing (h : Hub) (k : Fin 16) : Hub :=
  (h.modStream k fun x => { x with state := .closing, fromHeld := (h.stream k).state == .held }).discardBuffer k

theorem Hub.closing_self :
    (h.closing k).stream k =
      let x := h.stream k
      { x with
        state := .closing
        fromHeld := x.state == .held
        buffer := []
        builder := if x.buffer = [] then x.builder else none
        discarded := if x.buffer = [] then x.discarded else x.discarded + 1 } := by
  rw [Hub.closing, Hub.discardBuffer_self, Hub.modStream_self]
  by_cases hb : (h.stream k).buffer = []
  · simp [hb]
  · simp [hb]

theorem Hub.closing_ne {k j : Fin 16} (hj : j ≠ k) : (h.closing k).stream j = h.stream j := by
  rw [Hub.closing, Hub.discardBuffer_ne _ hj, Hub.modStream_ne _ _ hj]

theorem Hub.closing_only (h : Hub) (k : Fin 16) : Hub.OnlyChanges [.streams] h (h.closing k) :=
  (h.modStream_only k _).trans (Hub.discardBuffer_only _ k)

@[simp] theorem Hub.closing_ring (r : Fin 17) : (h.closing k).ring r = h.ring r :=
  (h.closing_only k).ring_eq (by decide) r

theorem Hub.closing_atOnce : (h.closing k).closesAtOnce k = h.closesAtOnce k := by
  have hc : h.coders = (h.closing k).coders := h.closing_only k .coders (by decide)
  unfold Hub.closesAtOnce
  rw [← hc]

theorem Hub.closeStream_refused (hs : (h.stream k).state = .closed ∨ (h.stream k).state = .closing) :
    h.closeStream (byte k.val) = h.refuse .conflict := by
  simp only [Hub.closeStream, below_stream]
  exact if_neg (by rcases hs with hs | hs <;> simp [hs])

theorem Hub.closeStream_atOnce (hs : (h.stream k).state = .opened ∨ (h.stream k).state = .held)
    (hc : h.closesAtOnce k = true) : h.closeStream (byte k.val) = ((h.closing k).endClosing k).ok := by
  simp only [Hub.closeStream, below_stream]
  exact (if_pos hs).trans (if_pos ((Hub.closing_atOnce k).trans hc))

theorem Hub.closeStream_started (hs : (h.stream k).state = .opened ∨ (h.stream k).state = .held)
    (hc : h.closesAtOnce k ≠ true) :
    h.closeStream (byte k.val) = ((h.closing k).streamChanged k, { outcome := .started }) := by
  simp only [Hub.closeStream, below_stream]
  refine (if_pos hs).trans (if_neg fun hn => hc ?_)
  exact (Hub.closing_atOnce k).symm.trans hn

/-- The stream of a CLOSE STREAM that ends at once: a hold ends with it. -/
theorem Hub.closed_self :
    ((h.closing k).endClosing k).stream k =
      let x := h.stream k
      let ring := h.ring k.castSucc
      { (h.closing k).stream k with
        state := .closed
        setter := none
        fromHeld := false
        releaseMark := if x.state = .held ∧ x.global = true then (h.ring 16).head else x.releaseMark
        skipped := if x.state = .held ∧ x.global = false then x.skipped + (ring.head - ring.send) else x.skipped } := by
  rw [Hub.endClosing_self, Hub.endHold_self]
  simp only [Hub.closing_self, Hub.closing_ring]
  by_cases hh : (h.stream k).state = .held
  · by_cases hg : (h.stream k).global = true
    · simp [hh, hg]
    · simp [hh, hg]
  · simp [hh]

/-- A hold that ends at the close takes the OWN ring's send pointer to the head. -/
theorem Hub.closed_ring (hh : (h.stream k).state = .held) (hg : (h.stream k).global = false) :
    ((h.closing k).endClosing k).ring k.castSucc =
      { h.ring k.castSucc with send := (h.ring k.castSucc).head } := by
  rw [Hub.endClosing_ring, Hub.endHold_ring_self]
  simp [Hub.closing_self, hh, hg]

end

/-- Settles O15: the state CLOSING, and its end where Table 16 ends it at once. -/
theorem closeStreamCloses : Obligations.CloseStreamCloses := by
  intro c k s hs
  refine ⟨fun hr => hs.run_stream (Hub.closeStream_refused (h := s.hub.arrive c.env) k hr) nofun, fun ho => ?_⟩
  have hiff := Hub.closesAtOnce_iff (h := s.hub.arrive c.env) k
  by_cases hc : (s.hub.arrive c.env).closesAtOnce k = true
  · have hnow := hiff.mp hc
    refine exists_became (hs.run_stream (Hub.closeStream_atOnce (h := s.hub.arrive c.env) k ho hc) nofun) ?_
    simp only [Hub.answer_stream, Hub.answer_ring, Hub.answer_notices, Hub.closed_self, Hub.closing_self]
    refine ⟨trivial, rfl, rfl, rfl, fun j hj => ?_, fun _ => ⟨trivial, trivial, fun hh hg => ⟨?_, ?_⟩, fun hh hg => ?_,
      Hub.answer_sending _ _ _ _ _⟩, fun hn => absurd hnow hn, fun p => Hub.endClosing_summary _ k p,
      Hub.OnlyChanges.answered _ _ _ _ ?_ (by decide)⟩
    · rw [Hub.endClosing_ne _ hj, Hub.closing_ne hj]
      rfl
    · exact congrArg Ring.send (Hub.closed_ring (h := s.hub.arrive c.env) k hh hg)
    · exact if_pos ⟨hh, hg⟩
    · exact if_pos ⟨hh, hg⟩
    · exact ((Hub.closing_only _ k).mono (by simp)).trans ((Hub.endClosing_only _ k).mono (by simp))
  · have hlater := fun hn => hc (hiff.mpr hn)
    refine exists_became (hs.run_stream (Hub.closeStream_started (h := s.hub.arrive c.env) k ho hc) nofun) ?_
    have honly := ((Hub.closing_only (s.hub.arrive c.env) k).mono (large := [.streams, .sending, .budget, .log, .ports,
      .notices]) (by simp)).trans ((Hub.streamChanged_only _ k).mono (by simp))
    simp only [Hub.answer_stream, Hub.answer_store, Hub.answer_notices, Hub.streamChanged_stream, Hub.closing_self]
    refine ⟨trivial, rfl, rfl, rfl, fun j hj => ?_, fun hn => absurd hn hlater, fun _ => ⟨trivial, ?_, rfl, ?_,
      Hub.answer_sending _ _ _ _ _⟩, fun p => Hub.streamChanged_summary _ k p, Hub.OnlyChanges.answered _ _ _ _ ?_
        (by decide)⟩
    · rw [Hub.closing_ne hj]
      rfl
    · exact Bool.beq_eq_decide_eq _ _
    · exact (honly .rings (by decide)).symm
    · exact honly.mono (by simp)

/-! ### SET STREAM -/

/-- Whether a live clip covers a stream. -/
theorem Hub.coveredLive_iff (h : Hub) (k : Fin 16) :
    h.coveredLive k = true ↔ ∃ clip ∈ h.log.clips, clip.state ≠ .lapsed ∧ clip.mask.getLsbD k.val = true := by
  simp [Hub.coveredLive, Clip.live, Clip.covers]

section
variable {h : Hub} (k : Fin 16)

theorem Hub.setStream_badBinding {a : Byte} (ha : 1 < a.toNat ∨ (a = 1 ∧ k.val < 12)) :
    h.setStream (byte k.val) a = h.refuse .badArg := by
  rcases ha with ha | ⟨rfl, hk⟩
  · simp only [Hub.setStream, below_stream, twoWay_eq_none ha]
  · have h1 : twoWay 1 = some true := rfl
    simp only [Hub.setStream, below_stream, h1]
    exact if_pos ⟨trivial, hk⟩

/-- A binding that the stream can have is refused with CONFLICT, or written. -/
theorem Hub.setStream_known {global : Bool} (hg : global = true → 12 ≤ k.val) :
    h.setStream (byte k.val) (byte global.toNat) =
      if (h.stream k).state ≠ .closed ∨ h.coveredLive k = true then h.refuse .conflict
      else if global = (h.stream k).global then h.ok
      else ((if global = true then h.emptyRing k.castSucc else h).modStream k fun st => { st with global := global }).ok := by
  simp only [Hub.setStream, below_stream, twoWay_byte]
  exact if_neg fun ⟨ht, hlt⟩ => absurd (hg ht) (by omega)

end

/-- The number of entries that a test passes, as the length of the list they make. -/
theorem countP_filter_eq_length (p q : Entry → Bool) (es : List Entry) :
    (es.filter p).countP q = (es.filter fun e => q e && p e).length := by
  rw [List.countP_eq_length_filter, List.filter_filter]

/-- R28: an emptied ring's streams lose the units at or above its send pointer before they are sent. -/
theorem Hub.emptyRing_lost (h : Hub) (r : Fin 17) (k : Fin 16) :
    ((h.emptyRing r).stream k).lost = (h.stream k).lost +
      BitVec.ofNat 32 (((h.ring r).index.filter fun e => e.stream == k && h.unsent r e).length) := by
  rw [Hub.emptyRing_stream]
  dsimp only
  rw [countP_filter_eq_length]
  rfl

theorem Hub.emptyRing_frame (h : Hub) (r : Fin 17) (k : Fin 16) :
    ((h.emptyRing r).stream k).state = (h.stream k).state ∧
      ((h.emptyRing r).stream k).committed = (h.stream k).committed ∧
      ((h.emptyRing r).stream k).skipped = (h.stream k).skipped := by
  rw [Hub.emptyRing_stream]
  exact ⟨rfl, rfl, rfl⟩

theorem Hub.modGlobal_frame (h : Hub) (k j : Fin 16) (global : Bool) :
    let x := (h.modStream k fun st => { st with global := global }).stream j
    x.state = (h.stream j).state ∧ x.committed = (h.stream j).committed ∧ x.skipped = (h.stream j).skipped ∧
      x.lost = (h.stream j).lost := by
  by_cases hj : j = k
  · subst hj
    rw [Hub.modStream_self]
    exact ⟨rfl, rfl, rfl, rfl⟩
  · rw [Hub.modStream_ne _ _ hj]
    exact ⟨rfl, rfl, rfl, rfl⟩

/-- Settles O16: the refusals, the binding alone, and the binding with the emptied ring. -/
theorem setStreamBinds : Obligations.SetStreamBinds := by
  intro c k s hs
  refine ⟨fun a ha => hs.run_stream (Hub.setStream_badBinding (h := s.hub.arrive c.env) k ha) nofun, fun global hg => ?_⟩
  have hblock := Hub.setStream_known (h := s.hub.arrive c.env) k hg
  have hcov := Hub.coveredLive_iff (s.hub.arrive c.env) k
  refine ⟨fun hr => hs.run_stream (hblock.trans (if_pos (hr.imp_right hcov.mpr))) nofun, fun hc hn => ?_⟩
  have hfree : ¬ (((s.hub.arrive c.env).stream k).state ≠ .closed ∨ (s.hub.arrive c.env).coveredLive k = true) := by
    rintro (hs' | hk)
    · exact hs' hc
    · exact hn (hcov.mp hk)
  have hset := hblock.trans (if_neg hfree)
  refine ⟨fun he => hs.run_stream (hset.trans (if_pos he)) nofun, fun hf hx => ?_, fun ht hx => ?_⟩
  · subst hf
    have hne : false ≠ ((s.hub.arrive c.env).stream k).global := fun he => by simp [hx] at he
    exact hs.run_stream ((hset.trans (if_neg hne)).trans rfl) nofun
  · subst ht
    have hne : true ≠ ((s.hub.arrive c.env).stream k).global := fun he => by simp [hx] at he
    refine exists_became (hs.run_stream ((hset.trans (if_neg hne)).trans rfl) nofun) ?_
    simp only [Hub.answer_stream, Hub.answer_ring, if_pos, Hub.modStream_ring, Hub.modStream_self, Hub.emptyRing_self]
    refine ⟨trivial, rfl, fun r hr => Hub.emptyRing_ne _ hr, fun j => ?_, Hub.answer_sending _ _ _ _ _,
      Hub.OnlyChanges.answered _ _ _ _ ?_ (by decide)⟩
    · obtain ⟨hstate, hcomm, hskip, hlost⟩ := Hub.modGlobal_frame ((s.hub.arrive c.env).emptyRing k.castSucc) k j true
      obtain ⟨hstate', hcomm', hskip'⟩ := Hub.emptyRing_frame (s.hub.arrive c.env) k.castSucc j
      exact ⟨hstate.trans hstate', hcomm.trans hcomm', hskip.trans hskip', hlost.trans (Hub.emptyRing_lost _ _ j)⟩
    · exact ((Hub.emptyRing_only _ _).mono (by simp)).trans ((Hub.modStream_only _ k _).mono (by simp))

end Sys2Proof.Machine
end

section
/-! Proofs: SET RING (R27, R28), FETCH (R38, R42, R43) and the refusals of INSERT (R39). -/

namespace Sys2Proof.Machine

-- In order, so that the package in one text stays within the memory of its check.
set_option Elab.async false

/-! ### The right to a numbered stream -/

section
variable {c : Caller} {code : Byte} {cls : Option CommandClass} {st : Option Byte} {s : State} {block : Hub → Hub × Reply}
  {h : Hub} {o : Answer} {data : Bytes}

/-- A port serves with the stream that a byte names as soon as its stream mask holds it. -/
theorem State.Serves.naming (hs : s.Serves c cls none)
    (hst : ∀ n, st = some n → n.toNat < 16 → s.hub.hasStream c.port n.toNat = true) :
    ∃ stf, s.Serves c cls stf ∧ ∀ n, st = some n → n.toNat < 16 → ∃ k, stf = some k ∧ k.val = n.toNat := by
  obtain ⟨hheld, hpresent, hclass, -⟩ := hs
  by_cases hn : ∃ n, st = some n ∧ n.toNat < 16
  · obtain ⟨n, rfl, hlt⟩ := hn
    refine ⟨some ⟨n.toNat, hlt⟩, ⟨hheld, hpresent, hclass, fun k hk => ?_⟩, fun m hm _ => ?_⟩
    · cases hk
      exact hst n rfl hlt
    · cases hm
      exact ⟨_, rfl, rfl⟩
  · exact ⟨none, ⟨hheld, hpresent, hclass, nofun⟩, fun n hm hlt => absurd ⟨n, hm, hlt⟩ hn⟩

theorem State.Serves.run_naming (hs : s.Serves c cls none)
    (hst : ∀ n, st = some n → n.toNat < 16 → s.hub.hasStream c.port n.toNat = true)
    (hb : block (s.hub.arrive c.env) = (h, { outcome := o, data := data })) (ho : o ≠ .denied) :
    s.run (serve c code cls st block) = s.became (h.answer c code o data) := by
  obtain ⟨stf, hs', hst'⟩ := hs.naming hst
  exact hs'.run_eq hst' hb ho

theorem State.Serves.run_naming_denied (hs : s.Serves c cls none)
    (hst : ∀ n, st = some n → n.toNat < 16 → s.hub.hasStream c.port n.toNat = true)
    (hb : block (s.hub.arrive c.env) = (h, { outcome := .denied, data := data })) :
    s.run (serve c code cls st block) = s.became (h.answer c code .denied (h.ports[c.port]).maskData) := by
  obtain ⟨stf, hs', hst'⟩ := hs.naming hst
  exact hs'.run_denied hst' hb

end

/-- Rights to every stream of a mask. -/
theorem Hub.hasStreams_iff (h : Hub) (p : Fin 4) (mask : BitVec 16) :
    h.hasStreams p mask = true ↔ ∀ k : Fin 16, mask.getLsbD k.val = true → h.hasStream p k.val = true := by
  unfold Hub.hasStreams Hub.hasStream
  rw [beq_iff_eq]
  constructor
  · intro hz k hk
    have hbit := congrArg (fun v => v.getLsbD k.val) hz
    simpa [hk, k.isLt, -BitVec.getLsbD_eq_getElem] using hbit
  · intro hall
    refine BitVec.eq_of_getLsbD_eq fun i hi => ?_
    have hk := hall ⟨i, hi⟩
    have hz : (0 : BitVec 16).getLsbD i = false := BitVec.getLsbD_zero
    simp only [BitVec.getLsbD_and, BitVec.getLsbD_not, hi, decide_true, Bool.true_and, hz]
    cases hm : mask.getLsbD i with
    | false => rfl
    | true =>
      rw [hk hm]
      rfl

theorem getLsbD_ringGStreams (k : Fin 16) : (0xF000#16).getLsbD k.val = true ↔ 12 ≤ k.val := by
  revert k; decide

/-- R27: what DENIES ring G to a port. -/
theorem Hub.deniedRing_iff (h : Hub) (p : Fin 4) (r : Fin 17) :
    h.deniedRing p r = true ↔ r = 16 ∧ ∃ k : Fin 16, 12 ≤ k.val ∧ h.hasStream p k.val = false := by
  have hrights : h.hasStreams p 0xF000 = true ↔ ∀ k : Fin 16, 12 ≤ k.val → h.hasStream p k.val = true :=
    (h.hasStreams_iff p 0xF000).trans (forall_congr' fun k => imp_congr_left (getLsbD_ringGStreams k))
  simp only [Hub.deniedRing, Bool.and_eq_true, decide_eq_true_eq, Bool.not_eq_true', ← Bool.not_eq_true, hrights]
  simp

/-! ### SET RING -/

theorem ringSizeOk_iff (n : Nat) : ringSizeOk n = true ↔ ∃ i, i ≤ 10 ∧ n = 64 * 2 ^ i := by
  have hlist : [64, 128, 256, 512, 1024, 2048, 4096, 8192, 16384, 32768, 65536] =
      (List.range 11).map fun i => 64 * 2 ^ i := rfl
  rw [ringSizeOk, hlist]
  simp [Nat.lt_succ_iff, eq_comm]

section
variable {h : Hub} (p : Fin 4) (q : Fin 17) (base size : Word) (enabled : Bool)

theorem below_ring (q : Fin 17) : below 17 (byte q.val) = some q := below_byte q (by omega)

theorem Hub.setRing_badRing {n : Byte} (hn : 16 < n.toNat) (b : Byte) :
    h.setRing p n base size enabled b = h.refuse .badArg := by
  rw [Hub.setRing, below_eq_none (by omega)]

theorem Hub.setRing_denied (hd : h.deniedRing p q = true) (b : Byte) :
    h.setRing p (byte q.val) base size enabled b = h.refuse .denied := by
  simp only [Hub.setRing, below_ring]
  exact if_pos hd

theorem Hub.setRing_badPolicy (hd : ¬ h.deniedRing p q = true) {b : Byte} (hb : 1 < b.toNat) :
    h.setRing p (byte q.val) base size enabled b = h.refuse .badArg := by
  simp only [Hub.setRing, below_ring, twoWay_eq_none hb]
  exact if_neg hd

/-- R27 check 1: a size or a place that the part does not take. -/
def Hub.badRingSize (h : Hub) (base size : Word) : Prop :=
  ¬ ringSizeOk size.toNat = true ∨ strapBlocks h.strap < base.toNat + size.toNat

/-- R27 checks 2 to 4: a ring in use. -/
def Hub.ringInUse (h : Hub) (q : Fin 17) (base size : Word) (enabled : Bool) : Prop :=
  (∃ k, h.streamOfRing q k = true ∧ (h.stream k).state ≠ .closed) ∨
    (∃ k, h.streamOfRing q k = true ∧ h.coveredLive k = true) ∨
      (enabled = true ∧ h.overlaps q base.toNat size.toNat = true)

theorem Hub.setRing_badSize (hd : ¬ h.deniedRing p q = true) (keep : Bool) (hb : h.badRingSize base size) :
    h.setRing p (byte q.val) base size enabled (byte keep.toNat) = h.refuse .badArg := by
  simp only [Hub.setRing, below_ring, twoWay_byte]
  exact (if_neg hd).trans (if_pos hb)

theorem Hub.setRing_inUse (hd : ¬ h.deniedRing p q = true) (keep : Bool) (hb : ¬ h.badRingSize base size)
    (hu : h.ringInUse q base size enabled) :
    h.setRing p (byte q.val) base size enabled (byte keep.toNat) = h.refuse .conflict := by
  simp only [Hub.setRing, below_ring, twoWay_byte]
  refine (if_neg hd).trans ((if_neg hb).trans ?_)
  split
  · rfl
  · split
    · rfl
    · rename_i hbusy hcov
      refine if_pos ?_
      rcases hu with ⟨k, hk, hs⟩ | ⟨k, hk, hc⟩ | ho
      · exact absurd (List.any_eq_true.mpr ⟨k, List.mem_finRange k, by simp [hk, hs]⟩) hbusy
      · exact absurd (List.any_eq_true.mpr ⟨k, List.mem_finRange k, by simp [hk, hc]⟩) hcov
      · simpa using ho

/-- The hub that an accepted SET RING makes. -/
def Hub.ringSet (h : Hub) (q : Fin 17) (base size : Word) (enabled keep : Bool) : Hub :=
  (h.emptyRing q).modRing q fun x =>
    { x with base := base.toNat, size := size.toNat, enabled := enabled, keep := keep }

theorem Hub.setRing_accepted (hd : ¬ h.deniedRing p q = true) (keep : Bool) (hb : ¬ h.badRingSize base size)
    (hu : ¬ h.ringInUse q base size enabled) :
    h.setRing p (byte q.val) base size enabled (byte keep.toNat) = (h.ringSet q base size enabled keep).ok := by
  simp only [Hub.setRing, below_ring, twoWay_byte]
  refine (if_neg hd).trans ((if_neg hb).trans ((if_neg fun hany => hu ?_).trans ((if_neg fun hany => hu ?_).trans
    (if_neg fun ho => hu (.inr (.inr (by simpa using ho)))))))
  · obtain ⟨k, -, hk⟩ := List.any_eq_true.mp hany
    exact .inl ⟨k, by simpa using hk⟩
  · obtain ⟨k, -, hk⟩ := List.any_eq_true.mp hany
    exact .inr (.inl ⟨k, by simpa using hk⟩)

end

theorem Hub.streamOfRing_iff (h : Hub) (q : Fin 17) (k : Fin 16) :
    h.streamOfRing q k = true ↔ if q = 16 then (h.stream k).global = true else k.castSucc = q := by
  unfold Hub.streamOfRing
  split <;> simp

theorem Hub.overlaps_iff (h : Hub) (q : Fin 17) (base size : Nat) :
    h.overlaps q base size = true ↔ ∃ p : Fin 17, p ≠ q ∧ (h.ring p).enabled = true ∧
      base < (h.ring p).base + (h.ring p).size ∧ (h.ring p).base < base + size := by
  simp [Hub.overlaps, and_assoc]

/-- Settles O17: the refusals in their order, and the ring emptied and set. -/
theorem setRingEmpties : Obligations.SetRingEmpties := by
  intro c q base size enabled keep s hs hright g cmd denied belongs badSize busy covered shared
  have hst : ∀ n, some (byte q.val) = some n → n.toNat < 16 → s.hub.hasStream c.port n.toNat = true := by
    rintro n hn hlt
    cases hn
    have hq : (byte q.val).toNat = q.val := by simp [byte]; omega
    rw [hq] at hlt ⊢
    exact hright ⟨q.val, hlt⟩ rfl
  have hdenied : g.deniedRing c.port q = true ↔ denied := g.deniedRing_iff c.port q
  have hbad : g.badRingSize base size ↔ badSize := by
    refine or_congr_left ?_
    rw [ringSizeOk_iff]
    push Not
    rfl
  have huse : g.ringInUse q base size enabled ↔ busy ∨ covered ∨ shared := by
    have hcovered : ∀ k, g.coveredLive k = true ↔ ∃ clip ∈ s.hub.log.clips, clip.state ≠ .lapsed ∧
        clip.mask.getLsbD k.val = true := g.coveredLive_iff
    simp only [Hub.ringInUse, Hub.streamOfRing_iff, hcovered, Hub.overlaps_iff]
    exact Iff.rfl
  refine ⟨fun n b hn => hs.run_naming (fun m hm hlt => by cases hm; omega)
      (Hub.setRing_badRing (h := g) c.port base size enabled hn b) nofun,
    fun hd => hs.run_naming_denied hst (Hub.setRing_denied (h := g) c.port q base size enabled (hdenied.mpr hd) _),
    fun b hb hd => hs.run_naming hst
      (Hub.setRing_badPolicy (h := g) c.port q base size enabled (mt hdenied.mp hd) hb) nofun,
    fun hd hb => hs.run_naming hst
      (Hub.setRing_badSize (h := g) c.port q base size enabled (mt hdenied.mp hd) keep (hbad.mpr hb)) nofun,
    fun hd hb hu => hs.run_naming hst
      (Hub.setRing_inUse (h := g) c.port q base size enabled (mt hdenied.mp hd) keep (mt hbad.mp hb) (huse.mpr hu)) nofun,
    fun hd hb hbusy hcov hsh => ?_⟩
  have hu : ¬ g.ringInUse q base size enabled := fun hu => by
    rcases huse.mp hu with h₁ | h₁ | h₁
    · exact hbusy h₁
    · exact hcov h₁
    · exact hsh h₁
  refine exists_became (hs.run_naming hst
    (Hub.setRing_accepted (h := g) c.port q base size enabled (mt hdenied.mp hd) keep (mt hbad.mp hb) hu) nofun) ?_
  simp only [Hub.answer_stream, Hub.answer_ring, Hub.ringSet, Hub.modRing_stream, Hub.modRing_self, Hub.emptyRing_self]
  refine ⟨rfl, fun p hp => ?_, fun k => Hub.emptyRing_lost g q k, fun k => Hub.emptyRing_frame g q k,
    Hub.answer_sending _ _ _ _ _, Hub.OnlyChanges.answered _ _ _ _ ?_ (by decide)⟩
  · rw [Hub.modRing_ne _ _ hp, Hub.emptyRing_ne _ hp]
    rfl
  · exact ((Hub.emptyRing_only _ q).mono (by simp)).trans ((Hub.modRing_only _ q _).mono (by simp))

end Sys2Proof.Machine
end

section
/-! Proofs: FETCH (R38, R42, R43) and the INSERTs that do not complete a unit (R39). -/

namespace Sys2Proof.Machine

-- In order, so that the package in one text stays within the memory of its check.
set_option Elab.async false

/-! ### FETCH -/

section
variable {h : Hub} (k : Fin 16) (u offset : Word) {length : BitVec 16}

theorem Hub.fetch_badLength (hl : length = 0 ∨ 4096 < length.toNat) :
    h.fetch (byte k.val) u offset length = h.refuse .badArg := by
  simp only [Hub.fetch, below_stream]
  exact if_pos hl

theorem Hub.fetch_missing (hl : ¬ (length = 0 ∨ 4096 < length.toNat)) (hp : h.present k u = none) :
    h.fetch (byte k.val) u offset length = h.refuse (h.missing k u) := by
  simp only [Hub.fetch, below_stream, hp]
  exact if_neg hl

theorem Hub.fetch_badOffset (hl : ¬ (length = 0 ∨ 4096 < length.toNat)) {e : Entry} (hp : h.present k u = some e)
    (ho : e.bytes ≤ offset.toNat) : h.fetch (byte k.val) u offset length = h.refuse .badArg := by
  simp only [Hub.fetch, below_stream, hp]
  exact (if_neg hl).trans (if_pos ho)

/-- The bytes that a FETCH of an entry returns. -/
def Hub.fetched (h : Hub) (r : Fin 17) (e : Entry) (offset : Word) (length : BitVec 16) : Bytes :=
  ((asRead h.nextFault (h.unitBytes r e)).drop offset.toNat).take length.toNat

theorem Hub.fetch_reads (hl : ¬ (length = 0 ∨ 4096 < length.toNat)) {e : Entry} (hp : h.present k u = some e)
    (ho : ¬ e.bytes ≤ offset.toNat) :
    h.fetch (byte k.val) u offset length =
      ((h.meetErrors (h.boundRing k) e h.nextFault).dropFault,
        { outcome := if e.flags.damaged || h.nextFault.uncorrectable then .damaged else .done
          data := le 2 (h.fetched (h.boundRing k) e offset length).length ++
            h.fetched (h.boundRing k) e offset length }) := by
  simp only [Hub.fetch, below_stream, hp]
  exact (if_neg hl).trans (if_neg ho)

end

/-! ### Errors of a read (R42, R43) -/

section
variable (h : Hub) (r : Fin 17) (e : Entry) (f : ReadFault)

@[simp] theorem Hub.dropFault_ring (q : Fin 17) : h.dropFault.ring q = h.ring q := rfl
@[simp] theorem Hub.dropFault_stream (k : Fin 16) : h.dropFault.stream k = h.stream k := rfl
@[simp] theorem Hub.dropFault_log : h.dropFault.log = h.log := rfl
@[simp] theorem Hub.dropFault_notices : h.dropFault.notices = h.notices := rfl

/-- The corrected errors of a read are counted. -/
def Hub.countCorrected (h : Hub) (r : Fin 17) (f : ReadFault) : Hub :=
  h.modRing r fun g => { g with corrected := g.corrected + BitVec.ofNat 32 f.corrected }

/-- The flag DAMAGED of an entry is set and counted. -/
def Ring.flag (x : Ring) (e : Entry) : Ring :=
  { x with
    damaged := x.damaged + 1
    index := x.index.map fun y => if y = e then { y with flags := { y.flags with damaged := true } } else y }

/-- An uncorrectable error meets a unit that is not flagged yet. -/
def Hub.damage (h : Hub) (r : Fin 17) (e : Entry) : Hub :=
  ((h.modRing r fun x => x.flag e).notify .memoryError e.stream.val).damageClips e.stream e.unit

theorem Hub.meetErrors_calm (hf : ¬ (f.uncorrectable = true ∧ ¬ e.flags.damaged = true)) :
    h.meetErrors r e f = h.countCorrected r f := if_neg hf

theorem Hub.meetErrors_damages (hf : f.uncorrectable = true) (he : e.flags.damaged = false) :
    h.meetErrors r e f = (h.countCorrected r f).damage r e := if_pos ⟨hf, by simp [he]⟩

theorem Hub.countCorrected_only : Hub.OnlyChanges [.rings] h (h.countCorrected r f) := h.modRing_only r _

theorem Hub.damage_only : Hub.OnlyChanges [.rings, .log, .notices] h (h.damage r e) :=
  ((h.modRing_only r _).mono (by simp)).trans
    (((Hub.notify_only _ _ _).mono (by simp)).trans ((Hub.mapClips_only _ _).mono (by simp)))

@[simp] theorem Hub.countCorrected_self : (h.countCorrected r f).ring r =
    { h.ring r with corrected := (h.ring r).corrected + BitVec.ofNat 32 f.corrected } := Hub.modRing_self _ _ _

theorem Hub.countCorrected_ne {q : Fin 17} (hq : q ≠ r) : (h.countCorrected r f).ring q = h.ring q :=
  Hub.modRing_ne _ _ hq

@[simp] theorem Hub.damage_self : (h.damage r e).ring r = (h.ring r).flag e :=
  Hub.modRing_self h r fun x => x.flag e

theorem Hub.damage_ne {q : Fin 17} (hq : q ≠ r) : (h.damage r e).ring q = h.ring q :=
  h.modRing_ne (fun x => x.flag e) hq

end

/-! ### What a clip retains -/

/-- Retention follows the numbers of a stream's ring and its binding. -/
theorem Hub.retains_congr {g h : Hub} {k : Fin 16} (hn : h.nextUnit k = g.nextUnit k) (hb : h.unitBase k = g.unitBase k)
    (c : Clip) (u : Word) : h.retains c k u = g.retains c k u := by
  unfold Hub.retains
  rw [hn, hb]

/-- A ring whose entries change in their flags alone has the same tail. -/
theorem Hub.tail_map {g h : Hub} {r : Fin 17} {f : Entry → Entry} (hh : (h.ring r).head = (g.ring r).head)
    (hi : (h.ring r).index = (g.ring r).index.map f) (hf : ∀ e, (f e).key r = e.key r) : h.tail r = g.tail r := by
  unfold Hub.tail
  rw [hi, hh]
  cases (g.ring r).index with
  | nil => rfl
  | cons e es => exact hf e

/-- What keeps the streams, and of the rings all but flags, keeps the base of the unit numbers. -/
theorem Hub.unitBase_map {g h : Hub} {f : Entry → Entry} (hs : ∀ k, (h.stream k).global = (g.stream k).global)
    (hh : ∀ r, (h.ring r).head = (g.ring r).head) (hi : ∀ r, (h.ring r).index = (g.ring r).index ∨
      (h.ring r).index = (g.ring r).index.map f)
    (hf : ∀ e, (f e).stream = e.stream ∧ (f e).unit = e.unit ∧ (f e).g = e.g) (k : Fin 16) :
    h.unitBase k = g.unitBase k := by
  have hkey : ∀ r e, (f e).key r = e.key r := fun r e => by
    obtain ⟨-, hu, hg⟩ := hf e
    simp [Entry.key, hu, hg]
  have htail : ∀ r, h.tail r = g.tail r := fun r => by
    rcases hi r with hi | hi
    · exact Hub.tail_map (f := id) (hh r) (by rw [hi, List.map_id]) fun _ => rfl
    · exact Hub.tail_map (hh r) hi (hkey r)
  have hfind : ((h.ring 16).index.find? fun e => e.stream = k).map Entry.unit =
      ((g.ring 16).index.find? fun e => e.stream = k).map Entry.unit := by
    rcases hi 16 with hi | hi
    · rw [hi]
    · rw [hi, List.find?_map, Option.map_map]
      have hp : ((fun e : Entry => decide (e.stream = k)) ∘ f) = fun e => decide (e.stream = k) := by
        funext e
        simp [(hf e).1]
      have hu : Entry.unit ∘ f = Entry.unit := by
        funext e
        exact (hf e).2.1
      rw [hp, hu]
  unfold Hub.unitBase
  rw [hs, htail, show h.nextUnit k = g.nextUnit k from hh _]
  split
  · revert hfind
    cases (h.ring 16).index.find? fun e => e.stream = k <;> cases (g.ring 16).index.find? fun e => e.stream = k <;>
      simp
  · rfl

theorem Hub.damage_log (h : Hub) (r : Fin 17) (e : Entry) :
    (h.damage r e).log = { h.log with
      clips := h.log.clips.map fun c => if h.retains c e.stream e.unit then { c with damaged := true } else c } := by
  have hbase : ((h.modRing r fun x => x.flag e).notify .memoryError e.stream.val).unitBase e.stream =
      h.unitBase e.stream := by
    refine Hub.unitBase_map (g := h) (h := (h.modRing r fun x => x.flag e).notify .memoryError e.stream.val)
      (f := fun y => if y = e then { y with flags := { y.flags with damaged := true } } else y)
      (fun _ => rfl) (fun q => ?_) (fun q => ?_) (fun y => ?_) _
    · by_cases hq : q = r
      · subst hq
        exact (congrArg Ring.head (Hub.modRing_self h q fun x => x.flag e)).trans rfl
      · exact congrArg Ring.head (h.modRing_ne (fun x => x.flag e) hq)
    · by_cases hq : q = r
      · subst hq
        exact .inr ((congrArg Ring.index (Hub.modRing_self h q fun x => x.flag e)).trans rfl)
      · exact .inl (congrArg Ring.index (h.modRing_ne (fun x => x.flag e) hq))
    · dsimp only
      split <;> exact ⟨rfl, rfl, rfl⟩
  have hnext : ((h.modRing r fun x => x.flag e).notify .memoryError e.stream.val).nextUnit e.stream =
      h.nextUnit e.stream := by
    by_cases hq : e.stream.castSucc = r
    · subst hq
      have hself := Hub.modRing_self h e.stream.castSucc fun x => x.flag e
      exact (congrArg Ring.head hself).trans rfl
    · exact congrArg Ring.head (h.modRing_ne (fun x => x.flag e) hq)
  have hretains := fun c => Hub.retains_congr hnext hbase c e.unit
  simp only [Hub.damage, Hub.damageClips, hretains]
  rfl

/-- Settles O18: the cases of R38 in their order; a read without an uncorrectable error counts its corrected ones. -/
theorem fetchReturnsUnit : Obligations.FetchReturnsUnit := by
  intro c k u offset length s hs g ring found cmd
  refine ⟨fun hl => hs.run_stream (Hub.fetch_badLength (h := g) k u offset hl) nofun, fun h0 h4 => ?_⟩
  have hl : ¬ (length = 0 ∨ 4096 < length.toNat) := by
    rintro (h | h)
    · exact h0 h
    · omega
  refine ⟨fun hnone => ?_, fun e he => ⟨fun ho => hs.run_stream (Hub.fetch_badOffset (h := g) k u offset hl he ho) nofun,
    fun ho hecc => ?_⟩⟩
  · refine (hs.run_stream (Hub.fetch_missing (h := g) k u offset hl hnone) ?_).trans ?_
    · unfold Hub.missing
      split <;> exact nofun
    · have hm : g.missing k u =
          if (u - (s.hub.ring k.castSucc).head).toNat < 2147483648 then .notYet else .gone := by
        exact if_congr decide_eq_true_iff rfl rfl
      rw [hm]
  · have hcalm : g.nextFault.uncorrectable = false := by
      have hfault : g.nextFault = c.env.ecc.head?.getD {} := List.headD_eq_head?_getD
      rw [hfault]
      cases hhead : c.env.ecc.head? with
      | none => rfl
      | some f => exact hecc f (by rw [hhead]; rfl)
    have hmeet := g.meetErrors_calm ring e g.nextFault (by simp [hcalm])
    have hread := Hub.fetch_reads (h := g) k u offset (length := length) hl he (Nat.not_le.mpr ho)
    rw [show g.boundRing k = ring from rfl, hmeet, hcalm, Bool.or_false] at hread
    refine exists_became (hs.run_stream hread ?_) ?_
    · split <;> exact nofun
    · simp only [Hub.answer_ring, Hub.dropFault_ring, Hub.countCorrected_self]
      refine ⟨?_, rfl, fun r hr => Hub.countCorrected_ne _ _ _ hr, Hub.OnlyChanges.answered _ _ _ _ ?_ (by decide)⟩
      · have hdata : g.fetched ring e offset length =
            (((s.hub.ring ring).readBytes s.hub.store.mem e.start (64 + e.payload)).drop offset.toNat).take
              length.toNat := by
          simp only [Hub.fetched, asRead, hcalm]
          rfl
        rw [hdata]
        exact Hub.answer_sending _ _ _ _ _
      · exact ((Hub.countCorrected_only _ _ _).mono (by simp)).trans ((Hub.dropFault_only _).mono (by simp))

/-- Settles O19: the same read when an error could not be corrected, for a unit flagged already and for one that is not. -/
theorem uncorrectableReadDamages : Obligations.UncorrectableReadDamages := by
  intro c k u offset length s e f hs h0 h4 ring he ho hecc hbad old unit data corrected
  have hl : ¬ (length = 0 ∨ 4096 < length.toNat) := by
    rintro (h | h)
    · exact h0 h
    · omega
  have hfault : (s.hub.arrive c.env).nextFault = f := by
    have hhead : (s.hub.arrive c.env).nextFault = c.env.ecc.head?.getD {} := List.headD_eq_head?_getD
    rw [hhead, hecc]
    rfl
  have hread := Hub.fetch_reads (h := s.hub.arrive c.env) k u offset (length := length) hl he (Nat.not_le.mpr ho)
  rw [show (s.hub.arrive c.env).boundRing k = ring from rfl, hfault, hbad, Bool.or_true, if_pos rfl] at hread
  have hdata : (s.hub.arrive c.env).fetched ring e offset length = data := by
    simp only [Hub.fetched, asRead, hfault, hbad, if_true]
    rfl
  rw [hdata] at hread
  refine exists_became (hs.run_stream hread nofun) ?_
  simp only [Hub.answer_ring, Hub.answer_log, Hub.answer_notices, Hub.dropFault_ring, Hub.dropFault_log,
    Hub.dropFault_notices]
  refine ⟨Hub.answer_sending _ _ _ _ _, fun r hr => ?_, fun hd => ?_, fun hd => ?_⟩
  · by_cases hd : e.flags.damaged = true
    · rw [Hub.meetErrors_calm _ _ _ _ (by simp [hd]), Hub.countCorrected_ne _ _ _ hr]
      rfl
    · rw [Hub.meetErrors_damages _ _ _ _ hbad (by simpa using hd), Hub.damage_ne _ _ _ hr, Hub.countCorrected_ne _ _ _ hr]
      rfl
  · rw [Hub.meetErrors_calm _ _ _ _ (by simp [hd]), Hub.countCorrected_self]
    refine ⟨rfl, Hub.OnlyChanges.answered _ _ _ _ ?_ (by decide)⟩
    exact ((Hub.countCorrected_only _ _ _).mono (by simp)).trans ((Hub.dropFault_only _).mono (by simp))
  · obtain ⟨hstream, hunit⟩ : e.stream = k ∧ e.unit = u := by simpa using List.find?_some he
    rw [Hub.meetErrors_damages _ _ _ _ hbad hd, Hub.damage_self, Hub.countCorrected_self, Hub.damage_log, hstream, hunit]
    refine ⟨rfl, ?_, fun p => ?_, Hub.OnlyChanges.answered _ _ _ _ ?_ (by decide)⟩
    · have hbase := Hub.unitBase_map (g := s.hub) (h := (s.hub.arrive c.env).countCorrected ring f) (f := id)
        (fun _ => rfl) (fun r => by
          by_cases hr : r = ring
          · subst hr
            rw [Hub.countCorrected_self]
            rfl
          · rw [Hub.countCorrected_ne _ _ _ hr]
            rfl) (fun r => .inl (by
          by_cases hr : r = ring
          · subst hr
            rw [Hub.countCorrected_self]
            rfl
          · rw [Hub.countCorrected_ne _ _ _ hr]
            rfl)) (fun _ => ⟨rfl, rfl, rfl⟩) k
      have hnext : ((s.hub.arrive c.env).countCorrected ring f).nextUnit k = s.hub.nextUnit k := by
        by_cases hr : k.castSucc = ring
        · rw [Hub.nextUnit, hr, Hub.countCorrected_self]
          rw [Hub.nextUnit, hr]
          rfl
        · rw [Hub.nextUnit, Hub.countCorrected_ne _ _ _ hr]
          rfl
      simp only [fun clip => Hub.retains_congr hnext hbase clip u]
      rfl
    · refine ⟨Hub.notify_summary _ (k := .memoryError) _ rfl, fun hm hq => ?_⟩
      rw [← hstream]
      exact Hub.notify_queue _ (k := .memoryError) _ nofun rfl hm hq
    · exact ((Hub.countCorrected_only _ _ _).mono (by simp)).trans (((Hub.damage_only _ _ _).mono (by simp)).trans
        ((Hub.dropFault_only _).mono (by simp)))

end Sys2Proof.Machine
end

section
/-! Proofs: the INSERTs that do not complete a unit (R39). -/

namespace Sys2Proof.Machine

-- In order, so that the package in one text stays within the memory of its check.
set_option Elab.async false

theorem Hub.modStream_modStream (h : Hub) (k : Fin 16) (f g : Stream → Stream) :
    (h.modStream k f).modStream k g = h.modStream k fun x => g (f x) := by
  simp [Hub.modStream]

theorem auxOf_eq_none {n : Byte} (hn : 15 < n.toNat) : auxOf n = none := by
  rw [auxOf, below_eq_none hn]

theorem auxOf_stream (k : Fin 16) : auxOf (byte k.val) = if 13 ≤ k.val then some k else none := by
  simp only [auxOf, below_stream]

section
variable {h : Hub} (p : Fin 4) (k : Fin 16) {data : Bytes} {final : Bool}

theorem Hub.insert_badArg (hr : k.val < 13 ∨ data.length = 0 ∨ 4096 < data.length) :
    h.insert p (byte k.val) data final = h.refuse .badArg := by
  unfold Hub.insert
  rw [auxOf_stream]
  by_cases hk : 13 ≤ k.val
  · simp only [if_pos hk]
    exact if_pos (hr.resolve_left (by omega))
  · simp only [if_neg hk]

/-- An INSERT of a length that the rule takes, for an aux stream: the order of what is judged of the stream. -/
theorem Hub.insert_judged (hk : 13 ≤ k.val) (h0 : data.length ≠ 0) (h4 : data.length ≤ 4096) :
    h.insert p (byte k.val) data final =
      let st := h.stream k
      if st.state = .closed ∨ st.state = .closing then h.refuse .conflict
      else if st.buffer ≠ [] ∧ st.builder ≠ some p then h.refuse .conflict
      else if 65536 < st.buffer.length + data.length then
        ((h.modStream k fun x => { x with buffer := [], builder := none }).countDiscard k).refuse .badArg
      else if final then h.insertFinal k (st.buffer ++ data)
      else
        (h.modStream k fun x => { x with buffer := st.buffer ++ data, builder := some p },
          .done (le 4 (st.buffer ++ data).length)) := by
  have hl : ¬ (data.length = 0 ∨ 4096 < data.length) := by omega
  unfold Hub.insert
  simp only [auxOf_stream, if_pos hk, if_neg hl]

theorem Hub.insert_conflict (hk : 13 ≤ k.val) (h0 : data.length ≠ 0) (h4 : data.length ≤ 4096)
    (hr : (h.stream k).state = .closed ∨ (h.stream k).state = .closing ∨
      ((h.stream k).buffer ≠ [] ∧ (h.stream k).builder ≠ some p)) :
    h.insert p (byte k.val) data final = h.refuse .conflict := by
  rw [Hub.insert_judged p k hk h0 h4]
  dsimp only
  split
  · rfl
  · rename_i hs
    refine if_pos ?_
    rcases hr with hc | hc | hb
    · exact absurd (.inl hc) hs
    · exact absurd (.inr hc) hs
    · exact hb

/-- An INSERT that the stream takes. -/
theorem Hub.insert_taken (hk : 13 ≤ k.val) (h0 : data.length ≠ 0) (h4 : data.length ≤ 4096)
    (hs : (h.stream k).state = .opened ∨ (h.stream k).state = .held)
    (hb : (h.stream k).buffer = [] ∨ (h.stream k).builder = some p) :
    h.insert p (byte k.val) data final =
      let st := h.stream k
      if 65536 < st.buffer.length + data.length then
        (h.modStream k fun y => { y with buffer := [], builder := none, discarded := y.discarded + 1 }).refuse .badArg
      else if final then h.insertFinal k (st.buffer ++ data)
      else
        (h.modStream k fun y => { y with buffer := st.buffer ++ data, builder := some p },
          .done (le 4 (st.buffer.length + data.length))) := by
  have hstate : ¬ ((h.stream k).state = .closed ∨ (h.stream k).state = .closing) := by
    rcases hs with hs | hs <;> simp [hs]
  have hbuilder : ¬ ((h.stream k).buffer ≠ [] ∧ (h.stream k).builder ≠ some p) := by
    rcases hb with hb | hb <;> simp [hb]
  rw [Hub.insert_judged p k hk h0 h4]
  simp only [if_neg hstate, if_neg hbuilder, Hub.countDiscard, Hub.modStream_modStream, List.length_append]

end

/-- Settles O20: the refusals in their order, the buffer that grows too long, and the buffer that grows. -/
theorem insertBuildsUnit : Obligations.InsertBuildsUnit := by
  intro c k data final s hs g x cmd
  refine ⟨fun n hn => ?_, fun hr => hs.run_stream (Hub.insert_badArg (h := g) c.port k hr) nofun, fun hk h0 h4 =>
    ⟨fun hr => hs.run_stream (Hub.insert_conflict (h := g) c.port k hk h0 h4 hr) nofun, fun ho hb => ?_⟩⟩
  · have hblock : g.insert c.port n data final = g.refuse .badArg := by rw [Hub.insert, auxOf_eq_none hn]
    exact hs.run_eq (fun m hm hlt => by cases hm; omega) hblock nofun
  · have hblock := Hub.insert_taken (h := g) (final := final) c.port k hk h0 h4 ho hb
    refine ⟨fun hl => hs.run_stream (hblock.trans (if_pos hl)) nofun, fun hl hf => ?_⟩
    subst hf
    exact hs.run_stream (hblock.trans (if_neg (Nat.not_lt.mpr hl))) nofun

end Sys2Proof.Machine
end

section
/-! Proofs: the bytes of the Media Store.  A memory in canonical form is read byte by byte (`Memory.read`), and so are a
write to it, a range of it, and what a ring holds across its end (R34, R38). -/

namespace Sys2Proof.Machine

-- In order, so that the package in one text stays within the memory of its check.
set_option Elab.async false

/-! ### Lengths of fields -/

@[simp] theorem le_length (n v : Nat) : (le n v).length = n := by
  induction n generalizing v with
  | zero => rfl
  | succ n ih => simp [le, ih]

@[simp] theorem zeros_length (n : Nat) : (zeros n).length = n := List.length_replicate

@[simp] theorem word4_length (w : Word) : (word4 w).length = 4 := le_length _ _

@[simp] theorem tc4_length (t : Timecode) : (tc4 t).length = 4 := le_length _ _

@[simp] theorem flagByte_length (b : Bool) : (flagByte b).length = 1 := by cases b <;> rfl

/-- Table 73: a unit header is 64 bytes. -/
@[simp] theorem Hub.unitHeader_length (h : Hub) (o : Offer) (flags : UnitFlags) (unit : Word) (g : Option Word) :
    (h.unitHeader o flags unit g).length = 64 := by
  simp [Hub.unitHeader]

/-! ### One byte -/

/-- The cell of an address. -/
def Memory.cell (m : List (Nat × BitVec 8)) (a : Nat) : Option (Nat × BitVec 8) := m.find? fun x => x.1 = a

theorem Memory.read_eq (m : List (Nat × BitVec 8)) (a : Nat) :
    Memory.read m a = ((Memory.cell m a).map Prod.snd).getD 0 := by
  unfold Memory.read Memory.cell
  cases m.find? fun x => x.1 = a <;> rfl

theorem Memory.cell_append (m l : List (Nat × BitVec 8)) (a : Nat) :
    Memory.cell (m ++ l) a = (Memory.cell m a).or (Memory.cell l a) := List.find?_append

theorem Memory.cell_eq_none {m : List (Nat × BitVec 8)} {a : Nat} (hm : ∀ x ∈ m, x.1 ≠ a) : Memory.cell m a = none := by
  simpa [Memory.cell] using hm

/-- A filter that keeps an address keeps its cell. -/
theorem Memory.cell_filter {m : List (Nat × BitVec 8)} {a : Nat} {p : Nat → Bool} (ha : p a = true) :
    Memory.cell (m.filter fun x => p x.1) a = Memory.cell m a := by
  unfold Memory.cell
  rw [List.find?_filter]
  refine congrArg (fun q => List.find? q m) (funext fun x => ?_)
  by_cases hx : x.1 = a
  · simp [hx, ha]
  · simp [hx]

theorem Memory.read_cells : ∀ (bs : Bytes) {a x : Nat}, a ≤ x → Memory.read (Memory.cells a bs) x = bs.getD (x - a) 0
  | [], _, _, _ => by simp [Memory.cells, Memory.read]
  | b :: bs, a, x, hx => by
    have hlater : ∀ {y}, a + 1 ≤ y → Memory.read (Memory.cells (a + 1) bs) y = (b :: bs).getD (y - a) 0 := fun {y} hy => by
      rw [Memory.read_cells bs hy, show y - a = (y - (a + 1)) + 1 by omega]
      rfl
    have hhere : Memory.read (Memory.cells (a + 1) bs) a = 0 := by
      rw [Memory.read_eq, Memory.cell_eq_none fun y hy => ?_]
      · rfl
      · have := (Memory.cells_within bs (a + 1) y hy).1
        omega
    unfold Memory.cells
    obtain rfl | hlt : x = a ∨ a + 1 ≤ x := by omega
    · split
      · rename_i hb
        rw [hhere, hb]
        simp
      · simp [Memory.read]
    · split
      · exact hlater hlt
      · rw [← hlater hlt]
        have hne : a ≠ x := by omega
        simp [Memory.read, hne]

/-- A write is read back where it was written and nowhere else. -/
theorem Memory.read_write (m : List (Nat × BitVec 8)) (a x : Nat) (bs : Bytes) :
    Memory.read (Memory.write m a bs) x =
      if a ≤ x ∧ x < a + bs.length then bs.getD (x - a) 0 else Memory.read m x := by
  have hcell : Memory.cell (Memory.write m a bs) x =
      (Memory.cell (m.filter fun y => y.1 < a) x).or ((Memory.cell (Memory.cells a bs) x).or
        (Memory.cell (m.filter fun y => a + bs.length ≤ y.1) x)) := by
    rw [Memory.write, List.append_assoc, Memory.cell_append, Memory.cell_append]
  have hbelow : ¬ x < a → Memory.cell (m.filter fun y => y.1 < a) x = none := fun hx =>
    Memory.cell_eq_none fun y hy => by
      have := (List.mem_filter.mp hy).2
      simp only [decide_eq_true_eq] at this
      omega
  have habove : ¬ a + bs.length ≤ x → Memory.cell (m.filter fun y => a + bs.length ≤ y.1) x = none := fun hx =>
    Memory.cell_eq_none fun y hy => by
      have := (List.mem_filter.mp hy).2
      simp only [decide_eq_true_eq] at this
      omega
  have hwithin : ¬ (a ≤ x ∧ x < a + bs.length) → Memory.cell (Memory.cells a bs) x = none := fun hx =>
    Memory.cell_eq_none fun y hy => by
      have := Memory.cells_within bs a y hy
      omega
  split
  · rename_i hx
    rw [Memory.read_eq, hcell, hbelow (by omega), habove (by omega), Option.none_or, Option.or_none, ← Memory.read_eq,
      Memory.read_cells bs hx.1]
  · rename_i hx
    rw [Memory.read_eq, Memory.read_eq, hcell, hwithin hx, Option.none_or]
    by_cases hlt : x < a
    · rw [habove (by omega), Option.or_none, Memory.cell_filter (p := fun y => decide (y < a)) (by simpa using hlt)]
    · rw [hbelow hlt, Option.none_or,
        Memory.cell_filter (p := fun y => decide (a + bs.length ≤ y)) (by simp; omega)]

/-! ### A range of bytes -/

/-- The bytes from an address on, read one by one. -/
def Memory.bytes (m : List (Nat × BitVec 8)) (a n : Nat) : Bytes := (List.range n).map fun i => Memory.read m (a + i)

theorem Memory.bytes_succ (m : List (Nat × BitVec 8)) (a n : Nat) :
    Memory.bytes m a (n + 1) = Memory.read m a :: Memory.bytes m (a + 1) n := by
  unfold Memory.bytes
  rw [List.range_succ_eq_map]
  simp [Nat.add_assoc, Nat.add_comm 1, Function.comp_def]

theorem Memory.bytes_congr {m l : List (Nat × BitVec 8)} {a n : Nat}
    (h : ∀ x, a ≤ x → x < a + n → Memory.read m x = Memory.read l x) : Memory.bytes m a n = Memory.bytes l a n :=
  List.map_congr_left fun i hi => h _ (by omega) (by have := List.mem_range.mp hi; omega)

theorem Memory.walk_eq : ∀ (n : Nat) (m : List (Nat × BitVec 8)) (a : Nat), (m.Pairwise fun x y => x.1 < y.1) →
    (∀ x ∈ m, a ≤ x.1) → Memory.walk m a n = Memory.bytes m a n
  | 0, _, _, _, _ => by simp [Memory.walk, Memory.bytes]
  | n + 1, [], a, _, _ => by
    have hz : ∀ x, Memory.read [] x = 0 := fun _ => rfl
    simp [Memory.walk, Memory.bytes, hz, zeros]
  | n + 1, (x, b) :: m, a, hr, ha => by
    obtain ⟨hx, hr'⟩ := List.pairwise_cons.mp hr
    rw [Memory.bytes_succ]
    unfold Memory.walk
    split
    · rename_i hxa
      subst hxa
      rw [Memory.walk_eq n m (x + 1) hr' fun y hy => hx y hy]
      have hhere : Memory.read ((x, b) :: m) x = b := by simp [Memory.read]
      rw [hhere]
      refine congrArg _ (Memory.bytes_congr fun y hy _ => ?_)
      have hne : x ≠ y := by omega
      simp [Memory.read, hne]
    · rename_i hxa
      have hfirst : a ≤ x := ha (x, b) (by simp)
      have hall : ∀ y ∈ (x, b) :: m, a + 1 ≤ y.1 := fun y hy => by
        rcases List.mem_cons.mp hy with rfl | hy
        · exact Nat.lt_of_le_of_ne hfirst (Ne.symm hxa)
        · have := hx y hy
          dsimp only at this
          omega
      rw [Memory.walk_eq n ((x, b) :: m) (a + 1) hr hall]
      have hhere : Memory.read ((x, b) :: m) a = 0 := by
        rw [Memory.read_eq, Memory.cell_eq_none fun y hy => ?_]
        · rfl
        · have := hall y hy
          omega
      rw [hhere]

/-- A range of a memory in canonical form, byte by byte. -/
theorem Memory.range_eq {m : List (Nat × BitVec 8)} (hm : Memory.wf m = true) (a n : Nat) :
    Memory.range m a n = Memory.bytes m a n := by
  have hr := ((Memory.wf_iff m).mp hm).1
  have hsplit : (m.takeWhile fun x => x.1 < a) ++ (m.dropWhile fun x => x.1 < a) = m := List.takeWhile_append_dropWhile
  have hdrop : ((m.dropWhile fun x => x.1 < a)).Pairwise fun x y => x.1 < y.1 :=
    hr.sublist (List.dropWhile_sublist _)
  have hfrom : ∀ x ∈ m.dropWhile fun x => x.1 < a, a ≤ x.1 := fun x hx => by
    match hd : m.dropWhile fun x => x.1 < a with
    | [] => rw [hd] at hx; cases hx
    | y :: ys =>
      have hy : ¬ y.1 < a := by
        have := List.head?_dropWhile_not (fun x : Nat × BitVec 8 => decide (x.1 < a)) m
        rw [hd] at this
        simpa using this
      rw [hd] at hdrop hx
      rcases List.mem_cons.mp hx with rfl | hx
      · omega
      · have := (List.pairwise_cons.mp hdrop).1 x hx
        omega
  unfold Memory.range
  rw [Memory.walk_eq n _ a hdrop hfrom]
  refine Memory.bytes_congr fun x hx _ => ?_
  have hnone : Memory.cell (m.takeWhile fun x => x.1 < a) x = none := Memory.cell_eq_none fun y hy => by
    have := List.mem_takeWhile_imp hy
    simp only [decide_eq_true_eq] at this
    omega
  rw [Memory.read_eq, Memory.read_eq, ← hsplit, Memory.cell_append, hnone, Option.none_or, hsplit]

/-- The bytes of a list, from its start on. -/
theorem map_getD_range (bs : Bytes) {n : Nat} (hn : n ≤ bs.length) : ((List.range n).map fun i => bs.getD i 0) =
    bs.take n := by
  refine List.ext_getElem (by simp [hn]) fun i h₁ h₂ => ?_
  have hi : i < bs.length := by simp at h₁; omega
  simp [hi]

/-! ### Rings -/

/-- Bytes written in two pieces, from an address above a base and, past a room, from the base on, are read back so. -/
theorem Memory.bytes_wrapped (m : List (Nat × BitVec 8)) {base low room n : Nat} {bs : Bytes}
    (hl : bs.length ≤ room + low) (hn : n ≤ bs.length) :
    let w := Memory.write (Memory.write m (base + low) (bs.take room)) base (bs.drop room)
    Memory.bytes w (base + low) (min n room) ++ Memory.bytes w base (n - room) = bs.take n := by
  intro w
  have hfirst : Memory.bytes w (base + low) (min n room) = (bs.take room).take (min n room) := by
    rw [← map_getD_range _ (by simp; omega)]
    refine List.map_congr_left fun i hi => ?_
    have hi := List.mem_range.mp hi
    have hlen : (bs.drop room).length = bs.length - room := List.length_drop
    have hlen' : (bs.take room).length = min room bs.length := List.length_take
    rw [Memory.read_write, if_neg (by omega), Memory.read_write, if_pos (by omega), Nat.add_sub_cancel_left]
  have hlast : Memory.bytes w base (n - room) = (bs.drop room).take (n - room) := by
    rw [← map_getD_range _ (by simp; omega)]
    refine List.map_congr_left fun i hi => ?_
    have hi := List.mem_range.mp hi
    have hlen : (bs.drop room).length = bs.length - room := List.length_drop
    rw [Memory.read_write, if_pos (by omega), Nat.add_sub_cancel_left]
  rw [hfirst, hlast, List.take_take]
  obtain h | h : n ≤ room ∨ room < n := by omega
  · rw [show min (min n room) room = n by omega, Nat.sub_eq_zero_of_le h, List.take_zero, List.append_nil]
  · have htake := List.take_add (l := bs) (i := room) (j := n - room)
    rw [show room + (n - room) = n by omega] at htake
    rw [show min (min n room) room = room by omega, htake]

/-- The bytes written from a sector of a ring on are read back from there, across the ring's end too (R34, R38). -/
theorem Ring.readBytes_writeBytes (r : Ring) {m : List (Nat × BitVec 8)} (hm : Memory.wf m = true) {start n : Nat}
    {bs : Bytes} (hs : start < r.sectors) (hl : bs.length ≤ r.sectors * 512) (hn : n ≤ bs.length) :
    r.readBytes (r.writeBytes m start bs) start n = bs.take n := by
  have hw := r.writeBytes_wf hm start bs
  have hroom : bs.length ≤ (r.sectors - start) * 512 + start * 512 := by
    rw [← Nat.add_mul, Nat.sub_add_cancel (Nat.le_of_lt hs)]
    exact hl
  exact (congrArg₂ (· ++ ·) (Memory.range_eq hw _ _) (Memory.range_eq hw _ _)).trans (Memory.bytes_wrapped m hroom hn)

/-! ### The unit that a commit writes -/

/-- The bytes that a commit writes: header, payload, and zeros to the end of the last sector. -/
def Hub.unitImage (h : Hub) (o : Offer) (unit : Word) (g : Option Word) : Bytes :=
  let bytes := h.unitHeader o { o.flags with damaged := false, tcJump := o.frame.jump } unit g ++ o.payload
  bytes ++ zeros (sectorsOf o.payload.length * 512 - bytes.length)

theorem Hub.writeUnit_mem (h : Hub) (r : Fin 17) (o : Offer) (unit : Word) (g : Option Word) :
    (h.writeUnit r o unit g).store.mem =
      (h.ring r).writeBytes h.store.mem (h.ring r).headOff (h.unitImage o unit g) := by
  unfold Hub.writeUnit
  dsimp only
  split <;> rfl

theorem Hub.unitImage_length (h : Hub) (o : Offer) (unit : Word) (g : Option Word) :
    (h.unitImage o unit g).length = sectorsOf o.payload.length * 512 := by
  have : 64 + o.payload.length ≤ sectorsOf o.payload.length * 512 := by
    unfold sectorsOf
    omega
  simp only [Hub.unitImage, List.length_append, zeros_length, Hub.unitHeader_length]
  omega

theorem Hub.writeUnit_unitBytes {h : Hub} {r : Fin 17} {o : Offer} (hm : h.MemoryOk)
    (hs : (h.ring r).headOff < (h.ring r).sectors) (hl : sectorsOf o.payload.length ≤ (h.ring r).sectors) (unit : Word)
    (g : Option Word) :
    (h.writeUnit r o unit g).unitBytes r (h.newEntry r o unit g) =
      h.unitHeader o { o.flags with damaged := false, tcJump := o.frame.jump } unit g ++ o.payload := by
  have hn : 64 + o.payload.length ≤ sectorsOf o.payload.length * 512 := by
    unfold sectorsOf
    omega
  have hread := (h.ring r).readBytes_writeBytes hm (bs := h.unitImage o unit g) (n := 64 + o.payload.length) hs
    (by rw [Hub.unitImage_length]; exact Nat.mul_le_mul_right _ hl) (by rw [Hub.unitImage_length]; exact hn)
  unfold Hub.unitBytes
  rw [Hub.writeUnit_mem, Hub.writeUnit_ring_self]
  refine hread.trans ?_
  unfold Hub.unitImage
  exact List.take_left' (by simp)

/-- Settles O22: the unit that a commit adds is read back from the ring, and a write to the memory where it was written. -/
theorem storedBytesReadBack : Obligations.StoredBytesReadBack := by
  refine ⟨fun h r o unit g hm hs hl => ⟨h.newEntry r o unit g, ?_, rfl, Hub.writeUnit_unitBytes hm hs hl unit g⟩,
    fun m a x bs hm => ⟨Memory.write_wf hm a bs, Memory.read_write m a x bs⟩⟩
  rw [Hub.writeUnit_ring_self]
  exact List.getLast?_concat

end Sys2Proof.Machine
end

section
/-! Proofs: what labels an operation can file (R144, R145).  With room in the Label Store labels are only added, so what an
operation leaves of it is said by how many it files at most and of which kinds (`Hub.Files`). -/

namespace Sys2Proof.Machine

-- In order, so that the package in one text stays within the memory of its check.
set_option Elab.async false

/-! ### What files nothing -/

/-- What the filing of labels reads and writes of the Clip Log, beside the clips. -/
structure ClipLog.SameFiling (l m : ClipLog) : Prop where
  labels : m.labels = l.labels
  selection : m.selection = l.selection
  nextLabel : m.nextLabel = l.nextLabel
  filed : m.filed = l.filed
  ignored : m.ignored = l.ignored
  removed : m.removed = l.removed
  supply : m.supply = l.supply

/-- A hub whose filing is that of another. -/
def Hub.SameFiling (g h : Hub) : Prop := g.log.SameFiling h.log

section
variable {a b c : Hub}

theorem Hub.SameFiling.refl (h : Hub) : h.SameFiling h := ⟨rfl, rfl, rfl, rfl, rfl, rfl, rfl⟩

theorem Hub.SameFiling.of_eq (h : b.log = a.log) : a.SameFiling b := by
  unfold Hub.SameFiling
  rw [h]
  exact ⟨rfl, rfl, rfl, rfl, rfl, rfl, rfl⟩

theorem Hub.SameFiling.trans (h₁ : a.SameFiling b) (h₂ : b.SameFiling c) : a.SameFiling c where
  labels := h₂.labels.trans h₁.labels
  selection := h₂.selection.trans h₁.selection
  nextLabel := h₂.nextLabel.trans h₁.nextLabel
  filed := h₂.filed.trans h₁.filed
  ignored := h₂.ignored.trans h₁.ignored
  removed := h₂.removed.trans h₁.removed
  supply := h₂.supply.trans h₁.supply

theorem Hub.SameFiling.ite {p : Prop} [Decidable p] (h₁ : a.SameFiling b) (h₂ : a.SameFiling c) :
    a.SameFiling (if p then b else c) := by
  split
  · exact h₁
  · exact h₂

theorem Hub.SameFiling.opt {p : Prop} [Decidable p] (h₁ : a.SameFiling b) (h₂ : b.SameFiling c) :
    a.SameFiling (if p then c else b) := .ite (h₁.trans h₂) h₁

theorem Hub.SameFiling.foldl {α : Type} {f : Hub → α → Hub} (hf : ∀ (h : Hub) x, h.SameFiling (f h x)) :
    ∀ (xs : List α) (h : Hub), h.SameFiling (xs.foldl f h)
  | [], h => .refl h
  | x :: xs, h => (hf h x).trans (Hub.SameFiling.foldl hf xs (f h x))

theorem Hub.OnlyChanges.sameFiling {parts : List Part} (h : Hub.OnlyChanges parts a b) (hl : Part.log ∉ parts) :
    a.SameFiling b := .of_eq (h .log hl).symm

end

section
variable (h : Hub)

theorem Hub.mapClips_sameFiling (f : Clip → Clip) : h.SameFiling (h.mapClips f) := ⟨rfl, rfl, rfl, rfl, rfl, rfl, rfl⟩

theorem Hub.modTrigger_sameFiling (t : Fin 4) (f : Trigger → Trigger) : h.SameFiling (h.modTrigger t f) :=
  ⟨rfl, rfl, rfl, rfl, rfl, rfl, rfl⟩

theorem Hub.notify_sameFiling (k : NoticeKind) (n : Nat) : h.SameFiling (h.notify k n) := .of_eq rfl

theorem Hub.finishClips_sameFiling : h.SameFiling h.finishClips :=
  .foldl (fun g _ => (g.mapClips_sameFiling _).trans (Hub.notify_sameFiling _ _ _)) _ _

theorem Hub.testClips_sameFiling (k : Fin 16) (dated : Option Word) : h.SameFiling (h.testClips k dated) :=
  (h.mapClips_sameFiling _).trans (Hub.finishClips_sameFiling _)

theorem Hub.lapse_sameFiling (n : Word) : h.SameFiling (h.lapse n) :=
  ⟨rfl, rfl, rfl, rfl, rfl, rfl, rfl⟩

theorem Hub.lapseRetainers_sameFiling (k : Fin 16) (u : Word) :
    ∀ (n : Nat) (h : Hub), h.SameFiling (Hub.lapseRetainers k u n h)
  | 0, h => .refl h
  | n + 1, h => by
    unfold Hub.lapseRetainers
    split
    · exact .refl h
    · exact (h.lapse_sameFiling _).trans (Hub.lapseRetainers_sameFiling k u n _)

theorem Hub.loseUnsent_only (r : Fin 17) (e : Entry) :
    Hub.OnlyChanges [.streams, .rings, .sending, .notices] h (h.loseUnsent r e) := by
  have h₁ : Hub.OnlyChanges [.streams, .rings, .sending, .notices] h
      ((h.moveSend r (e.key r + 1)).modStream e.stream fun st => { st with lost := st.lost + 1 }) :=
    ((h.moveSend_only r _).mono (by simp)).trans ((Hub.modStream_only _ _ _).mono (by simp))
  exact .ite h₁ (h₁.trans ((Hub.notify_only _ _ _).mono (by simp)))

theorem Hub.removeTail_sameFiling (r : Fin 17) (e : Entry) : h.SameFiling (h.removeTail r e) := by
  unfold Hub.removeTail
  exact .opt (.trans (.opt (.opt (.refl h) (h.lapseRetainers_sameFiling _ _ _))
    ((Hub.loseUnsent_only _ r e).sameFiling (by decide))) ((Hub.modRing_only _ r _).sameFiling (by decide)))
    ((Hub.carryMarks_only _ _).sameFiling (by decide))

theorem Hub.makeRoom_sameFiling (r : Fin 17) (len : Nat) :
    ∀ (n : Nat) (h : Hub), h.SameFiling (Hub.makeRoom r len n h)
  | 0, h => .refl h
  | n + 1, h => by
    unfold Hub.makeRoom
    split
    · split
      · exact .refl h
      · exact (h.removeTail_sameFiling r _).trans (Hub.makeRoom_sameFiling r len n _)
    · exact .refl h

theorem Hub.commit_sameFiling (o : Offer) : h.SameFiling (h.commit o).1 := by
  unfold Hub.commit
  exact (h.makeRoom_sameFiling _ _ _).trans (((Hub.writeUnit_only _ _ o _ _).sameFiling (by decide)).trans
    (((Hub.ringNotices_only _ _ _ _).sameFiling (by decide)).trans
      ((Hub.mapClips_sameFiling _ _).trans (Hub.mapClips_sameFiling _ _))))

theorem Hub.judge_sameFiling (o : Offer) : h.SameFiling (h.judge o).1 := by
  have hd : h.SameFiling (h.countDiscard o.stream) := (h.modStream_only _ _).sameFiling (by decide)
  unfold Hub.judge
  dsimp only
  split
  · exact .refl h
  · split
    · exact hd
    · split
      · exact hd
      · split
        · exact hd
        · exact h.commit_sameFiling o

theorem Hub.offer_sameFiling (o : Offer) : h.SameFiling (h.offer o).1 :=
  (h.judge_sameFiling o).trans (Hub.testClips_sameFiling _ _ _)

theorem Hub.streamChanged_sameFiling (k : Fin 16) : h.SameFiling (h.streamChanged k) :=
  .trans (b := ((h.calmDeficits k.castSucc).notify .streamState k.val).recompute)
    ((((h.calmDeficits_only k.castSucc).sameFiling (by decide)).trans (Hub.notify_sameFiling _ _ _)).trans
      ((Hub.recompute_only _).sameFiling (by decide))) (Hub.testClips_sameFiling _ k none)

theorem Hub.endClosing_sameFiling (k : Fin 16) : h.SameFiling (h.endClosing k) :=
  Hub.SameFiling.trans (.ite ((h.endHold_only k).sameFiling (by decide)) (.refl h))
    (((Hub.modStream_only _ k _).sameFiling (by decide)).trans (Hub.streamChanged_sameFiling _ k))

theorem Hub.releaseHold_sameFiling (k : Fin 16) : h.SameFiling (h.releaseHold k) :=
  Hub.SameFiling.trans ((h.endHold_only k).sameFiling (by decide))
    (((Hub.modStream_only _ k _).sameFiling (by decide)).trans (Hub.streamChanged_sameFiling _ k))

theorem Hub.fired_sameFiling (t : Fin 4) : h.SameFiling (h.fired t) :=
  (h.modTrigger_sameFiling t _).trans (Hub.notify_sameFiling _ _ _)

theorem ClipLog.makeRoom_sameFiling (l : ClipLog) : l.SameFiling l.makeRoom := by
  unfold ClipLog.makeRoom
  split <;> exact ⟨rfl, rfl, rfl, rfl, rfl, rfl, rfl⟩

theorem Hub.addClip_sameFiling (owner : Owner) (mask : BitVec 16) (name : Bytes) :
    h.SameFiling (h.addClip owner mask name) :=
  have hr := h.log.makeRoom_sameFiling
  ⟨hr.labels, hr.selection, hr.nextLabel, hr.filed, hr.ignored, hr.removed, hr.supply⟩

theorem Hub.attemptFire_sameFiling (t : Fin 4) : h.SameFiling (h.attemptFire t).1 := by
  unfold Hub.attemptFire
  repeat' split
  · exact h.modTrigger_sameFiling t _
  · exact (h.addClip_sameFiling _ _ _).trans (Hub.fired_sameFiling _ t)
  · exact h.modTrigger_sameFiling t _
  · exact (h.mapClips_sameFiling _).trans (Hub.fired_sameFiling _ t)

/-- A fire makes at most one label, of source trigger (R150). -/
theorem Hub.attemptFire_drafts (t : Fin 4) :
    (h.attemptFire t).2.length ≤ 1 ∧ ∀ d ∈ (h.attemptFire t).2, d.source = .trigger := by
  unfold Hub.attemptFire
  repeat' split
  all_goals simp [Hub.triggerDraft]

end

/-- One trigger that a label is offered to. -/
def Hub.offerTrigger (d : Draft) (x : Hub × List Draft) (t : Fin 4) : Hub × List Draft :=
  if (x.1.log.triggers[t]).matches d then ((x.1.attemptFire t).1, x.2 ++ (x.1.attemptFire t).2) else x

theorem Hub.offerTriggers_eq (h : Hub) (d : Draft) :
    h.offerTriggers d = (List.finRange 4).foldl (Hub.offerTrigger d) (h, []) := rfl

/-- The triggers offered a label file nothing themselves, and hand on at most four labels of kind TRIGGER. -/
theorem Hub.offerTriggers_filing (h : Hub) (d : Draft) :
    h.SameFiling (h.offerTriggers d).1 ∧ (h.offerTriggers d).2.length ≤ 4 ∧
      ∀ x ∈ (h.offerTriggers d).2, x.source = .trigger := by
  have key : ∀ (ts : List (Fin 4)) (x : Hub × List Draft), (∀ y ∈ x.2, y.source = .trigger) →
      x.1.SameFiling (ts.foldl (Hub.offerTrigger d) x).1 ∧
        (ts.foldl (Hub.offerTrigger d) x).2.length ≤ x.2.length + ts.length ∧
        ∀ y ∈ (ts.foldl (Hub.offerTrigger d) x).2, y.source = .trigger := by
    intro ts
    induction ts with
    | nil => exact fun x hx => ⟨.refl _, by simp, hx⟩
    | cons t ts ih =>
      intro x hx
      have hone : x.1.SameFiling (Hub.offerTrigger d x t).1 ∧
          (Hub.offerTrigger d x t).2.length ≤ x.2.length + 1 ∧
          ∀ y ∈ (Hub.offerTrigger d x t).2, y.source = .trigger := by
        obtain ⟨hlen, hkind⟩ := x.1.attemptFire_drafts t
        unfold Hub.offerTrigger
        split
        · refine ⟨x.1.attemptFire_sameFiling t, by simpa using hlen, fun y hy => ?_⟩
          exact (List.mem_append.mp hy).elim (hx y) (hkind y)
        · exact ⟨.refl _, Nat.le_succ _, hx⟩
      obtain ⟨hs, hl, hk⟩ := hone
      obtain ⟨hs', hl', hk'⟩ := ih _ hk
      exact ⟨hs.trans hs', by simp only [List.length_cons, List.foldl_cons]; omega, hk'⟩
  simpa [Hub.offerTriggers_eq] using key (List.finRange 4) (h, []) (by simp)

/-! ### What files labels -/

/-- From one hub to another at most `n` labels, each with a property, are added to the Label Store, where it has room for
them all. -/
def Hub.Files (P : Label → Prop) (n : Nat) (g h : Hub) : Prop :=
  h.log.selection = g.log.selection ∧ (g.log.labels.length + n ≤ 4096 →
    ∃ new, new.length ≤ n ∧ (∀ x ∈ new, P x) ∧ h.log.labels = g.log.labels ++ new)

section
variable {P Q : Label → Prop} {m n : Nat} {a b c : Hub}

theorem Hub.SameFiling.files (h : a.SameFiling b) : Hub.Files P 0 a b :=
  ⟨h.selection, fun _ => ⟨[], by simp, by simp, by simp [h.labels]⟩⟩

theorem Hub.Files.refl (P : Label → Prop) (h : Hub) : Hub.Files P 0 h h := (Hub.SameFiling.refl h).files

theorem Hub.Files.trans (h₁ : Hub.Files P m a b) (h₂ : Hub.Files P n b c) : Hub.Files P (m + n) a c := by
  obtain ⟨hsel₁, h₁⟩ := h₁
  obtain ⟨hsel₂, h₂⟩ := h₂
  refine ⟨hsel₂.trans hsel₁, fun hroom => ?_⟩
  obtain ⟨xs, hxl, hxk, hb⟩ := h₁ (by omega)
  obtain ⟨ys, hyl, hyk, hc⟩ := h₂ (by rw [hb, List.length_append]; omega)
  refine ⟨xs ++ ys, by rw [List.length_append]; omega, fun x hx => ?_, by rw [hc, hb, List.append_assoc]⟩
  exact (List.mem_append.mp hx).elim (hxk x) (hyk x)

theorem Hub.Files.mono (h : Hub.Files P m a b) (hs : ∀ x, P x → Q x) (hn : m ≤ n) : Hub.Files Q n a b := by
  refine ⟨h.1, fun hroom => ?_⟩
  obtain ⟨xs, hl, hk, hb⟩ := h.2 (by omega)
  exact ⟨xs, by omega, fun x hx => hs _ (hk x hx), hb⟩

theorem Hub.Files.ite {p : Prop} [Decidable p] (h₁ : Hub.Files P n a b) (h₂ : Hub.Files P n a c) :
    Hub.Files P n a (if p then b else c) := by
  split
  · exact h₁
  · exact h₂

theorem Hub.Files.foldl {α : Type} {f : Hub → α → Hub} (hf : ∀ (h : Hub) x, Hub.Files P n h (f h x)) :
    ∀ (xs : List α) (h : Hub), Hub.Files P (xs.length * n) h (xs.foldl f h)
  | [], h => by simpa using Hub.Files.refl P h
  | x :: xs, h => ((hf h x).trans (Hub.Files.foldl hf xs (f h x))).mono (fun _ => id)
      (by rw [List.length_cons, Nat.add_mul]; omega)

theorem Hub.Files.forEach {k : Nat} {f : Fin k → Hub → Hub} (hf : ∀ i (h : Hub), Hub.Files P n h (f i h)) (h : Hub) :
    Hub.Files P (k * n) h (h.forEach k f) := by
  have hall := Hub.Files.foldl (f := fun h i => f i h) (fun h i => hf i h) (List.finRange k) h
  rw [List.length_finRange] at hall
  exact hall

end

section
variable (h : Hub)

/-- The label that a draft becomes when it is filed next. -/
def ClipLog.labelOf (l : ClipLog) (d : Draft) : Label :=
  { number := l.nextLabel, kind := d.kind, source := d.source, serial := d.frame.serial, tc := d.frame.tc,
    value := d.value, text := d.text }

theorem Hub.offerLabel_sameFiling (number : Word) (d : Draft) : h.SameFiling (h.offerLabel number d) :=
  .ite (h.offer_sameFiling _) (.refl h)

theorem ClipLog.store_room {l : ClipLog} (hl : l.labels.length < 4096) (d : Draft) :
    l.store d =
      { l with labels := l.labels ++ [l.labelOf d], nextLabel := l.nextLabel + 1, filed := l.filed + 1 } := by
  unfold ClipLog.store
  simp only [if_pos hl]
  rfl

@[simp] theorem ClipLog.store_selection (l : ClipLog) (d : Draft) : (l.store d).selection = l.selection := by
  unfold ClipLog.store ClipLog.dropOldest
  dsimp only
  split
  · rfl
  · split <;> rfl

/-- R145: a label that the selection table keeps is filed where the store has room; another one is ignored. -/
theorem Hub.fileLabel_labels (d : Draft) (named : Option Word) (hl : h.log.labels.length < 4096) :
    (h.fileLabel d named).1.log.labels =
      h.log.labels ++ if h.log.keeps d.kind d.source = true then [h.log.labelOf d] else [] := by
  unfold Hub.fileLabel
  by_cases hk : h.log.keeps d.kind d.source = true
  · simp only [hk, if_true]
    rw [(Hub.offerLabel_sameFiling _ _ _).labels]
    change (h.log.store d).labels = _
    rw [ClipLog.store_room hl]
  · rw [if_neg hk, if_neg hk, List.append_nil]
    rfl

theorem Hub.fileLabel_selection (d : Draft) (named : Option Word) :
    (h.fileLabel d named).1.log.selection = h.log.selection := by
  unfold Hub.fileLabel
  split
  · dsimp only
    rw [(Hub.offerLabel_sameFiling _ _ _).selection]
    exact ClipLog.store_selection h.log d
  · rfl

/-- A label that a draft has become. -/
def Draft.Labels (d : Draft) (x : Label) : Prop :=
  x.kind = d.kind ∧ x.source = d.source ∧ x.serial = d.frame.serial ∧ x.tc = d.frame.tc ∧ x.value = d.value ∧
    x.text = d.text

theorem ClipLog.labelOf_labels (l : ClipLog) (d : Draft) : d.Labels (l.labelOf d) := ⟨rfl, rfl, rfl, rfl, rfl, rfl⟩

theorem Hub.fileLabel_files (d : Draft) (named : Option Word) : Hub.Files d.Labels 1 h (h.fileLabel d named).1 := by
  refine ⟨h.fileLabel_selection d named, fun hroom => ⟨_, ?_, ?_, h.fileLabel_labels d named (by omega)⟩⟩
  · split <;> simp
  · split
    · rintro x hx
      rw [List.mem_singleton.mp hx]
      exact h.log.labelOf_labels d
    · exact fun x hx => absurd hx List.not_mem_nil

/-- The labels of the fires. -/
theorem Hub.fileFires_files : ∀ (ds : List Draft) (h : Hub), (∀ d ∈ ds, d.source = .trigger) →
    Hub.Files (·.source = .trigger) ds.length h (ds.foldl (fun g t => (g.fileLabel t none).1) h)
  | [], h, _ => .refl _ h
  | d :: ds, h, hk => by
    have hd : Hub.Files (·.source = .trigger) 1 h (h.fileLabel d none).1 :=
      (h.fileLabel_files d none).mono (fun x hx => hx.2.1.trans (hk d (by simp))) (Nat.le_refl _)
    exact (hd.trans (Hub.fileFires_files ds _ fun y hy => hk y (by simp [hy]))).mono (fun _ => id)
      (by rw [List.length_cons]; omega)

/-- R145: what an arriving label adds to the Label Store: itself when it is kept, then labels of fires. -/
theorem Hub.arriveLabel_labels (d : Draft) (named : Option Word) (hl : h.log.labels.length + 5 ≤ 4096) :
    ∃ fires, fires.length ≤ 4 ∧ (∀ x ∈ fires, x.source = .trigger) ∧
      (h.arriveLabel d named).1.log.labels =
        h.log.labels ++ (if h.log.keeps d.kind d.source = true then [h.log.labelOf d] else []) ++ fires := by
  obtain ⟨hsame, hlen, hkind⟩ := h.offerTriggers_filing d
  rw [Hub.arriveLabel_fst]
  have hfile := (h.offerTriggers d).1.fileLabel_labels d named (by rw [hsame.labels]; omega)
  have hkeeps : (h.offerTriggers d).1.log.keeps d.kind d.source = h.log.keeps d.kind d.source := by
    rw [ClipLog.keeps, hsame.selection]
    rfl
  have hlabel : (h.offerTriggers d).1.log.labelOf d = h.log.labelOf d := by
    rw [ClipLog.labelOf, hsame.nextLabel]
    rfl
  rw [hsame.labels, hkeeps, hlabel] at hfile
  obtain ⟨fires, hfl, hfk, hf⟩ := (Hub.fileFires_files _ ((h.offerTriggers d).1.fileLabel d named).1 hkind).2 (by
    rw [hfile, List.length_append]
    split
    · simp only [List.length_singleton]
      omega
    · simp only [List.length_nil]
      omega)
  exact ⟨fires, by omega, hfk, by rw [hf, hfile]⟩

theorem Hub.arriveLabel_files (d : Draft) (named : Option Word) :
    Hub.Files (fun x => d.Labels x ∨ x.source = .trigger) 5 h (h.arriveLabel d named).1 := by
  refine ⟨?_, fun hroom => ?_⟩
  · rw [Hub.arriveLabel_fst]
    obtain ⟨hsame, -, hkind⟩ := h.offerTriggers_filing d
    rw [(Hub.fileFires_files _ _ hkind).1, Hub.fileLabel_selection, hsame.selection]
  · obtain ⟨fires, hl, hk, hlab⟩ := h.arriveLabel_labels d named hroom
    refine ⟨_, ?_, fun x hx => ?_, by rw [hlab, List.append_assoc]⟩
    · rw [List.length_append]
      split
      · simp only [List.length_singleton]
        omega
      · simp only [List.length_nil]
        omega
    · rcases List.mem_append.mp hx with hx | hx
      · split at hx
        · rw [List.mem_singleton.mp hx]
          exact .inl (h.log.labelOf_labels d)
        · cases hx
      · exact .inr (hk x hx)

theorem Hub.label_files (d : Draft) : Hub.Files (fun x => d.Labels x ∨ x.source = .trigger) 5 h (h.label d) :=
  h.arriveLabel_files d none

end

end Sys2Proof.Machine
end

section
/-! Proofs: the tick (R7).  Its work in stages, and what each stage changes, which notices it gives and which labels it
files. -/

namespace Sys2Proof.Machine

-- In order, so that the package in one text stays within the memory of its check.
set_option Elab.async false

/-! ### The labels of the blocks -/

/-- The labels that a draft brings: the one it becomes, and those of triggers. -/
def Draft.Brings (d : Draft) (x : Label) : Prop := d.Labels x ∨ x.source = .trigger

section
variable (h : Hub)

theorem Hub.modBus_sameFiling (k : Fin 16) (f : Bus → Bus) : h.SameFiling (h.modBus k f) :=
  (h.modBus_only k f).sameFiling (by decide)

theorem Hub.modPack_sameFiling (k : Fin 8) (f : Pack → Pack) : h.SameFiling (h.modPack k f) :=
  (h.modPack_only k f).sameFiling (by decide)

theorem Hub.modCoder_sameFiling (k : Fin 4) (f : Coder → Coder) : h.SameFiling (h.modCoder k f) :=
  (h.modCoder_only k f).sameFiling (by decide)

theorem Hub.modPath_sameFiling (p : Fin 8) (f : Path → Path) : h.SameFiling (h.modPath p f) :=
  (h.modPath_only p f).sameFiling (by decide)

theorem Hub.give_sameFiling (x : Notice) : h.SameFiling (h.give x) := .of_eq rfl

theorem Hub.judgeOverload_files (ended : Frame) (k : Fin 16) :
    Hub.Files (busDraft k .overload ended).Brings 5 h (h.judgeOverload ended k) := by
  unfold Hub.judgeOverload
  refine .ite ((Hub.Files.refl _ h).mono (fun _ => id) (by omega)) ?_
  exact (((h.modBus_sameFiling k _).files.trans (Hub.label_files _ _)).trans (Hub.give_sameFiling _ _).files).mono
    (fun _ => id) (by omega)

theorem Hub.judgeSilence_files (ended : Frame) (k : Fin 16) :
    Hub.Files (fun x => (busDraft k .silenceStart ended).Brings x ∨ (busDraft k .silenceEnd ended).Brings x) 5 h
      (h.judgeSilence ended k) := by
  have hbus : ∀ (P : Label → Prop) (f : Bus → Bus), Hub.Files P 5 h (h.modBus k f) := fun _ f =>
    (h.modBus_sameFiling k f).files.mono (fun _ => id) (by omega)
  unfold Hub.judgeSilence
  dsimp only
  refine .ite (.ite ?_ (hbus _ _)) (.ite ?_ (hbus _ _))
  · exact ((h.modBus_sameFiling k _).files.trans (Hub.label_files _ _)).mono (fun _ => .inl) (by omega)
  · exact ((h.modBus_sameFiling k _).files.trans (Hub.label_files _ _)).mono (fun _ => .inr) (by omega)

theorem Hub.tickPack_sameFiling (ended : Frame) (n : Nat) (k : Fin 8) : h.SameFiling (Hub.tickPack ended n k h) := by
  refine .opt ?_ (Hub.endClosing_sameFiling _ _)
  split
  · exact ((h.modPack_sameFiling k _).trans (Hub.modPack_sameFiling _ k _)).trans (Hub.offer_sameFiling _ _)
  · exact (h.modPack_sameFiling k _).trans (Hub.modPack_sameFiling _ k _)
  · exact h.modPack_sameFiling k _

theorem Hub.withMixer_sameFiling (m : Mixer) : h.SameFiling { h with mixer := m } := .of_eq rfl

/-- The labels of a block: its own, and those of triggers. -/
def LabelSource.Owns (b : LabelSource) (x : Label) : Prop := x.source = b ∨ x.source = .trigger

theorem Draft.Brings.owns {d : Draft} {x : Label} (h : d.Brings x) : d.source.Owns x := h.imp_left fun hl => hl.2.1

theorem Hub.label_owned (d : Draft) : Hub.Files d.source.Owns 5 h (h.label d) :=
  (h.label_files d).mono (fun _ hx => Draft.Brings.owns hx) (Nat.le_refl _)

theorem Hub.tickMixer_files (old : Timebase) : Hub.Files LabelSource.mixer.Owns 160 h (h.tickMixer old) := by
  rw [Hub.tickMixer_eq]
  refine Hub.Files.mono (m := 0 + 16 * (5 + 5) + 8 * 0 + 0) (.trans (.trans (.trans
    (h.withMixer_sameFiling _).files (.forEach (fun k g => ?_) _))
    (.forEach (fun k g => (g.tickPack_sameFiling _ _ k).files) _)) (Hub.withMixer_sameFiling _ _).files)
    (fun _ => id) (by omega)
  refine ((g.judgeOverload_files old.frame k).mono (fun _ => Draft.Brings.owns) (Nat.le_refl _)).trans
    ((Hub.judgeSilence_files _ old.frame k).mono (fun _ hx => ?_) (Nat.le_refl _))
  exact hx.elim Draft.Brings.owns Draft.Brings.owns

/-! The Picture Coder -/

theorem Hub.offerSubstitute_sameFiling (k : Fin 4) (f : Flight) (black : Bool) :
    h.SameFiling (h.offerSubstitute k f black) :=
  (h.modCoder_sameFiling k _).trans ((Hub.modCoder_sameFiling _ k _).trans (Hub.offer_sameFiling _ _))

theorem Hub.flush_sameFiling (k : Fin 4) : ∀ (n : Nat) (h : Hub), h.SameFiling (Hub.flush k n h)
  | 0, h => .refl h
  | n + 1, h => by
    unfold Hub.flush
    split
    · exact .refl h
    · split
      · exact .refl h
      · exact ((h.modCoder_sameFiling k _).trans (Hub.offerSubstitute_sameFiling _ k _ _)).trans
          (Hub.flush_sameFiling k n _)

theorem Hub.settle_sameFiling (k : Fin 4) : h.SameFiling (h.settle k) :=
  .opt (Hub.flush_sameFiling k _ h) (Hub.endClosing_sameFiling _ _)

theorem Hub.dropPicture_files (k : Fin 4) (f : Flight) (why : DropReason) :
    Hub.Files LabelSource.coder.Owns 5 h (h.dropPicture k f why) :=
  (((h.modCoder_sameFiling k _).trans (Hub.notify_sameFiling _ .pictureDrop _)).files.trans
    ((Hub.label_owned _ _).trans (Hub.testClips_sameFiling _ _ _).files)).mono (fun _ => id) (by omega)

theorem Hub.inputChanged_files (i : Fin 4) (kind : LabelKind) :
    Hub.Files LabelSource.coder.Owns 5 h (h.inputChanged i kind) :=
  ((h.notify_sameFiling .inputState _).files.trans (Hub.label_owned _ _)).mono (fun _ => id) (by omega)

theorem Hub.abortFrom_sameFiling (i k : Fin 4) : h.SameFiling (Hub.abortFrom i k h) :=
  .ite (.refl h) ((h.modCoder_sameFiling k _).trans (Hub.settle_sameFiling _ k))

theorem Hub.modInput_sameFiling (i : Fin 4) (f : VideoInput → VideoInput) : h.SameFiling (h.modInput i f) :=
  (h.modInput_only i f).sameFiling (by decide)

theorem Hub.withTally_sameFiling (t : Tally) : h.SameFiling { h with tally := t } :=
  (h.withTally_only t).sameFiling (by decide)

theorem Hub.loseInput_files (i : Fin 4) : Hub.Files LabelSource.coder.Owns 5 h (h.loseInput i) :=
  (((h.modInput_sameFiling i _).trans (Hub.withTally_sameFiling _ _)).files.trans ((Hub.inputChanged_files _ i _).trans
    (.forEach (fun k g => (g.abortFrom_sameFiling i k).files) _))).mono (fun _ => id) (by omega)

theorem Hub.tickInput_files (i : Fin 4) : Hub.Files LabelSource.coder.Owns 5 h (Hub.tickInput i h) := by
  have hclear : h.SameFiling (h.modInput i fun x => { x with delivered := [] }) := h.modInput_sameFiling i _
  have hmono : ∀ {g : Hub}, h.SameFiling g → Hub.Files LabelSource.coder.Owns 5 h g := fun hg =>
    hg.files.mono (fun _ => id) (by omega)
  unfold Hub.tickInput
  dsimp only
  refine .ite (.ite (hmono hclear) ?_) (.ite ?_ (hmono ?_))
  · exact (hclear.files.trans (Hub.loseInput_files _ i)).mono (fun _ => id) (by omega)
  · exact ((hclear.trans (Hub.modInput_sameFiling _ i _)).files.trans (Hub.inputChanged_files _ i _)).mono
      (fun _ => id) (by omega)
  · exact hclear.trans ((Hub.modInput_sameFiling _ i _).trans (Hub.withTally_sameFiling _ _))

theorem Hub.lateDrop_files (k : Fin 4) : Hub.Files LabelSource.coder.Owns 5 h (Hub.lateDrop k h) := by
  have hsame : Hub.Files LabelSource.coder.Owns 5 h h := (Hub.Files.refl _ h).mono (fun _ => id) (by omega)
  unfold Hub.lateDrop
  split
  · exact hsame
  · refine .ite ?_ hsame
    exact ((h.modCoder_sameFiling k _).files.trans ((Hub.dropPicture_files _ k _ _).trans
      (Hub.settle_sameFiling _ k).files)).mono (fun _ => id) (by omega)

theorem Hub.beginPicture_sameFiling (k : Fin 4) : h.SameFiling (Hub.beginPicture k h) := by
  unfold Hub.beginPicture
  dsimp only
  refine .ite (.ite ?_ ((h.modCoder_sameFiling k _).trans (Hub.settle_sameFiling _ k))) (.refl h)
  exact ((h.forgetRates_only k).sameFiling (by decide)).trans (Hub.modCoder_sameFiling _ k _)

theorem Hub.tickCoder_files : Hub.Files LabelSource.coder.Owns 40 h h.tickCoder :=
  Hub.Files.mono (m := 4 * 5 + 4 * 5 + 4 * 0) (.trans (.trans (.forEach (fun k g => g.lateDrop_files k) _)
    (.forEach (fun i g => g.tickInput_files i) _)) (.forEach (fun k g => (g.beginPicture_sameFiling k).files) _))
    (fun _ => id) (by omega)

/-! Paths and ports -/

/-- The labels that a change of path p brings: labels of the path, and those of triggers. -/
def PathBrings (p : Fin 8) (x : Label) : Prop :=
  (x.source = .link ∧ x.value = some (BitVec.ofNat 32 p.val)) ∨ x.source = .trigger

theorem PathBrings.owns {p : Fin 8} {x : Label} (h : PathBrings p x) : LabelSource.link.Owns x := h.imp_left And.left

theorem Hub.afterChange_files (p : Fin 8) (old : Path) (s : PathState) (why : DownReason) :
    Hub.Files (PathBrings p) 5 h (h.afterChange p old s why) := by
  unfold Hub.afterChange
  have hbond : ∀ g : Hub, g.SameFiling (if old.state = .off ∨ old.state = .reset then
      g.modBond (pairOf p) Bond.refresh else g) := fun g => .opt (.refl g) ((g.modBond_only _ _).sameFiling (by decide))
  refine Hub.Files.mono (m := 0 + 5 + 0) (.trans (.trans ((hbond h).trans (Hub.notify_sameFiling _ .pathState _)).files
    ((Hub.label_files _ _).mono (fun x hx => hx.imp_left fun hl => ⟨hl.2.1, hl.2.2.2.2.1⟩) (Nat.le_refl _)))
    (Hub.SameFiling.trans (.opt (.refl _) ((Hub.gaugeLeave_only _ p).sameFiling (by decide)))
      ((Hub.recompute_only _).sameFiling (by decide))).files) (fun _ => id) (by omega)

theorem Hub.evaluatePath_files (p : Fin 8) : Hub.Files (PathBrings p) 5 h (Hub.evaluatePath p h) := by
  unfold Hub.evaluatePath
  refine .ite ((h.modPath_sameFiling p _).files.mono (fun _ => id) (by omega)) ?_
  rw [Hub.changePath_eq]
  exact ((h.modPath_sameFiling p _).files.trans (Hub.afterChange_files _ p _ _ _)).mono (fun _ => id) (by omega)

theorem Hub.samplePath_only (p : Fin 8) : Hub.OnlyChanges [.pathRecords, .notices] h (h.samplePath p) :=
  .ite (.refl _ h) (((h.modPath_only p _).mono (by decide)).trans ((Hub.notify_only _ _ _).mono (by decide)))

theorem Hub.samplePath_heard (p : Fin 8) : Hub.Heard [.pathChange] h (h.samplePath p) :=
  .ite (.refl _ h) (.trans (h.modPath_heard p _) (Hub.notify_heard _ (k := .pathChange) (by decide) _))

theorem Hub.tickPath_files (p : Fin 8) : Hub.Files (PathBrings p) 5 h (Hub.tickPath p h) := by
  unfold Hub.tickPath
  exact (((h.samplePath_only p).sameFiling (by decide)).files.trans (((Hub.modPath_sameFiling _ p _).trans
    (Hub.modPath_sameFiling _ p _)).files.trans (Hub.evaluatePath_files _ p))).mono (fun _ => id) (by omega)

theorem Hub.tickPath_heard (p : Fin 8) : Hub.Heard ([.pathChange] ++ pathKinds) h (Hub.tickPath p h) := by
  unfold Hub.tickPath
  exact ((h.samplePath_heard p).mono (by decide)).trans (.trans (.trans (Hub.modPath_heard _ p _)
    (Hub.modPath_heard _ p _)) ((Hub.evaluatePath_heard _ p).mono (by decide)))

theorem Hub.absentStream_sameFiling (p : Fin 4) (k : Fin 16) : h.SameFiling (Hub.absentStream p k h) := by
  unfold Hub.absentStream
  refine .opt (.ite ?_ (.refl h)) ((Hub.discardBuffer_only _ k).sameFiling (by decide))
  split
  · exact h.releaseHold_sameFiling k
  · exact (h.endHold_only k).sameFiling (by decide)
  · exact (h.modStream_only k _).sameFiling (by decide)
  · exact (h.modStream_only k _).sameFiling (by decide)

theorem Hub.absentStream_heard (p : Fin 4) (k : Fin 16) : Hub.Heard stateKinds h (Hub.absentStream p k h) := by
  unfold Hub.absentStream
  refine .opt (.ite ?_ (.refl _ h)) ((Hub.discardBuffer_only _ k).heard (by decide))
  split
  · exact h.releaseHold_heard k
  · exact (h.endHold_only k).heard (by decide)
  · exact h.modStream_heard k _
  · exact h.modStream_heard k _

theorem Hub.absentPath_files (p : Fin 4) (q : Fin 8) : Hub.Files (PathBrings q) 5 h (Hub.absentPath p q h) := by
  have hsame : ∀ {g : Hub}, h.SameFiling g → Hub.Files (PathBrings q) 5 h g := fun hg =>
    hg.files.mono (fun _ => id) (by omega)
  unfold Hub.absentPath
  refine .ite (.ite ?_ (hsame (h.modPath_sameFiling q _))) (hsame (.refl h))
  exact ((h.modPath_sameFiling q _).files.trans (Hub.evaluatePath_files _ q)).mono (fun _ => id) (by omega)

theorem Hub.absentPath_heard (p : Fin 4) (q : Fin 8) : Hub.Heard pathKinds h (Hub.absentPath p q h) := by
  unfold Hub.absentPath
  exact .ite (.ite (.trans (h.modPath_heard q _) (Hub.evaluatePath_heard _ q)) (h.modPath_heard q _)) (.refl _ h)

theorem Hub.absentClips_sameFiling (p : Fin 4) : h.SameFiling (Hub.absentClips p h) :=
  (h.mapClips_sameFiling _).trans (Hub.mapClips_sameFiling _ _)

theorem Hub.goAbsent_files (p : Fin 4) (period : Nat) :
    Hub.Files LabelSource.link.Owns 40 h (Hub.goAbsent p period h) := by
  unfold Hub.goAbsent
  refine Hub.Files.mono (m := 0 + 16 * 0 + 8 * 5 + 0) (.trans (.trans (.trans
    ((h.modPort_only p _).sameFiling (by decide)).files
    (.forEach (fun k g => (g.absentStream_sameFiling p k).files) _))
    (.forEach (fun q g => (g.absentPath_files p q).mono (fun _ => PathBrings.owns) (Nat.le_refl _)) _))
    (((Hub.absentClips_sameFiling _ p).trans (Hub.withTally_sameFiling _ _)).trans
      (Hub.notify_sameFiling _ .portAbsent _)).files) (fun _ => id) (by omega)

theorem Hub.goAbsent_heard (p : Fin 4) (period : Nat) : Hub.Heard absenceKinds h (Hub.goAbsent p period h) := by
  unfold Hub.goAbsent
  refine .trans (.trans (.trans (h.modPort_heard p _)
    (.forEach (fun k g => (g.absentStream_heard p k).mono (by decide)) _))
    (.forEach (fun q g => (g.absentPath_heard p q).mono (by decide)) _))
    (.trans (.trans (.trans (Hub.mapClips_heard _ _) (Hub.mapClips_heard _ _)) (Hub.withTally_heard _ _))
      (Hub.notify_heard _ (k := .portAbsent) (by decide) _))

theorem Hub.tickPort_files (p : Fin 4) : Hub.Files LabelSource.link.Owns 40 h (Hub.tickPort p h) := by
  have hsame : ∀ {g : Hub}, h.SameFiling g → Hub.Files LabelSource.link.Owns 40 h g := fun hg =>
    hg.files.mono (fun _ => id) (by omega)
  unfold Hub.tickPort
  split
  · exact hsame (.refl h)
  · exact .ite (h.goAbsent_files p _) (.ite (hsame ((h.modPort_only p _).sameFiling (by decide))) (hsame (.refl h)))

theorem Hub.tickPort_heard (p : Fin 4) : Hub.Heard absenceKinds h (Hub.tickPort p h) := by
  unfold Hub.tickPort
  split
  · exact .refl _ h
  · exact .ite (h.goAbsent_heard p _) (.ite (h.modPort_heard p _) (.refl _ h))

/-! ### The stages of a tick -/

/-- The new frame is in force, and the clips are dated by it and closed at the span limit. -/
def Hub.tickFrame (moment : Nat) : Hub := ({ h with tb := h.tb.tick moment } : Hub).dateClips.closeLimits

/-- The paths' part of a tick. -/
def Hub.tickPaths : Hub := h.forEach 8 Hub.tickPath

/-- The Gauge's part of a tick. -/
def Hub.tickGauges : Hub := h.forEach 8 fun p g => Hub.tickManual p (Hub.tickAuto p g)

/-- The ports' part of a tick. -/
def Hub.tickPorts : Hub := h.forEach 4 Hub.tickPort

/-- The paths' watch for a break begins its frame. -/
def Hub.openPaths : Hub := h.forEach 8 fun p g => g.modPath p Path.openFrame

/-- The hub before the mixer's part of a tick. -/
def Hub.atMixer (moment : Nat) : Hub := (h.tickFrame moment).timebaseNotices h.tb

/-- The hub before the coder's part of a tick. -/
def Hub.atCoder (moment : Nat) : Hub := (h.atMixer moment).tickMixer h.tb

/-- The hub before the paths' part of a tick. -/
def Hub.atPaths (moment : Nat) : Hub := (h.atCoder moment).tickCoder

/-- The hub before the Gauge's part of a tick. -/
def Hub.atGauges (moment : Nat) : Hub := (h.atPaths moment).tickPaths

theorem Hub.tickBlocks_eq (moment : Nat) : h.tickBlocks moment = (h.atGauges moment).tickGauges := rfl

/-- The hub after the ports' part of a tick. -/
def Hub.afterPorts (moment : Nat) : Hub := (h.tickBlocks moment).tickPorts

theorem Hub.tick_stages (moment : Nat) : h.tick moment = (h.afterPorts moment).openPaths.tickTests.tickTally := rfl

/-! ### What a stage changes -/

/-- The parts that the mixer's part of a tick can change. -/
def mixerParts : List Part := [.mixer, .budget] ++ unitParts

theorem Hub.withMixer_only (m : Mixer) : Hub.OnlyChanges [.mixer] h { h with mixer := m } := by
  intro x hx; cases x <;> first | rfl | exact absurd hx (by decide) | exact ⟨rfl, rfl, rfl⟩ | exact ⟨rfl, rfl⟩

theorem Hub.give_only {parts : List Part} (x : Notice) (hn : Part.notices ∈ parts) :
    Hub.OnlyChanges parts h (h.give x) := by
  intro y hy
  cases y <;> simp_all [Part.same]

theorem Hub.judgeOverload_only (ended : Frame) (k : Fin 16) :
    Hub.OnlyChanges mixerParts h (h.judgeOverload ended k) := by
  unfold Hub.judgeOverload
  exact .ite (.refl _ h) (.trans (.trans ((h.modBus_only k _).mono (by decide)) ((Hub.label_only _ _).mono (by decide)))
    (Hub.give_only _ _ (by decide)))

theorem Hub.judgeSilence_only (ended : Frame) (k : Fin 16) :
    Hub.OnlyChanges mixerParts h (h.judgeSilence ended k) := by
  have hbus : ∀ f : Bus → Bus, Hub.OnlyChanges mixerParts h (h.modBus k f) := fun f =>
    (h.modBus_only k f).mono (by decide)
  unfold Hub.judgeSilence
  dsimp only
  exact .ite (.ite ((hbus _).trans ((Hub.label_only _ _).mono (by decide))) (hbus _))
    (.ite ((hbus _).trans ((Hub.label_only _ _).mono (by decide))) (hbus _))

theorem Hub.tickPack_only (ended : Frame) (n : Nat) (k : Fin 8) :
    Hub.OnlyChanges mixerParts h (Hub.tickPack ended n k h) := by
  have hpack : ∀ (g : Hub) (f : Pack → Pack), Hub.OnlyChanges mixerParts g (g.modPack k f) := fun g f =>
    (g.modPack_only k f).mono (by decide)
  refine .opt ?_ ((Hub.endClosing_only _ _).mono (by decide))
  split
  · exact ((hpack h _).trans (hpack _ _)).trans ((Hub.offer_only _ _).mono (by decide))
  · exact (hpack h _).trans (hpack _ _)
  · exact hpack h _

theorem Hub.tickMixer_only (old : Timebase) : Hub.OnlyChanges mixerParts h (h.tickMixer old) := by
  rw [Hub.tickMixer_eq]
  refine .trans (.trans (.trans ((h.withMixer_only _).mono (by decide)) (.forEach (fun k g => ?_) _))
    (.forEach (fun k g => g.tickPack_only _ _ k) _)) ((Hub.withMixer_only _ _).mono (by decide))
  exact (g.judgeOverload_only _ k).trans (Hub.judgeSilence_only _ _ k)

theorem Hub.tickPaths_only : Hub.OnlyChanges pathParts h h.tickPaths := .forEach (fun p g => g.tickPath_only p) h

theorem Hub.tickGauges_only : Hub.OnlyChanges [.gauges, .budget, .notices] h h.tickGauges :=
  .forEach (fun p g => (g.tickAuto_only p).trans ((Hub.tickManual_only _ p).mono (by decide))) h

theorem Hub.tickPorts_only : Hub.OnlyChanges absenceParts h h.tickPorts := .forEach (fun p g => g.tickPort_only p) h

theorem Hub.openPaths_only : Hub.OnlyChanges [.pathRecords] h h.openPaths :=
  .forEach (fun p g => g.modPath_only p _) h

/-- The parts that the stages after the new frame can change: all but the Timebase and the strap word. -/
def workParts : List Part :=
  [.streams, .rings, .memory, .inputs, .coders, .mixer, .pathRecords, .mapping, .sending, .gauges, .budget, .log, .tally,
   .ports, .notices]

theorem Hub.tickFrame_only (moment : Nat) : Hub.OnlyChanges [.timebase, .log] h (h.tickFrame moment) :=
  ((h.withTimebase_only _).mono (by decide)).trans (((Hub.mapClips_only _ _).mono (by decide)).trans
    ((Hub.mapClips_only _ _).mono (by decide)))

/-- What a tick does once the new frame is in force leaves the Timebase and the strap word. -/
theorem Hub.tickWork_only (moment : Nat) : Hub.OnlyChanges workParts (h.tickFrame moment) (h.tick moment) := by
  rw [Hub.tick_stages]
  refine .trans ?_ ((Hub.tickTally_only _).mono (by decide))
  refine .trans ?_ ((Hub.tickTests_only _).mono (by decide))
  refine .trans ?_ ((Hub.openPaths_only _).mono (by decide))
  refine .trans ?_ ((Hub.tickPorts_only _).mono (by decide))
  refine .trans ?_ ((Hub.tickGauges_only _).mono (by decide))
  refine .trans ?_ ((Hub.tickPaths_only _).mono (by decide))
  refine .trans ?_ ((Hub.tickCoder_only _).mono (by decide))
  refine .trans ?_ ((Hub.tickMixer_only _ _).mono (by decide))
  exact (Hub.timebaseNotices_only _ _).mono (by decide)

@[simp] theorem Hub.tick_tb (moment : Nat) : (h.tick moment).tb = h.tb.tick moment :=
  (h.tickWork_only moment .timebase (by decide)).symm

@[simp] theorem Hub.tick_strap (moment : Nat) : (h.tick moment).strap = h.strap :=
  ((h.tickFrame_only moment .strap (by decide)).trans (h.tickWork_only moment .strap (by decide))).symm

/-! ### What a tick gives and files after the Timebase's part -/

/-- The kinds of notice that the blocks after the Timebase give at a tick. -/
def tickKinds : List NoticeKind := mixerKinds ++ coderKinds ++ [.pathChange] ++ absenceKinds

theorem Hub.blocks_heard (moment : Nat) : Hub.Heard tickKinds (h.atMixer moment) (h.tick moment) := by
  rw [Hub.tick_eq]
  refine .trans ?_ ((Hub.tickTally_only _).heard (by decide))
  refine .trans ?_ (.forEach (fun k g => (g.testClips_heard k none).mono (by decide)) _)
  refine .trans ?_ ((Hub.openPaths_only _).heard (by decide))
  refine .trans ?_ (.forEach (fun p g => (g.tickPort_heard p).mono (by decide)) _)
  refine .trans ?_ (.forEach (fun p g => ((g.tickAuto_heard p).mono (by decide)).trans
    ((Hub.tickManual_heard _ p).mono (by decide))) _)
  refine .trans ?_ (.forEach (fun p g => (g.tickPath_heard p).mono (by decide)) _)
  exact ((Hub.tickMixer_heard _ _).mono (by decide)).trans ((Hub.tickCoder_heard _).mono (by decide))

/-- The labels of the blocks after the Timebase. -/
def BlockLabel (x : Label) : Prop := x.source = .mixer ∨ x.source = .coder ∨ x.source = .link ∨ x.source = .trigger

theorem LabelSource.Owns.block {b : LabelSource} {x : Label} (h : b.Owns x) (hb : b = .mixer ∨ b = .coder ∨ b = .link) :
    BlockLabel x := by
  rcases hb with rfl | rfl | rfl
  · exact h.elim .inl fun ht => .inr (.inr (.inr ht))
  · exact h.elim (fun hc => .inr (.inl hc)) fun ht => .inr (.inr (.inr ht))
  · exact .inr (.inr h)

theorem Hub.tickTests_sameFiling : h.SameFiling h.tickTests := by
  unfold Hub.tickTests Hub.forEach
  exact .foldl (fun g k => g.testClips_sameFiling k none) _ h

theorem Hub.blocks_files (moment : Nat) : Hub.Files BlockLabel 400 (h.atMixer moment) (h.tick moment) := by
  have hmixer := (Hub.tickMixer_files (h.atMixer moment) h.tb).mono (Q := BlockLabel) (fun x hx => hx.block (.inl rfl))
    (Nat.le_refl _)
  have hcoder := (Hub.tickCoder_files (h.atCoder moment)).mono (Q := BlockLabel)
    (fun x hx => hx.block (.inr (.inl rfl))) (Nat.le_refl _)
  have hpaths : Hub.Files BlockLabel (8 * 5) (h.atPaths moment) (h.atGauges moment) :=
    .forEach (fun p g => (g.tickPath_files p).mono (fun x hx => hx.owns.block (.inr (.inr rfl))) (Nat.le_refl _)) _
  have hports : Hub.Files BlockLabel (4 * 40) (h.tickBlocks moment) (h.afterPorts moment) :=
    .forEach (fun p g => (g.tickPort_files p).mono (fun x hx => hx.block (.inr (.inr rfl))) (Nat.le_refl _)) _
  have hgauges : (h.atGauges moment).SameFiling (h.tickBlocks moment) :=
    (Hub.tickGauges_only _).sameFiling (by decide)
  have hrest : (h.afterPorts moment).SameFiling (h.tick moment) := by
    rw [Hub.tick_stages]
    exact ((Hub.openPaths_only _).sameFiling (by decide)).trans
      ((Hub.tickTests_sameFiling _).trans ((Hub.tickTally_only _).sameFiling (by decide)))
  exact (((((hmixer.trans hcoder).trans hpaths).trans hgauges.files).trans hports).trans hrest.files).mono (fun _ => id)
    (by omega)

end

end Sys2Proof.Machine
end

section
/-! Proofs: the moment of a command and the outside world that it shows stay through the work that the command does. -/

namespace Sys2Proof.Machine

-- In order, so that the package in one text stays within the memory of its check.
set_option Elab.async false

/-- The moment, and the outside world at it. -/
def Hub.moment (h : Hub) : Nat × Env := (h.now, h.env)

section
variable (h : Hub)

theorem Hub.foldl_moment {α : Type} {f : Hub → α → Hub} (hf : ∀ g x, (f g x).moment = g.moment) (xs : List α) :
    ∀ h : Hub, (xs.foldl f h).moment = h.moment := by
  induction xs with
  | nil => exact fun _ => rfl
  | cons x xs ih => exact fun h => (ih _).trans (hf h x)

theorem Hub.forEach_moment {n : Nat} {f : Fin n → Hub → Hub} (hf : ∀ i g, (f i g).moment = g.moment) (h : Hub) :
    (h.forEach n f).moment = h.moment := Hub.foldl_moment (fun g i => hf i g) _ h

@[simp] theorem Hub.modStream_moment (k : Fin 16) (f : Stream → Stream) : (h.modStream k f).moment = h.moment := rfl

@[simp] theorem Hub.modRing_moment (r : Fin 17) (f : Ring → Ring) : (h.modRing r f).moment = h.moment := rfl

@[simp] theorem Hub.modCoder_moment (k : Fin 4) (f : Coder → Coder) : (h.modCoder k f).moment = h.moment := rfl

@[simp] theorem Hub.modInput_moment (i : Fin 4) (f : VideoInput → VideoInput) : (h.modInput i f).moment = h.moment := rfl

@[simp] theorem Hub.modPath_moment (p : Fin 8) (f : Path → Path) : (h.modPath p f).moment = h.moment := rfl

@[simp] theorem Hub.modSend_moment (r : Fin 17) (f : SendContext → SendContext) : (h.modSend r f).moment = h.moment := rfl

@[simp] theorem Hub.modBond_moment (j : Fin 4) (f : Bond → Bond) : (h.modBond j f).moment = h.moment := rfl

@[simp] theorem Hub.modGauge_moment (p : Fin 8) (f : Gauge → Gauge) : (h.modGauge p f).moment = h.moment := rfl

@[simp] theorem Hub.modShare_moment (k : Fin 4) (f : PictureBudget → PictureBudget) :
    (h.modShare k f).moment = h.moment := rfl

@[simp] theorem Hub.modBus_moment (k : Fin 16) (f : Bus → Bus) : (h.modBus k f).moment = h.moment := rfl

@[simp] theorem Hub.modPack_moment (k : Fin 8) (f : Pack → Pack) : (h.modPack k f).moment = h.moment := rfl

@[simp] theorem Hub.modTrigger_moment (t : Fin 4) (f : Trigger → Trigger) : (h.modTrigger t f).moment = h.moment := rfl

@[simp] theorem Hub.modPort_moment (p : Fin 4) (f : PortRecord → PortRecord) : (h.modPort p f).moment = h.moment := rfl

@[simp] theorem Hub.modLog_moment (f : ClipLog → ClipLog) : (h.modLog f).moment = h.moment := rfl

@[simp] theorem Hub.mapClips_moment (f : Clip → Clip) : (h.mapClips f).moment = h.moment := rfl

@[simp] theorem Hub.withTally_moment (t : Tally) : ({ h with tally := t } : Hub).moment = h.moment := rfl

@[simp] theorem Hub.withMixer_moment (m : Mixer) : ({ h with mixer := m } : Hub).moment = h.moment := rfl

@[simp] theorem Hub.withBudget_moment (b : Budget) : ({ h with budget := b } : Hub).moment = h.moment := rfl

@[simp] theorem Hub.withTimebase_moment (t : Timebase) : ({ h with tb := t } : Hub).moment = h.moment := rfl

@[simp] theorem Hub.give_moment (x : Notice) : (h.give x).moment = h.moment := rfl

@[simp] theorem Hub.notify_moment (k : NoticeKind) (n : Nat) : (h.notify k n).moment = h.moment := rfl

/-! ### Budget, clips and streams -/

@[simp] theorem Hub.recompute_moment : h.recompute.moment = h.moment := by
  unfold Hub.recompute
  refine (Hub.forEach_moment (fun k g => ?_) _).trans ?_ <;> simp [apply_ite Hub.moment]

@[simp] theorem Hub.finishClips_moment : h.finishClips.moment = h.moment := by
  unfold Hub.finishClips
  refine Hub.foldl_moment (fun g c => ?_) _ h
  rfl

@[simp] theorem Hub.testClips_moment (k : Fin 16) (dated : Option Word) : (h.testClips k dated).moment = h.moment :=
  Hub.finishClips_moment _

@[simp] theorem Hub.lapseRetainers_moment (k : Fin 16) (u : Word) :
    ∀ (n : Nat) (h : Hub), (Hub.lapseRetainers k u n h).moment = h.moment
  | 0, _ => rfl
  | n + 1, h => by
    unfold Hub.lapseRetainers
    split
    · rfl
    · exact Hub.lapseRetainers_moment k u n _

@[simp] theorem Hub.calmDeficits_moment (r : Fin 17) : (h.calmDeficits r).moment = h.moment := by
  unfold Hub.calmDeficits
  split <;> rfl

@[simp] theorem Hub.moveSend_moment (r : Fin 17) (w : Word) : (h.moveSend r w).moment = h.moment := by
  simp [Hub.moveSend]

@[simp] theorem Hub.endHold_moment (k : Fin 16) : (h.endHold k).moment = h.moment := by
  simp [Hub.endHold, apply_ite Hub.moment]

@[simp] theorem Hub.streamChanged_moment (k : Fin 16) : (h.streamChanged k).moment = h.moment := by
  simp [Hub.streamChanged]

@[simp] theorem Hub.endClosing_moment (k : Fin 16) : (h.endClosing k).moment = h.moment := by
  simp [Hub.endClosing, apply_ite Hub.moment]

@[simp] theorem Hub.releaseHold_moment (k : Fin 16) : (h.releaseHold k).moment = h.moment := by
  simp [Hub.releaseHold]

@[simp] theorem Hub.discardBuffer_moment (k : Fin 16) : (h.discardBuffer k).moment = h.moment := by
  simp [Hub.discardBuffer, Hub.countDiscard, apply_ite Hub.moment]

@[simp] theorem Hub.carryMarks_moment (old : Word) : (h.carryMarks old).moment = h.moment := rfl

@[simp] theorem Hub.loseUnsent_moment (r : Fin 17) (e : Entry) : (h.loseUnsent r e).moment = h.moment := by
  unfold Hub.loseUnsent
  dsimp only
  split <;> simp

@[simp] theorem Hub.removeTail_moment (r : Fin 17) (e : Entry) : (h.removeTail r e).moment = h.moment := by
  simp [Hub.removeTail, apply_ite Hub.moment]

@[simp] theorem Hub.makeRoom_moment (r : Fin 17) (len : Nat) :
    ∀ (n : Nat) (h : Hub), (Hub.makeRoom r len n h).moment = h.moment
  | 0, _ => rfl
  | n + 1, h => by
    unfold Hub.makeRoom
    split
    · split
      · rfl
      · rw [Hub.makeRoom_moment r len n, Hub.removeTail_moment]
    · rfl

@[simp] theorem Hub.writeUnit_moment (r : Fin 17) (o : Offer) (unit : Word) (g : Option Word) :
    (h.writeUnit r o unit g).moment = h.moment := by
  unfold Hub.writeUnit
  dsimp only
  split <;> rfl

@[simp] theorem Hub.ringNotices_moment (r : Fin 17) (start len : Nat) : (h.ringNotices r start len).moment = h.moment := by
  simp [Hub.ringNotices, apply_ite Hub.moment]

@[simp] theorem Hub.commit_moment (o : Offer) : (h.commit o).1.moment = h.moment := by
  simp [Hub.commit, Hub.spanCommit, Hub.measureClips]

@[simp] theorem Hub.judge_moment (o : Offer) : (h.judge o).1.moment = h.moment := by
  unfold Hub.judge
  dsimp only
  repeat' split
  all_goals simp [Hub.countDiscard]

@[simp] theorem Hub.offer_moment (o : Offer) : (h.offer o).1.moment = h.moment := by
  simp [Hub.offer]

/-! ### Labels -/

@[simp] theorem Hub.attemptFire_moment (t : Fin 4) : (h.attemptFire t).1.moment = h.moment := by
  unfold Hub.attemptFire
  repeat' split
  all_goals simp [Hub.fired, Hub.addClip, Hub.closeClips]

@[simp] theorem Hub.offerTriggers_moment (d : Draft) : (h.offerTriggers d).1.moment = h.moment := by
  have key : ∀ (ts : List (Fin 4)) (x : Hub × List Draft),
      (ts.foldl (Hub.offerTrigger d) x).1.moment = x.1.moment := by
    intro ts
    induction ts with
    | nil => exact fun _ => rfl
    | cons t ts ih =>
      intro x
      rw [List.foldl_cons, ih, Hub.offerTrigger]
      split
      · exact x.1.attemptFire_moment t
      · rfl
  rw [Hub.offerTriggers_eq]
  exact key _ _

@[simp] theorem Hub.fileLabel_moment (d : Draft) (named : Option Word) : (h.fileLabel d named).1.moment = h.moment := by
  unfold Hub.fileLabel
  split
  · simp [Hub.offerLabel, apply_ite Hub.moment]
  · rfl

@[simp] theorem Hub.label_moment (d : Draft) : (h.label d).moment = h.moment := by
  rw [Hub.label, Hub.arriveLabel_fst, Hub.foldl_moment fun g t => g.fileLabel_moment t none]
  simp

/-! ### The blocks at a tick -/

@[simp] theorem Hub.timebaseNotices_moment (old : Timebase) : (h.timebaseNotices old).moment = h.moment := by
  simp [Hub.timebaseNotices, apply_ite Hub.moment]

@[simp] theorem Hub.judgeOverload_moment (ended : Frame) (k : Fin 16) : (h.judgeOverload ended k).moment = h.moment := by
  simp [Hub.judgeOverload, apply_ite Hub.moment]

@[simp] theorem Hub.judgeSilence_moment (ended : Frame) (k : Fin 16) : (h.judgeSilence ended k).moment = h.moment := by
  simp [Hub.judgeSilence, apply_ite Hub.moment]

@[simp] theorem Hub.tickPack_moment (ended : Frame) (n : Nat) (k : Fin 8) :
    (Hub.tickPack ended n k h).moment = h.moment := by
  unfold Hub.tickPack
  dsimp only
  split <;> split <;> simp [Hub.startPack]

@[simp] theorem Hub.tickMixer_moment (old : Timebase) : (h.tickMixer old).moment = h.moment := by
  rw [Hub.tickMixer_eq]
  refine (Hub.withMixer_moment _ _).trans ((Hub.forEach_moment (fun k g => g.tickPack_moment _ _ k) _).trans
    ((Hub.forEach_moment (fun k g => ?_) _).trans (h.withMixer_moment _)))
  rw [Hub.judgeSilence_moment, Hub.judgeOverload_moment]

@[simp] theorem Hub.offerSubstitute_moment (k : Fin 4) (f : Flight) (black : Bool) :
    (h.offerSubstitute k f black).moment = h.moment := by
  simp [Hub.offerSubstitute, Hub.offerPicture]

@[simp] theorem Hub.flush_moment (k : Fin 4) : ∀ (n : Nat) (h : Hub), (Hub.flush k n h).moment = h.moment
  | 0, _ => rfl
  | n + 1, h => by
    unfold Hub.flush
    split
    · rfl
    · split
      · rfl
      · rw [Hub.flush_moment k n, Hub.offerSubstitute_moment, Hub.modCoder_moment]

@[simp] theorem Hub.settle_moment (k : Fin 4) : (h.settle k).moment = h.moment := by
  simp [Hub.settle, Hub.closeIfDone, apply_ite Hub.moment]

@[simp] theorem Hub.dropPicture_moment (k : Fin 4) (f : Flight) (why : DropReason) :
    (h.dropPicture k f why).moment = h.moment := by
  simp [Hub.dropPicture]

@[simp] theorem Hub.inputChanged_moment (i : Fin 4) (kind : LabelKind) : (h.inputChanged i kind).moment = h.moment := by
  simp [Hub.inputChanged]

@[simp] theorem Hub.loseInput_moment (i : Fin 4) : (h.loseInput i).moment = h.moment := by
  refine (Hub.forEach_moment (fun k g => ?_) _).trans (Hub.inputChanged_moment _ _ _)
  simp [Hub.abortFrom, apply_ite Hub.moment]

@[simp] theorem Hub.tickInput_moment (i : Fin 4) : (Hub.tickInput i h).moment = h.moment := by
  unfold Hub.tickInput
  dsimp only
  repeat' split
  · rfl
  · simp
  · simp
  · rfl

@[simp] theorem Hub.lateDrop_moment (k : Fin 4) : (Hub.lateDrop k h).moment = h.moment := by
  unfold Hub.lateDrop
  split
  · rfl
  · simp [apply_ite Hub.moment]

@[simp] theorem Hub.beginPicture_moment (k : Fin 4) : (Hub.beginPicture k h).moment = h.moment := by
  simp [Hub.beginPicture, Hub.forgetRates, apply_ite Hub.moment]

@[simp] theorem Hub.tickCoder_moment : h.tickCoder.moment = h.moment := by
  unfold Hub.tickCoder
  rw [Hub.forEach_moment fun k g => g.beginPicture_moment k, Hub.forEach_moment fun i g => g.tickInput_moment i,
    Hub.forEach_moment fun k g => g.lateDrop_moment k]

@[simp] theorem Hub.endManual_moment (p : Fin 8) (n : Nat) : (h.endManual p n).moment = h.moment := rfl

@[simp] theorem Hub.gaugeLeave_moment (p : Fin 8) : (h.gaugeLeave p).moment = h.moment := by
  simp [Hub.gaugeLeave, Hub.abortManual, apply_ite Hub.moment]

@[simp] theorem Hub.afterChange_moment (p : Fin 8) (old : Path) (s : PathState) (why : DownReason) :
    (h.afterChange p old s why).moment = h.moment := by
  unfold Hub.afterChange
  rw [Hub.recompute_moment, apply_ite Hub.moment, Hub.gaugeLeave_moment, ite_self, Hub.label_moment, Hub.notify_moment,
    apply_ite Hub.moment, Hub.modBond_moment, ite_self]

@[simp] theorem Hub.evaluatePath_moment (p : Fin 8) : (Hub.evaluatePath p h).moment = h.moment := by
  unfold Hub.evaluatePath
  dsimp only
  split
  · rfl
  · rw [Hub.changePath_eq, Hub.afterChange_moment, Hub.modPath_moment]

@[simp] theorem Hub.tickPath_moment (p : Fin 8) : (Hub.tickPath p h).moment = h.moment := by
  simp [Hub.tickPath, Hub.samplePath, apply_ite Hub.moment]

@[simp] theorem Hub.endCycle_moment (p : Fin 8) (v0 t1 : Nat) : (h.endCycle p v0 t1).moment = h.moment := by
  simp [Hub.endCycle, Hub.gaugeDone]

@[simp] theorem Hub.beginStep1_moment (p : Fin 8) : (Hub.beginStep1 p h).moment = h.moment := by
  simp [Hub.beginStep1, apply_ite Hub.moment]

@[simp] theorem Hub.endStep1_moment (p : Fin 8) : (Hub.endStep1 p h).moment = h.moment := by
  simp [Hub.endStep1, apply_ite Hub.moment]

@[simp] theorem Hub.tickAuto_moment (p : Fin 8) : (Hub.tickAuto p h).moment = h.moment := by
  simp [Hub.tickAuto, apply_ite Hub.moment]

@[simp] theorem Hub.tickManual_moment (p : Fin 8) : (Hub.tickManual p h).moment = h.moment := by
  unfold Hub.tickManual
  dsimp only
  repeat' split
  all_goals rfl

@[simp] theorem Hub.absentStream_moment (p : Fin 4) (k : Fin 16) : (Hub.absentStream p k h).moment = h.moment := by
  unfold Hub.absentStream
  dsimp only
  repeat' split
  all_goals simp

@[simp] theorem Hub.absentPath_moment (p : Fin 4) (q : Fin 8) : (Hub.absentPath p q h).moment = h.moment := by
  simp [Hub.absentPath, apply_ite Hub.moment]

@[simp] theorem Hub.goAbsent_moment (p : Fin 4) (period : Nat) : (Hub.goAbsent p period h).moment = h.moment := by
  refine (Hub.notify_moment _ _ _).trans ((Hub.withTally_moment _ _).trans ?_)
  rw [Hub.absentClips, Hub.closeClips, Hub.mapClips_moment, Hub.mapClips_moment,
    Hub.forEach_moment fun q g => g.absentPath_moment p q, Hub.forEach_moment fun k g => g.absentStream_moment p k]
  rfl

@[simp] theorem Hub.tickPort_moment (p : Fin 4) : (Hub.tickPort p h).moment = h.moment := by
  unfold Hub.tickPort
  split
  · rfl
  · simp [apply_ite Hub.moment]

@[simp] theorem Hub.atMixer_moment (m : Nat) : (h.atMixer m).moment = h.moment := Hub.timebaseNotices_moment _ _

@[simp] theorem Hub.atCoder_moment (m : Nat) : (h.atCoder m).moment = h.moment := by simp [Hub.atCoder]

@[simp] theorem Hub.atPaths_moment (m : Nat) : (h.atPaths m).moment = h.moment := by simp [Hub.atPaths]

@[simp] theorem Hub.atGauges_moment (m : Nat) : (h.atGauges m).moment = h.moment := by
  rw [Hub.atGauges, Hub.tickPaths, Hub.forEach_moment fun p g => g.tickPath_moment p, Hub.atPaths_moment]

@[simp] theorem Hub.tickBlocks_moment (m : Nat) : (h.tickBlocks m).moment = h.moment := by
  rw [Hub.tickBlocks_eq, Hub.tickGauges, Hub.forEach_moment, Hub.atGauges_moment]
  simp

@[simp] theorem Hub.tickPorts_moment : h.tickPorts.moment = h.moment :=
  Hub.forEach_moment (fun p g => g.tickPort_moment p) h

@[simp] theorem Hub.openPaths_moment : h.openPaths.moment = h.moment :=
  Hub.forEach_moment (fun p g => g.modPath_moment p _) h

@[simp] theorem Hub.tickTests_moment : h.tickTests.moment = h.moment :=
  Hub.forEach_moment (fun k g => g.testClips_moment k none) h

@[simp] theorem Hub.tickTally_moment : h.tickTally.moment = h.moment := by
  unfold Hub.tickTally Hub.formLamps
  dsimp only
  rw [Hub.withTally_moment]

@[simp] theorem Hub.tick_moment (m : Nat) : (h.tick m).moment = h.moment := by
  rw [Hub.tick_stages, Hub.tickTally_moment, Hub.tickTests_moment, Hub.openPaths_moment, Hub.afterPorts,
    Hub.tickPorts_moment, Hub.tickBlocks_moment]

theorem Hub.tick_now (m : Nat) : (h.tick m).now = h.now := by
  have hm := h.tick_moment m
  simp only [Hub.moment, Prod.mk.injEq] at hm
  exact hm.1

end

end Sys2Proof.Machine
end

section
/-! Proofs: the reference, the reader and the settings of the Timebase (chapter 1). -/

namespace Sys2Proof.Machine

-- In order, so that the package in one text stays within the memory of its check.
set_option Elab.async false

/-! ### Reference pulses -/

theorem Timebase.inTolerance_iff (t : Timebase) (d : Nat) :
    t.inTolerance d = true ↔
      t.frameRate.nominal - t.frameRate.tolerance ≤ d ∧ d ≤ t.frameRate.nominal + t.frameRate.tolerance := by
  simp [Timebase.inTolerance]

section
variable {h : Hub} {prev : Nat}

theorem Hub.measurePulse_strays (hd : h.tb.inTolerance (h.now - prev) ≠ true) :
    h.measurePulse prev =
      { h with tb := { h.tb with good := 0, prevPulse := some h.now, lastInterval := h.now - prev } } := by
  unfold Hub.measurePulse
  exact if_neg hd

theorem Hub.measurePulse_counts (hd : h.tb.inTolerance (h.now - prev) = true) (hg : h.tb.good + 1 < 8) :
    h.measurePulse prev =
      { h with tb := { h.tb with good := h.tb.good + 1, prevPulse := some h.now, lastInterval := h.now - prev } } := by
  unfold Hub.measurePulse
  exact (if_pos hd).trans (if_pos hg)

/-- R4: the count reaches 8. -/
theorem Hub.measurePulse_locks (hd : h.tb.inTolerance (h.now - prev) = true) (hg : ¬ h.tb.good + 1 < 8) :
    h.measurePulse prev =
      if (h.tb.ref == .holdover && decide (h.tb.frameRate.half ≤ h.now - h.tb.lastTick)) = true then
        (h.setRef .locked 8 (some h.now)).tick h.now
      else h.setRef .locked 8 (some h.now) := by
  unfold Hub.measurePulse
  exact (if_pos hd).trans (if_neg hg)

theorem Hub.seekingPulse_first (hp : h.tb.prevPulse = none) :
    h.seekingPulse = { h with tb := { h.tb with prevPulse := some h.now } } := by
  simp only [Hub.seekingPulse, hp]

theorem Hub.seekingPulse_again (hp : h.tb.prevPulse = some prev) : h.seekingPulse = h.measurePulse prev := by
  simp only [Hub.seekingPulse, hp]

theorem Hub.referencePulse_free {e : Env} (hr : h.tb.ref = .free) : Hub.referencePulse e h = h.arrive e := by
  have hr' : (h.arrive e).tb.ref = .free := hr
  simp only [Hub.referencePulse, hr']

theorem Hub.referencePulse_seeking {e : Env} (hr : h.tb.ref = .seeking ∨ h.tb.ref = .holdover) :
    Hub.referencePulse e h = (h.arrive e).seekingPulse := by
  rcases hr with hr | hr
  · have hr' : (h.arrive e).tb.ref = .seeking := hr
    simp only [Hub.referencePulse, hr']
  · have hr' : (h.arrive e).tb.ref = .holdover := hr
    simp only [Hub.referencePulse, hr']

theorem Hub.referencePulse_locked {e : Env} (hr : h.tb.ref = .locked) (hp : h.tb.prevPulse = some prev) :
    Hub.referencePulse e h = (h.arrive e).lockedPulse prev := by
  have hr' : (h.arrive e).tb.ref = .locked := hr
  have hp' : (h.arrive e).tb.prevPulse = some prev := hp
  simp only [Hub.referencePulse, hr', hp']

theorem Hub.pulseTimeout_unlocked {e : Env} (hr : h.tb.ref ≠ .locked) : Hub.pulseTimeout e h = h.arrive e := by
  have hr' : (h.arrive e).tb.ref ≠ .locked := hr
  unfold Hub.pulseTimeout
  dsimp only
  split
  · rename_i h₁ _
    exact absurd h₁ hr'
  · rfl

theorem Hub.pulseTimeout_locked {e : Env} (hr : h.tb.ref = .locked) (hp : h.tb.prevPulse = some prev) :
    Hub.pulseTimeout e h =
      ({ h.arrive e with now := max (h.now + e.dt) (h.tb.timeout prev) } : Hub).timeoutAt prev := by
  have hr' : (h.arrive e).tb.ref = .locked := hr
  have hp' : (h.arrive e).tb.prevPulse = some prev := hp
  simp only [Hub.pulseTimeout, hr', hp']
  rfl

end

section
variable (h : Hub)

@[simp] theorem Hub.setRef_tb (r : RefState) (good : Nat) (prev : Option Nat) :
    (h.setRef r good prev).tb = { h.tb with ref := r, good := good, prevPulse := prev, lastInterval := 0 } := rfl

theorem Hub.setRef_summary (r : RefState) (good : Nat) (prev : Option Nat) (p : Fin 4) :
    ((h.setRef r good prev).notices[p]).summary.getLsbD 0 = true := Hub.notify_summary _ (k := .refState) _ rfl

theorem Hub.timebaseNotices_heard (old : Timebase) :
    Hub.Heard ([.serialWrap, .tcJump, .dayWrap, .refState] ++ unitKinds) h (h.timebaseNotices old) := by
  unfold Hub.timebaseNotices
  exact .opt (.opt (.opt (.opt (.refl _ h) (Hub.notify_heard _ (k := .serialWrap) (by decide) _))
    ((Hub.notify_heard _ (k := .tcJump) (by decide) _).trans ((Hub.label_heard _ _).mono (by decide))))
    (Hub.notify_heard _ (k := .dayWrap) (by decide) _)) (Hub.notify_heard _ (k := .refState) (by decide) _)

/-- A summary flag of the Timebase's notices stays through a tick. -/
theorem Hub.tick_summary_mono (moment : Nat) (p : Fin 4) {k : Nat} (hk : k < 23)
    (hs : (h.notices[p]).summary.getLsbD k = true) : ((h.tick moment).notices[p]).summary.getLsbD k = true := by
  refine (h.blocks_heard moment).summary_mono p hk ?_
  have hnotices : Hub.Heard ([.serialWrap, .tcJump, .dayWrap, .refState] ++ unitKinds) (h.tickFrame moment)
      (h.atMixer moment) := Hub.timebaseNotices_heard _ _
  exact hnotices.summary_mono p hk (by rw [(h.tickFrame_only moment .notices (by decide)).symm]; exact hs)

end

/-! ### The obligations on pulses -/

/-- Settles O6: the cases of a pulse in SEEKING and HOLDOVER, by the interval and the count. -/
theorem pulsesAreCounted : Obligations.PulsesAreCounted := by
  have hrun : ∀ (e : Env) (s : State), s.held = false → s.hub.tb.ref = .seeking ∨ s.hub.tb.ref = .holdover →
      exec (.referencePulse e) s = s.became (s.hub.arrive e).seekingPulse := fun e s hs hr =>
    (State.run_free hs _).trans (congrArg s.became (Hub.referencePulse_seeking hr))
  refine ⟨fun e s hs => ⟨fun hr => ?_, fun hr => ⟨fun hp => ?_, fun prev hp => ⟨fun hd => ?_, fun hlo hhi hg => ?_⟩⟩⟩,
    fun e s prev hs hp hg => ?_⟩
  · exact (State.run_free hs _).trans (congrArg s.became (Hub.referencePulse_free hr))
  · exact (hrun e s hs hr).trans (congrArg s.became (Hub.seekingPulse_first (h := s.hub.arrive e) hp))
  · refine (hrun e s hs hr).trans (congrArg s.became ((Hub.seekingPulse_again (h := s.hub.arrive e) hp).trans ?_))
    refine Hub.measurePulse_strays (h := s.hub.arrive e) ?_
    rw [Ne, Timebase.inTolerance_iff]
    exact fun ⟨hlo, hhi⟩ => hd.elim (Nat.not_lt.mpr hlo) (Nat.not_lt.mpr hhi)
  · refine (hrun e s hs hr).trans (congrArg s.became ((Hub.seekingPulse_again (h := s.hub.arrive e) hp).trans ?_))
    exact Hub.measurePulse_counts (h := s.hub.arrive e) ((Timebase.inTolerance_iff _ _).mpr ⟨hlo, hhi⟩)
      (Nat.succ_lt_succ hg)
  · intro g b locked hlo hhi
    have hlocks : (b.ref = .seeking ∨ b.ref = .holdover) → exec (.referencePulse e) s = s.became
        (if (b.ref == .holdover && decide (b.frameRate.half ≤ g.now - b.lastTick)) = true then
          (g.setRef .locked 8 (some g.now)).tick g.now else g.setRef .locked 8 (some g.now)) := fun hr =>
      (hrun e s hs hr).trans (congrArg s.became ((Hub.seekingPulse_again (h := g) hp).trans
        (Hub.measurePulse_locks (h := g) ((Timebase.inTolerance_iff _ _).mpr ⟨hlo, hhi⟩)
          (Nat.not_lt.mpr (Nat.succ_le_succ hg)))))
    refine ⟨fun hr => ?_, fun hr hlate => ?_⟩
    · rw [hlocks (hr.imp_right And.left), if_neg]
      · rfl
      · rcases hr with hr | ⟨hr, hearly⟩
        · simp [hr]
        · simpa [hr] using hearly
    · refine exists_became (hlocks (.inr hr)) ?_
      rw [if_pos (by simp [hr, hlate])]
      exact ⟨Hub.tick_tb _ _, fun p => Hub.tick_summary_mono _ _ p (by decide) (Hub.setRef_summary _ _ _ _ p)⟩

section
variable {h : Hub} {prev : Nat}

theorem Hub.overdueTick_tb {m : Nat} (hm : h.tb.lastTick + h.tb.frameRate.nominal ≤ m) :
    (h.overdueTick m).tb = h.tb.tick m := by
  rw [Hub.overdueTick, if_pos hm, Hub.tick_tb]

theorem Hub.overdueTick_early {m : Nat} (hm : m < h.tb.lastTick + h.tb.frameRate.nominal) : h.overdueTick m = h :=
  if_neg (Nat.not_le.mpr hm)

/-- R5: a pulse before the tolerance. -/
theorem Hub.lockedPulse_early (hd : h.now - prev < h.tb.frameRate.nominal - h.tb.frameRate.tolerance) :
    h.lockedPulse prev = h.toHoldover h.now (some h.now) := if_pos hd

/-- R5: a pulse in tolerance. -/
theorem Hub.lockedPulse_follows (hd : ¬ h.now - prev < h.tb.frameRate.nominal - h.tb.frameRate.tolerance)
    (ht : h.now ≤ h.tb.timeout prev) :
    h.lockedPulse prev =
      ({ h with tb := { h.tb with prevPulse := some h.now, lastInterval := h.now - prev } } : Hub).tick h.now :=
  (if_neg hd).trans (if_pos ht)

/-- R5: a pulse after the moment of the timeout. -/
theorem Hub.lockedPulse_late (ht : h.tb.timeout prev < h.now) : h.lockedPulse prev = (h.timeoutAt prev).seekingPulse := by
  have hd : ¬ h.now - prev < h.tb.frameRate.nominal - h.tb.frameRate.tolerance := by
    unfold Timebase.timeout at ht
    omega
  exact (if_neg hd).trans (if_neg (Nat.not_le.mpr ht))

end

/-- Without a rate change at it a tick keeps the reference. -/
theorem Timebase.tick_of_no_change {t : Timebase} (m : Nat) (hp : t.ratePending = false) :
    (t.tick m).prevPulse = t.prevPulse ∧ (t.tick m).frameRate = t.rate := by
  have hreader : t.readerTimeout.prevPulse = t.prevPulse ∧ t.readerTimeout.rate = t.rate ∧
      t.readerTimeout.ratePending = t.ratePending := by
    unfold Timebase.readerTimeout
    split <;> exact ⟨rfl, rfl, rfl⟩
  simp [Timebase.tick, Timebase.reseek, hreader, hp]

/-- R16: the tick of a rate change with EXTERNAL forgets the pulse. -/
theorem Timebase.tick_of_change {t : Timebase} (m : Nat) (hp : t.ratePending = true) (he : t.external = true) :
    (t.tick m).prevPulse = none := by
  have hreader : t.readerTimeout.external = t.external ∧ t.readerTimeout.ratePending = t.ratePending := by
    unfold Timebase.readerTimeout
    split <;> exact ⟨rfl, rfl⟩
  simp [Timebase.tick, Timebase.reseek, hreader, hp, he]

/-- Settles O7: the cases of a pulse in LOCKED by its moment, and the timeout by the running frame. -/
theorem lockedFollowsPulses : Obligations.LockedFollowsPulses := by
  refine ⟨fun e s prev hs hr hp => ?_, fun e s hs => ⟨fun hr => ?_, fun prev hr hp => ?_⟩⟩
  · intro g b d held
    have hrun : exec (.referencePulse e) s = s.became (g.lockedPulse prev) :=
      (State.run_free hs _).trans (congrArg s.became (Hub.referencePulse_locked hr hp))
    refine ⟨fun hlo hhi => ?_, fun hd => ⟨fun hearly => ?_, fun hlate => ?_⟩, ?_⟩
    · refine exists_became hrun ?_
      exact (congrArg Hub.tb (Hub.lockedPulse_follows (h := g) (Nat.not_lt.mpr hlo) hhi)).trans (Hub.tick_tb _ _)
    · rw [hrun, Hub.lockedPulse_early (h := g) hd]
      exact congrArg s.became (Hub.overdueTick_early (h := g.setRef .holdover 0 (some g.now)) hearly)
    · refine exists_became hrun ?_
      exact (congrArg Hub.tb (Hub.lockedPulse_early (h := g) hd)).trans
        (Hub.overdueTick_tb (h := g.setRef .holdover 0 (some g.now)) hlate)
    · intro due lost
      have hstray : due < g.now → ¬ g.now - prev ≤ b.frameRate.nominal + b.frameRate.tolerance := by
        intro hdue
        have : prev + b.frameRate.nominal + b.frameRate.tolerance + 1 < g.now := hdue
        omega
      have htimeout : due < g.now → g.lockedPulse prev = (g.timeoutAt prev).seekingPulse :=
        Hub.lockedPulse_late (h := g)
      refine ⟨fun hdue hearly => ?_, fun hdue hlate => ?_⟩
      · have hquiet : g.timeoutAt prev = g.setRef .holdover 0 (some prev) :=
          Hub.overdueTick_early (h := g.setRef .holdover 0 (some prev)) hearly
        rw [hrun, htimeout hdue, hquiet, Hub.seekingPulse_again (prev := prev) rfl, Hub.measurePulse_strays]
        · rfl
        · rw [Ne, Timebase.inTolerance_iff]
          exact fun ⟨_, hhi⟩ => hstray hdue hhi
      · have htick : (g.timeoutAt prev).tb = lost.tick due :=
          Hub.overdueTick_tb (h := g.setRef .holdover 0 (some prev)) hlate
        have hnow : (g.timeoutAt prev).now = g.now := by
          have : g.timeoutAt prev = (g.setRef .holdover 0 (some prev)).tick due :=
            if_pos (show (g.setRef .holdover 0 (some prev)).tb.lastTick + _ ≤ _ from hlate)
          rw [this, Hub.tick_now]
          rfl
        refine ⟨fun hpend hrate => ?_, fun hpend hext => ?_⟩
        · obtain ⟨hprev, hfr⟩ := Timebase.tick_of_no_change (t := lost) due hpend
          refine exists_became (hrun.trans (congrArg s.became (htimeout hdue))) ?_
          dsimp only
          rw [Hub.seekingPulse_again (prev := prev) (by rw [htick, hprev]), Hub.measurePulse_strays, htick, hnow]
          rw [htick, hnow, Ne, Timebase.inTolerance_iff, hfr]
          have hsame : lost.rate = b.frameRate := hrate
          rw [hsame]
          exact fun ⟨_, hhi⟩ => hstray hdue hhi
        · refine exists_became (hrun.trans (congrArg s.became (htimeout hdue))) ?_
          dsimp only
          rw [Hub.seekingPulse_first (by rw [htick, Timebase.tick_of_change (t := lost) due hpend hext]), htick, hnow]
  · exact (State.run_free hs _).trans (congrArg s.became (Hub.pulseTimeout_unlocked hr))
  · intro due g held
    have hrun : exec (.pulseTimeout e) s = s.became (g.timeoutAt prev) :=
      (State.run_free hs _).trans (congrArg s.became (Hub.pulseTimeout_locked hr hp))
    refine ⟨fun hlate => ?_, fun hearly => ?_⟩
    · exact exists_became hrun (Hub.overdueTick_tb (h := g.setRef .holdover 0 (some prev)) hlate)
    · rw [hrun]
      exact congrArg s.became (Hub.overdueTick_early (h := g.setRef .holdover 0 (some prev)) hearly)

/-! ### The reader -/

section
variable {t : Timebase}

theorem Timebase.readerArrival_none : t.readerArrival none = { t with readerNow := true, reader := none } := rfl

theorem Timebase.readerArrival_illegal {v : Timecode} (hv : v.legal t.rate t.df = false) :
    t.readerArrival (some v) = { t with readerNow := true, reader := none } := by
  simp [Timebase.readerArrival, hv]

/-- R14: an arrival that follows the one before it. -/
theorem Timebase.readerArrival_paired {v last : Timecode} (hv : v.legal t.rate t.df = true)
    (hl : t.reader = some last) (hf : t.follow = true) (hp : v = (last.increment t.rate t.df).1) :
    t.readerArrival (some v) =
      { t with readerNow := true, reader := some v, jam := some (v.increment t.rate t.df).1 } := by
  have hpair : (v == (last.increment t.rate t.df).1) = true := by rw [← hp]; exact beq_self_eq_true v
  simp [Timebase.readerArrival, hv, hl, hf, hpair]

theorem Timebase.readerArrival_single {v : Timecode} (hv : v.legal t.rate t.df = true)
    (hn : t.follow = false ∨ ∀ last, t.reader = some last → v ≠ (last.increment t.rate t.df).1) :
    t.readerArrival (some v) = { t with readerNow := true, reader := some v } := by
  unfold Timebase.readerArrival
  rcases hn with hn | hn
  · simp [hv, hn]
  · cases hr : t.reader with
    | none => simp [hv]
    | some last =>
      have hpair : (v == (last.increment t.rate t.df).1) = false := beq_eq_false_iff_ne.mpr (hn last hr)
      simp [hv, hpair]

end

/-- Settles O8: the cases of an arrival, and the timeout. -/
theorem readerIsFollowed : Obligations.ReaderIsFollowed := by
  intro e s hs g b
  have hrun : ∀ v, exec (.readerArrival e v) s = s.became { g with tb := s.hub.tb.readerArrival v } := fun v =>
    State.run_free hs fun h => { h.arrive e with tb := h.tb.readerArrival v }
  refine ⟨hrun none, fun v hv => ?_, fun v last hv hl hf hp => ?_, fun v hv hn => ?_, fun hnow hbefore => ?_⟩
  · rw [hrun, Timebase.readerArrival_illegal (t := s.hub.tb) hv]
  · rw [hrun, Timebase.readerArrival_paired (t := s.hub.tb) hv hl hf hp]
  · rw [hrun, Timebase.readerArrival_single (t := s.hub.tb) hv hn]
  · refine (State.run_free hs fun h => { h.arrive e with tb := h.tb.readerTimeout }).trans ?_
    have htimeout : s.hub.tb.readerTimeout = { s.hub.tb with reader := none } := by
      simp [Timebase.readerTimeout, hnow, hbefore]
    rw [← htimeout]

/-! ### The settings -/

section
variable {h : Hub}

theorem Hub.setReference_bad {a : Byte} (ha : 1 < a.toNat) : h.setReference a = h.refuse .badArg := by
  simp only [Hub.setReference, twoWay_eq_none ha]

theorem Hub.setReference_external :
    h.setReference 1 =
      if h.tb.ref = .free then (({ h with tb := { h.tb with external := true } } : Hub).setRef .seeking 0 none).ok
      else h.ok := by
  have h1 : twoWay 1 = some true := rfl
  simp only [Hub.setReference, h1]
  cases h.tb.ref <;> rfl

theorem Hub.setReference_internal :
    h.setReference 0 =
      if h.tb.ref = .free then h.ok
      else if h.tb.ref = .locked then
        ((({ h with tb := { h.tb with external := false } } : Hub).setRef .free h.tb.good h.tb.prevPulse).overdueTick
          h.now).ok
      else (({ h with tb := { h.tb with external := false } } : Hub).setRef .free h.tb.good h.tb.prevPulse).ok := by
  have h0 : twoWay 0 = some false := rfl
  simp only [Hub.setReference, h0]
  cases h.tb.ref <;> rfl

theorem Hub.setTimecodeMode_bad {m k : Byte}
    (hb : 1 < m.toNat ∨ 1 < k.toNat ∨ (k = 1 ∧ (h.tb.rate = .r25 ∨ h.tb.rate = .r50))) :
    h.setTimecodeMode m k = h.refuse .badArg := by
  rcases hb with hm | hk | ⟨rfl, hr⟩
  · simp only [Hub.setTimecodeMode, twoWay_eq_none hm]
  · cases hm : twoWay m <;> simp only [Hub.setTimecodeMode, twoWay_eq_none hk, hm]
  · have h1 : twoWay 1 = some true := rfl
    have hf : h.tb.rate.fractional = false := by rcases hr with hr | hr <;> rw [hr] <;> rfl
    cases hm : twoWay m with
    | none => simp only [Hub.setTimecodeMode, hm]
    | some follow => simp only [Hub.setTimecodeMode, hm, h1, hf]; rfl

theorem Hub.setTimecodeMode_taken {follow df : Bool} (hd : df = true → h.tb.rate = .r2997 ∨ h.tb.rate = .r5994) :
    h.setTimecodeMode (byte follow.toNat) (byte df.toNat) =
      ({ h with
        tb := { h.tb with follow := follow, df := df, jam := if df = h.tb.df then h.tb.jam else none,
                          reader := if df = h.tb.df then h.tb.reader else none } } : Hub).ok := by
  have hf : ¬ (df = true ∧ ¬ h.tb.rate.fractional = true) := by
    rintro ⟨hdf, hn⟩
    rcases hd hdf with hr | hr <;> rw [hr] at hn <;> exact hn rfl
  simp only [Hub.setTimecodeMode, twoWay_byte, if_neg hf]
  by_cases hsame : df = h.tb.df
  · simp [hsame]
  · simp [hsame]

end

/-- Settles O9: SET REFERENCE by the source and the state, SET TIMECODE MODE by its checks. -/
theorem timebaseSettings : Obligations.TimebaseSettings := by
  intro c s hs g b
  have hext : ∀ {x : Hub × Reply}, g.setReference 1 = x → x.2 = { outcome := .done, data := [] } →
      exec (.setReference c 1) s = s.became (x.1.answer c 0x10 .done []) := fun hx hr =>
    hs.run_none (hx.trans (Prod.ext rfl hr)) nofun
  have hint : ∀ {x : Hub × Reply}, g.setReference 0 = x → x.2 = { outcome := .done, data := [] } →
      exec (.setReference c 0) s = s.became (x.1.answer c 0x10 .done []) := fun hx hr =>
    hs.run_none (hx.trans (Prod.ext rfl hr)) nofun
  refine ⟨fun a ha => hs.run_none (Hub.setReference_bad ha) nofun, fun hr => ?_, fun hr => ?_, fun hr => ?_,
    fun hr hnow => ?_, fun hr hlate => ?_, fun m k hb => hs.run_none (Hub.setTimecodeMode_bad (h := g) hb) nofun,
    fun follow df hd => hs.run_none (Hub.setTimecodeMode_taken (h := g) hd) nofun⟩
  · exact hint ((Hub.setReference_internal (h := g)).trans (if_pos hr)) rfl
  · exact hext ((Hub.setReference_external (h := g)).trans (if_neg hr)) rfl
  · exact hext ((Hub.setReference_external (h := g)).trans (if_pos hr)) rfl
  · by_cases hl : b.ref = .locked
    · have hquiet := Hub.overdueTick_early (h := ({ g with tb := { g.tb with external := false } } : Hub).setRef .free
        g.tb.good g.tb.prevPulse) (hnow hl)
      refine (hint ((Hub.setReference_internal (h := g)).trans ((if_neg hr).trans (if_pos hl))) rfl).trans ?_
      exact congrArg (fun x : Hub => s.became (x.answer c 0x10 .done [])) hquiet
    · exact hint ((Hub.setReference_internal (h := g)).trans ((if_neg hr).trans (if_neg hl))) rfl
  · have hlocked : ¬ g.tb.ref = .free := by
      rw [show g.tb.ref = .locked from hr]
      nofun
    refine exists_became (hint ((Hub.setReference_internal (h := g)).trans ((if_neg hlocked).trans (if_pos hr))) rfl)
      ⟨?_, Hub.answer_sending _ _ _ _ _⟩
    exact Hub.overdueTick_tb (h := ({ g with tb := { g.tb with external := false } } : Hub).setRef .free
      g.tb.good g.tb.prevPulse) hlate

end Sys2Proof.Machine
end

section
/-! Proofs: the tick of the divider (section 1.1 to 1.4): its frame, its notices and its label. -/

namespace Sys2Proof.Machine

-- In order, so that the package in one text stays within the memory of its check.
set_option Elab.async false

/-! ### The Timebase after a tick -/

section
variable (t : Timebase) (m : Nat)

theorem Timebase.readerTimeout_eq :
    t.readerTimeout = { t with reader := if t.readerNow = true ∨ t.readerBefore = true then t.reader else none } := by
  unfold Timebase.readerTimeout
  by_cases h : t.readerNow = true ∨ t.readerBefore = true
  · rw [if_pos (by simpa using h), if_pos h]
  · rw [if_neg (by simpa using h), if_neg h]

theorem Timebase.tick_eq :
    t.tick m =
      { t.reseek with
        frameRate := t.rate, ratePending := false, lastTick := m, frame := t.nextFrame,
        history := [t.frame] ++ t.history.take 1, jam := none,
        reader := if t.readerNow = true ∨ t.readerBefore = true then t.reader else none,
        readerNow := false, readerBefore := t.readerNow } := by
  unfold Timebase.tick
  rw [Timebase.readerTimeout_eq]
  unfold Timebase.reseek
  dsimp only
  split <;> rfl

theorem Timebase.reseek_seeks (hs : t.ratePending = true ∧ t.external = true) :
    t.reseek = { t with ref := .seeking, good := 0, prevPulse := none, lastInterval := 0 } := by
  simp [Timebase.reseek, hs.1, hs.2]

theorem Timebase.reseek_keeps (hs : ¬ (t.ratePending = true ∧ t.external = true)) : t.reseek = t := by
  rw [Timebase.reseek, if_neg (by simpa using hs)]

theorem Timebase.reseek_rate : t.reseek.rate = t.rate := by unfold Timebase.reseek; split <;> rfl

theorem Timebase.reseek_external : t.reseek.external = t.external := by unfold Timebase.reseek; split <;> rfl

theorem Timebase.reseek_df : t.reseek.df = t.df := by unfold Timebase.reseek; split <;> rfl

theorem Timebase.reseek_follow : t.reseek.follow = t.follow := by unfold Timebase.reseek; split <;> rfl

end

/-! ### Entries that find room -/

theorem NoticePort.offer_length (n : NoticePort) {x : Notice} (hx : x.kind ≠ .supplyWarn) :
    (n.offer x).queue.length ≤ n.queue.length + 1 := by
  rw [NoticePort.offer_queue _ _ hx]
  split
  · rw [List.length_append]; exact Nat.le_refl _
  · exact Nat.le_succ _

theorem NoticePort.mem_offers {x : Notice} {n : NoticePort} (hx : x ∈ n.queue) :
    ∀ xs : List Notice, (∀ y ∈ xs, y.kind ≠ .supplyWarn) → x ∈ (xs.foldl NoticePort.offer n).queue := by
  intro xs hxs
  induction xs generalizing n with
  | nil => exact hx
  | cons y ys ih =>
    refine ih ?_ fun z hz => hxs z (by simp [hz])
    rw [NoticePort.offer_queue _ _ (hxs y (by simp))]
    split
    · exact List.mem_append_left _ hx
    · exact hx

/-- Of offers that all find room each one that the mask passes joins the queue. -/
theorem NoticePort.offers_join {x : Notice} : ∀ (xs : List Notice) (n : NoticePort), (∀ y ∈ xs, y.kind ≠ .supplyWarn) →
    n.queue.length + xs.length ≤ 32 → x ∈ xs → n.mask.getLsbD x.kind.code = true →
    x ∈ (xs.foldl NoticePort.offer n).queue
  | y :: ys, n, hk, hl, hx, hm => by
    have hky := hk y (by simp)
    have hlen := n.offer_length hky
    rw [List.length_cons] at hl
    rcases List.mem_cons.mp hx with rfl | hx
    · refine NoticePort.mem_offers ?_ ys fun z hz => hk z (by simp [hz])
      rw [NoticePort.offer_queue _ _ hky, if_pos ⟨hm, by omega⟩]
      exact List.mem_append_right _ (by simp)
    · exact NoticePort.offers_join ys _ (fun z hz => hk z (by simp [hz])) (by omega) hx (by simpa using hm)

/-! ### The notices of the Timebase -/

section
variable (h : Hub) (old : Timebase)

/-- A notice for every port. -/
theorem Hub.notify_offers {k : NoticeKind} (n : Nat) (p : Fin 4)
    (ha : h.audience { kind := k, param := BitVec.ofNat 32 n, serial := h.tb.frame.serial } p = true) :
    (h.notify k n).notices[p] =
      (h.notices[p]).offer { kind := k, param := BitVec.ofNat 32 n, serial := h.tb.frame.serial } := by
  rw [Hub.notify, Hub.give_notices, if_pos ha]

/-- Without an ARMED trigger a label fires none. -/
theorem Hub.offerTriggers_unarmed {d : Draft} (ht : ∀ t : Fin 4, (h.log.triggers[t]).state ≠ .armed) :
    h.offerTriggers d = (h, []) := by
  have hnone : ∀ t : Fin 4, (h.log.triggers[t]).matches d = false := fun t => by
    have hstate : ((h.log.triggers[t]).state == .armed) = false := beq_eq_false_iff_ne.mpr (ht t)
    simp only [Trigger.matches, hstate, Bool.false_and]
  have key : ∀ ts : List (Fin 4), ts.foldl (Hub.offerTrigger d) (h, []) = (h, []) := fun ts => by
    induction ts with
    | nil => rfl
    | cons t ts ih =>
      rw [List.foldl_cons, Hub.offerTrigger, hnone t]
      exact ih
  rw [Hub.offerTriggers_eq]
  exact key _

theorem Hub.offerLabel_closed (hs : (h.stream 12).state = .closed) (number : Word) (d : Draft) :
    h.offerLabel number d = h := if_neg (by simp [hs])

theorem Hub.fileLabel_notices_closed {d : Draft} {named : Option Word} (hs : (h.stream 12).state = .closed) :
    (h.fileLabel d named).1.notices = h.notices := by
  unfold Hub.fileLabel
  split
  · exact (congrArg Hub.notices (Hub.offerLabel_closed
      ((h.modLog fun l => l.store d).modLog fun l => l.link h.log.nextLabel d named) hs _ d)).trans rfl
  · rfl

/-- Without an ARMED trigger, and with stream 12 CLOSED, a label gives no notice. -/
theorem Hub.label_notices_alone {d : Draft} (ht : ∀ t : Fin 4, (h.log.triggers[t]).state ≠ .armed)
    (hs : (h.stream 12).state = .closed) : (h.label d).notices = h.notices := by
  rw [Hub.label, Hub.arriveLabel_fst, h.offerTriggers_unarmed ht]
  exact h.fileLabel_notices_closed hs

/-- R16: whether the tick takes the state out of LOCKED or HOLDOVER. -/
def Timebase.reseeks (old : Timebase) : Bool :=
  old.ratePending && old.external && decide (old.ref = .locked ∨ old.ref = .holdover)

/-- A notice of the Timebase at a tick, when it is given. -/
def Hub.gives (given : Bool) (kind : NoticeKind) (param : Word) : List Notice :=
  if given then [{ kind := kind, param := param, serial := h.tb.frame.serial }] else []

/-- The notices of the Timebase at a tick (R8, R13, R16), without those of its label. -/
def Hub.timebaseGiven : List Notice :=
  h.gives (decide (h.tb.frame.serial = 0)) .serialWrap 0 ++ (h.gives h.tb.frame.jump .tcJump 0 ++
    (h.gives (decide (h.tb.frame.tc = old.nextLabel.1 ∧ old.nextLabel.2 = true)) .dayWrap 0 ++
      h.gives old.reseeks .refState 1))

theorem Hub.mem_timebaseGiven {x : Notice} :
    x ∈ h.timebaseGiven old ↔
      x ∈ h.gives (decide (h.tb.frame.serial = 0)) .serialWrap 0 ∨ x ∈ h.gives h.tb.frame.jump .tcJump 0 ∨
        x ∈ h.gives (decide (h.tb.frame.tc = old.nextLabel.1 ∧ old.nextLabel.2 = true)) .dayWrap 0 ∨
          x ∈ h.gives old.reseeks .refState 1 := by
  simp only [Hub.timebaseGiven, List.mem_append]

theorem Hub.timebaseNotices_eq :
    h.timebaseNotices old =
      let h₁ := if h.tb.frame.serial = 0 then h.notify .serialWrap 0 else h
      let h₂ := if h.tb.frame.jump = true then
          (h₁.notify .tcJump 0).label { kind := .tcJump, source := .timebase, frame := h.tb.frame } else h₁
      let h₃ := if h.tb.frame.tc = old.nextLabel.1 ∧ old.nextLabel.2 = true then h₂.notify .dayWrap 0 else h₂
      if old.reseeks then h₃.notify .refState 1 else h₃ := by
  unfold Hub.timebaseNotices
  dsimp only
  have hiff : (old.ratePending = true ∧ old.external = true ∧ (old.ref = .locked ∨ old.ref = .holdover)) ↔
      old.reseeks = true := by simp [Timebase.reseeks, and_assoc]
  simp only [hiff]
  rfl

/-- A notice that is or is not given. -/
theorem Hub.notify_given {g : Hub} {q : Prop} [Decidable q] {k : NoticeKind} (n : Nat) (p : Fin 4)
    (hg : g.tb = h.tb) (ha : ∀ x : Notice, x.kind = k → g.audience x p = true) :
    (if q then g.notify k n else g).notices[p] =
      (h.gives (decide q) k (BitVec.ofNat 32 n)).foldl NoticePort.offer g.notices[p] := by
  unfold Hub.gives
  by_cases hq : q
  · simp only [hq, if_true, decide_true]
    rw [g.notify_offers n p (ha _ rfl), hg]
    rfl
  · simp only [hq, if_false, decide_false]
    rfl

/-! The hubs between the notices. -/

/-- After SERIAL_WRAP. -/
def Hub.afterSerial : Hub := if h.tb.frame.serial = 0 then h.notify .serialWrap 0 else h

/-- After TC_JUMP, without its label. -/
def Hub.afterJump : Hub := if h.tb.frame.jump = true then h.afterSerial.notify .tcJump 0 else h.afterSerial

/-- After the label of TC_JUMP. -/
def Hub.afterJumpLabel : Hub :=
  if h.tb.frame.jump = true then
    h.afterJump.label { kind := .tcJump, source := .timebase, frame := h.tb.frame }
  else h.afterJump

/-- After DAY_WRAP. -/
def Hub.afterWrap : Hub :=
  if h.tb.frame.tc = old.nextLabel.1 ∧ old.nextLabel.2 = true then h.afterJumpLabel.notify .dayWrap 0
  else h.afterJumpLabel

theorem Hub.timebaseNotices_stages :
    h.timebaseNotices old = if old.reseeks = true then (h.afterWrap old).notify .refState 1 else h.afterWrap old := by
  rw [Hub.timebaseNotices_eq]
  unfold Hub.afterWrap Hub.afterJumpLabel Hub.afterJump Hub.afterSerial
  by_cases hj : h.tb.frame.jump = true <;> simp only [hj, if_true, if_false, Bool.false_eq_true]

theorem Hub.afterSerial_only : Hub.OnlyChanges [.notices] h h.afterSerial := .opt (.refl _ h) (h.notify_only _ _)

theorem Hub.afterJump_only : Hub.OnlyChanges [.notices] h h.afterJump :=
  .opt h.afterSerial_only (Hub.notify_only _ _ _)

theorem Hub.afterJumpLabel_only : Hub.OnlyChanges unitParts h h.afterJumpLabel :=
  .opt (h.afterJump_only.mono (by decide)) (Hub.label_only _ _)

theorem Hub.afterWrap_only : Hub.OnlyChanges unitParts h (h.afterWrap old) :=
  .opt h.afterJumpLabel_only ((Hub.notify_only _ _ _).mono (by decide))

theorem Hub.afterSerial_notices (p : Fin 4) : h.afterSerial.notices[p] =
    (h.gives (decide (h.tb.frame.serial = 0)) .serialWrap 0).foldl NoticePort.offer h.notices[p] :=
  h.notify_given 0 p rfl fun x hx => by simp [Hub.audience, hx]

theorem Hub.afterJump_notices (p : Fin 4) : h.afterJump.notices[p] =
    (h.gives (decide (h.tb.frame.jump = true)) .tcJump 0).foldl NoticePort.offer h.afterSerial.notices[p] :=
  h.notify_given 0 p (h.afterSerial_only .timebase (by decide)).symm fun x hx => by simp [Hub.audience, hx]

theorem Hub.afterWrap_notices (p : Fin 4) : (h.afterWrap old).notices[p] =
    (h.gives (decide (h.tb.frame.tc = old.nextLabel.1 ∧ old.nextLabel.2 = true)) .dayWrap 0).foldl NoticePort.offer
      h.afterJumpLabel.notices[p] :=
  h.notify_given 0 p (h.afterJumpLabel_only .timebase (by decide)).symm fun x hx => by simp [Hub.audience, hx]

theorem Hub.timebaseNotices_notices (p : Fin 4) : (h.timebaseNotices old).notices[p] =
    (h.gives (decide (old.reseeks = true)) .refState 1).foldl NoticePort.offer (h.afterWrap old).notices[p] := by
  rw [Hub.timebaseNotices_stages]
  exact h.notify_given 1 p (h.afterWrap_only old .timebase (by decide)).symm fun x hx => by simp [Hub.audience, hx]

/-- Where the label gives no notice the ports are offered the Timebase's notices alone. -/
theorem Hub.timebaseNotices_alone (ht : ∀ t : Fin 4, (h.log.triggers[t]).state ≠ .armed)
    (hs : (h.stream 12).state = .closed) (p : Fin 4) :
    (h.timebaseNotices old).notices[p] = (h.timebaseGiven old).foldl NoticePort.offer h.notices[p] := by
  have hlog : h.afterJump.log = h.log := (h.afterJump_only .log (by decide)).symm
  have hstream : (h.afterJump.stream 12).state = .closed := by
    rw [h.afterJump_only.stream_eq (by decide)]
    exact hs
  have hlabel : h.afterJumpLabel.notices = h.afterJump.notices := by
    unfold Hub.afterJumpLabel
    split
    · exact h.afterJump.label_notices_alone (by rw [hlog]; exact ht) hstream
    · rfl
  rw [Hub.timebaseNotices_notices, Hub.afterWrap_notices, hlabel, Hub.afterJump_notices, Hub.afterSerial_notices]
  simp only [Hub.timebaseGiven, List.foldl_append, Bool.decide_eq_true]

/-- The summary flag of a notice that is or is not given. -/
theorem Hub.gives_summary (given : Bool) (k : NoticeKind) (param : Word) (n : NoticePort) {c : Nat} (hc : c < 23) :
    ((h.gives given k param).foldl NoticePort.offer n).summary.getLsbD c = true ↔
      n.summary.getLsbD c = true ∨ (given = true ∧ c = k.code) := by
  unfold Hub.gives
  cases given with
  | false => simp
  | true =>
    simp only [if_true, List.foldl_cons, List.foldl_nil, NoticePort.offer_summary _ _ hc]
    simp

/-- The summary flags of the Timebase's notices. -/
theorem Hub.timebaseNotices_summary (p : Fin 4) {c : Nat} (hc : c < 4) :
    ((h.timebaseNotices old).notices[p]).summary.getLsbD c = true ↔
      (h.notices[p]).summary.getLsbD c = true ∨ (h.tb.frame.serial = 0 ∧ c = 1) ∨ (h.tb.frame.jump = true ∧ c = 2) ∨
        ((h.tb.frame.tc = old.nextLabel.1 ∧ old.nextLabel.2 = true) ∧ c = 3) ∨ (old.reseeks = true ∧ c = 0) := by
  have hlabel : (h.afterJumpLabel.notices[p]).summary.getLsbD c = (h.afterJump.notices[p]).summary.getLsbD c := by
    unfold Hub.afterJumpLabel
    split
    · refine (Hub.label_heard _ _).summary_eq p (by omega) fun x hx => ?_
      have hcode : 4 ≤ x.code := by
        revert x
        decide
      omega
    · rfl
  rw [Hub.timebaseNotices_notices, h.gives_summary _ _ _ _ (by omega), Hub.afterWrap_notices,
    h.gives_summary _ _ _ _ (by omega), hlabel, Hub.afterJump_notices, h.gives_summary _ _ _ _ (by omega),
    Hub.afterSerial_notices, h.gives_summary _ _ _ _ (by omega)]
  simp only [decide_eq_true_eq, NoticeKind.code, or_assoc]

/-- What the Timebase's part of a tick adds to the Label Store. -/
theorem Hub.timebaseNotices_labels (hl : h.log.labels.length + 5 ≤ 4096) :
    ∃ fires : List Label, fires.length ≤ 4 ∧ (∀ x ∈ fires, x.source = .trigger) ∧
      (h.timebaseNotices old).log.labels = h.log.labels ++
        (if h.tb.frame.jump = true ∧ h.log.keeps .tcJump .timebase = true then
          [h.log.labelOf { kind := .tcJump, source := .timebase, frame := h.tb.frame }] else []) ++ fires := by
  have hlog : h.afterJump.log = h.log := (h.afterJump_only .log (by decide)).symm
  have hrest : h.afterJumpLabel.log.labels = (h.timebaseNotices old).log.labels := by
    have hnotify : ∀ {g : Hub} {q : Prop} [Decidable q] (k : NoticeKind) (n : Nat),
        (if q then g.notify k n else g).log.labels = g.log.labels := by
      intro g q _ k n
      split <;> rfl
    rw [Hub.timebaseNotices_stages, hnotify, Hub.afterWrap, hnotify]
  rw [← hrest]
  unfold Hub.afterJumpLabel
  by_cases hj : h.tb.frame.jump = true
  · obtain ⟨fires, hlen, hsource, hlabels⟩ := h.afterJump.arriveLabel_labels
      { kind := .tcJump, source := .timebase, frame := h.tb.frame } none (by rw [hlog]; exact hl)
    rw [hlog] at hlabels
    refine ⟨fires, hlen, hsource, ?_⟩
    rw [if_pos hj, Hub.label, hlabels]
    simp only [hj, true_and]
  · exact ⟨[], by simp, by simp, by simp [hj, hlog]⟩

end

/-! ### A whole tick -/

section
variable (h : Hub) (m : Nat)

theorem Hub.tickFrame_tb : (h.tickFrame m).tb = h.tb.tick m := rfl

theorem Hub.tickFrame_notices : (h.tickFrame m).notices = h.notices := rfl

theorem Hub.tickFrame_sameFiling : h.SameFiling (h.tickFrame m) := ⟨rfl, rfl, rfl, rfl, rfl, rfl, rfl⟩

/-- R8, R13, R16: the summary flags of the Timebase's notices after a tick. -/
theorem Hub.tick_summary (p : Fin 4) {c : Nat} (hc : c < 4) :
    ((h.tick m).notices[p]).summary.getLsbD c = true ↔
      (h.notices[p]).summary.getLsbD c = true ∨ (h.tb.nextFrame.serial = 0 ∧ c = 1) ∨
        (h.tb.nextFrame.jump = true ∧ c = 2) ∨
        ((h.tb.nextFrame.tc = h.tb.nextLabel.1 ∧ h.tb.nextLabel.2 = true) ∧ c = 3) ∨ (h.tb.reseeks = true ∧ c = 0) := by
  have hlater : ((h.tick m).notices[p]).summary.getLsbD c = ((h.atMixer m).notices[p]).summary.getLsbD c := by
    refine (h.blocks_heard m).summary_eq p (by omega) fun x hx => ?_
    have hcode : 4 ≤ x.code := by
      revert x
      decide
    omega
  have hframe : (h.tb.tick m).frame = h.tb.nextFrame := by rw [Timebase.tick_eq]
  rw [hlater, Hub.atMixer, Hub.timebaseNotices_summary _ _ p hc, Hub.tickFrame_tb, Hub.tickFrame_notices, hframe]

/-- A notice of the Timebase joins a queue with room for it and those before it, where its label gives none. -/
theorem Hub.tick_joins {x : Notice} (hx : x ∈ (h.tickFrame m).timebaseGiven h.tb)
    (ht : ∀ t : Fin 4, (h.log.triggers[t]).state ≠ .armed) (hs : (h.stream 12).state = .closed) (p : Fin 4)
    (hm : (h.notices[p]).mask.getLsbD x.kind.code = true) (hq : (h.notices[p]).queue.length ≤ 28) :
    x ∈ ((h.tick m).notices[p]).queue := by
  have hgives : ∀ (given : Bool) (k : NoticeKind) (param : Word) (y : Notice),
      y ∈ (h.tickFrame m).gives given k param → y.kind = k := by
    intro given k param y hy
    cases given with
    | false => cases hy
    | true => rw [List.mem_singleton.mp hy]
  have hone : ∀ (given : Bool) (k : NoticeKind) (param : Word), ((h.tickFrame m).gives given k param).length ≤ 1 := by
    intro given k param
    cases given
    · exact Nat.zero_le 1
    · exact Nat.le_refl 1
  have hkinds : ∀ y ∈ (h.tickFrame m).timebaseGiven h.tb, y.kind ≠ .supplyWarn := by
    intro y hy
    simp only [Hub.timebaseGiven, List.mem_append] at hy
    rcases hy with hy | hy | hy | hy <;> rw [hgives _ _ _ _ hy] <;> decide
  have hlength : ((h.tickFrame m).timebaseGiven h.tb).length ≤ 4 := by
    have h₁ := hone (decide ((h.tickFrame m).tb.frame.serial = 0)) .serialWrap 0
    have h₂ := hone (h.tickFrame m).tb.frame.jump .tcJump 0
    have h₃ := hone (decide ((h.tickFrame m).tb.frame.tc = h.tb.nextLabel.1 ∧ h.tb.nextLabel.2 = true)) .dayWrap 0
    have h₄ := hone h.tb.reseeks .refState 1
    simp only [Hub.timebaseGiven, List.length_append]
    omega
  have hjoined : x ∈ ((h.atMixer m).notices[p]).queue := by
    rw [Hub.atMixer, Hub.timebaseNotices_alone (h.tickFrame m) h.tb ht hs p]
    exact NoticePort.offers_join _ _ hkinds (by rw [Hub.tickFrame_notices]; omega) hx hm
  exact ((h.blocks_heard m).queue_prefix p (by decide)).subset hjoined

/-- R13, R145: the labels of source TIMEBASE that a tick files. -/
theorem Hub.tick_labels (hl : h.log.labels.length ≤ 2048) :
    ∃ new, (h.tick m).log.labels = h.log.labels ++ new ∧
      (new.filter fun x => x.kind == .tcJump && x.source == .timebase) =
        if h.tb.nextFrame.jump = true ∧ h.log.keeps .tcJump .timebase = true then
          [h.log.labelOf { kind := .tcJump, source := .timebase, frame := h.tb.nextFrame }] else [] := by
  have hframe : (h.tickFrame m).tb.frame = h.tb.nextFrame := by rw [Hub.tickFrame_tb, Timebase.tick_eq]
  obtain ⟨fires, hlen, hfires, hmixer⟩ := (h.tickFrame m).timebaseNotices_labels h.tb
    (by rw [(h.tickFrame_sameFiling m).labels]; omega)
  rw [hframe, (h.tickFrame_sameFiling m).labels] at hmixer
  obtain ⟨-, hblocks⟩ := h.blocks_files m
  have hroom : (h.atMixer m).log.labels.length + 400 ≤ 4096 := by
    rw [Hub.atMixer, hmixer, List.length_append, List.length_append]
    split
    · rw [List.length_singleton]; omega
    · rw [List.length_nil]; omega
  obtain ⟨new, -, hnew, hall⟩ := hblocks hroom
  have hother : ∀ xs : List Label, (∀ x ∈ xs, BlockLabel x) →
      (xs.filter fun x => x.kind == .tcJump && x.source == .timebase) = [] := by
    intro xs hxs
    refine List.filter_eq_nil_iff.mpr fun x hx => ?_
    rcases hxs x hx with hs | hs | hs | hs <;> simp [hs]
  refine ⟨_, by rw [hall, Hub.atMixer, hmixer, List.append_assoc, List.append_assoc], ?_⟩
  rw [List.filter_append, List.filter_append, hother new hnew,
    hother fires fun x hx => .inr (.inr (.inr (hfires x hx))), List.append_nil, List.append_nil]
  have hkeeps : (h.tickFrame m).log.keeps .tcJump .timebase = h.log.keeps .tcJump .timebase := rfl
  rw [hkeeps]
  split
  · rfl
  · rfl

end

section
variable {h : Hub} {e : Env}

theorem Hub.dividerExpiry_locked (hr : h.tb.ref = .locked) : Hub.dividerExpiry e h = h.arrive e := by
  have hr' : (h.arrive e).tb.ref = .locked := hr
  simp only [Hub.dividerExpiry, hr']

theorem Hub.dividerExpiry_unlocked (hr : h.tb.ref ≠ .locked) :
    Hub.dividerExpiry e h =
      ({ h.arrive e with now := max (h.now + e.dt) h.tb.expiry } : Hub).tick h.tb.expiry := by
  unfold Hub.dividerExpiry
  dsimp only
  split
  · rename_i hl
    exact absurd hl hr
  all_goals rfl

end

/-- Settles O5: the tick at the expiry, with the Timebase's notices and its label. -/
theorem dividerGivesTick : Obligations.DividerGivesTick := by
  intro e s hs b
  refine ⟨fun hr => (State.run_free hs _).trans (congrArg s.became (Hub.dividerExpiry_locked hr)), fun hr => ?_⟩
  have hrun := (State.run_free hs (Hub.dividerExpiry e)).trans (congrArg s.became (Hub.dividerExpiry_unlocked hr))
  obtain ⟨g, hg⟩ : ∃ g : Hub, g = { s.hub.arrive e with now := max (s.hub.now + e.dt) s.hub.tb.expiry } := ⟨_, rfl⟩
  rw [← hg] at hrun
  have htb : g.tb = b := by rw [hg]; rfl
  have hnotices : g.notices = s.hub.notices := by rw [hg]; rfl
  have hlog : g.log = s.hub.log := by rw [hg]; rfl
  have hstrap : g.strap = s.hub.strap := by rw [hg]; rfl
  have hstream : g.stream 12 = s.hub.stream 12 := by rw [hg]; rfl
  refine exists_became hrun ?_
  intro moved next jumps seeks log alone gives
  have hjump : b.nextFrame.jump = true ↔ jumps := decide_eq_true_iff
  have hwrap : (b.nextFrame.tc = b.nextLabel.1 ∧ b.nextLabel.2 = true) ↔ ¬ jumps ∧ moved.2 = true := by
    rw [not_not]
    rfl
  have hseek : b.reseeks = true ↔ seeks ∧ b.ref = .holdover := by
    simp [Timebase.reseeks, hr, seeks]
  have hframe : (g.tickFrame b.expiry).tb.frame = b.nextFrame := by rw [Hub.tickFrame_tb, htb, Timebase.tick_eq]
  have hsum : ∀ (p : Fin 4) {c : Nat}, c < 4 → (((g.tick b.expiry).notices[p]).summary.getLsbD c = true ↔
      (s.hub.notices[p]).summary.getLsbD c = true ∨ (b.frame.serial + 1 = 0 ∧ c = 1) ∨ (jumps ∧ c = 2) ∨
        ((¬ jumps ∧ moved.2 = true) ∧ c = 3) ∨ ((seeks ∧ b.ref = .holdover) ∧ c = 0)) := by
    intro p c hc
    rw [Hub.tick_summary _ _ p hc, htb, hnotices, hjump, hwrap, hseek]
    rfl
  have hjoin : ∀ {x : Notice}, x ∈ (g.tickFrame b.expiry).timebaseGiven b → alone → ∀ p : Fin 4,
      (s.hub.notices[p]).mask.getLsbD x.kind.code = true → (s.hub.notices[p]).queue.length ≤ 28 →
      x ∈ ((g.tick b.expiry).notices[p]).queue := by
    intro x hx ⟨_, ht, hclosed⟩ p hm hq
    exact g.tick_joins _ (by rw [htb]; exact hx) (by rw [hlog]; exact ht) (by rw [hstream]; exact hclosed) p
      (by rw [hnotices]; exact hm) (by rw [hnotices]; exact hq)
  have hgiven : ∀ {given : Bool} {k : NoticeKind} {w : Word}, given = true →
      { kind := k, param := w, serial := b.frame.serial + 1 } ∈ (g.tickFrame b.expiry).gives given k w := by
    rintro _ k w rfl
    rw [Hub.gives, if_pos rfl, hframe]
    exact List.mem_singleton_self _
  have htick : (g.tick b.expiry).tb = b.tick b.expiry := by rw [Hub.tick_tb, htb]
  dsimp only
  rw [show s.hub.tb.expiry = b.expiry from rfl, htick, Timebase.tick_eq, Hub.tick_strap, hstrap]
  have hlist := fun x : Notice => (g.tickFrame b.expiry).mem_timebaseGiven b (x := x)
  refine ⟨rfl, rfl, rfl, rfl, rfl, rfl, b.reseek_rate, b.reseek_external, b.reseek_df, b.reseek_follow, rfl, fun hs => ?_,
    fun hs => ?_, fun p => ⟨(hsum p (c := 0) (by decide)).trans (by simp), fun hgive => ?_⟩,
    fun p => ⟨(hsum p (c := 1) (by decide)).trans (by simp), fun hgive => ?_⟩,
    fun p => ⟨(hsum p (c := 2) (by decide)).trans (by simp), fun hgive => ?_⟩,
    fun p => ⟨(hsum p (c := 3) (by decide)).trans (by simp), fun hgive => ?_⟩, fun hl => ?_, rfl⟩
  · rw [Timebase.reseek_seeks b hs]
    exact ⟨rfl, rfl, rfl⟩
  · rw [Timebase.reseek_keeps b hs]
    exact ⟨rfl, rfl, rfl, rfl⟩
  · exact fun halone => hjoin ((hlist _).mpr (.inr (.inr (.inr (hgiven (hseek.mpr hgive)))))) halone p
  · exact fun halone => hjoin ((hlist _).mpr (.inl (hgiven (decide_eq_true (by rw [hframe]; exact hgive))))) halone p
  · exact fun halone => hjoin ((hlist _).mpr (.inr (.inl (hgiven (by rw [hframe]; exact hjump.mpr hgive))))) halone p
  · exact fun halone => hjoin ((hlist _).mpr (.inr (.inr (.inl (hgiven (decide_eq_true
      (by rw [hframe]; exact hwrap.mpr hgive))))))) halone p
  · obtain ⟨new, hnew, hfilter⟩ := g.tick_labels b.expiry (by rw [hlog]; exact hl)
    refine ⟨new, by rw [hnew, hlog], ?_⟩
    rw [hfilter, htb, hlog]
    simp only [hjump]
    split
    · rfl
    · rfl

end Sys2Proof.Machine
end

section
/-! Proofs: the ends of transmissions, the settings that map streams to paths, and the coder's settings. -/

namespace Sys2Proof.Machine

-- In order, so that the package in one text stays within the memory of its check.
set_option Elab.async false

/-! ### Transmissions (R104) -/

theorem Path.endTransmission_idle {x : Path} (hx : x.transmitting = false) : x.endTransmission = x := by
  simp [Path.endTransmission, hx]

theorem Path.endTransmission_sent {x : Path} {packet : Bytes} {rest : List Bytes} (hx : x.transmitting = true)
    (hf : x.fifo = packet :: rest) :
    x.endTransmission =
      { x with
        fifo := rest
        transmitting := decide (x.state = .up ∧ rest ≠ [])
        txRate := if x.state = .up ∧ rest ≠ [] then x.lineRate else x.txRate
        counts := { x.counts with
          sent := x.counts.sent + 1
          bytes := x.counts.bytes + BitVec.ofNat 32 packet.length } } := by
  unfold Path.endTransmission Path.startTransmission
  rw [if_pos hx]
  by_cases hn : x.state = .up ∧ rest ≠ []
  · simp [hf, hn.1, hn.2]
  · simp [hf, hn]

theorem Hub.modPath_id (h : Hub) (p : Fin 8) {f : Path → Path} (hf : f h.paths.path[p] = h.paths.path[p]) :
    h.modPath p f = h := by
  unfold Hub.modPath
  rw [hf]
  simp

/-- Settles O38. -/
theorem transmissionEnds : Obligations.TransmissionEnds := by
  intro e p s hs g x
  refine ⟨fun hx => ?_, fun packet rest hx hf => ?_⟩
  · exact (State.run_free hs fun h => (h.arrive e).modPath p Path.endTransmission).trans
      (congrArg s.became (g.modPath_id p (Path.endTransmission_idle hx)))
  · exact (State.run_free hs fun h => (h.arrive e).modPath p Path.endTransmission).trans
      (congrArg s.became (g.modPath_congr (Path.endTransmission_sent hx hf)))

theorem byte_stream_toNat (k : Fin 16) : (byte k.val).toNat = k.val := by
  simp [byte]
  omega

/-! ### Mapping settings (R97 to R99) -/

section
variable (h : Hub)

theorem Hub.addDirected_bad {n : Byte} (hn : 15 < n.toNat) (mask : Byte) : h.addDirected n mask = h.refuse .badArg := by
  simp only [Hub.addDirected, below_eq_none (n := 16) hn]

theorem Hub.removeDirected_bad {n : Byte} (hn : 15 < n.toNat) : h.removeDirected n = h.refuse .badArg := by
  simp only [Hub.removeDirected, below_eq_none (n := 16) hn]

/-- Whether a stream has an entry. -/
theorem Hub.anyDirected_iff (k : Fin 16) :
    (h.paths.directed.any fun e => e.1 == k) = true ↔ ∃ m, (k, m) ∈ h.paths.directed := by
  rw [List.any_eq_true]
  constructor
  · rintro ⟨⟨j, m⟩, hm, hj⟩
    exact ⟨m, by rw [← beq_iff_eq.mp hj]; exact hm⟩
  · rintro ⟨m, hm⟩
    exact ⟨(k, m), hm, beq_self_eq_true k⟩

theorem Hub.addDirected_stream (k : Fin 16) (mask : Byte) :
    h.addDirected (byte k.val) mask =
      if (h.paths.directed.any fun e => e.1 == k) = true then h.refuse .conflict
      else if 8 ≤ h.paths.directed.length then h.refuse .full
      else ({ h with paths := { h.paths with directed := h.paths.directed ++ [(k, mask)] } } : Hub).ok := by
  simp only [Hub.addDirected, below_stream]

theorem Hub.removeDirected_stream (k : Fin 16) :
    h.removeDirected (byte k.val) =
      ({ h with paths := { h.paths with directed := h.paths.directed.filter fun d => d.1 ≠ k } } : Hub).ok := by
  have hfilter : (fun d : Fin 16 × Byte => d.1 != k) = fun d => decide (d.1 ≠ k) := by
    funext d
    by_cases hd : d.1 = k <;> simp [hd]
  simp only [Hub.removeDirected, below_stream, hfilter]

theorem Hub.setBond_bad {n : Byte} (hn : 3 < n.toNat) (bonded : Bool) : h.setBond n bonded = h.refuse .badArg := by
  simp only [Hub.setBond, below_eq_none (n := 4) hn]

/-- Whether a pair has a path that is neither OFF nor in RESET. -/
theorem Hub.pairBusy_iff (j : Fin 4) :
    ((List.finRange 8).any fun p => pairOf p == j && !(h.paths.path[p]).idle) = true ↔
      ∃ p : Fin 8, p.val / 2 = j.val ∧ ¬ ((h.paths.path[p]).state = .off ∨ (h.paths.path[p]).state = .reset) := by
  simp [List.any_eq_true, pairOf, Fin.ext_iff, Path.idle]

theorem Hub.setBond_pair (j : Fin 4) (bonded : Bool) :
    h.setBond (byte j.val) bonded =
      if (List.finRange 8).any (fun p => pairOf p == j && !(h.paths.path[p]).idle) then h.refuse .conflict
      else (h.modBond j fun b => { b with setting := bonded }).ok := by
  simp only [Hub.setBond, below_byte j (by omega)]

end

/-- Settles O39: each setting by its checks. -/
theorem linkSettings : Obligations.LinkSettings := by
  intro c s hs g
  refine ⟨fun mask => hs.run_none rfl nofun,
    fun n mask hn => ⟨hs.run_badStream hn (Hub.addDirected_bad g hn mask) nofun,
      hs.run_badStream hn (Hub.removeDirected_bad g hn) nofun⟩,
    fun k mask hk => ?_, fun n bonded hn => hs.run_none (Hub.setBond_bad g hn bonded) nofun, fun j bonded => ?_⟩
  · intro list
    have hst : ∀ n : Byte, some (byte k.val) = some n → n.toNat < 16 → s.hub.hasStream c.port n.toNat = true := by
      rintro _ ⟨⟩ _
      rw [byte_stream_toNat]
      exact hk
    have hadd := Hub.addDirected_stream g k mask
    have hany := Hub.anyDirected_iff g k
    have hnone : (∀ m, (k, m) ∉ list) → ¬ (g.paths.directed.any fun e => e.1 == k) = true := fun hm ha =>
      (hany.mp ha).elim hm
    refine ⟨fun hm => hs.run_naming hst (hadd.trans (if_pos (hany.mpr hm))) nofun, fun hm hl => ?_, fun hm hl => ?_,
      hs.run_naming hst (Hub.removeDirected_stream g k) nofun⟩
    · exact hs.run_naming hst (hadd.trans ((if_neg (hnone hm)).trans (if_pos hl))) nofun
    · exact hs.run_naming hst (hadd.trans ((if_neg (hnone hm)).trans (if_neg (Nat.not_le.mpr hl)))) nofun
  · intro still
    have hbond := Hub.setBond_pair g j bonded
    refine ⟨fun hb => hs.run_none (hbond.trans (if_pos ((g.pairBusy_iff j).mpr hb))) nofun, fun hb => ?_⟩
    refine hs.run_none (hbond.trans (if_neg fun hbusy => ?_)) nofun
    obtain ⟨p, hp, hn⟩ := (g.pairBusy_iff j).mp hbusy
    exact hn (hb p hp)

/-! ### The coder's settings (R50, R51) -/

theorem Format.ofByte_bad {f : Byte} (hf : 1 < f.toNat) : Format.ofByte f = none := by
  rw [Format.ofByte, twoWay_eq_none hf]
  rfl

theorem Format.ofByte_code (f : Format) : Format.ofByte (byte f.code) = some f := by cases f <;> rfl

section
variable (h : Hub)

theorem Hub.setInput_bad {i f : Byte} (hb : 3 < i.toNat ∨ 1 < f.toNat) : h.setInput i f = h.refuse .badArg := by
  rcases hb with hi | hf
  · simp only [Hub.setInput, below_eq_none (n := 4) hi]
  · cases hi : below 4 i <;> simp only [Hub.setInput, hi, Format.ofByte_bad hf]

theorem Hub.setInput_input (i : Fin 4) (f : Format) :
    h.setInput (byte i.val) (byte f.code) = (h.modInput i fun x => { x with expected := f }).ok := by
  simp only [Hub.setInput, below_byte i (by omega), Format.ofByte_code]

theorem Hub.setPicture_bad {k : Byte} {a : PictureArgs}
    (hb : 3 < k.toNat ∨ 3 < a.source.toNat ∨ 1 < a.format.toNat ∨ 1 < a.mode.toNat) :
    h.setPicture k a = h.refuse .badArg := by
  unfold Hub.setPicture
  split
  · rename_i hk hsource hformat hmode
    rcases hb with hn | hn | hn | hn
    · rw [below_eq_none (n := 4) hn] at hk
      cases hk
    · rw [below_eq_none (n := 4) hn] at hsource
      cases hsource
    · rw [Format.ofByte_bad hn] at hformat
      cases hformat
    · rw [twoWay_eq_none hn] at hmode
      cases hmode
  · rfl

theorem Hub.setPicture_stream (k source : Fin 4) (f : Format) (fixed : Bool) {a : PictureArgs}
    (hsource : a.source = byte source.val) (hformat : a.format = byte f.code) (hmode : a.mode = byte fixed.toNat) :
    h.setPicture (byte k.val) a =
      if a.rMax.toNat < a.rMin.toNat then h.refuse .badArg
      else if f ≠ (h.coders[k]).format ∧ (h.stream (pictureStream k)).state ≠ .closed then h.refuse .conflict
      else ((h.modCoder k fun _ => (h.coders[k]).write a source f fixed).recompute,
        .done ((h.coders[k]).write a source f fixed).settings) := by
  simp only [Hub.setPicture, hsource, hformat, hmode, below_byte k (by omega), below_byte source (by omega),
    Format.ofByte_code, twoWay_byte]

end

/-- Settles O26: the refusals in order, then the settings as they are clamped. -/
theorem coderSettings : Obligations.CoderSettings := by
  intro c s hs g
  refine ⟨fun i f hb => hs.run_none (Hub.setInput_bad g hb) nofun, fun i f => hs.run_none (Hub.setInput_input g i f) nofun,
    fun k source f mode rFix rMin rMax w bf hk hb => ?_, fun k source f fixed rFix rMin rMax w bf hk => ?_⟩
  · exact hs.run_naming (fun n hn hlt => by cases hn; exact hk hlt) (Hub.setPicture_bad g hb) nofun
  · intro old cmd rate new
    have hst : ∀ n : Byte, some (byte k.val) = some n → n.toNat < 16 → s.hub.hasStream c.port n.toNat = true := by
      rintro _ ⟨⟩ _
      rw [byte_stream_toNat ⟨k.val, by omega⟩]
      exact hk
    have hset := g.setPicture_stream k source f fixed
      (a := ⟨byte source.val, byte f.code, byte fixed.toNat, rFix, rMin, rMax, w, bf⟩) rfl rfl rfl
    refine ⟨fun hr => hs.run_naming hst (hset.trans (if_pos hr)) nofun, fun hr hf hopen => ?_, fun hr hf => ?_⟩
    · exact hs.run_naming hst (hset.trans ((if_neg (Nat.not_lt.mpr hr)).trans (if_pos ⟨hf, hopen⟩))) nofun
    · refine hs.run_naming hst (hset.trans ((if_neg (Nat.not_lt.mpr hr)).trans (if_neg ?_))) nofun
      exact fun ⟨hn, hopen⟩ => hf.elim hn hopen

end Sys2Proof.Machine
end

section
/-! Proofs: the gauge commands (R113, R119) and the recomputation of the Budget (R125 to R130). -/

namespace Sys2Proof.Machine

-- In order, so that the package in one text stays within the memory of its check.
set_option Elab.async false

/-! ### One turn of a loop over a table -/

/-- Between two hubs a loop's turns other than that of number p keep a relation: then it holds from the start to the hub that
turn p finds, and from what turn p makes of that one to the end. -/
theorem Hub.forEach_at {n : Nat} {f : Fin n → Hub → Hub} {R : Hub → Hub → Prop} (hrefl : ∀ a, R a a)
    (htrans : ∀ {a b c}, R a b → R b c → R a c) (p : Fin n) (hR : ∀ q g, q ≠ p → R g (f q g)) (h : Hub) :
    ∃ g, R h g ∧ R (f p g) (h.forEach n f) := by
  have hfold : ∀ (qs : List (Fin n)) (g : Hub), p ∉ qs → R g (qs.foldl (fun g q => f q g) g) := by
    intro qs
    induction qs with
    | nil => exact fun g _ => hrefl g
    | cons q qs ih =>
      intro g hp
      rw [List.mem_cons, not_or] at hp
      exact htrans (hR q g (Ne.symm hp.1)) (ih _ hp.2)
  obtain ⟨xs, ys, hxy⟩ := List.append_of_mem (List.mem_finRange p)
  have hnodup : (xs ++ p :: ys).Nodup := hxy ▸ List.nodup_finRange n
  obtain ⟨-, hys, hdisj⟩ := List.nodup_append.mp hnodup
  refine ⟨xs.foldl (fun g q => f q g) h, hfold xs h fun hp => hdisj p hp p (by simp) rfl, ?_⟩
  rw [Hub.forEach, hxy, List.foldl_append, List.foldl_cons]
  exact hfold ys _ (List.nodup_cons.mp hys).1

/-! ### The gauge commands -/

/-- The parts of two hubs that decide what a loop over the gauges does with gauge p. -/
structure Hub.SameGauge (p : Fin 8) (g h : Hub) : Prop where
  gauge : h.gauges.path[p] = g.gauges.path[p]
  moment : h.moment = g.moment
  settings : h.gauges.auto = g.gauges.auto ∧ h.gauges.window = g.gauges.window
  heard : Hub.Heard [.gaugeDone] g h

theorem Hub.SameGauge.refl (p : Fin 8) (h : Hub) : h.SameGauge p h := ⟨rfl, rfl, ⟨rfl, rfl⟩, .refl _ h⟩

theorem Hub.SameGauge.trans {p : Fin 8} {a b c : Hub} (h₁ : a.SameGauge p b) (h₂ : b.SameGauge p c) : a.SameGauge p c where
  gauge := h₂.gauge.trans h₁.gauge
  moment := h₂.moment.trans h₁.moment
  settings := ⟨h₂.settings.1.trans h₁.settings.1, h₂.settings.2.trans h₁.settings.2⟩
  heard := h₁.heard.trans h₂.heard

section
variable (h : Hub)

theorem Hub.modGauge_sameGauge {p q : Fin 8} (hq : p ≠ q) (f : Gauge → Gauge) : h.SameGauge p (h.modGauge q f) :=
  ⟨h.modGauge_ne f hq, rfl, ⟨rfl, rfl⟩, h.modGauge_heard q f⟩

theorem Hub.abortManual_settings (q : Fin 8) :
    (Hub.abortManual q h).gauges.auto = h.gauges.auto ∧ (Hub.abortManual q h).gauges.window = h.gauges.window := by
  unfold Hub.abortManual
  split <;> exact ⟨rfl, rfl⟩

theorem Hub.abortManual_sameGauge {p q : Fin 8} (hq : p ≠ q) : h.SameGauge p (Hub.abortManual q h) where
  gauge := by
    unfold Hub.abortManual
    split
    · rfl
    · simp only [Hub.endManual, Hub.gaugeDone, Hub.notify, Hub.give_gauges, Hub.modGauge_ne _ _ hq]
  moment := by simp [Hub.abortManual, apply_ite Hub.moment]
  settings := h.abortManual_settings q
  heard := h.abortManual_heard q

/-- R113: every manual gauge is aborted. -/
theorem Hub.abortAll_gauge (p : Fin 8) :
    ∃ g : Hub, h.SameGauge p g ∧ (Hub.abortManual p g).SameGauge p (h.forEach 8 Hub.abortManual) :=
  Hub.forEach_at (R := Hub.SameGauge p) (Hub.SameGauge.refl p) Hub.SameGauge.trans p
    (fun _ g hq => g.abortManual_sameGauge (Ne.symm hq)) h

/-- R113: every cycle is abandoned. -/
theorem Hub.abandonCycles_gauge (p : Fin 8) :
    h.abandonCycles.gauges.path[p] = (h.gauges.path[p]).abortCycle h.now := by
  obtain ⟨g, hbefore, hafter⟩ := Hub.forEach_at (f := fun q g => g.modGauge q fun x => x.abortCycle g.now)
    (R := Hub.SameGauge p) (Hub.SameGauge.refl p) Hub.SameGauge.trans p
    (fun _ g hq => g.modGauge_sameGauge (Ne.symm hq) _) h
  have hnow : g.now = h.now := congrArg Prod.fst hbefore.moment
  rw [Hub.abandonCycles, hafter.gauge, Hub.modGauge_self, hbefore.gauge, hnow]

theorem Hub.abortAll_only : Hub.OnlyChanges [.gauges, .notices] h (h.forEach 8 Hub.abortManual) :=
  .forEach (fun p g => g.abortManual_only p) h

theorem Hub.abandonCycles_only : Hub.OnlyChanges [.gauges] h h.abandonCycles :=
  .forEach (fun p g => g.modGauge_only p _) h

/-- The settings of SET GAUGE written. -/
def Hub.withGaugeSettings (auto : Bool) (window : Nat) : Hub :=
  { h with gauges := { h.gauges with auto := auto, window := window } }

theorem Hub.withGaugeSettings_only (auto : Bool) (window : Nat) :
    Hub.OnlyChanges [.gauges] h (h.withGaugeSettings auto window) := by
  intro x hx
  cases x <;> simp_all [Part.same, Hub.withGaugeSettings]

/-- A record may be written by what the written functions make of it. -/
theorem Hub.modGauge_congr {p : Fin 8} {f g : Gauge → Gauge} (hfg : f h.gauges.path[p] = g h.gauges.path[p]) :
    h.modGauge p f = h.modGauge p g := by
  unfold Hub.modGauge
  rw [hfg]

theorem Hub.setGauge_eq (auto : Bool) (w : Byte) :
    h.setGauge auto w =
      (if auto = true ∧ h.gauges.auto = false then
          (h.withGaugeSettings auto (clamp 1 250 w.toNat)).forEach 8 Hub.abortManual
        else if h.gauges.auto = true ∧ auto = false then (h.withGaugeSettings auto (clamp 1 250 w.toNat)).abandonCycles
        else h.withGaugeSettings auto (clamp 1 250 w.toNat),
        .done (flagByte auto ++ le 1 (clamp 1 250 w.toNat))) := by
  simp only [Hub.setGauge, Bool.not_eq_true]
  rfl

theorem Hub.abortAll_settings :
    (h.forEach 8 Hub.abortManual).gauges.auto = h.gauges.auto ∧
      (h.forEach 8 Hub.abortManual).gauges.window = h.gauges.window := by
  obtain ⟨g, hbefore, hafter⟩ := h.abortAll_gauge 0
  obtain ⟨ha, hw⟩ := g.abortManual_settings 0
  exact ⟨hafter.settings.1.trans (ha.trans hbefore.settings.1), hafter.settings.2.trans (hw.trans hbefore.settings.2)⟩

theorem Hub.abandonCycles_settings :
    h.abandonCycles.gauges.auto = h.gauges.auto ∧ h.abandonCycles.gauges.window = h.gauges.window := by
  obtain ⟨g, hbefore, hafter⟩ := Hub.forEach_at (f := fun q g => g.modGauge q fun x => x.abortCycle g.now)
    (R := Hub.SameGauge 0) (Hub.SameGauge.refl 0) Hub.SameGauge.trans 0
    (fun _ g hq => g.modGauge_sameGauge (Ne.symm hq) _) h
  exact ⟨hafter.settings.1.trans hbefore.settings.1, hafter.settings.2.trans hbefore.settings.2⟩

/-- R113, R122: the abort of every manual gauge, seen at path p. -/
theorem Hub.abortAll_self (p : Fin 8) :
    ((h.gauges.path[p]).manual = .idle → (h.forEach 8 Hub.abortManual).gauges.path[p] = h.gauges.path[p]) ∧
      ((h.gauges.path[p]).manual ≠ .idle →
        ((h.forEach 8 Hub.abortManual).gauges.path[p]).manual = .idle ∧
          ((h.forEach 8 Hub.abortManual).gauges.path[p]).result = some ((h.gauges.path[p]).volume, 4294967295) ∧
          ((h.forEach 8 Hub.abortManual).gauges.path[p]).phase = (h.gauges.path[p]).phase ∧
          ∀ q : Fin 4, ((h.forEach 8 Hub.abortManual).notices[q]).summary.getLsbD 14 = true) := by
  obtain ⟨g, hbefore, hafter⟩ := h.abortAll_gauge p
  have hself := g.abortManual_self p
  rw [hbefore.gauge] at hself
  rw [hafter.gauge, hself]
  refine ⟨fun hm => if_pos hm, fun hm => ?_⟩
  rw [if_neg hm]
  refine ⟨rfl, rfl, rfl, fun q => hafter.heard.summary_mono q (by decide) ?_⟩
  rw [Hub.abortManual, if_neg (by rw [hbefore.gauge]; exact hm)]
  exact g.endManual_summary p allOnes q

theorem Gauge.abortCycle_idle {x : Gauge} (hx : x.phase = .idle) (now : Nat) : x.abortCycle now = x := if_pos hx

theorem Gauge.abortCycle_running {x : Gauge} (hx : x.phase ≠ .idle) (now : Nat) :
    x.abortCycle now = { x with phase := .idle, count2 := x.step2Count now, aborted := x.aborted + 1 } := if_neg hx

/-- R119: the gate that START GAUGE takes. -/
theorem gateOf_bad {gate : Word} (hg : gate = 0 ∨ 2147483648 < gate.toNat) : gateOf true gate = none := by
  rw [gateOf, if_pos rfl, if_pos hg]

theorem gateOf_good {volume : Bool} {gate : Word} (hg : volume = true → gate ≠ 0 ∧ gate.toNat ≤ 2147483648) :
    gateOf volume gate = some (if volume then gate.toNat else clamp 1 250 gate.toNat) := by
  cases volume with
  | false => rfl
  | true =>
    obtain ⟨h₀, h₁⟩ := hg rfl
    have hn : ¬ (gate = 0 ∨ 2147483648 < gate.toNat) := fun hor => hor.elim h₀ (Nat.not_lt.mpr h₁)
    exact if_neg hn

theorem Hub.startGauge_bad {n m : Byte} {gate : Word}
    (hb : 7 < n.toNat ∨ 1 < m.toNat ∨ (m = 1 ∧ (gate = 0 ∨ 2147483648 < gate.toNat))) :
    h.startGauge n m gate = h.refuse .badArg := by
  unfold Hub.startGauge
  split
  · rename_i p volume hp hmode
    rcases hb with hn | hm | ⟨rfl, hg⟩
    · rw [below_eq_none (n := 8) hn] at hp
      cases hp
    · rw [twoWay_eq_none hm] at hmode
      cases hmode
    · cases hmode
      rw [gateOf_bad hg]
  · rfl

theorem Hub.startGauge_path (p : Fin 8) {volume : Bool} {gate : Word}
    (hg : volume = true → gate ≠ 0 ∧ gate.toNat ≤ 2147483648) :
    h.startGauge (byte p.val) (byte volume.toNat) gate =
      if h.gauges.auto = true ∨ ¬ (h.paths.path[p]).carrying = true ∨ (h.gauges.path[p]).manual ≠ .idle then
        h.refuse .conflict
      else (h.modGauge p fun x => x.start volume (if volume then gate.toNat else clamp 1 250 gate.toNat) h.now,
        .plain .started) := by
  simp only [Hub.startGauge, below_byte p (by omega), twoWay_byte, gateOf_good hg]

end

theorem Path.carrying_iff (x : Path) : x.carrying = true ↔ x.state = .up ∨ x.state = .paused := by
  simp [Path.carrying]

/-- R113: what SET GAUGE makes of the gauges. -/
theorem Hub.setGauge_taken (h : Hub) (auto : Bool) (w : Byte) :
    (h.setGauge auto w).1.gauges.auto = auto ∧ (h.setGauge auto w).1.gauges.window = clamp 1 250 w.toNat ∧
      Hub.OnlyChanges [.gauges, .notices] h (h.setGauge auto w).1 ∧
      ∀ p : Fin 8,
        let x := h.gauges.path[p]
        let y := (h.setGauge auto w).1.gauges.path[p]
        (auto = h.gauges.auto ∨ (auto = true ∧ x.manual = .idle) ∨ (auto = false ∧ x.phase = .idle) → y = x) ∧
        (auto = true → h.gauges.auto = false → x.manual ≠ .idle →
          y.manual = .idle ∧ y.result = some (x.volume, 4294967295) ∧ y.phase = x.phase ∧
            ∀ q : Fin 4, ((h.setGauge auto w).1.notices[q]).summary.getLsbD 14 = true) ∧
        (auto = false → h.gauges.auto = true → x.phase ≠ .idle → y = x.abortCycle h.now) := by
  rw [Hub.setGauge_eq]
  dsimp only
  have hset : (h.withGaugeSettings auto (clamp 1 250 w.toNat)).gauges.auto = auto ∧
      (h.withGaugeSettings auto (clamp 1 250 w.toNat)).gauges.window = clamp 1 250 w.toNat := ⟨rfl, rfl⟩
  have hgauge : ∀ p : Fin 8, (h.withGaugeSettings auto (clamp 1 250 w.toNat)).gauges.path[p] = h.gauges.path[p] :=
    fun _ => rfl
  have hnow : (h.withGaugeSettings auto (clamp 1 250 w.toNat)).now = h.now := rfl
  have honly := (h.withGaugeSettings_only auto (clamp 1 250 w.toNat)).mono (large := [.gauges, .notices]) (by decide)
  generalize h.withGaugeSettings auto (clamp 1 250 w.toNat) = k at *
  by_cases hon : auto = true ∧ h.gauges.auto = false
  · rw [if_pos hon]
    refine ⟨k.abortAll_settings.1.trans hset.1, k.abortAll_settings.2.trans hset.2, honly.trans k.abortAll_only,
      fun p => ?_⟩
    obtain ⟨hidle, hrun⟩ := k.abortAll_self p
    rw [hgauge] at hidle hrun
    refine ⟨fun hor => hidle ?_, fun _ _ => hrun, fun hoff => absurd (hon.1.symm.trans hoff) (by decide)⟩
    rcases hor with hsame | ⟨-, hm⟩ | ⟨hoff, -⟩
    · exact absurd (hon.1.symm.trans (hsame.trans hon.2)) (by decide)
    · exact hm
    · exact absurd (hon.1.symm.trans hoff) (by decide)
  · rw [if_neg hon]
    by_cases hoff : h.gauges.auto = true ∧ auto = false
    · rw [if_pos hoff]
      refine ⟨k.abandonCycles_settings.1.trans hset.1, k.abandonCycles_settings.2.trans hset.2,
        honly.trans (k.abandonCycles_only.mono (by decide)), fun p => ?_⟩
      have hself := k.abandonCycles_gauge p
      rw [hgauge, hnow] at hself
      refine ⟨fun hor => ?_, fun ht hw => absurd ⟨ht, hw⟩ hon, fun _ _ _ => hself⟩
      refine hself.trans (Gauge.abortCycle_idle ?_ _)
      rcases hor with hsame | ⟨ht, -⟩ | ⟨-, hx⟩
      · exact absurd (hoff.1.symm.trans (hsame.symm.trans hoff.2)) (by decide)
      · exact absurd (hoff.2.symm.trans ht) (by decide)
      · exact hx
    · rw [if_neg hoff]
      exact ⟨hset.1, hset.2, honly, fun p => ⟨fun _ => hgauge p, fun ht hw => absurd ⟨ht, hw⟩ hon,
        fun hf hw => absurd ⟨hw, hf⟩ hoff⟩⟩

/-- Settles O43: SET GAUGE by what becomes of the auto flag, START GAUGE by its checks. -/
theorem gaugeCommands : Obligations.GaugeCommands := by
  intro c s hs g
  refine ⟨fun auto w => ?_, fun n m gate hb => hs.run_none (Hub.startGauge_bad g hb) nofun, fun p volume gate hg => ?_⟩
  · intro window data
    have hreply : g.setGauge auto w = ((g.setGauge auto w).1, .done data) :=
      Prod.ext rfl (show (g.setGauge auto w).2 = .done data by rw [Hub.setGauge_eq]; rfl)
    obtain ⟨hauto, hwindow, honly, hpath⟩ := g.setGauge_taken auto w
    refine exists_became (hs.run_none hreply nofun) ?_
    simp only [Hub.answer_gauges, Hub.answer_notices]
    refine ⟨hauto, hwindow, Hub.answer_sending _ _ _ _ _, fun p => ?_,
      Hub.OnlyChanges.answered _ _ _ _ (honly.mono (by decide)) (by decide)⟩
    obtain ⟨hkeep, hon, hoff⟩ := hpath p
    refine ⟨hkeep, hon, fun hf hw hx => ?_⟩
    rw [hoff hf hw hx, Gauge.abortCycle_running (x := g.gauges.path[p]) hx]
    exact ⟨rfl, rfl, rfl, rfl, rfl, rfl, rfl⟩
  · intro x carrying cmd
    have hstart := g.startGauge_path p hg
    have hcarry : (g.paths.path[p]).carrying = true ↔ carrying := Path.carrying_iff _
    refine ⟨fun hr => hs.run_none (hstart.trans (if_pos ?_)) nofun, fun ha hc hm => ?_⟩
    · rw [hcarry]
      exact hr
    · have hfree : ¬ (g.gauges.auto = true ∨ ¬ (g.paths.path[p]).carrying = true ∨ (g.gauges.path[p]).manual ≠ .idle) := by
        rw [hcarry]
        rintro (h₁ | h₁ | h₁)
        · exact absurd (ha.symm.trans h₁) (by decide)
        · exact h₁ hc
        · exact h₁ hm
      have hwrite : (g.modGauge p fun y => y.start volume (if volume then gate.toNat else clamp 1 250 gate.toNat) g.now) =
          g.modGauge p fun _ =>
            if volume then
              { x with result := none, volume := true, gate := gate.toNat, manual := .running, manualSum := 0,
                       manualCount := 0, manualFrom := g.now }
            else { x with result := none, volume := false, gate := max 1 (min 250 gate.toNat), manual := .waiting } := by
        refine g.modGauge_congr ?_
        cases volume <;> rfl
      rw [hwrite] at hstart
      exact hs.run_none (hstart.trans (if_neg hfree)) nofun

end Sys2Proof.Machine
end

section
/-! Proofs: the recomputation of the Budget (R125 to R130). -/

namespace Sys2Proof.Machine

-- In order, so that the package in one text stays within the memory of its check.
set_option Elab.async false

section
variable (h : Hub)

/-! ### A recomputation -/

/-- The record that a recomputation writes, before its notices. -/
def Hub.recomputed : Hub := { h with budget := h.budgetNow }

/-- After BUDGET_CHANGE. -/
def Hub.toldRates : Hub :=
  if changedRates h.budget h.budgetNow = 0 then h.recomputed
  else h.recomputed.notify .budgetChange (changedRates h.budget h.budgetNow)

theorem Hub.recompute_eq :
    h.recompute = h.toldRates.forEach 4 fun k g =>
      if (h.budget.pictures[k]'k.2).starved = false ∧ (h.budgetNow.pictures[k]'k.2).starved = true then
        g.notify .starved k.val else g := rfl

@[simp] theorem Hub.recompute_budget : h.recompute.budget = h.budgetNow := by
  have htold : Hub.OnlyChanges [.notices] h.recomputed h.toldRates := .ite (.refl _ _) (Hub.notify_only _ _ _)
  have hlater : Hub.OnlyChanges [.notices] h.toldRates h.recompute := by
    rw [Hub.recompute_eq]
    exact .forEach (fun k g => .ite (g.notify_only _ _) (.refl _ g)) _
  exact ((htold.trans hlater) .budget (by decide)).symm

theorem changedRates_ne_zero {old new : Budget} {k : Fin 4}
    (hk : (old.pictures[k]'k.2).assigned ≠ (new.pictures[k]'k.2).assigned) : changedRates old new ≠ 0 := by
  have hmem : 2 ^ k.val ∈ (List.finRange 4).map fun j =>
      if (old.pictures[j]'j.2).assigned = (new.pictures[j]'j.2).assigned then 0 else 2 ^ j.val :=
    List.mem_map.mpr ⟨k, List.mem_finRange k, if_neg hk⟩
  have hle : 2 ^ k.val ≤ changedRates old new := List.le_sum_of_mem hmem
  have hpos : 0 < 2 ^ k.val := Nat.two_pow_pos _
  omega

/-- R130: a rate that changes gives BUDGET_CHANGE to every port. -/
theorem Hub.recompute_change {k : Fin 4}
    (hk : (h.budgetNow.pictures[k]'k.2).assigned ≠ (h.budget.pictures[k]'k.2).assigned) (q : Fin 4) :
    (h.recompute.notices[q]'q.2).summary.getLsbD 15 = true := by
  rw [Hub.recompute_eq]
  refine Hub.Heard.summary_mono (kinds := [.starved])
    (.forEach (fun j g => .ite (g.notify_heard (by decide) _) (.refl _ g)) _) q (by decide) ?_
  rw [Hub.toldRates, if_neg (changedRates_ne_zero (Ne.symm hk))]
  exact Hub.notify_summary _ (k := .budgetChange) _ rfl

/-- R130: a stream that becomes starved gives STARVED to every port. -/
theorem Hub.recompute_starves {k : Fin 4} (hold : (h.budget.pictures[k]'k.2).starved = false)
    (hnew : (h.budgetNow.pictures[k]'k.2).starved = true) (q : Fin 4) :
    (h.recompute.notices[q]'q.2).summary.getLsbD 16 = true := by
  rw [Hub.recompute_eq]
  obtain ⟨g, -, hafter⟩ := Hub.forEach_at (R := Hub.Heard [.starved])
    (f := fun k g => if (h.budget.pictures[k]'k.2).starved = false ∧ (h.budgetNow.pictures[k]'k.2).starved = true then
      g.notify .starved k.val else g)
    (Hub.Heard.refl _) Hub.Heard.trans k (fun j g _ => .ite (g.notify_heard (by decide) _) (.refl _ g)) h.toldRates
  refine hafter.summary_mono q (by decide) ?_
  rw [if_pos ⟨hold, hnew⟩]
  exact Hub.notify_summary _ (k := .starved) _ rfl

/-! ### The terms of the recomputation -/

theorem Hub.isOpen_iff (k : Fin 16) : h.isOpen k = true ↔ (h.stream k).state = .opened := by
  simp [Hub.isOpen]

theorem Hub.capacityBits_eq :
    h.capacityBits = if h.budget.fixedSource then h.budget.fixedCapacity
      else 8 * ((List.finRange 8).map fun p : Fin 8 =>
        if (h.paths.path[p]'p.2).state = .up ∨ (h.paths.path[p]'p.2).state = .paused then
          (h.gauges.path[p]'p.2).e else 0).sum := by
  have hterm : ∀ p : Fin 8, (if (h.paths.path[p]'p.2).carrying then (h.gauges.path[p]'p.2).e else 0) =
      if (h.paths.path[p]'p.2).state = .up ∨ (h.paths.path[p]'p.2).state = .paused then (h.gauges.path[p]'p.2).e else 0 :=
    fun p => if_congr (Path.carrying_iff _) rfl rfl
  simp only [Hub.capacityBits, hterm]

theorem Hub.soundReserve_eq :
    h.soundReserve = ((List.finRange 8).map fun k : Fin 8 =>
      if (h.stream (soundStream k)).state = .opened then 2304000 + 512 * h.tb.rate.fps else 0).sum := by
  have hterm : ∀ k : Fin 8, (if h.isOpen (soundStream k) then soundReserveOf h.tb.rate else 0) =
      if (h.stream (soundStream k)).state = .opened then 2304000 + 512 * h.tb.rate.fps else 0 :=
    fun k => if_congr (h.isOpen_iff _) rfl rfl
  simp only [Hub.soundReserve, hterm]

theorem Hub.otherReserve_eq :
    h.otherReserve = ((List.finRange 4).map fun k : Fin 4 =>
      if (h.stream (auxStream k)).state = .opened then h.budget.reserves[k]'k.2 else 0).sum := by
  have hterm : ∀ k : Fin 4, (if h.isOpen (auxStream k) then h.budget.reserves[k]'k.2 else 0) =
      if (h.stream (auxStream k)).state = .opened then h.budget.reserves[k]'k.2 else 0 :=
    fun k => if_congr (h.isOpen_iff _) rfl rfl
  simp only [Hub.otherReserve, hterm]

theorem Hub.fixedTotal_eq :
    h.fixedTotal = ((List.finRange 4).map fun k : Fin 4 =>
      if (h.stream (pictureStream k)).state = .opened ∧ (h.coders[k]'k.2).fixed = true then (h.coders[k]'k.2).fixedRate
      else 0).sum := by
  have hterm : ∀ k : Fin 4,
    (if h.isOpen (pictureStream k) ∧ (h.coders[k]'k.2).fixed then (h.coders[k]'k.2).fixedRate else 0) =
      if (h.stream (pictureStream k)).state = .opened ∧ (h.coders[k]'k.2).fixed = true then (h.coders[k]'k.2).fixedRate
      else 0 := fun k => if_congr (and_congr (h.isOpen_iff _) Iff.rfl) rfl rfl
  simp only [Hub.fixedTotal, hterm]

theorem Hub.autoWeight_eq :
    h.autoWeight = ((List.finRange 4).map fun k : Fin 4 =>
      if (h.stream (pictureStream k)).state = .opened ∧ (h.coders[k]'k.2).fixed = false then (h.coders[k]'k.2).weight
      else 0).sum := by
  have hterm : ∀ k : Fin 4, (if h.isOpen (pictureStream k) ∧ ¬ (h.coders[k]'k.2).fixed then (h.coders[k]'k.2).weight else 0) =
      if (h.stream (pictureStream k)).state = .opened ∧ (h.coders[k]'k.2).fixed = false then (h.coders[k]'k.2).weight
      else 0 := fun k => if_congr (and_congr (h.isOpen_iff _) (Bool.not_eq_true _ ▸ Iff.rfl)) rfl rfl
  simp only [Hub.autoWeight, hterm]

/-- R63: the rates kept for the pictures in flight. -/
theorem Coder.keptRates_eq (c : Coder) (old : PictureBudget) (assigned now : Nat) :
    c.keptRates old assigned now =
      if old.assigned ≠ assigned ∧ old.startedAt = some now then []
      else if old.assigned ≠ assigned ∧ 2 ≤ (c.flight.filter fun f => f.subst == none).length then
        old.kept ++ (c.flight.filter fun f => f.subst == none).map fun f => (f.frame.serial, old.assigned)
      else old.kept := by
  unfold Coder.keptRates Coder.inFlight
  rw [List.length_map, List.map_map]
  by_cases ha : old.assigned = assigned
  · simp [ha]
  · simp only [ha, ne_eq, not_false_eq_true, true_and, if_false]
    rfl

/-- R129: the record of a stream that is not OPEN. -/
theorem Hub.pictureShare_closed {k : Fin 4} (hk : (h.stream (pictureStream k)).state ≠ .opened) (pool weight : Nat) :
    h.pictureShare pool weight k =
      { h.budget.pictures[k]'k.2 with
        assigned := clamp (h.coders[k]'k.2).rMin (h.coders[k]'k.2).rMax (h.budget.pictures[k]'k.2).assigned
        share := none, starved := false } := if_neg (mt (h.isOpen_iff _).mp hk)

theorem Hub.pictureShare_fixed {k : Fin 4} (hk : (h.stream (pictureStream k)).state = .opened)
    (hf : (h.coders[k]'k.2).fixed = true) (pool weight : Nat) :
    h.pictureShare pool weight k =
      { h.budget.pictures[k]'k.2 with
        assigned := (h.coders[k]'k.2).fixedRate, counted := true, share := none, starved := false } :=
  (if_pos ((h.isOpen_iff _).mpr hk)).trans (if_pos hf)

theorem Hub.pictureShare_auto {k : Fin 4} (hk : (h.stream (pictureStream k)).state = .opened)
    (hf : (h.coders[k]'k.2).fixed = false) (pool weight : Nat) :
    h.pictureShare pool weight k =
      { h.budget.pictures[k]'k.2 with
        assigned := clamp (h.coders[k]'k.2).rMin (h.coders[k]'k.2).rMax (pool * (h.coders[k]'k.2).weight / weight)
        counted := true, share := some (pool * (h.coders[k]'k.2).weight / weight)
        starved := decide (pool * (h.coders[k]'k.2).weight / weight < (h.coders[k]'k.2).rMin) } :=
  (if_pos ((h.isOpen_iff _).mpr hk)).trans (if_neg (by rw [hf]; decide))

end

/-! ### The obligation -/

theorem Hub.setBudget_bad {h : Hub} {a : Byte} (ha : 1 < a.toNat) (x : BudgetArgs) :
    h.setBudget a x = h.refuse .badArg := by
  simp only [Hub.setBudget, twoWay_eq_none ha]

theorem Budget.write_settings (b : Budget) (source : Bool) (x : BudgetArgs) :
    (b.write source x).settings =
      flagByte source ++ le 8 (min 8000000000 x.fixed.toNat) ++ le 2 (min 500 x.headroom.toNat) ++
        le 4 (clampReserve x.res12) ++ le 4 (clampReserve x.res13) ++ le 4 (clampReserve x.res14) ++
        le 4 (clampReserve x.res15) := by
  simp [Budget.settings, Budget.write, tableField]

/-- The settings of SET BUDGET written. -/
def Hub.withBudgetSettings (h : Hub) (source : Bool) (x : BudgetArgs) : Hub :=
  { h with budget := h.budget.write source x }

theorem Hub.withBudgetSettings_only (h : Hub) (source : Bool) (x : BudgetArgs) :
    Hub.OnlyChanges [.budget] h (h.withBudgetSettings source x) := by
  intro y hy
  cases y <;> simp_all [Part.same, Hub.withBudgetSettings]

theorem Hub.setBudget_taken {h : Hub} (source : Bool) (x : BudgetArgs) :
    h.setBudget (byte source.toNat) x =
      ((h.withBudgetSettings source x).recompute, .done (h.budget.write source x).settings) := by
  simp only [Hub.setBudget, twoWay_byte, Hub.withBudgetSettings]

/-- The record of one picture stream after a recomputation. -/
theorem Hub.budgetNow_picture (h : Hub) (k : Fin 4) :
    h.budgetNow.pictures[k]'k.2 = h.pictureBudget h.budgetNow.pool h.autoWeight k := by
  simp [Hub.budgetNow]

/-- Settles O44: every value of the record by its term of the recomputation. -/
theorem budgetRecomputes : Obligations.BudgetRecomputes := by
  intro c fixed headroom r12 r13 r14 r15 s hs
  refine ⟨fun a ha => hs.run_none (Hub.setBudget_bad ha _) nofun, fun source => ?_⟩
  intro capacity h reserve reserves carrying opened kBits u left fps sound other bounded isFixed isAuto total pool weights
    share moment changedAt kept cmd
  refine exists_became (hs.run_none (Hub.setBudget_taken (h := s.hub.arrive c.env) source
    ⟨fixed, headroom, r12, r13, r14, r15⟩) nofun) ?_
  simp only [Hub.answer_budget, Hub.answer_notices, Hub.recompute_budget]
  generalize hw : (s.hub.arrive c.env).withBudgetSettings source ⟨fixed, headroom, r12, r13, r14, r15⟩ = w
  have honly : Hub.OnlyChanges [.budget, .ports, .notices] (s.hub.arrive c.env) w :=
    hw ▸ (Hub.withBudgetSettings_only _ _ _).mono (by decide)
  have hkBits : w.capacityBits = kBits := by rw [Hub.capacityBits_eq, ← hw]; rfl
  have hsound : w.soundReserve = sound := by
    have hfps : w.tb.rate.fps = fps := by rw [← hw]; rfl
    rw [Hub.soundReserve_eq, hfps, ← hw]
    rfl
  have hother : w.otherReserve = other := by rw [Hub.otherReserve_eq, ← hw]; rfl
  have htotal : w.fixedTotal = total := by rw [Hub.fixedTotal_eq, ← hw]; rfl
  have hweights : w.autoWeight = weights := by rw [Hub.autoWeight_eq, ← hw]; rfl
  have hleft : afterHeadroom (payloadCapacity w.capacityBits) w.budget.headroom = left := by rw [hkBits, ← hw]; rfl
  have hpool : w.budgetNow.pool = pool := by
    show afterHeadroom (payloadCapacity w.capacityBits) w.budget.headroom -
      (w.soundReserve + w.otherReserve + w.fixedTotal) = pool
    rw [hleft, hsound, hother, htotal]
  have hpicture : ∀ k : Fin 4, w.budgetNow.pictures[k]'k.2 = w.pictureBudget pool weights k := fun k => by
    rw [Hub.budgetNow_picture, hpool, hweights]
  have hcoder : ∀ k : Fin 4, w.coders[k]'k.2 = s.hub.coders[k]'k.2 := fun k => by rw [← hw]; rfl
  have hold : ∀ k : Fin 4, w.budget.pictures[k]'k.2 = s.hub.budget.pictures[k]'k.2 := fun k => by rw [← hw]; rfl
  have hstate : ∀ k, (w.stream k).state = (s.hub.stream k).state := fun k => by rw [← hw]; rfl
  have hnow : w.now = moment := by rw [← hw]; rfl
  have hrecord : ∀ k : Fin 4, w.pictureBudget pool weights k =
      { w.pictureShare pool weights k with
        kept := kept k (w.pictureShare pool weights k).assigned
        changedAt := changedAt k (w.pictureShare pool weights k).assigned } := fun k => by
    have hkept : (w.coders[k]'k.2).keptRates (w.budget.pictures[k]'k.2) (w.pictureShare pool weights k).assigned w.now =
        kept k (w.pictureShare pool weights k).assigned := by
      rw [Coder.keptRates_eq, hcoder, hold, hnow]
    have hchanged : (if (w.budget.pictures[k]'k.2).assigned = (w.pictureShare pool weights k).assigned then
        (w.budget.pictures[k]'k.2).changedAt else some w.now) = changedAt k (w.pictureShare pool weights k).assigned := by
      rw [hold, hnow]
    unfold Hub.pictureBudget
    dsimp only
    rw [← hkept, ← hchanged]
  refine ⟨⟨by rw [← hw]; rfl, by rw [← hw]; rfl, by rw [← hw]; rfl, by rw [← hw]; rfl, hkBits, ?_, hleft, hsound, hother,
    htotal, hpool, ?_, by rw [← hw]; rfl, fun k => ?_⟩, ?_, ?_⟩
  · show payloadCapacity w.capacityBits = u
    rw [hkBits]
    rfl
  · show decide (afterHeadroom (payloadCapacity w.capacityBits) w.budget.headroom <
      w.soundReserve + w.otherReserve + w.fixedTotal) = decide (left < sound + other + total)
    rw [hleft, hsound, hother, htotal]
  · have hnew := (hpicture k).trans (hrecord k)
    refine ⟨fun hf => ?_, fun ha => ?_, fun hc => ?_, fun hchange q => w.recompute_change (k := k) ?_ q,
      fun hn hs q => w.recompute_starves (k := k) ?_ hs q⟩
    · rw [w.pictureShare_fixed (by rw [hstate]; exact hf.1) (by rw [hcoder]; exact hf.2), hcoder, hold] at hnew
      rw [hnew]
      rfl
    · rw [w.pictureShare_auto (by rw [hstate]; exact ha.1) (by rw [hcoder]; exact ha.2), hcoder, hold] at hnew
      rw [hnew]
      rfl
    · rw [w.pictureShare_closed (by rw [hstate]; exact hc), hcoder, hold] at hnew
      rw [hnew]
      rfl
    · rw [hold]
      exact hchange
    · rw [hold]
      exact hn
  · rw [Hub.answer_sending, Budget.write_settings]
    rfl
  · exact Hub.OnlyChanges.answered _ _ _ _ (honly.trans (w.recompute_only.mono (by decide))) (by decide)

end Sys2Proof.Machine
end

section
/-! Proofs: OPEN CLIP, CLOSE CLIP and RELEASE CLIP (R135, R138, R143). -/

namespace Sys2Proof.Machine

-- In order, so that the package in one text stays within the memory of its check.
set_option Elab.async false

/-! ### Rights to a mask -/

/-- What DENIES a mask of streams to a port. -/
theorem Hub.not_hasStreams_iff (h : Hub) (p : Fin 4) (mask : BitVec 16) :
    ¬ h.hasStreams p mask = true ↔ ∃ k : Fin 16, mask.getLsbD k.val = true ∧ h.hasStream p k.val = false := by
  rw [h.hasStreams_iff]
  push Not
  simp only [Bool.not_eq_true]

/-! ### OPEN CLIP -/

theorem nameOf_long {name : Option TextArg} (hn : ∃ x, name = some x ∧ 64 < x.len.toNat) : nameOf name = none := by
  obtain ⟨x, rfl, hx⟩ := hn
  exact if_neg (by omega)

theorem nameOf_short {name : Option TextArg} (hn : ¬ ∃ x, name = some x ∧ 64 < x.len.toNat) :
    nameOf name = some ((name.map fun x => x.bytes.take x.len.toNat).getD []) := by
  cases name with
  | none => rfl
  | some x => exact if_pos (Nat.not_lt.mp fun hx => hn ⟨x, rfl, hx⟩)

/-- What leaves no clip to be opened: 16 active clips, a table of 256 without a LAPSED one, the clip numbers used up. -/
theorem ClipLog.not_canOpen_iff (l : ClipLog) :
    ¬ l.canOpen = true ↔
      16 ≤ (l.clips.filter fun x : Clip => x.state = .opened ∨ x.state = .closing).length ∨
        (256 ≤ l.clips.length ∧ ∀ x ∈ l.clips, x.state ≠ .lapsed) ∨ 4294967295 < l.nextClip := by
  have hactive : l.active = (l.clips.filter fun x : Clip => x.state = .opened ∨ x.state = .closing).length := by
    have hp : Clip.active = fun x : Clip => decide (x.state = .opened ∨ x.state = .closing) := by
      funext x
      cases hx : x.state <;> simp [Clip.active, hx]
    rw [ClipLog.active, hp]
  rw [l.canOpen_iff, hactive, not_and_or, not_and_or, not_or, Nat.not_lt, Nat.not_lt, Nat.not_le]
  simp only [not_exists, not_and]

/-- The log with a clip added: the table after R135 check 4 and the new descriptor. -/
theorem Hub.addClip_eq (h : Hub) (owner : Owner) (mask : BitVec 16) (name : Bytes) :
    h.addClip owner mask name =
      { h with
        log := { h.log with
          clips := (if h.log.clips.length < 256 then h.log.clips
              else h.log.clips.eraseP fun x : Clip => x.state = .lapsed) ++
            [Clip.new h.log.nextClip owner mask name (h.tb.frame.serial + 1)]
          nextClip := h.log.nextClip + 1 } } := by
  by_cases hl : h.log.clips.length < 256 <;> simp [Hub.addClip, Hub.modLog, ClipLog.makeRoom, hl]

section
variable {h : Hub} {p : Fin 4} {mask : BitVec 16} {name : Option TextArg}

theorem Hub.openClip_bad (hb : mask = 0 ∨ ∃ x, name = some x ∧ 64 < x.len.toNat) :
    h.openClip p mask name = h.refuse .badArg := by
  unfold Hub.openClip
  rcases hb with hm | hn
  · split
    · rfl
    · exact if_pos hm
  · rw [nameOf_long hn]

theorem Hub.openClip_named (hb : ¬ (mask = 0 ∨ ∃ x, name = some x ∧ 64 < x.len.toNat)) :
    h.openClip p mask name =
      if ¬ h.hasStreams p mask = true then h.refuse .denied
      else if ¬ h.log.canOpen = true then h.refuse .full
      else
        (h.addClip (.port p) mask ((name.map fun x => x.bytes.take x.len.toNat).getD []),
          .done (le 4 h.log.nextClip ++ word4 (h.tb.frame.serial + 1))) := by
  obtain ⟨hm, hn⟩ := not_or.mp hb
  unfold Hub.openClip
  rw [nameOf_short hn]
  exact if_neg hm

end

/-- Settles O45: the checks of R135 in their order. -/
theorem openClipAddsDescriptor : Obligations.OpenClipAddsDescriptor := by
  intro c mask name s hs g l text bad denied full start clip kept
  have hdenied : denied ↔ ¬ g.hasStreams c.port mask = true := (g.not_hasStreams_iff c.port mask).symm
  have hfull : full ↔ ¬ g.log.canOpen = true := l.not_canOpen_iff.symm
  refine ⟨fun hb => hs.run_none (Hub.openClip_bad hb) nofun, fun hb hd => ?_, fun hb hd hf => ?_, fun hb hd hf => ?_⟩
  · exact hs.run_denied (fun _ h => by cases h) ((Hub.openClip_named (h := g) hb).trans (if_pos (hdenied.mp hd)))
  · exact hs.run_none ((Hub.openClip_named (h := g) hb).trans ((if_neg (mt hdenied.mpr hd)).trans (if_pos (hfull.mp hf))))
      nofun
  · refine hs.run_none ((Hub.openClip_named (h := g) hb).trans ((if_neg (mt hdenied.mpr hd)).trans
      ((if_neg (mt hfull.mpr hf)).trans ?_))) nofun
    rw [g.addClip_eq]
    cases name <;> rfl

/-! ### CLOSE CLIP and RELEASE CLIP -/

section
variable {l : ClipLog} {n : Word}

theorem ClipLog.named_unknown (hn : n = 0 ∨ l.nextClip ≤ n.toNat) : l.named n = .error .badArg := if_pos hn

theorem ClipLog.named_gone (hn : ¬ (n = 0 ∨ l.nextClip ≤ n.toNat)) (hall : ∀ x ∈ l.clips, x.number ≠ n) :
    l.named n = .error .gone := by
  have hfind : l.find n = none := List.find?_eq_none.mpr fun x hx => by simpa using hall x hx
  simp only [ClipLog.named, hfind]
  exact if_neg hn

theorem ClipLog.named_held (hn : ¬ (n = 0 ∨ l.nextClip ≤ n.toNat)) {x : Clip}
    (hx : l.clips.find? (fun y : Clip => y.number = n) = some x) : l.named n = .ok x := by
  have hfind : l.find n = some x := hx
  simp only [ClipLog.named, hfind]
  exact if_neg hn

end

theorem Clip.ownedByOther_iff (x : Clip) (p : Fin 4) : x.ownedByOther p = true ↔ ∃ q, x.owner = .port q ∧ q ≠ p := by
  cases hx : x.owner <;> simp [Clip.ownedByOther, hx]

theorem Clip.active_iff (x : Clip) : x.active = true ↔ x.state = .opened ∨ x.state = .closing := by
  simp [Clip.active]

section
variable {h : Hub} {p : Fin 4} {n : Word}

theorem Hub.closeClip_refused {o : Answer} (hn : h.log.named n = .error o) : h.closeClip p n = h.refuse o := by
  simp only [Hub.closeClip, hn]

theorem Hub.releaseClip_refused {o : Answer} (hn : h.log.named n = .error o) : h.releaseClip p n = h.refuse o := by
  simp only [Hub.releaseClip, hn]

theorem Hub.closeClip_named {x : Clip} (hn : h.log.named n = .ok x) :
    h.closeClip p n =
      if x.ownedByOther p = true then h.refuse .denied
      else if x.state ≠ .opened then h.refuse .conflict
      else (h.closeClips (fun x => x.number == n) .portClose, .plain .started) := by
  simp only [Hub.closeClip, hn]

theorem Hub.releaseClip_named {x : Clip} (hn : h.log.named n = .ok x) :
    h.releaseClip p n =
      if ¬ h.hasStreams p x.mask = true then h.refuse .denied
      else if x.active = true then h.refuse .conflict
      else (h.modLog fun l => { l with clips := l.clips.filter fun x => x.number != n }).ok := by
  simp only [Hub.releaseClip, hn]

end

/-! ### The test of a stream (R139, R140) -/

/-- What R140 makes of a clip whose marks are all set is made once. -/
theorem Clip.finish_finish (x : Clip) : x.finish.finish = x.finish := rfl

theorem Clip.due_iff (x : Clip) :
    x.due = true ↔ x.state = .closing ∧ ∀ j : Fin 16, x.mask.getLsbD j.val = true → x.passed.getLsbD j.val = true := by
  unfold Clip.due
  rw [Bool.and_eq_true, beq_iff_eq, beq_iff_eq]
  refine and_congr_right fun _ => ⟨fun hz j hj => ?_, fun hall => BitVec.eq_of_getLsbD_eq fun i hi => ?_⟩
  · have hbit := congrArg (fun v => v.getLsbD j.val) hz
    simpa [hj, j.isLt, -BitVec.getLsbD_eq_getElem] using hbit
  · have hj := hall ⟨i, hi⟩
    have hzero : (0 : BitVec 16).getLsbD i = false := BitVec.getLsbD_zero
    simp only [BitVec.getLsbD_and, BitVec.getLsbD_not, hi, decide_true, Bool.true_and, hzero]
    cases hm : x.mask.getLsbD i with
    | false => rfl
    | true =>
      rw [hj hm]
      rfl

section
variable (h : Hub)

/-- The ends of a list of clips finish the clips with their numbers. -/
theorem Hub.finishFold_clips (xs : List Clip) :
    (xs.foldl (fun h c => (h.modClip c.number Clip.finish).notify .clipClosed c.number.toNat) h).log.clips =
      h.log.clips.map fun y => if y.number ∈ xs.map Clip.number then y.finish else y := by
  induction xs generalizing h with
  | nil => simp
  | cons x xs ih =>
    rw [List.foldl_cons, ih, show ((h.modClip x.number Clip.finish).notify .clipClosed x.number.toNat).log.clips =
      h.log.clips.map fun y => if y.number = x.number then y.finish else y from rfl, List.map_map]
    refine List.map_congr_left fun y _ => ?_
    have hn : y.finish.number = y.number := rfl
    by_cases hx : y.number = x.number <;> by_cases hm : y.number ∈ xs.map Clip.number <;>
      simp [hx, hm, hn, Clip.finish_finish, -List.mem_map]

theorem Hub.finishClips_clips :
    h.finishClips.log.clips =
      h.log.clips.map fun y => if y.number ∈ (h.log.clips.filter Clip.due).map Clip.number then y.finish else y :=
  h.finishFold_clips _

/-- Each end of a list of clips gives CLIP_CLOSED to the ports of class LOG. -/
theorem Hub.finishFold_summary {xs : List Clip} (hx : xs ≠ []) {p : Fin 4} (hp : h.hasClass p .log = true) :
    ((xs.foldl (fun h c => (h.modClip c.number Clip.finish).notify .clipClosed c.number.toNat) h).notices[p]).summary.getLsbD
      17 = true := by
  cases xs with
  | nil => exact absurd rfl hx
  | cons x xs =>
    have hturn : ∀ (g : Hub) (c : Clip), Hub.Heard [.clipClosed] g
        ((g.modClip c.number Clip.finish).notify .clipClosed c.number.toNat) := fun g c =>
      .trans (g.mapClips_heard _) (Hub.notify_heard _ (by decide) _)
    have hrest := Hub.Heard.foldl hturn xs ((h.modClip x.number Clip.finish).notify .clipClosed x.number.toNat)
    exact hrest.summary_mono p (by decide) (Hub.notify_summary (h := h.modClip x.number Clip.finish) (k := .clipClosed) _ hp)

/-- The number of a clip in order names it alone. -/
theorem Hub.ClipsOrdered.nodup (ho : h.ClipsOrdered) : (h.log.clips.map Clip.number).Nodup := by
  rw [List.Nodup, List.pairwise_map]
  exact ho.1.imp fun hlt he => by rw [he] at hlt; omega

theorem Hub.passedByState_iff (x : Clip) (k : Fin 16) : h.passedByState x k = true ↔ h.HasPassed x k := by
  unfold Hub.passedByState Hub.HasPassed
  by_cases hk : k.val < 4
  · simp [hk]
  · have howed : h.unitOwed k = false ↔ ∀ j : Fin 8, k.val = 4 + j.val →
        (h.mixer.packs[j]).state = .idle ∨ (h.mixer.packs[j]).serial = h.tb.frame.serial := by
      unfold Hub.unitOwed
      by_cases hs : 4 ≤ k.val ∧ k.val < 12
      · have hj : ∀ j : Fin 8, k.val = 4 + j.val ↔ j = ⟨k.val - 4, by omega⟩ := fun j => by
          rw [Fin.ext_iff]
          dsimp only
          omega
        simp only [hs, and_self, dite_true, hj, forall_eq]
        generalize hm : h.mixer.packs[k.val - 4]'(by omega) = pk
        simp [or_iff_not_imp_left]
      · simp only [hs, dite_false, true_iff]
        intro j hj
        omega
    cases hw : x.endSerial <;> simp [hk, howed, atOrAfter]

theorem Clip.passedByDate_iff (x : Clip) (k : Fin 16) (dated : Option Word) :
    x.passedByDate k dated = true ↔
      k.val < 4 ∧ ∃ d w, dated = some d ∧ x.endSerial = some w ∧ (d - w).toNat < 2147483648 := by
  unfold Clip.passedByDate
  cases dated <;> cases hw : x.endSerial <;> simp [atOrAfter]

/-- Whether the test of stream k finds that the stream has passed the end of a clip. -/
def Hub.Passes (k : Fin 16) (dated : Option Word) (x : Clip) : Prop :=
  x.state = .closing ∧ x.mask.getLsbD k.val = true ∧
    (h.HasPassed x k ∨ (k.val < 4 ∧ ∃ d w, dated = some d ∧ x.endSerial = some w ∧ (d - w).toNat < 2147483648))

theorem Hub.passes_iff (k : Fin 16) (dated : Option Word) (x : Clip) :
    (x.state = .closing ∧ x.covers k = true ∧ (x.passedByDate k dated || h.passedByState x k) = true) ↔
      h.Passes k dated x := by
  rw [Bool.or_eq_true, Clip.passedByDate_iff, Hub.passedByState_iff, or_comm]
  rfl

/-- The mark that the test of stream k sets (R139). -/
def Hub.mark (k : Fin 16) (dated : Option Word) (x : Clip) : Clip :=
  if x.state = .closing ∧ x.covers k = true ∧ (x.passedByDate k dated || h.passedByState x k) = true then
    { x with passed := x.passed ||| (1#16 <<< k.val) }
  else x

theorem Hub.mark_passes {k : Fin 16} {dated : Option Word} {x : Clip} (hp : h.Passes k dated x) :
    h.mark k dated x = { x with passed := x.passed ||| (1#16 <<< k.val) } := if_pos ((h.passes_iff k dated x).mpr hp)

theorem Hub.mark_stays {k : Fin 16} {dated : Option Word} {x : Clip} (hp : ¬ h.Passes k dated x) :
    h.mark k dated x = x := if_neg (mt (h.passes_iff k dated x).mp hp)

/-- A mark is all that a test writes into a clip that does not end. -/
theorem Hub.mark_same (k : Fin 16) (dated : Option Word) (x : Clip) :
    h.mark k dated x = { x with passed := (h.mark k dated x).passed } := by
  unfold Hub.mark
  split <;> rfl

theorem Hub.testClips_clips (k : Fin 16) (dated : Option Word) :
    (h.testClips k dated).log.clips =
      h.log.clips.map fun x =>
        let y := h.mark k dated x
        if y.number ∈ ((h.log.clips.map (h.mark k dated)).filter Clip.due).map Clip.number then y.finish else y := by
  rw [Hub.testClips, Hub.finishClips_clips]
  exact List.map_map

/-- In a table in order the clips that the test ends are those whose marks are all set. -/
theorem Hub.testClips_ordered (ho : h.ClipsOrdered) (k : Fin 16) (dated : Option Word) :
    (h.testClips k dated).log.clips =
      h.log.clips.map fun x =>
        if (h.mark k dated x).due = true then (h.mark k dated x).finish else h.mark k dated x := by
  rw [Hub.testClips_clips]
  refine List.map_congr_left fun x hx => if_congr ?_ rfl rfl
  have hnumbers : ((h.log.clips.map (h.mark k dated)).map Clip.number).Nodup := by
    rw [List.map_map, show Clip.number ∘ h.mark k dated = Clip.number from funext fun y => by
      rw [Function.comp_apply, Hub.mark_same]]
    exact ho.nodup
  have hmem := List.mem_map_of_mem (f := h.mark k dated) hx
  refine ⟨fun hn => ?_, fun hd => List.mem_map_of_mem (List.mem_filter.mpr ⟨hmem, hd⟩)⟩
  obtain ⟨y, hy, hxy⟩ := List.mem_map.mp hn
  obtain ⟨hy, hd⟩ := List.mem_filter.mp hy
  rwa [← List.inj_on_of_nodup_map hnumbers hy hmem hxy]

theorem Hub.testClips_summary {k : Fin 16} {dated : Option Word} {x : Clip} (hx : x ∈ h.log.clips)
    (hd : (h.mark k dated x).due = true) {p : Fin 4} (hp : h.hasClass p .log = true) :
    ((h.testClips k dated).notices[p]).summary.getLsbD 17 = true :=
  Hub.finishFold_summary (h := h.markPassed k dated)
    (List.ne_nil_of_mem (List.mem_filter.mpr ⟨List.mem_map_of_mem (f := h.mark k dated) hx, hd⟩)) hp

/-- After a test no clip has all its marks set. -/
theorem Hub.testClips_not_due (k : Fin 16) (dated : Option Word) {y : Clip}
    (hy : y ∈ (h.testClips k dated).log.clips) : y.due = false := by
  rw [Hub.testClips_clips] at hy
  obtain ⟨x, hx, rfl⟩ := List.mem_map.mp hy
  dsimp only
  split
  · simp [Clip.due, Clip.finish]
  · rename_i hn
    rw [← Bool.not_eq_true]
    exact fun hd => hn (List.mem_map_of_mem (List.mem_filter.mpr ⟨List.mem_map_of_mem hx, hd⟩))

end

/-- The clips in CLOSING of a hub are clips in CLOSING of one before it, with the marks that those had. -/
def Hub.ClosingFrom (g h : Hub) : Prop :=
  (∀ x ∈ h.log.clips, x.state = .closing → ∃ y ∈ g.log.clips, y.state = .closing ∧ y.mask = x.mask ∧
      y.endSerial = x.endSerial ∧ ∀ j : Fin 16, y.passed.getLsbD j.val = true → x.passed.getLsbD j.val = true) ∧
    Hub.OnlyChanges [.log, .notices] g h

theorem Hub.ClosingFrom.refl (h : Hub) : h.ClosingFrom h :=
  ⟨fun x hx hs => ⟨x, hx, hs, rfl, rfl, fun _ => id⟩, .refl _ h⟩

theorem Hub.ClosingFrom.trans {a b c : Hub} (h₁ : a.ClosingFrom b) (h₂ : b.ClosingFrom c) : a.ClosingFrom c := by
  refine ⟨fun x hx hs => ?_, h₁.2.trans h₂.2⟩
  obtain ⟨y, hy, hys, hym, hye, hyp⟩ := h₂.1 x hx hs
  obtain ⟨z, hz, hzs, hzm, hze, hzp⟩ := h₁.1 y hy hys
  exact ⟨z, hz, hzs, hzm.trans hym, hze.trans hye, fun j hj => hyp j (hzp j hj)⟩

section
variable (h : Hub)

/-- A clip that is still in CLOSING after a test was in CLOSING, and bears the test's mark. -/
theorem Hub.testClips_closing {k : Fin 16} {dated : Option Word} {y : Clip}
    (hy : y ∈ (h.testClips k dated).log.clips) (hs : y.state = .closing) :
    ∃ x ∈ h.log.clips, x.state = .closing ∧ y = h.mark k dated x := by
  rw [Hub.testClips_clips] at hy
  obtain ⟨x, hx, rfl⟩ := List.mem_map.mp hy
  dsimp only at hs ⊢
  split at hs
  · cases hs
  · rename_i hn
    rw [if_neg hn]
    rw [Hub.mark_same] at hs
    exact ⟨x, hx, hs, rfl⟩

theorem Hub.testClips_closingFrom (k : Fin 16) (dated : Option Word) : h.ClosingFrom (h.testClips k dated) := by
  refine ⟨fun y hy hs => ?_, h.testClips_only k dated⟩
  obtain ⟨x, hx, hxs, rfl⟩ := h.testClips_closing hy hs
  refine ⟨x, hx, hxs, ?_, ?_, fun j hj => ?_⟩
  · rw [Hub.mark_same]
  · rw [Hub.mark_same]
  · unfold Hub.mark
    split
    · simp [hj, -BitVec.getLsbD_eq_getElem]
    · exact hj

/-- What a clip in CLOSING and the streams, frames and packs say of passing does not change with clips and notices. -/
theorem Hub.HasPassed.congr {g h : Hub} (ho : Hub.OnlyChanges [.log, .notices, .tally] g h) {x y : Clip}
    (he : y.endSerial = x.endSerial) {k : Fin 16} (hp : h.HasPassed x k) : g.HasPassed y k := by
  have hst : g.store.streams = h.store.streams := ho .streams (by decide)
  have htb : g.tb = h.tb := ho .timebase (by decide)
  have hmx : g.mixer = h.mixer := ho .mixer (by decide)
  unfold Hub.HasPassed Hub.stream at hp ⊢
  rw [hst, htb, hmx, he]
  exact hp

theorem Hub.tickTests_not_due {x : Clip} (hx : x ∈ h.tickTests.log.clips) : x.due = false := by
  obtain ⟨xs, hxs⟩ : ∃ xs, List.finRange 16 = xs ++ [15] := ⟨(List.finRange 16).dropLast, by decide⟩
  unfold Hub.tickTests Hub.forEach at hx
  rw [hxs, List.foldl_append, List.foldl_cons, List.foldl_nil] at hx
  exact Hub.testClips_not_due _ _ _ hx

/-- After the tests of a tick a clip in CLOSING waits for a stream that has not passed its end. -/
theorem Hub.tickTests_waits {x : Clip} (hx : x ∈ h.tickTests.log.clips) (hs : x.state = .closing) :
    ∃ k : Fin 16, x.mask.getLsbD k.val = true ∧ x.passed.getLsbD k.val = false ∧ ¬ h.tickTests.HasPassed x k := by
  have hdue : x.due = false := h.tickTests_not_due hx
  have hmarks : ¬ ∀ j : Fin 16, x.mask.getLsbD j.val = true → x.passed.getLsbD j.val = true := fun hall => by
    rw [x.due_iff.mpr ⟨hs, hall⟩] at hdue
    cases hdue
  push Not at hmarks
  obtain ⟨k, hk, hclear⟩ := hmarks
  refine ⟨k, hk, by simpa using hclear, fun hpassed => ?_⟩
  obtain ⟨g, -, hend⟩ := Hub.forEach_at (f := fun k g => g.testClips k none) (R := Hub.ClosingFrom) Hub.ClosingFrom.refl
    Hub.ClosingFrom.trans k (fun q g _ => g.testClips_closingFrom q none) h
  rw [← Hub.tickTests] at hend
  obtain ⟨y, hy, hys, hym, hye, hyp⟩ := hend.1 x hx hs
  obtain ⟨z, -, hzs, rfl⟩ := g.testClips_closing hy hys
  have hz : (g.mark k none z).mask = z.mask ∧ (g.mark k none z).endSerial = z.endSerial := by
    rw [Hub.mark_same]
    exact ⟨rfl, rfl⟩
  have hg : g.HasPassed z k :=
    Hub.HasPassed.congr (((g.testClips_only k none).trans hend.2).mono (by decide)) (hz.2.symm.trans hye) hpassed
  have hpass : g.Passes k none z := ⟨hzs, by rw [← hz.1, hym]; exact hk, .inl hg⟩
  refine hclear (hyp k ?_)
  rw [g.mark_passes hpass]
  simp [BitVec.getLsbD_or, -BitVec.getLsbD_eq_getElem]

end

theorem Timebase.readerTimeout_frame (t : Timebase) : t.readerTimeout.frame = t.frame := by
  rw [Timebase.readerTimeout_eq]

/-- R7: a tick forms the next serial. -/
theorem Timebase.tick_serial (t : Timebase) (m : Nat) : (t.tick m).frame.serial = t.frame.serial + 1 := by
  rw [show (t.tick m).frame = t.readerTimeout.nextFrame from rfl, show t.readerTimeout.nextFrame.serial =
    t.readerTimeout.frame.serial + 1 from rfl, Timebase.readerTimeout_frame]

/-! ### The span limit and the supply (R141, R152) -/

/-- No mask stops a SUPPLY_WARN, and a full queue takes it in the place of its oldest entry. -/
theorem NoticePort.offer_supplyWarn (n : NoticePort) {x : Notice} (hx : x.kind = .supplyWarn) :
    (n.offer x).queue.getLast? = some x := by
  unfold NoticePort.offer
  dsimp only
  rw [if_neg (fun h => h.1 hx)]
  split
  · simp [NoticePort.join]
  · simp [NoticePort.overflow, hx, NoticePort.join]

section
variable (h : Hub)

theorem Hub.notify_supplyWarn (n : Nat) (p : Fin 4) :
    ((h.notify .supplyWarn n).notices[p]).queue.getLast? =
      some { kind := .supplyWarn, param := BitVec.ofNat 32 n, serial := h.tb.frame.serial } := by
  rw [Hub.notify, Hub.give_notices, if_pos (show h.audience { kind := .supplyWarn, .. } p = true from rfl)]
  exact NoticePort.offer_supplyWarn _ rfl

/-- What closing OPEN clips makes of the table. -/
theorem Hub.closeClips_clips (select : Clip → Bool) (reason : EndReason) :
    (h.closeClips select reason).log.clips = h.log.clips.map fun y =>
      if y.state = .opened ∧ select y = true then
        { y with state := .closing, endSerial := some (h.tb.frame.serial + 1), reason := some reason, limitDue := false }
      else y := rfl

theorem Hub.supplyAssert_held (hl : h.log.supply = true) : h.supplyAssert = h := if_pos hl

theorem Hub.supplyDeassert_held (hl : h.log.supply = false) : h.supplyDeassert = h := if_neg (by rw [hl]; nofun)

/-- R152: at a change to asserted. -/
theorem Hub.supplyAssert_change (hl : h.log.supply = false) :
    h.supplyAssert.log.supply = true ∧
      h.supplyAssert.log.clips = (h.log.clips.map fun y : Clip =>
        if y.state = .opened then
          { y with state := .closing, endSerial := some (h.tb.frame.serial + 1), reason := some .supply, limitDue := false }
        else y) ∧
      (∀ k : Fin 4, h.supplyAssert.log.triggers[k] = { h.log.triggers[k] with state := .disarmed }) ∧
      (∀ p : Fin 4, (h.supplyAssert.notices[p]).queue.getLast? =
        some { kind := .supplyWarn, param := 1, serial := h.tb.frame.serial }) ∧
      h.supplyAssert.log.labels = h.log.labels ∧ h.supplyAssert.log.nextClip = h.log.nextClip ∧
      Hub.OnlyChanges [.log, .notices] h h.supplyAssert := by
  have heq : h.supplyAssert = ((h.closeClips (fun _ => true) .supply).modLog fun l =>
      { l with supply := true, triggers := Vector.ofFn fun t => { l.triggers[t] with state := .disarmed } }).notify
      .supplyWarn 1 := if_neg (by rw [hl]; nofun)
  rw [heq]
  refine ⟨rfl, ?_, fun k => ?_, fun p => Hub.notify_supplyWarn _ _ _, rfl, rfl, ?_⟩
  · rw [show ∀ g : Hub, (g.notify .supplyWarn 1).log = g.log from fun _ => rfl, Hub.modLog]
    dsimp only
    rw [Hub.closeClips_clips]
    simp
  · simp [Hub.modLog, Hub.notify, Hub.give, Hub.closeClips, Hub.mapClips]
  · exact (((h.mapClips_only _).trans (Hub.modLog_only _ _)).mono (by decide)).trans
      ((Hub.notify_only _ _ _).mono (by decide))

/-- R152: at a change to deasserted. -/
theorem Hub.supplyDeassert_change (hl : h.log.supply = true) :
    h.supplyDeassert = (h.modLog fun l => { l with supply := false }).notify .supplyWarn 0 := if_pos hl

theorem Hub.tickTally_log : h.tickTally.log = h.log := (h.tickTally_only .log (by decide)).symm

theorem Hub.HasPassed.of_tickTally {h : Hub} {x : Clip} {k : Fin 16} (hp : h.tickTally.HasPassed x k) : h.HasPassed x k :=
  .congr (x := x) (y := x) (h.tickTally_only.mono (by decide)) rfl hp

theorem Hub.tickTally_waits {x : Clip} (hx : x ∈ h.tickTests.tickTally.log.clips) (hs : x.state = .closing) :
    ∃ k : Fin 16, x.mask.getLsbD k.val = true ∧ x.passed.getLsbD k.val = false ∧ ¬ h.tickTests.tickTally.HasPassed x k := by
  rw [Hub.tickTally_log] at hx
  obtain ⟨k, hk, hclear, hwaits⟩ := h.tickTests_waits (x := x) hx hs
  exact ⟨k, hk, hclear, fun hp => hwaits (.of_tickTally hp)⟩

/-- A tick leaves a clip in CLOSING only where a stream has not passed its end. -/
theorem Hub.tick_waits (m : Nat) {x : Clip} (hx : x ∈ (h.tick m).log.clips) (hs : x.state = .closing) :
    ∃ k : Fin 16, x.mask.getLsbD k.val = true ∧ x.passed.getLsbD k.val = false ∧ ¬ (h.tick m).HasPassed x k := by
  have hstages := h.tick_stages m
  generalize h.tick m = t at *
  subst hstages
  exact Hub.tickTally_waits _ hx hs

/-- LIMIT CLOSE takes the serial of the frame that the coming tick forms, so the clip ends at the tick after it. -/
theorem Hub.limitClose_eq (n : Word) :
    h.atTick (fun h => h.closeClips (fun c => c.number == n && c.limitDue) .limit) =
      { h with log := { h.log with clips := h.log.clips.map fun y : Clip =>
        if y.state = .opened ∧ y.number = n ∧ y.limitDue = true then
          { y with state := .closing, endSerial := some (h.tb.frame.serial + 1 + 1), reason := some .limit,
                   limitDue := false }
        else y } } := by
  have hclose : ∀ y : Clip, (y.state = .opened ∧ (y.number == n && y.limitDue) = true) ↔
      (y.state = .opened ∧ y.number = n ∧ y.limitDue = true) := fun y => by simp
  simp only [Hub.atTick, Hub.closeClips, Hub.mapClips, Hub.modLog, Clip.close, Timebase.tick_serial, hclose]

end

theorem Clip.not_ownedByOther {x : Clip} {p : Fin 4} (hx : ¬ ∃ q, x.owner = .port q ∧ q ≠ p) :
    ¬ x.ownedByOther p = true := mt (x.ownedByOther_iff p).mp hx

/-- Settles O46: the test of a stream, the commands' checks in their order, the supply and the tick. -/
theorem clipsCloseAndLeave : Obligations.ClipsCloseAndLeave := by
  refine ⟨?_, ?_, ?_⟩
  · intro h k dated ho i x hx passes y hpass hstay all
    have hy : y = h.mark k dated x := by
      by_cases hp : h.Passes k dated x
      · rw [hpass hp, h.mark_passes hp]
      · rw [hstay hp, h.mark_stays hp]
    have hmask : y.mask = x.mask := by rw [hy, Hub.mark_same]
    have hstate : y.state = x.state := by rw [hy, Hub.mark_same]
    have hfinish : y.finish = { y with
        state := .closed
        ends := Vector.ofFn fun j => if x.mask.getLsbD j.val = true ∧ x.starts[j] ≠ none then x.running[j] else none } := by
      rw [hy, Hub.mark_same]
      simp only [Clip.finish, Clip.covers, Option.isSome_iff_ne_none]
    have hdue : y.due = true ↔ x.state = .closing ∧ all := by rw [y.due_iff, hmask, hstate]
    have hclip : (h.testClips k dated).log.clips[i]? = some (if y.due = true then y.finish else y) := by
      rw [h.testClips_ordered ho, List.getElem?_map, hx, hy]
      rfl
    refine ⟨fun hs hall => ⟨?_, fun p hp => ?_⟩, fun hn => ?_⟩
    · rw [hclip, if_pos (hdue.mpr ⟨hs, hall⟩), hfinish]
    · exact h.testClips_summary (List.mem_of_getElem? hx) (hy ▸ hdue.mpr ⟨hs, hall⟩) hp
    · rw [hclip, if_neg fun hd => ?_]
      obtain ⟨hs, hall⟩ := hdue.mp hd
      exact hn.elim (fun hne => hne hs) fun hne => hne hall
  · intro c n s hs g l masks unknown
    refine ⟨fun hn => ?_, fun hn hall => ?_, ?_⟩
    · have hnamed : g.log.named n = .error .badArg := ClipLog.named_unknown hn
      exact ⟨hs.run_none (Hub.closeClip_refused (h := g) hnamed) nofun,
        hs.run_none (Hub.releaseClip_refused (h := g) hnamed) nofun⟩
    · have hnamed : g.log.named n = .error .gone := ClipLog.named_gone hn hall
      exact ⟨hs.run_none (Hub.closeClip_refused (h := g) hnamed) nofun,
        hs.run_none (Hub.releaseClip_refused (h := g) hnamed) nofun⟩
    · intro x hn hx other outside
      have hnamed : g.log.named n = .ok x := ClipLog.named_held hn hx
      have hclose := Hub.closeClip_named (p := c.port) hnamed
      have hrelease := Hub.releaseClip_named (p := c.port) hnamed
      have houtside : outside ↔ ¬ g.hasStreams c.port x.mask = true := (g.not_hasStreams_iff c.port x.mask).symm
      refine ⟨fun ho => ?_, fun ho hst => ?_, fun ho hst => ?_, fun ho => ?_, fun ho hst => ?_, fun ho hst => ?_⟩
      · exact hs.run_denied (fun _ h => by cases h) (hclose.trans (if_pos ((x.ownedByOther_iff _).mpr ho)))
      · exact hs.run_none (hclose.trans ((if_neg (Clip.not_ownedByOther ho)).trans (if_pos hst))) nofun
      · refine hs.run_none (hclose.trans ((if_neg (Clip.not_ownedByOther ho)).trans ((if_neg (not_not.mpr hst)).trans ?_)))
          nofun
        have hsel : ∀ y : Clip, (y.state = .opened ∧ (y.number == n) = true) ↔ (y.state = .opened ∧ y.number = n) :=
          fun y => by simp
        simp only [Hub.closeClips, Hub.mapClips, Hub.modLog, Clip.close, hsel]
        rfl
      · exact hs.run_denied (fun _ h => by cases h) (hrelease.trans (if_pos (houtside.mp ho)))
      · exact hs.run_none (hrelease.trans ((if_neg (mt houtside.mpr ho)).trans (if_pos (x.active_iff.mpr hst)))) nofun
      · refine hs.run_none (hrelease.trans ((if_neg (mt houtside.mpr ho)).trans ((if_neg fun ha => ?_).trans ?_))) nofun
        · have hactive := x.active_iff.mp ha
          rcases hst with hst | hst <;> rw [hst] at hactive <;> simp at hactive
        · have hne : (fun y : Clip => y.number != n) = fun y => decide (y.number ≠ n) := by
            funext y
            by_cases hy : y.number = n <;> simp [hy]
          rw [hne]
          rfl
  · intro e s hs g l
    refine ⟨fun n => ?_, fun hl => ?_, fun hl => ?_, fun hl => ?_, fun hl => ?_, fun hr => ?_⟩
    · exact (State.run_free hs fun h => (h.arrive e).atTick _).trans (congrArg s.became (g.limitClose_eq n))
    · exact (State.run_free hs fun h => (h.arrive e).supplyAssert).trans (congrArg s.became (g.supplyAssert_held hl))
    · have hchange := g.supplyAssert_change hl
      obtain ⟨hsupply, hclips, htriggers, hlast, hlabels, hnext, honly⟩ := hchange
      exact exists_became (State.run_free hs fun h => (h.arrive e).supplyAssert) ⟨hsupply, hclips, htriggers, hlast, hlabels,
        hnext, ((s.hub.arrive_only e).mono (by decide)).trans honly⟩
    · exact (State.run_free hs fun h => (h.arrive e).supplyDeassert).trans
        (congrArg s.became (g.supplyDeassert_held hl))
    · refine exists_became (State.run_free hs fun h => (h.arrive e).supplyDeassert) ?_
      dsimp only
      rw [g.supplyDeassert_change hl]
      exact ⟨rfl, fun p => Hub.notify_supplyWarn _ _ _, ((s.hub.arrive_only e).mono (by decide)).trans
        (((Hub.modLog_only _ _).mono (by decide)).trans ((Hub.notify_only _ _ _).mono (by decide)))⟩
    · refine exists_became (State.run_free hs (Hub.dividerExpiry e)) fun x hx hc => ?_
      dsimp only at hx ⊢
      rw [Hub.dividerExpiry_unlocked hr] at hx ⊢
      exact Hub.tick_waits _ _ hx hc

end Sys2Proof.Machine
end

section
/-! Proofs: the Tally Unit (R158 to R164): its settings, its drives, and the lamps that a tick forms. -/

namespace Sys2Proof.Machine

-- In order, so that the package in one text stays within the memory of its check.
set_option Elab.async false

/-! ### What the operations on pictures change -/

/-- The parts that the pictures in flight can change: those of offered units, the contexts and the Budget. -/
def pictureParts : List Part := [.coders, .budget] ++ unitParts

section
variable (h : Hub)

theorem Hub.modCoder_pictureParts (k : Fin 4) (f : Coder → Coder) : Hub.OnlyChanges pictureParts h (h.modCoder k f) :=
  (h.modCoder_only k f).mono (by decide)

theorem Hub.offerPicture_pictureParts (k : Fin 4) (o : Offer) : Hub.OnlyChanges pictureParts h (h.offerPicture k o).1 :=
  (h.modCoder_pictureParts k _).trans ((Hub.offer_only _ _).mono (by decide))

theorem Hub.flush_pictureParts (k : Fin 4) : ∀ (n : Nat) (h : Hub), Hub.OnlyChanges pictureParts h (Hub.flush k n h)
  | 0, h => .refl _ h
  | n + 1, h => by
    unfold Hub.flush
    split
    · exact .refl _ h
    · split
      · exact .refl _ h
      · exact ((h.modCoder_pictureParts k _).trans ((Hub.modCoder_pictureParts _ k _).trans
          (Hub.offerPicture_pictureParts _ k _))).trans (Hub.flush_pictureParts k n _)

theorem Hub.settle_pictureParts (k : Fin 4) : Hub.OnlyChanges pictureParts h (h.settle k) :=
  .opt (Hub.flush_pictureParts k _ h) ((Hub.endClosing_only _ _).mono (by decide))

theorem Hub.dropPicture_pictureParts (k : Fin 4) (f : Flight) (why : DropReason) :
    Hub.OnlyChanges pictureParts h (h.dropPicture k f why) :=
  (((h.modCoder_pictureParts k _).trans ((Hub.notify_only _ _ _).mono (by decide))).trans
    ((Hub.label_only _ _).mono (by decide))).trans ((Hub.testClips_only _ _ _).mono (by decide))

theorem Hub.abortFrom_pictureParts (i k : Fin 4) : Hub.OnlyChanges pictureParts h (Hub.abortFrom i k h) := by
  unfold Hub.abortFrom
  exact .ite (.refl _ h) ((h.modCoder_pictureParts k _).trans (Hub.settle_pictureParts _ k))

theorem Hub.lateDrop_pictureParts (k : Fin 4) : Hub.OnlyChanges pictureParts h (Hub.lateDrop k h) := by
  unfold Hub.lateDrop
  split
  · exact .refl _ h
  · exact .ite (((h.modCoder_pictureParts k _).trans (Hub.dropPicture_pictureParts _ k _ _)).trans
      (Hub.settle_pictureParts _ k)) (.refl _ h)

theorem Hub.beginPicture_pictureParts (k : Fin 4) : Hub.OnlyChanges pictureParts h (Hub.beginPicture k h) := by
  unfold Hub.beginPicture
  refine .ite (.ite ?_ ?_) (.refl _ h)
  · exact ((h.forgetRates_only k).mono (by decide)).trans (Hub.modCoder_pictureParts _ k _)
  · exact (h.modCoder_pictureParts k _).trans (Hub.settle_pictureParts _ k)

end

/-! ### What of the tally stays in a tick until the lamps are formed -/

/-- The sent marks and the sources of the outputs. -/
def Hub.watched (h : Hub) : Vector Bool 4 × (Fin 16 → TallySource) :=
  (h.tally.sent, fun o => (h.tally.entries[o]).source)

theorem Hub.OnlyChanges.watched {parts : List Part} {g h : Hub} (ho : Hub.OnlyChanges parts g h)
    (hn : Part.tally ∉ parts) : h.watched = g.watched := by
  have ht : g.tally = h.tally := ho .tally hn
  rw [Hub.watched, Hub.watched, ht]

theorem Hub.forEach_watched {n : Nat} {f : Fin n → Hub → Hub} (hf : ∀ i (h : Hub), (f i h).watched = h.watched) (h : Hub) :
    (h.forEach n f).watched = h.watched := by
  unfold Hub.forEach
  induction List.finRange n generalizing h with
  | nil => rfl
  | cons i is ih => rw [List.foldl_cons, ih, hf]

section
variable (h : Hub)

theorem Hub.loseInput_watched (i : Fin 4) : (h.loseInput i).watched = h.watched := by
  unfold Hub.loseInput
  dsimp only
  rw [Hub.forEach_watched fun k g => (g.abortFrom_pictureParts i k).watched (by decide),
    (Hub.inputChanged_only _ i _).watched (by decide)]
  rfl

theorem Hub.tickInput_watched (i : Fin 4) : (Hub.tickInput i h).watched = h.watched := by
  have hm : ∀ (g : Hub) (f : VideoInput → VideoInput), (g.modInput i f).watched = g.watched := fun g f => rfl
  unfold Hub.tickInput
  dsimp only
  split
  · split
    · rw [hm]
    · rw [Hub.loseInput_watched, hm]
  · split
    · rw [(Hub.inputChanged_only _ i _).watched (by decide), hm, hm]
    · rfl

theorem Hub.tickCoder_watched : h.tickCoder.watched = h.watched := by
  rw [Hub.tickCoder, Hub.forEach_watched fun k g => (g.beginPicture_pictureParts k).watched (by decide),
    Hub.forEach_watched fun i g => g.tickInput_watched i,
    Hub.forEach_watched fun k g => (g.lateDrop_pictureParts k).watched (by decide)]

theorem Hub.absentTally_watched (p : Fin 4) : (Hub.absentTally p h).watched = h.watched := by
  refine Prod.ext rfl (funext fun o => ?_)
  simp only [Hub.watched, Hub.absentTally, Fin.getElem_fin, Vector.getElem_ofFn]
  split <;> rfl

theorem Hub.tickPort_watched (p : Fin 4) : (Hub.tickPort p h).watched = h.watched := by
  unfold Hub.tickPort
  split
  · rfl
  · dsimp only
    split
    · unfold Hub.goAbsent
      dsimp only
      rw [(Hub.notify_only _ _ _).watched (by decide), Hub.absentTally_watched, (Hub.absentClips_only _ p).watched
        (by decide),
        Hub.forEach_watched fun q g => (g.absentPath_only p q).watched (by decide),
        Hub.forEach_watched fun k g => (g.absentStream_only p k).watched (by decide)]
      rfl
    · split <;> rfl

/-- The work of a tick before the lamps keeps what they are formed from. -/
theorem Hub.ticked_watched (m : Nat) : (h.afterPorts m).openPaths.tickTests.watched = h.watched := by
  rw [(Hub.tickTests_only _).watched (by decide), (Hub.openPaths_only _).watched (by decide), Hub.afterPorts, Hub.tickPorts,
    Hub.forEach_watched fun p g => g.tickPort_watched p, Hub.tickBlocks_eq, (Hub.tickGauges_only _).watched (by decide),
    Hub.atGauges, (Hub.tickPaths_only _).watched (by decide), Hub.atPaths, Hub.tickCoder_watched, Hub.atCoder,
    (Hub.tickMixer_only _ _).watched (by decide), Hub.atMixer, (Hub.timebaseNotices_only _ _).watched (by decide),
    (Hub.tickFrame_only _ _).watched (by decide)]

end

/-! ### The lamps (R160 to R162) -/

section
variable (h : Hub)

theorem Hub.inputLamp_eq (n : Fin 4) :
    h.inputLamp n =
      if ∃ k : Fin 4, (h.coders[k]).source = n ∧ (h.stream (pictureStream k)).state = .opened ∧
        h.tally.sent[k] = true then .red
      else if ∃ y ∈ h.log.clips, (y.state = .opened ∨ y.state = .closing) ∧
        ∃ k : Fin 4, (h.coders[k]).source = n ∧ y.mask.getLsbD k.val = true then .green
      else .off := by
  have hbit : ∀ (y : Clip) (k : Fin 4), y.covers (pictureStream k) = y.mask.getLsbD k.val := fun _ _ => rfl
  refine if_congr ?_ rfl (if_congr ?_ rfl rfl)
  · simp only [List.any_eq_true, List.mem_finRange, true_and, Bool.and_eq_true, beq_iff_eq, Hub.isOpen_iff, and_assoc]
  · simp only [List.any_eq_true, List.mem_finRange, true_and, Bool.and_eq_true, beq_iff_eq, Clip.active_iff, hbit]

theorem Hub.triggerLamp_eq (n : Fin 4) :
    h.triggerLamp n =
      if ∃ y ∈ h.log.clips, (y.state = .opened ∨ y.state = .closing) ∧ y.owner = .trigger n then .red
      else if (h.log.triggers[n]).state = .armed then .green
      else .off := by
  refine if_congr ?_ rfl rfl
  simp only [List.any_eq_true, Bool.and_eq_true, beq_iff_eq, Clip.active_iff]

theorem flashLamp_eq (phase : Nat) (lamp : Lamp) :
    flashLamp phase lamp = if 2 ≤ phase then .off else if lamp = .off then .amber else lamp := by
  unfold flashLamp
  by_cases hp : phase < 2 <;> simp [hp, Nat.not_le.mpr]

theorem Hub.tickTally_sent (k : Fin 4) : h.tickTally.tally.sent[k] = false := by
  simp [Hub.tickTally]

theorem Hub.tickTally_entry (o : Fin 16) :
    h.tickTally.tally.entries[o] = { h.tally.entries[o] with lamp := h.lampOf (h.tally.entries[o]).source } := by
  simp [Hub.tickTally, Hub.formLamps]

end

/-- What R160 to R162 make of a source in the state `t`, with the sent marks of the frame that ended. -/
def Hub.lampShown (t : Hub) (sent : Vector Bool 4) : TallySource → Lamp
  | .none => .off
  | .path n => (t.paths.path[n]).state.lamp
  | .trigger n =>
    if ∃ y ∈ t.log.clips, (y.state = .opened ∨ y.state = .closing) ∧ y.owner = .trigger n then .red
    else if (t.log.triggers[n]).state = .armed then .green
    else .off
  | .input n =>
    let lamp : Lamp :=
      if ∃ k : Fin 4, (t.coders[k]).source = n ∧ (t.stream (pictureStream k)).state = .opened ∧ sent[k] = true then .red
      else if ∃ y ∈ t.log.clips, (y.state = .opened ∨ y.state = .closing) ∧
        ∃ k : Fin 4, (t.coders[k]).source = n ∧ y.mask.getLsbD k.val = true then .green
      else .off
    if (t.inputs[n]).present then lamp
    else if 2 ≤ t.tally.flash[n] then .off
    else if lamp = .off then .amber
    else lamp

theorem Hub.lampOf_eq (h : Hub) (x : TallySource) : h.lampOf x = h.lampShown h.tally.sent x := by
  cases x with
  | none => rfl
  | path n => rfl
  | trigger n => exact h.triggerLamp_eq n
  | input n =>
    unfold Hub.lampOf Hub.lampShown
    dsimp only
    rw [h.inputLamp_eq, flashLamp_eq]

theorem Hub.tickTally_flash (h : Hub) : h.tickTally.tally.flash = h.tally.flash := by simp only [Hub.tickTally, Hub.formLamps]

/-- A lamp shows what the state after the tick says, with the sent marks that the tick found. -/
theorem Hub.tickTally_lamp (h : Hub) (o : Fin 16) :
    (h.tickTally.tally.entries[o]).lamp = h.tickTally.lampShown h.tally.sent (h.tickTally.tally.entries[o]).source := by
  have hp : h.paths.path = h.tickTally.paths.path := h.tickTally_only .pathRecords (by decide)
  have hc : h.coders = h.tickTally.coders := h.tickTally_only .coders (by decide)
  have hi : h.inputs = h.tickTally.inputs := h.tickTally_only .inputs (by decide)
  have hl : h.log = h.tickTally.log := h.tickTally_only .log (by decide)
  have hs : h.store.streams = h.tickTally.store.streams := h.tickTally_only .streams (by decide)
  rw [h.tickTally_entry o, h.lampOf_eq]
  dsimp only
  unfold Hub.lampShown Hub.stream
  rw [h.tickTally_flash, ← hp, ← hc, ← hi, ← hl, ← hs]

/-! ### The settings (R163, R164) -/

section
variable (h : Hub)

theorem tallySourceOf_bad {a b : Byte} (hb : 3 < a.toNat ∨ ((a = 0 ∨ a = 2) ∧ 3 < b.toNat) ∨ (a = 1 ∧ 7 < b.toNat)) :
    tallySourceOf a b = none := by
  rcases hb with ha | ⟨ha, hb⟩ | ⟨rfl, hb⟩
  · unfold tallySourceOf
    split <;> first | omega | rfl
  · have hnone : below 4 b = none := below_eq_none (n := 4) hb
    rcases ha with rfl | rfl <;> simp [tallySourceOf, hnone]
  · have hnone : below 8 b = none := below_eq_none (n := 8) hb
    simp [tallySourceOf, hnone]

theorem tallySourceOf_good {source : TallySource} {a b : Byte}
    (hs : (source = .none ∧ a = 3) ∨ (∃ n, source = .input n ∧ a = 0 ∧ b = byte n.val) ∨
      (∃ n, source = .path n ∧ a = 1 ∧ b = byte n.val) ∨ (∃ n, source = .trigger n ∧ a = 2 ∧ b = byte n.val)) :
    tallySourceOf a b = some source := by
  rcases hs with ⟨rfl, rfl⟩ | ⟨n, rfl, rfl, rfl⟩ | ⟨n, rfl, rfl, rfl⟩ | ⟨n, rfl, rfl, rfl⟩
  · rfl
  · simp [tallySourceOf, below_byte n (by omega)]
  · simp [tallySourceOf, below_byte n (by omega)]
  · simp [tallySourceOf, below_byte n (by omega)]

theorem overrideOf_bad {v : Byte} (hv : 3 < v.toNat) : overrideOf v = none := List.getElem?_eq_none hv

theorem overrideOf_good {v : Byte} (hv : v.toNat ≤ 3) :
    overrideOf v =
      some (if v = 0 then .none else if v = 1 then .forceOff else if v = 2 then .forceRed else .forceGreen) := by
  have hcases : v = 0 ∨ v = 1 ∨ v = 2 ∨ v = 3 := by bv_omega
  rcases hcases with rfl | rfl | rfl | rfl <;> rfl

theorem Hub.setTally_bad {n a b : Byte}
    (hb : 15 < n.toNat ∨ 3 < a.toNat ∨ ((a = 0 ∨ a = 2) ∧ 3 < b.toNat) ∨ (a = 1 ∧ 7 < b.toNat)) :
    h.setTally n a b = h.refuse .badArg := by
  rcases hb with hn | hb
  · simp only [Hub.setTally, below_eq_none (n := 16) hn]
  · cases hn : below 16 n <;> simp only [Hub.setTally, hn, tallySourceOf_bad hb]

theorem Hub.setOverride_bad (p : Fin 4) {n v : Byte} (hb : 15 < n.toNat ∨ 3 < v.toNat) :
    h.setOverride p n v = h.refuse .badArg := by
  rcases hb with hn | hv
  · simp only [Hub.setOverride, below_eq_none (n := 16) hn]
  · cases hn : below 16 n <;> simp only [Hub.setOverride, hn, overrideOf_bad hv]

/-- An override is written with its holder; NONE has none. -/
theorem TallyEntry.force_eq (x : TallyEntry) (p : Fin 4) {v : Byte} (hv : v.toNat ≤ 3) :
    x.force p (if v = 0 then .none else if v = 1 then .forceOff else if v = 2 then .forceRed else .forceGreen) =
      { x with
        override := if v = 0 then .none else if v = 1 then .forceOff else if v = 2 then .forceRed else .forceGreen
        holder := if v = 0 then none else some p } := by
  have hcases : v = 0 ∨ v = 1 ∨ v = 2 ∨ v = 3 := by bv_omega
  rcases hcases with rfl | rfl | rfl | rfl <;> rfl

end

/-- A tick forms every lamp of an output whose source stays, and clears the sent marks. -/
theorem Hub.tick_lamps (h : Hub) (m : Nat) (o : Fin 16) :
    (∀ k : Fin 4, (h.tick m).tally.sent[k] = false) ∧
      ((h.tick m).tally.entries[o]).source = (h.tally.entries[o]).source ∧
      ((h.tick m).tally.entries[o]).lamp = (h.tick m).lampShown h.tally.sent ((h.tick m).tally.entries[o]).source := by
  have hw := h.ticked_watched m
  have ht := h.tick_stages m
  generalize (h.afterPorts m).openPaths.tickTests = g at hw ht
  have hsent : g.tally.sent = h.tally.sent := congrArg Prod.fst hw
  have hsource : (g.tally.entries[o]).source = (h.tally.entries[o]).source := congrFun (congrArg Prod.snd hw) o
  rw [ht]
  refine ⟨g.tickTally_sent, ?_, hsent ▸ g.tickTally_lamp o⟩
  rw [g.tickTally_entry o]
  exact hsource

/-- Settles O49. -/
theorem tallySettings : Obligations.TallySettings := by
  refine ⟨fun x => rfl, fun s o hs => ?_, fun e s hs hr => ?_, ?_⟩
  · simp only [State.drives, hs]
    cases (s.hub.tally.entries[o]).shown <;> rfl
  · refine exists_became (State.run_free hs (Hub.dividerExpiry e)) ?_
    dsimp only
    rw [Hub.dividerExpiry_unlocked hr]
    generalize hh : ({ s.hub.arrive e with now := max (s.hub.now + e.dt) s.hub.tb.expiry } : Hub) = h
    have htally : s.hub.tally = h.tally := by rw [← hh]; rfl
    rw [htally]
    refine ⟨(h.tick_lamps _ 0).1, fun o => ?_⟩
    obtain ⟨-, hsource, hlamp⟩ := h.tick_lamps s.hub.tb.expiry o
    refine ⟨hsource, hlamp.trans ?_⟩
    generalize h.tick s.hub.tb.expiry = t
    unfold Hub.lampShown PathState.lamp
    cases (t.tally.entries[o]).source <;> rfl
  · intro c s hs g
    refine ⟨fun n a b hb => hs.run_none (g.setTally_bad hb) nofun, fun o source a b hsrc => ?_,
      fun n v hb => hs.run_none (g.setOverride_bad c.port hb) nofun, fun o v hv => ?_⟩
    · refine hs.run_none (h := g.modTally o fun x => { x with source := source }) ?_ nofun
      simp only [Hub.setTally, below_byte o (by omega), tallySourceOf_good hsrc]
      rfl
    · refine hs.run_none (h := g.modTally o fun x => _) ?_ nofun
      simp only [Hub.setOverride, below_byte o (by omega), overrideOf_good hv, TallyEntry.force_eq _ _ hv]
      rfl

end Sys2Proof.Machine
end

section
/-! Proofs: the settings of the Clip Log (R147, R149, R154). -/

namespace Sys2Proof.Machine

-- In order, so that the package in one text stays within the memory of its check.
set_option Elab.async false

/-! ### Codes of kinds and sources -/

theorem LabelKind.code_lt (k : LabelKind) : k.code < 12 := by cases k <;> decide

theorem LabelSource.code_lt (x : LabelSource) : x.code < 9 := by
  cases x <;> simp only [LabelSource.code] <;> omega

@[simp] theorem LabelKind.ofCode_code (k : LabelKind) : LabelKind.ofCode k.code = some k := by cases k <;> rfl

@[simp] theorem LabelSource.ofCode_code (x : LabelSource) : LabelSource.ofCode x.code = some x := by
  cases x with
  | port p => fin_cases p <;> rfl
  | _ => rfl

theorem LabelKind.ofCode_eq {n : Nat} {k : LabelKind} (hk : LabelKind.ofCode n = some k) : n = k.code := by
  have hn : n < 12 := (List.getElem?_eq_some_iff.mp hk).1
  interval_cases n <;> cases hk <;> rfl

theorem LabelSource.ofCode_eq {n : Nat} {x : LabelSource} (hx : LabelSource.ofCode n = some x) : n = x.code := by
  have hn : n < 9 := (List.getElem?_eq_some_iff.mp hx).1
  interval_cases n <;> cases hx <;> rfl

theorem LabelKind.ofCode_none {n : Nat} (hn : 11 < n) : LabelKind.ofCode n = none := List.getElem?_eq_none hn

theorem LabelSource.ofCode_none {n : Nat} (hn : 8 < n) : LabelSource.ofCode n = none := List.getElem?_eq_none hn

theorem byte_toNat {n : Nat} (hn : n < 256) : (byte n).toNat = n := by
  simp [byte]
  omega

/-! ### SET SELECTION (R147) -/

theorem kindsOf_bad {a : Byte} (ha : 11 < a.toNat ∧ a ≠ 255) : kindsOf a = none := by
  rw [kindsOf, LabelKind.ofCode_none ha.1]
  exact if_neg ha.2

theorem sourcesOf_bad {b : Byte} (hb : 8 < b.toNat ∧ b ≠ 255) : sourcesOf b = none := by
  rw [sourcesOf, LabelSource.ofCode_none hb.1]
  exact if_neg hb.2

/-- The kinds that a byte selects: the one it codes, or all of them. -/
theorem kindsOf_good {a : Byte} (ha : a.toNat ≤ 11 ∨ a = 255) :
    ∃ ks, kindsOf a = some ks ∧ ∀ k : LabelKind, ks k = true ↔ (a = 255 ∨ a.toNat = k.code) := by
  by_cases h255 : a = 255
  · exact ⟨fun _ => true, if_pos h255, fun k => ⟨fun _ => .inl h255, fun _ => rfl⟩⟩
  · have hlt : a.toNat < 12 := by
      have := ha.resolve_right h255
      omega
    obtain ⟨x, hx⟩ : ∃ x, LabelKind.ofCode a.toNat = some x := ⟨_, List.getElem?_eq_getElem hlt⟩
    refine ⟨fun k' => x = k', by rw [kindsOf, if_neg h255, hx]; rfl, fun k => ?_⟩
    rw [LabelKind.ofCode_eq hx, decide_eq_true_iff]
    refine ⟨fun he => .inr (he ▸ rfl), fun he => ?_⟩
    have hc := he.resolve_left h255
    rw [← Option.some_inj, ← x.ofCode_code, hc, k.ofCode_code]

theorem sourcesOf_good {b : Byte} (hb : b.toNat ≤ 8 ∨ b = 255) :
    ∃ ss, sourcesOf b = some ss ∧ ∀ x : LabelSource, ss x = true ↔ (b = 255 ∨ b.toNat = x.code) := by
  by_cases h255 : b = 255
  · exact ⟨fun _ => true, if_pos h255, fun k => ⟨fun _ => .inl h255, fun _ => rfl⟩⟩
  · have hlt : b.toNat < 9 := by
      have := hb.resolve_right h255
      omega
    obtain ⟨x, hx⟩ : ∃ x, LabelSource.ofCode b.toNat = some x := ⟨_, List.getElem?_eq_getElem hlt⟩
    refine ⟨fun k' => x = k', by rw [sourcesOf, if_neg h255, hx]; rfl, fun k => ?_⟩
    rw [LabelSource.ofCode_eq hx, decide_eq_true_iff]
    refine ⟨fun he => .inr (he ▸ rfl), fun he => ?_⟩
    have hc := he.resolve_left h255
    rw [← Option.some_inj, ← x.ofCode_code, hc, k.ofCode_code]

/-- The row and the column of the table at which a kind and a source stand. -/
theorem rowKind_at (k : LabelKind) (x : LabelSource) : rowKind (9 * k.code + x.code) = k := by
  have hx := x.code_lt
  rw [rowKind, show (9 * k.code + x.code) / 9 = k.code by omega, k.ofCode_code]
  rfl

theorem columnSource_at (k : LabelKind) (x : LabelSource) : columnSource (9 * k.code + x.code) = x := by
  have hx := x.code_lt
  rw [columnSource, show (9 * k.code + x.code) % 9 = x.code by omega, x.ofCode_code]
  rfl

theorem ClipLog.keeps_eq (l : ClipLog) (k : LabelKind) (x : LabelSource) {n : Fin 108} (hn : n.val = 9 * k.code + x.code) :
    l.keeps k x = l.selection[n] := by
  rw [ClipLog.keeps, ← hn, List.getD_eq_getElem?_getD, List.getElem?_eq_getElem (by simp)]
  simp

/-- The log with the entries of a selection set. -/
def ClipLog.select (l : ClipLog) (ks : LabelKind → Bool) (ss : LabelSource → Bool) (ignore : Bool) : ClipLog :=
  { l with
    selection := Vector.ofFn fun n =>
      if ks (rowKind n.val) && ss (columnSource n.val) then !ignore else l.selection[n] }

theorem ClipLog.select_keeps (l : ClipLog) (ks : LabelKind → Bool) (ss : LabelSource → Bool) (ignore : Bool)
    (k : LabelKind) (x : LabelSource) :
    (l.select ks ss ignore).keeps k x = if ks k = true ∧ ss x = true then !ignore else l.keeps k x := by
  have hk := k.code_lt
  have hx := x.code_lt
  have hn : 9 * k.code + x.code < 108 := by omega
  rw [ClipLog.keeps_eq (l.select ks ss ignore) k x (n := ⟨_, hn⟩) rfl, l.keeps_eq k x (n := ⟨_, hn⟩) rfl]
  simp only [ClipLog.select, Fin.getElem_fin, Vector.getElem_ofFn, rowKind_at, columnSource_at, Bool.and_eq_true]

section
variable (h : Hub)

theorem Hub.setSelection_bad {a b d : Byte} (hb : (11 < a.toNat ∧ a ≠ 255) ∨ (8 < b.toNat ∧ b ≠ 255) ∨ 1 < d.toNat) :
    h.setSelection a b d = h.refuse .badArg := by
  unfold Hub.setSelection
  split
  · rename_i ha hs hd
    rcases hb with hb | hb | hb
    · rw [kindsOf_bad hb] at ha
      cases ha
    · rw [sourcesOf_bad hb] at hs
      cases hs
    · rw [twoWay_eq_none hb] at hd
      cases hd
  · rfl

theorem Hub.setSelection_good {a b : Byte} {ks : LabelKind → Bool} {ss : LabelSource → Bool} (hk : kindsOf a = some ks)
    (hs : sourcesOf b = some ss) (ignore : Bool) :
    h.setSelection a b (byte ignore.toNat) = (h.modLog fun l => l.select ks ss ignore).ok := by
  simp only [Hub.setSelection, hk, hs, twoWay_byte]
  rfl

/-! ### SET TRIGGER, ARM TRIGGER and DISARM TRIGGER (R149) -/

theorem matchKindOf_bad {a : Byte} (ha : 10 < a.toNat) : matchKindOf a = none := by
  unfold matchKindOf
  by_cases h11 : a.toNat = 11
  · rw [h11]
    rfl
  · rw [LabelKind.ofCode_none (by omega)]

theorem matchKindOf_good {k : LabelKind} (hk : k ≠ .trigger) : matchKindOf (byte k.code) = some k := by
  unfold matchKindOf
  rw [byte_toNat (by have := k.code_lt; omega), k.ofCode_code]
  cases k <;> first | rfl | exact absurd rfl hk

theorem matchSourceOf_bad {b : Byte} (hb : 8 < b.toNat ∧ b ≠ 255) : matchSourceOf b = none := by
  rw [matchSourceOf, LabelSource.ofCode_none hb.1]
  exact if_neg hb.2

theorem matchSourceOf_code (x : LabelSource) : matchSourceOf (byte x.code) = some (some x) := by
  have hx := x.code_lt
  have hb : (byte x.code).toNat = x.code := byte_toNat (by omega)
  rw [matchSourceOf, hb, x.ofCode_code]
  refine if_neg fun h255 => ?_
  rw [h255] at hb
  revert hb
  rw [show (255 : Byte).toNat = 255 from rfl]
  omega

theorem Hub.setTrigger_bad (p : Fin 4) {n a b d : Byte} {pattern mask : Word} {action : ActionArg}
    (hb : 3 < n.toNat ∨ 10 < a.toNat ∨ (8 < b.toNat ∧ b ≠ 255) ∨ 1 < d.toNat ∨ actionOf action = none) :
    h.setTrigger p n a b pattern mask action d = h.refuse .badArg := by
  unfold Hub.setTrigger
  split
  · rename_i hn ha hs hact hd
    rcases hb with hb | hb | hb | hb | hb
    · rw [below_eq_none (n := 4) hb] at hn
      cases hn
    · rw [matchKindOf_bad hb] at ha
      cases ha
    · rw [matchSourceOf_bad hb] at hs
      cases hs
    · rw [twoWay_eq_none hb] at hd
      cases hd
    · rw [hb] at hact
      cases hact
  · rfl

theorem actionOf_bad {action : ActionArg}
    (hb : action = .unknown ∨ action = .start 0 ∨ ∃ q : Byte, action = .stop q ∧ 3 < q.toNat) : actionOf action = none := by
  rcases hb with rfl | rfl | ⟨q, rfl, hq⟩
  · rfl
  · rfl
  · rw [actionOf, below_eq_none (n := 4) hq]
    rfl

theorem Hub.setTrigger_good (p : Fin 4) (k : Fin 4) {kind : LabelKind} {b : Byte} {source : Option LabelSource}
    (pattern mask : Word) {wire : ActionArg} {action : Action} (auto : Bool) (hk : kind ≠ .trigger)
    (hs : matchSourceOf b = some source) (ha : actionOf wire = some action) :
    h.setTrigger p (byte k.val) (byte kind.code) b pattern mask wire (byte auto.toNat) =
      if h.deniedAction p action = true then h.refuse .denied
      else if (h.log.triggers[k]).state = .armed then h.refuse .conflict
      else (h.modTrigger k fun x =>
        { x with kind := some kind, source := source, pattern := pattern, mask := mask, action := action, auto := auto,
                 state := .disarmed }).ok := by
  simp only [Hub.setTrigger, below_byte k (by omega), matchKindOf_good hk, hs, ha, twoWay_byte]

theorem Hub.deniedAction_iff (p : Fin 4) (action : Action) :
    h.deniedAction p action = true ↔
      ∃ m, action = .start m ∧ ∃ j : Fin 16, m.getLsbD j.val = true ∧ h.hasStream p j.val = false := by
  cases action with
  | start m =>
    rw [Hub.deniedAction, Bool.not_eq_true', ← Bool.not_eq_true, h.not_hasStreams_iff]
    simp
  | stop q => simp [Hub.deniedAction]

theorem Hub.armTrigger_bad {n : Byte} (hn : 3 < n.toNat) : h.armTrigger n = h.refuse .badArg := by
  simp only [Hub.armTrigger, below_eq_none (n := 4) hn]

theorem Hub.disarmTrigger_bad {n : Byte} (hn : 3 < n.toNat) : h.disarmTrigger n = h.refuse .badArg := by
  simp only [Hub.disarmTrigger, below_eq_none (n := 4) hn]

theorem Hub.armTrigger_at (k : Fin 4) :
    h.armTrigger (byte k.val) =
      if (h.log.triggers[k]).kind = none ∨ h.log.supply = true then h.refuse .conflict
      else (h.modTrigger k fun x => { x with state := .armed }).ok := by
  simp only [Hub.armTrigger, below_byte k (by omega)]

theorem Hub.disarmTrigger_at (k : Fin 4) :
    h.disarmTrigger (byte k.val) = (h.modTrigger k fun x => { x with state := .disarmed }).ok := by
  simp only [Hub.disarmTrigger, below_byte k (by omega)]

end

/-- Settles O48. -/
theorem logSettings : Obligations.LogSettings := by
  intro c s hs g l masks
  refine ⟨fun a b d hb => hs.run_none (g.setSelection_bad hb) nofun, fun a b ignore ha hb => ?_,
    fun n a b pattern mask action d hb => hs.run_none (g.setTrigger_bad c.port ?_) nofun, ?_,
    fun n hn => ⟨hs.run_none (g.armTrigger_bad hn) nofun, hs.run_none (g.disarmTrigger_bad hn) nofun⟩,
    fun k => ⟨fun hc => hs.run_none ((g.armTrigger_at k).trans (if_pos hc)) nofun, fun hk hl => ?_,
      hs.run_none (g.disarmTrigger_at k) nofun⟩, ?_⟩
  · obtain ⟨ks, hks, hkinds⟩ := kindsOf_good ha
    obtain ⟨ss, hss, hsources⟩ := sourcesOf_good hb
    refine exists_became (hs.run_none (g.setSelection_good hks hss ignore) nofun) ?_
    refine ⟨fun k x => ?_, rfl, Hub.answer_sending _ c _ _ _,
      Hub.OnlyChanges.answered _ _ _ _ ((Hub.modLog_only _ _).mono (by decide)) (by decide)⟩
    refine (ClipLog.select_keeps l ks ss ignore k x).trans (if_congr (and_congr ?_ ?_) rfl rfl)
    · exact hkinds k
    · exact hsources x
  · rcases hb with hb | hb | hb | hb | hb
    · exact .inl hb
    · exact .inr (.inl hb)
    · exact .inr (.inr (.inl hb))
    · exact .inr (.inr (.inr (.inl hb)))
    · exact .inr (.inr (.inr (.inr (actionOf_bad hb))))
  · intro k kind source pattern mask action auto hk ha wire from' outside cmd
    have hsource : matchSourceOf from' = some source := by
      cases source with
      | none => rfl
      | some x => exact matchSourceOf_code x
    have hwire : actionOf wire = some action := by
      cases action with
      | start m => exact if_neg fun hm => ha (by rw [hm])
      | stop q => exact congrArg (Option.map Action.stop) (below_byte q (by omega))
    have hset := g.setTrigger_good c.port k pattern mask auto hk hsource hwire
    have hdenied : outside ↔ g.deniedAction c.port action = true := (g.deniedAction_iff c.port action).symm
    refine ⟨fun ho => ?_, fun ho harmed => ?_, fun ho harmed => ?_⟩
    · exact hs.run_denied (fun _ h => by cases h) (hset.trans (if_pos (hdenied.mp ho)))
    · exact hs.run_none (hset.trans ((if_neg (mt hdenied.mpr ho)).trans (if_pos harmed))) nofun
    · exact hs.run_none (hset.trans ((if_neg (mt hdenied.mpr ho)).trans (if_neg harmed))) nofun
  · refine hs.run_none ((g.armTrigger_at k).trans (if_neg ?_)) nofun
    rintro (hn | hn)
    · exact hk hn
    · rw [show g.log.supply = false from hl] at hn
      cases hn
  · refine exists_became (hs.run_none (h := g.modLog ClipLog.empty) rfl nofun) ⟨rfl, rfl, fun k => ?_, rfl,
      Hub.answer_sending _ c _ _ _, Hub.OnlyChanges.answered _ _ _ _ ((Hub.modLog_only _ _).mono (by decide)) (by decide)⟩
    exact Vector.getElem_ofFn _

end Sys2Proof.Machine
end

section
/-! Proofs: the Notice Unit (R184 to R192): a notice given, the commands on a port's notice state, and the pulses. -/

namespace Sys2Proof.Machine

-- In order, so that the package in one text stays within the memory of its check.
set_option Elab.async false

/-! ### A notice given (R184, R185) -/

/-- R188 to R190: the line in the level modes, the pulses owed in PULSE. -/
theorem NoticePort.raise_eq (n : NoticePort) :
    n.raise = { n with
      line := if n.mode = .pulse then n.line else true
      owed := if n.mode = .pulse then min 255 (n.owed + 1) else n.owed } := by
  obtain ⟨_, _, _, _, mode⟩ := n
  cases mode <;> rfl

theorem Hub.audience_iff (h : Hub) (x : Notice) (p : Fin 4) :
    h.audience x p = true ↔
      ((x.kind = .clipClosed ∨ x.kind = .clipLapsed ∨ x.kind = .triggerFired) → h.hasClass p .log = true) ∧
        (x.kind = .portAbsent ∨ x.kind = .portPresent → x.param.toNat ≠ p.val) := by
  cases hk : x.kind <;> simp [Hub.audience, hk]

section
variable (n : NoticePort) (x : Notice)

theorem NoticePort.offer_masked (hp : ¬ (x.kind = .supplyWarn ∨ n.mask.getLsbD x.kind.code = true)) :
    n.offer x = { n with summary := setBit n.summary x.kind.code } := by
  obtain ⟨hk, hm⟩ := not_or.mp hp
  unfold NoticePort.offer
  exact if_pos ⟨hk, Bool.not_eq_true _ ▸ hm⟩

theorem NoticePort.offer_passed (hp : x.kind = .supplyWarn ∨ n.mask.getLsbD x.kind.code = true) :
    n.offer x =
      if n.queue.length < 32 then ({ n with summary := setBit n.summary x.kind.code } : NoticePort).join x
      else ({ n with summary := setBit n.summary x.kind.code } : NoticePort).overflow x := by
  unfold NoticePort.offer
  refine if_neg fun ⟨hk, hm⟩ => ?_
  rw [hp.resolve_left hk] at hm
  cases hm

end

/-- Settles O53: the audience, then the three steps of R184. -/
theorem noticesAreOffered : Obligations.NoticesAreOffered := by
  intro h x p n m log presence audience passes flag raised
  have hm : m = if h.audience x p = true then n.offer x else n := h.give_notices x p
  have ha : h.audience x p = true ↔ audience := h.audience_iff x p
  have hin : audience → m = n.offer x := fun hp => hm.trans (if_pos (ha.mpr hp))
  have hraise : ∀ y : NoticePort, y.mode = n.mode → y.line = n.line → y.owed = n.owed → y.raise = raised y := by
    intro y hmode hline howed
    have hr : raised y = { y with
      line := if n.mode = .pulse then n.line else true
      owed := if n.mode = .pulse then min 255 (n.owed + 1) else n.owed } := rfl
    rw [hr, y.raise_eq, hmode, hline, howed]
  refine ⟨fun hout => hm.trans (if_neg (mt ha.mp hout)), fun hp hmask => ?_, fun hp hpass hroom => ?_,
    fun hp hpass hfull => ?_⟩
  · exact (hin hp).trans (n.offer_masked x hmask)
  · rw [hin hp, n.offer_passed x hpass, if_pos hroom]
    exact hraise _ rfl rfl rfl
  · rw [hin hp, n.offer_passed x hpass, if_neg (Nat.not_lt.mpr hfull)]
    exact ⟨fun hk => (if_pos hk).trans (hraise _ rfl rfl rfl), fun hk => if_neg hk⟩

/-! ### TAKE NOTICES (R192) -/

/-- What is taken are the first n entries that the test passes; the others stay in their order. -/
theorem takeFirst_spec (pass : Notice → Bool) (xs : List Notice) : ∀ n : Nat,
    (takeFirst pass n xs).1 = (xs.filter pass).take n ∧
      List.Perm ((takeFirst pass n xs).1 ++ (takeFirst pass n xs).2) xs ∧ List.Sublist (takeFirst pass n xs).2 xs ∧
      (takeFirst pass n xs).2.filter pass = (xs.filter pass).drop n := by
  induction xs with
  | nil => exact fun n => by simp [takeFirst]
  | cons x xs ih =>
    intro n
    by_cases hx : n ≠ 0 ∧ pass x = true
    · obtain ⟨hn, hp⟩ := hx
      obtain ⟨htaken, hperm, hsub, hrest⟩ := ih (n - 1)
      obtain ⟨m, rfl⟩ := Nat.exists_eq_succ_of_ne_zero hn
      rw [takeFirst, if_pos ⟨hn, hp⟩]
      refine ⟨?_, hperm.cons x, hsub.cons x, ?_⟩
      · simpa [hp] using htaken
      · simpa [hp] using hrest
    · obtain ⟨htaken, hperm, hsub, hrest⟩ := ih n
      rw [takeFirst, if_neg hx]
      refine ⟨?_, (List.perm_middle).trans (hperm.cons x), hsub.cons_cons x, ?_⟩
      · by_cases hp : pass x = true
        · have hn : n = 0 := by
            by_contra hn
            exact hx ⟨hn, hp⟩
          simpa [hn] using htaken
        · simpa [hp] using htaken
      · by_cases hp : pass x = true
        · have hn : n = 0 := by
            by_contra hn
            exact hx ⟨hn, hp⟩
          simpa [hn, hp] using hrest
        · simpa [hp] using hrest

theorem selectorOf_bad {a : Byte} (ha : 2 < a.toNat) : selectorOf a = none := by
  have h0 : a ≠ 0 := by rintro rfl; exact absurd ha (by decide)
  have h1 : a ≠ 1 := by rintro rfl; exact absurd ha (by decide)
  have h2 : a ≠ 2 := by rintro rfl; exact absurd ha (by decide)
  rw [selectorOf, if_neg h0, if_neg h1, if_neg h2]

theorem selectorOf_good {a : Byte} (ha : a.toNat ≤ 2) :
    selectorOf a = some fun x => decide (a = 0 ∨ (a = 1 ∧ x.kind.isPart = false) ∨ (a = 2 ∧ x.kind.isPart = true)) := by
  have hcases : a = 0 ∨ a = 1 ∨ a = 2 := by bv_omega
  rcases hcases with rfl | rfl | rfl
  · rfl
  · refine congrArg some (funext fun x => ?_)
    cases x.kind.isPart <;> rfl
  · refine congrArg some (funext fun x => ?_)
    cases x.kind.isPart <;> rfl

theorem AttentionMode.ofByte_bad {a : Byte} (ha : 2 < a.toNat) : AttentionMode.ofByte a = none := List.getElem?_eq_none ha

theorem AttentionMode.ofByte_good {a : Byte} (ha : a.toNat ≤ 2) :
    AttentionMode.ofByte a = some (if a = 0 then .pulse else if a = 1 then .untilAck else .untilEmpty) := by
  have hcases : a = 0 ∨ a = 1 ∨ a = 2 := by bv_omega
  rcases hcases with rfl | rfl | rfl <;> rfl

section
variable (h : Hub)

theorem Hub.modNotice_congr {p : Fin 4} {f g : NoticePort → NoticePort} (hfg : f h.notices[p] = g h.notices[p]) :
    h.modNotice p f = h.modNotice p g := by
  unfold Hub.modNotice
  rw [hfg]

theorem Hub.modNotice_id {p : Fin 4} {f : NoticePort → NoticePort} (hf : f h.notices[p] = h.notices[p]) :
    h.modNotice p f = h := by
  unfold Hub.modNotice
  rw [hf]
  simp

theorem Hub.takeNotices_bad (p : Fin 4) {a : Byte} (ha : 2 < a.toNat) : h.takeNotices p a = h.refuse .badArg := by
  simp only [Hub.takeNotices, selectorOf_bad ha]

theorem NoticePort.leave_eq (n : NoticePort) (rest : List Notice) :
    n.leave rest = { n with queue := rest, line := if n.mode = .untilEmpty then decide (rest ≠ []) else n.line } := by
  have hne : (rest != []) = decide (rest ≠ []) := by cases rest <;> rfl
  rw [NoticePort.leave, hne]

theorem NoticePort.ack_eq (n : NoticePort) :
    n.ack = { n with line := if n.mode = .untilAck then false else n.line } := by
  by_cases hm : n.mode = .untilAck <;> simp [NoticePort.ack, hm]

theorem NoticePort.setMode_eq (n : NoticePort) {a : Byte} (ha : a.toNat ≤ 2) :
    n.setMode (if a = 0 then .pulse else if a = 1 then .untilAck else .untilEmpty) =
      { n with
        mode := if a = 0 then .pulse else if a = 1 then .untilAck else .untilEmpty
        owed := 0
        pulse := .idle
        line := decide (a ≠ 0 ∧ n.queue ≠ []) } := by
  have hne : (n.queue != []) = decide (n.queue ≠ []) := by cases n.queue <;> rfl
  have hcases : a = 0 ∨ a = 1 ∨ a = 2 := by bv_omega
  rw [NoticePort.setMode, hne]
  rcases hcases with rfl | rfl | rfl <;> simp

theorem Hub.modNotice_leave (p : Fin 4) (rest : List Notice) :
    (h.modNotice p fun n => n.leave rest) = h.modNotice p fun m =>
      { m with queue := rest, line := if (h.notices[p]).mode = .untilEmpty then decide (rest ≠ []) else
        (h.notices[p]).line } :=
  h.modNotice_congr (NoticePort.leave_eq _ rest)

theorem Hub.modNotice_setMode (p : Fin 4) {a : Byte} (ha : a.toNat ≤ 2) :
    (h.modNotice p fun n => n.setMode (if a = 0 then .pulse else if a = 1 then .untilAck else .untilEmpty)) =
      h.modNotice p fun m =>
        { m with
          mode := if a = 0 then .pulse else if a = 1 then .untilAck else .untilEmpty
          owed := 0
          pulse := .idle
          line := decide (a ≠ 0 ∧ (h.notices[p]).queue ≠ []) } :=
  h.modNotice_congr (NoticePort.setMode_eq _ ha)

theorem Hub.takeNotices_good (p : Fin 4) {a : Byte} (ha : a.toNat ≤ 2) {taken rest : List Notice}
    (hr : takeFirst (fun x => decide (a = 0 ∨ (a = 1 ∧ x.kind.isPart = false) ∨ (a = 2 ∧ x.kind.isPart = true))) 8
      (h.notices[p]).queue = (taken, rest)) :
    h.takeNotices p a =
      (h.modNotice p fun m =>
          { m with queue := rest, line := if (h.notices[p]).mode = .untilEmpty then decide (rest ≠ []) else
            (h.notices[p]).line },
        .done (listField 1 Notice.wire taken ++ le 1 rest.length ++ word4 (h.notices[p]).lost)) := by
  simp only [Hub.takeNotices, selectorOf_good ha, hr]
  rw [h.modNotice_leave]

theorem Hub.ackAttention_eq (p : Fin 4) :
    h.modNotice p NoticePort.ack =
      h.modNotice p fun m => { m with
        line := if (h.notices[p]).mode = .untilAck then false else (h.notices[p]).line } :=
  h.modNotice_congr (NoticePort.ack_eq _)

theorem Hub.setAttention_good (p : Fin 4) {a : Byte} (ha : a.toNat ≤ 2) :
    h.setAttention p a =
      (h.modNotice p fun m =>
        { m with
          mode := if a = 0 then .pulse else if a = 1 then .untilAck else .untilEmpty
          owed := 0
          pulse := .idle
          line := decide (a ≠ 0 ∧ (h.notices[p]).queue ≠ []) }).ok := by
  simp only [Hub.setAttention, AttentionMode.ofByte_good ha]
  rw [h.modNotice_setMode p ha]

theorem Hub.setAttention_bad (p : Fin 4) {a : Byte} (ha : 2 < a.toNat) : h.setAttention p a = h.refuse .badArg := by
  simp only [Hub.setAttention, AttentionMode.ofByte_bad ha]

end

/-- Settles O54. -/
theorem noticeStateFollowsCommands : Obligations.NoticeStateFollowsCommands := by
  refine ⟨?_, ?_, ?_⟩
  · intro c s hs g n
    refine ⟨fun a ha => hs.run_none (g.takeNotices_bad c.port ha) nofun, ?_, ?_⟩
    · intro a ha pass wire
      obtain ⟨htaken, hperm, hsub, hrest⟩ := takeFirst_spec (fun x => decide (pass x)) n.queue 8
      exact ⟨_, _, htaken, hperm, hsub, hrest, hs.run_none (g.takeNotices_good c.port ha rfl) nofun⟩
    · exact hs.run_none (congrArg Hub.ok (g.ackAttention_eq c.port)) nofun
  · intro c s hs g n
    refine ⟨fun mask => hs.run_none ?_ nofun, hs.run_none rfl nofun,
      fun a ha => hs.run_none (g.setAttention_bad c.port ha) nofun, fun a ha => hs.run_none (g.setAttention_good c.port ha)
        nofun⟩
    rfl
  · intro e p s hs g n
    have hrun : ∀ f : NoticePort → NoticePort, s.run (fun h => (h.arrive e).modNotice p f) = s.became (g.modNotice p f) :=
      fun f => State.run_free hs _
    refine ⟨fun hc => ?_, fun hc => ?_, fun hc => ?_, fun hc => ?_, fun hc => ?_, fun hc => ?_⟩
    · exact (hrun _).trans (congrArg s.became (g.modNotice_congr (if_pos hc)))
    · exact (hrun _).trans (congrArg s.became (g.modNotice_id (if_neg hc)))
    · exact (hrun _).trans (congrArg s.became (g.modNotice_congr (if_pos hc)))
    · exact (hrun _).trans (congrArg s.became (g.modNotice_id (if_neg hc)))
    · exact (hrun _).trans (congrArg s.became (g.modNotice_congr (if_neg hc)))
    · exact (hrun _).trans (congrArg s.became (g.modNotice_id (if_pos hc)))

end Sys2Proof.Machine
end

section
/-! Proofs: the command queue, the FULL list and the response link (R169, R170, R197). -/

namespace Sys2Proof.Machine

-- In order, so that the package in one text stays within the memory of its check.
set_option Elab.async false

/-- R169, R197: what makes a record good. -/
theorem recordGood_iff (r : Bytes) :
    recordGood r = true ↔ 8 ≤ r.length ∧ r.length ≤ 4108 ∧ ofLe (r.take 2) = r.length ∧
      r.drop (r.length - 4) = le 4 (crc32 (r.take (r.length - 4))).toNat := by
  simp only [recordGood, Bool.and_eq_true, decide_eq_true_eq, beq_iff_eq, and_assoc]
  rfl

section
variable (h : Hub) (p : Fin 4)

/-- A change of a port's record is told by what it makes of the record at hand. -/
theorem Hub.modPort_const (f : PortRecord → PortRecord) : h.modPort p f = h.modPort p fun _ => f h.ports[p] := rfl

theorem Hub.modPort_modPort (f g : PortRecord → PortRecord) : (h.modPort p f).modPort p g = h.modPort p fun x => g (f x) := by
  simp [Hub.modPort]

/-! ### The link (R170) -/

variable {h p} {e : Env}

theorem Hub.pump_busy (hs : (h.ports[p]).sending ≠ none) : h.pump p e = h := by
  obtain ⟨y, hy⟩ := Option.ne_none_iff_exists'.mp hs
  simp only [Hub.pump, hy]

theorem Hub.pump_full (hs : (h.ports[p]).sending = none) {a : Byte × Byte} {rest : List (Byte × Byte)}
    (hf : (h.ports[p]).fullList = a :: rest) : h.pump p e = h.modPort p fun y => y.answerFull a := by
  simp only [Hub.pump, hs, hf]

theorem Hub.pump_idle (hs : (h.ports[p]).sending = none) (hf : (h.ports[p]).fullList = [])
    (hq : (h.ports[p]).queue = []) : h.pump p e = h := by
  simp only [Hub.pump, hs, hf, hq]

theorem Hub.pump_taken (hs : (h.ports[p]).sending = none) (hf : (h.ports[p]).fullList = []) {r : Bytes} {rest : List Bytes}
    (hq : (h.ports[p]).queue = r :: rest) :
    h.pump p e =
      runRecord { env := { lines := e.lines, ecc := e.ecc }, port := p, tag := r.getD 2 0 } (r.getD 3 0)
        ((r.take (r.length - 4)).drop 4) (h.modPort p fun y => { y with queue := rest }) := by
  simp only [Hub.pump, hs, hf, hq]
  rfl

end

section
variable (x : PortRecord) (r : Bytes)

/-- A record that is taken in is counted. -/
def PortRecord.counted : PortRecord := { x with counts := { x.counts with takenIn := x.counts.takenIn + 1 } }

theorem PortRecord.judge_queued (hq : x.queue.length < 16) :
    x.judge r = { x.counted with queue := x.queue ++ [r] } := if_pos hq

theorem PortRecord.judge_full (hq : 16 ≤ x.queue.length) (hf : x.fullList.length < 16) :
    x.judge r = { x.counted with
      fullList := x.fullList ++ [(r.getD 2 0, r.getD 3 0)]
      counts := { x.counted.counts with full := x.counts.full + 1 } } :=
  (if_neg (Nat.not_lt.mpr hq)).trans (if_pos hf)

theorem PortRecord.judge_overrun (hq : 16 ≤ x.queue.length) (hf : 16 ≤ x.fullList.length) :
    x.judge r = { x.counted with counts := { x.counted.counts with overrun := x.counts.overrun + 1 } } :=
  (if_neg (Nat.not_lt.mpr hq)).trans (if_neg (Nat.not_lt.mpr hf))

theorem PortRecord.judge_sending : (x.judge r).sending = x.sending := by
  unfold PortRecord.judge
  dsimp only
  split
  · rfl
  · split <;> rfl

end

section
variable {h : Hub} {e : Env} {p : Fin 4}

theorem Hub.recordArrival_good {framed : Bool} {r : Bytes} (hg : framed = true ∧ recordGood r = true) :
    Hub.recordArrival e p framed r h = ((h.arrive e).modPort p fun x => x.judge r).pump p e := if_pos hg

theorem Hub.recordArrival_bad {framed : Bool} {r : Bytes} (hg : ¬ (framed = true ∧ recordGood r = true)) :
    Hub.recordArrival e p framed r h = (h.arrive e).modPort p fun x =>
      { x with counts := { x.counts with bad := x.counts.bad + 1 } } := if_neg hg

/-- Behind a link in use the record is judged against the queue alone. -/
theorem Hub.recordArrival_busy {framed : Bool} {r : Bytes} (hg : framed = true ∧ recordGood r = true)
    (hs : (h.ports[p]).sending ≠ none) :
    Hub.recordArrival e p framed r h = (h.arrive e).modPort p fun _ => (h.ports[p]).judge r := by
  rw [Hub.recordArrival_good hg, Hub.pump_busy]
  · rfl
  · rw [Hub.modPort_self, PortRecord.judge_sending]
    exact hs

/-- With nothing ahead of it the record is taken at once. -/
theorem Hub.recordArrival_taken {framed : Bool} {r : Bytes} (hg : framed = true ∧ recordGood r = true)
    (hs : (h.ports[p]).sending = none) (hf : (h.ports[p]).fullList = []) (hq : (h.ports[p]).queue = []) :
    Hub.recordArrival e p framed r h =
      runRecord { env := { lines := e.lines, ecc := e.ecc }, port := p, tag := r.getD 2 0 } (r.getD 3 0)
        ((r.take (r.length - 4)).drop 4) ((h.arrive e).modPort p fun _ => (h.ports[p]).counted) := by
  have hj : (h.ports[p]).judge r = { (h.ports[p]).counted with queue := [r] } := by
    rw [PortRecord.judge_queued _ _ (by rw [hq]; decide), hq]
    rfl
  rw [Hub.recordArrival_good hg, Hub.modPort_const, show (h.arrive e).ports = h.ports from rfl, hj,
    Hub.pump_taken (r := r) (rest := [])]
  · rw [Hub.modPort_modPort]
    refine congrArg (runRecord _ _ _) ?_
    rw [show ({ (h.ports[p]).counted with queue := [] } : PortRecord) = (h.ports[p]).counted by
      rw [← hq]
      rfl]
  · rw [Hub.modPort_self]
    exact hs
  · rw [Hub.modPort_self]
    exact hf
  · rw [Hub.modPort_self]

theorem Hub.responseEnd_void (hs : (h.ports[p]).sending = none) : Hub.responseEnd e p h = h.arrive e := by
  have hs' : ((h.arrive e).ports[p]).sending = none := hs
  simp only [Hub.responseEnd, hs']

theorem Hub.responseEnd_sent {y : Bool × Response} (hs : (h.ports[p]).sending = some y) :
    Hub.responseEnd e p h =
      ((h.arrive e).modPort p fun _ =>
        { h.ports[p] with
          sending := none, fullList := if y.1 = true then (h.ports[p]).fullList.drop 1 else (h.ports[p]).fullList }).pump
        p e := by
  have hs' : ((h.arrive e).ports[p]).sending = some y := hs
  simp only [Hub.responseEnd, hs']
  rfl

end

/-- Settles O52. -/
theorem linksQueueCommands : Obligations.LinksQueueCommands := by
  intro e p s hs g x taken full
  refine ⟨fun framed r => ?_, fun hn => ?_, fun y hy => ?_⟩
  · intro good cmd counted
    have hgood : good ↔ framed = true ∧ recordGood r = true := by rw [recordGood_iff]
    have hrun : exec cmd s = s.became (Hub.recordArrival e p framed r s.hub) := State.run_free hs _
    refine ⟨fun hb => hrun.trans ?_, fun hg hbusy => ?_, fun hg hn hf hq => hrun.trans ?_⟩
    · exact congrArg s.became (Hub.recordArrival_bad (mt hgood.mpr hb))
    · have hjudge := hrun.trans (congrArg s.became (Hub.recordArrival_busy (hgood.mp hg) hbusy))
      refine ⟨fun hq => hjudge.trans ?_, fun hq hf => hjudge.trans ?_, fun hq hf => hjudge.trans ?_⟩
      · rw [PortRecord.judge_queued _ r hq]
        rfl
      · rw [PortRecord.judge_full _ r hq hf]
        rfl
      · rw [PortRecord.judge_overrun _ r hq hf]
        rfl
    · exact congrArg s.became (Hub.recordArrival_taken (hgood.mp hg) hn hf hq)
  · exact (State.run_free hs _).trans (congrArg s.became (Hub.responseEnd_void hn))
  · intro list
    have hrun : exec (.responseEnd e p) s =
        s.became ((g.modPort p fun _ => { x with sending := none, fullList := list }).pump p e) :=
      (State.run_free hs _).trans (congrArg s.became (Hub.responseEnd_sent hy))
    refine ⟨fun a rest hl => hrun.trans ?_, fun hl hq => hrun.trans ?_, fun r rest hl hq => hrun.trans ?_⟩
    · rw [Hub.pump_full (a := a) (rest := rest), Hub.modPort_modPort]
      · rfl
      · rw [Hub.modPort_self]
      · rw [Hub.modPort_self]
        exact hl
    · rw [Hub.pump_idle, hl]
      · rw [Hub.modPort_self]
      · rw [Hub.modPort_self]
        exact hl
      · rw [Hub.modPort_self]
        exact hq
    · rw [Hub.pump_taken (r := r) (rest := rest), Hub.modPort_modPort, hl]
      · rw [Hub.modPort_self]
      · rw [Hub.modPort_self]
        exact hl
      · rw [Hub.modPort_self]
        exact hq

end Sys2Proof.Machine
end

section
/-! Proofs: changes of path states (R89, R92, R99, R118).  What the evaluations of paths between two hubs did is a chain of
legs (`Hub.PathsFollow`), in which each path changes its state at most once. -/

namespace Sys2Proof.Machine

-- In order, so that the package in one text stays within the memory of its check.
set_option Elab.async false

/-! ### Being told -/

section
variable {kinds : List NoticeKind} {g h a b : Hub} {x : Notice}

theorem Hub.notify_told (h : Hub) {k : NoticeKind} (n : Nat) (hk : k ≠ .supplyWarn)
    (ha : ∀ q, h.audience { kind := k, param := BitVec.ofNat 32 n, serial := h.tb.frame.serial } q = true) :
    h.Told (h.notify k n) { kind := k, param := BitVec.ofNat 32 n, serial := h.tb.frame.serial } := by
  intro q
  refine ⟨Hub.notify_summary h n (ha q), fun hm hq => ?_⟩
  have hjoin := Hub.notify_queue h n hk (ha q) hm
  by_cases hroom : (h.notices[q]'q.2).queue.length < 32
  · rw [hjoin hroom]
    simp
  · have hsame : ((h.notify k n).notices[q]'q.2).queue = (h.notices[q]'q.2).queue := by
      rw [Hub.notify, Hub.give_notices, if_pos (ha q), NoticePort.offer_queue _ _ hk]
      exact if_neg fun hc => hroom hc.2
    rw [hsame] at hq
    exact absurd hq hroom

theorem Hub.Told.later (ht : g.Told a x) (hh : Hub.Heard kinds a b) (hk : NoticeKind.supplyWarn ∉ kinds) : g.Told b x := by
  intro q
  obtain ⟨hsum, hqueue⟩ := ht q
  refine ⟨hh.summary_mono q (by have := x.kind.code_lt; omega) hsum, fun hm hlen => ?_⟩
  have hpre := hh.queue_prefix q hk
  exact hpre.subset (hqueue hm (Nat.lt_of_le_of_lt hpre.length_le hlen))

theorem Hub.Told.earlier (ht : b.Told h x) (hh : Hub.Heard kinds a b) : a.Told h x := by
  intro q
  obtain ⟨hsum, hqueue⟩ := ht q
  exact ⟨hsum, fun hm => hqueue (by rw [hh.mask_eq q]; exact hm)⟩

end

/-! ### The labels of a path -/

/-- Whether a label tells the state of path p. -/
def Label.ofPath (p : Fin 8) (y : Label) : Bool := y.source == .link && y.value == some (BitVec.ofNat 32 p.val)

/-- What the label of a path's change holds. -/
def Label.told (y : Label) : LabelKind × Word × Timecode × Bytes := (y.kind, y.serial, y.tc, y.text)

theorem Label.ofPath_trigger {p : Fin 8} {y : Label} (hy : y.source = .trigger) : y.ofPath p = false := by
  simp [Label.ofPath, hy]

theorem Label.ofPath_other {p q : Fin 8} (hq : q ≠ p) {y : Label} (hy : y.value = some (BitVec.ofNat 32 p.val)) :
    y.ofPath q = false := by
  have hne : (BitVec.ofNat 32 p.val == BitVec.ofNat 32 q.val) = false := by
    rw [beq_eq_false_iff_ne]
    intro he
    have := congrArg BitVec.toNat he
    simp only [BitVec.toNat_ofNat] at this
    omega
  simp [Label.ofPath, hy, hne]

/-- What the label of path p's change holds in a frame, given the record that it entered. -/
def Path.tells (x : Path) (frame : Frame) : LabelKind × Word × Timecode × Bytes :=
  (if x.state = .up then .pathUp else .pathDown, frame.serial, frame.tc, x.labelText)

/-! ### Legs -/

/-- PATH_STATE for path p with record `y`, at a frame. -/
def Path.notice (p : Fin 8) (y : Path) (frame : Frame) : Notice :=
  { kind := .pathState, param := BitVec.ofNat 32 (p.val + 256 * pathStateCode y.state), serial := frame.serial }

/-- What the changes of path states between two hubs did, each path's at most one, in a frame (R92, R99); at most n labels
were filed. -/
structure Hub.PathsFollow (frame : Frame) (n : Nat) (g h : Hub) : Prop where
  heard : ∃ kinds, NoticeKind.supplyWarn ∉ kinds ∧ Hub.Heard kinds g h
  selection : h.log.selection = g.log.selection
  stays : ∀ p : Fin 8, (h.paths.path[p]).state = (g.paths.path[p]).state → (g.paths.path[p]).Unmoved h.paths.path[p]
  enters : ∀ p : Fin 8, (h.paths.path[p]'p.2).state ≠ (g.paths.path[p]'p.2).state →
    (g.paths.path[p]).Entered h.paths.path[p] ∧ g.Told h (Path.notice p h.paths.path[p] frame)
  labels : g.log.labels.length + n ≤ 4096 → ∃ new, new.length ≤ n ∧ h.log.labels = g.log.labels ++ new ∧
    ∀ p : Fin 8, (new.filter (Label.ofPath p)).map Label.told =
      if (h.paths.path[p]'p.2).state ≠ (g.paths.path[p]'p.2).state ∧
        g.log.keeps (if (h.paths.path[p]'p.2).state = .up then .pathUp else .pathDown) .link = true
      then [(h.paths.path[p]'p.2).tells frame] else []
  bonds : ∀ j, g.BondFollows h j

/-- What a path's record keeps of an entry while its state stays. -/
structure Path.Still (x y : Path) : Prop where
  state : y.state = x.state
  reason : y.reason = x.reason
  unmoved : x.Unmoved y
  pauseCount : y.pauseCount = x.pauseCount
  timeoutMark : y.timeoutMark = x.timeoutMark

theorem Path.Still.refl (x : Path) : x.Still x := ⟨rfl, rfl, ⟨rfl, rfl, rfl, rfl⟩, rfl, rfl⟩

theorem Path.Unmoved.trans {x y z : Path} (h₁ : x.Unmoved y) (h₂ : y.Unmoved z) : x.Unmoved z := by
  obtain ⟨hf, hb, ht, hl⟩ := h₁
  obtain ⟨hf', hb', ht', hl'⟩ := h₂
  exact ⟨hf'.trans hf, hb'.trans hb, ht'.trans ht, hl'.trans hl⟩

/-- An entry is told by what the record kept before it. -/
theorem Path.Unmoved.entered {x y z : Path} (h₁ : x.Unmoved y) (h₂ : y.Entered z) : x.Entered z := by
  obtain ⟨hf, hb, ht, hl⟩ := h₁
  unfold Path.Entered Path.Emptied at h₂ ⊢
  rw [hf, hb, ht, hl] at h₂
  exact h₂

theorem Path.Entered.still {x y z : Path} (h₁ : x.Entered y) (h₂ : y.Still z) : x.Entered z := by
  obtain ⟨hs, -, ⟨hf, hb, ht, hl⟩, hp, hm⟩ := h₂
  unfold Path.Entered Path.Emptied at h₁ ⊢
  rw [hs, hf, hb, ht, hl, hp, hm]
  exact h₁

theorem Path.Still.tells {x y : Path} (h : x.Still y) (frame : Frame) : y.tells frame = x.tells frame := by
  rw [Path.tells, Path.tells, Path.labelText_eq, Path.labelText_eq, h.state, h.reason]

theorem Bond.refresh_refresh (b : Bond) : b.refresh.refresh = b.refresh := by
  rw [Bond.refresh_eq, Bond.refresh_eq]
  simp

section
variable {frame : Frame} {m n : Nat} {a b c g h : Hub}

theorem Hub.bondFollows_refl {j : Fin 4} (hp : ∀ p : Fin 8, p.val / 2 = j.val →
      (h.paths.path[p]'p.2).state = (g.paths.path[p]'p.2).state) (hb : h.paths.bonds[j]'j.2 = g.paths.bonds[j]'j.2) :
        g.BondFollows h j :=
  ⟨fun ⟨p, hj, hne, _⟩ => absurd (hp p hj) hne, fun _ => hb⟩

/-- Pairs follow in two legs as in one when each path changes in one of them at most. -/
theorem Hub.BondFollows.trans {j : Fin 4} (h₁ : a.BondFollows b j) (h₂ : b.BondFollows c j)
    (hone : ∀ p : Fin 8, (b.paths.path[p]'p.2).state = (a.paths.path[p]'p.2).state ∨
      (c.paths.path[p]'p.2).state = (b.paths.path[p]'p.2).state) : a.BondFollows c j := by
  have hform : ∀ x : Bond, ({ x with inForce := x.setting, odd := if x.inForce = x.setting then x.odd else false } : Bond) =
      x.refresh := fun x => x.refresh_eq.symm
  unfold Hub.BondFollows at *
  dsimp only at *
  rw [hform] at *
  by_cases hl₁ : ∃ p : Fin 8, p.val / 2 = j.val ∧ (b.paths.path[p]'p.2).state ≠ (a.paths.path[p]'p.2).state ∧
      ((a.paths.path[p]'p.2).state = .off ∨ (a.paths.path[p]'p.2).state = .reset)
  · have hac : ∃ p : Fin 8, p.val / 2 = j.val ∧ (c.paths.path[p]'p.2).state ≠ (a.paths.path[p]'p.2).state ∧
        ((a.paths.path[p]'p.2).state = .off ∨ (a.paths.path[p]'p.2).state = .reset) := by
      obtain ⟨p, hj, hne, hs⟩ := hl₁
      exact ⟨p, hj, by rwa [(hone p).resolve_left hne], hs⟩
    refine ⟨fun _ => ?_, fun hn => absurd hac hn⟩
    by_cases hl₂ : ∃ p : Fin 8, p.val / 2 = j.val ∧ (c.paths.path[p]'p.2).state ≠ (b.paths.path[p]'p.2).state ∧
        ((b.paths.path[p]'p.2).state = .off ∨ (b.paths.path[p]'p.2).state = .reset)
    · rw [h₂.1 hl₂, h₁.1 hl₁, Bond.refresh_refresh]
    · rw [h₂.2 hl₂, h₁.1 hl₁]
  · by_cases hl₂ : ∃ p : Fin 8, p.val / 2 = j.val ∧ (c.paths.path[p]'p.2).state ≠ (b.paths.path[p]'p.2).state ∧
        ((b.paths.path[p]'p.2).state = .off ∨ (b.paths.path[p]'p.2).state = .reset)
    · have hac : ∃ p : Fin 8, p.val / 2 = j.val ∧ (c.paths.path[p]'p.2).state ≠ (a.paths.path[p]'p.2).state ∧
          ((a.paths.path[p]'p.2).state = .off ∨ (a.paths.path[p]'p.2).state = .reset) := by
        obtain ⟨p, hj, hne, hs⟩ := hl₂
        have he := (hone p).resolve_right hne
        exact ⟨p, hj, by rwa [← he], by rwa [← he]⟩
      refine ⟨fun _ => ?_, fun hn => absurd hac hn⟩
      rw [h₂.1 hl₂, h₁.2 hl₁]
    · have hac : ¬ ∃ p : Fin 8, p.val / 2 = j.val ∧ (c.paths.path[p]'p.2).state ≠ (a.paths.path[p]'p.2).state ∧
          ((a.paths.path[p]'p.2).state = .off ∨ (a.paths.path[p]'p.2).state = .reset) := by
        rintro ⟨p, hj, hne, hs⟩
        rcases hone p with he | he
        · exact hl₂ ⟨p, hj, by rwa [he], by rwa [he]⟩
        · exact hl₁ ⟨p, hj, by rwa [← he], hs⟩
      refine ⟨fun hn => absurd hn hac, fun _ => ?_⟩
      rw [h₂.2 hl₂, h₁.2 hl₁]

/-- Two legs are one when each path keeps its state in the first, or its record in what matters in the second. -/
theorem Hub.PathsFollow.trans (h₁ : a.PathsFollow frame m b) (h₂ : b.PathsFollow frame n c)
    (hone : ∀ p : Fin 8, (b.paths.path[p]).state = (a.paths.path[p]).state ∨
      (b.paths.path[p]).Still c.paths.path[p]) : a.PathsFollow frame (m + n) c where
  heard := by
    obtain ⟨k₁, hk₁, hh₁⟩ := h₁.heard
    obtain ⟨k₂, hk₂, hh₂⟩ := h₂.heard
    exact ⟨k₁ ++ k₂, by simp [hk₁, hk₂], (hh₁.mono fun _ => List.mem_append_left _).trans
      (hh₂.mono fun _ => List.mem_append_right _)⟩
  selection := h₂.selection.trans h₁.selection
  stays p hs := by
    rcases hone p with he | he
    · exact (h₁.stays p he).trans (h₂.stays p (hs.trans he.symm))
    · exact (h₁.stays p (he.state.symm.trans hs)).trans he.unmoved
  enters p hs := by
    obtain ⟨k₁, hk₁, hh₁⟩ := h₁.heard
    obtain ⟨k₂, hk₂, hh₂⟩ := h₂.heard
    rcases hone p with he | he
    · obtain ⟨hent, htold⟩ := h₂.enters p (by rwa [he])
      exact ⟨(h₁.stays p he).entered hent, htold.earlier hh₁⟩
    · obtain ⟨hent, htold⟩ := h₁.enters p (by rwa [← he.state])
      refine ⟨hent.still he, ?_⟩
      rw [Path.notice, he.state]
      exact htold.later hh₂ hk₂
  labels hroom := by
    obtain ⟨xs, hxl, hxs, hx⟩ := h₁.labels (by omega)
    obtain ⟨ys, hyl, hys, hy⟩ := h₂.labels (by rw [hxs, List.length_append]; omega)
    refine ⟨xs ++ ys, by rw [List.length_append]; omega, by rw [hys, hxs, List.append_assoc], fun p => ?_⟩
    rw [List.filter_append, List.map_append, hx p, hy p]
    have hkeeps : b.log.keeps = a.log.keeps := by
      funext k x
      rw [ClipLog.keeps, ClipLog.keeps, h₁.selection]
    rw [hkeeps]
    rcases hone p with he | he
    · rw [if_neg (fun hc => hc.1 he), he]
      rfl
    · have hsame : (c.paths.path[p]).state = (b.paths.path[p]).state := he.state
      rw [hsame, if_neg (c := (b.paths.path[p]).state ≠ (b.paths.path[p]).state ∧ _) (fun hc => hc.1 rfl), he.tells frame,
        List.append_nil]
  bonds j := (h₁.bonds j).trans (h₂.bonds j) fun p => (hone p).imp_right Path.Still.state

theorem Hub.PathsFollow.mono (hf : g.PathsFollow frame m h) (hn : m ≤ n) : g.PathsFollow frame n h :=
  { hf with
    labels := fun hroom => by
      obtain ⟨new, hl, hrest⟩ := hf.labels (by omega)
      exact ⟨new, by omega, hrest⟩ }

/-- A leg that no path's state changes in, and that files no label of a path. -/
theorem Hub.PathsFollow.of_still {kinds : List NoticeKind} {P : Label → Prop} (hh : Hub.Heard kinds g h)
    (hk : NoticeKind.supplyWarn ∉ kinds) (hf : Hub.Files P n g h) (hP : ∀ y p, P y → y.ofPath p = false)
    (hp : ∀ p : Fin 8, (h.paths.path[p]).state = (g.paths.path[p]).state ∧ (g.paths.path[p]).Unmoved h.paths.path[p])
    (hb : h.paths.bonds = g.paths.bonds) : g.PathsFollow frame n h where
  heard := ⟨kinds, hk, hh⟩
  selection := hf.1
  stays p _ := (hp p).2
  enters p hne := absurd (hp p).1 hne
  labels hroom := by
    obtain ⟨new, hl, hall, hnew⟩ := hf.2 hroom
    refine ⟨new, hl, hnew, fun p => ?_⟩
    rw [if_neg fun hc => hc.1 (hp p).1, List.filter_eq_nil_iff.mpr fun y hy => by rw [hP y p (hall y hy)]; nofun]
    rfl
  bonds j := Hub.bondFollows_refl (fun p _ => (hp p).1) (by rw [hb])

/-- A leg that leaves the paths and the labels. -/
theorem Hub.PathsFollow.of_only {parts : List Part} {kinds : List NoticeKind} (ho : Hub.OnlyChanges parts g h)
    (hn : Part.pathRecords ∉ parts ∧ Part.mapping ∉ parts) (hh : Hub.Heard kinds g h) (hk : NoticeKind.supplyWarn ∉ kinds)
    (hs : g.SameFiling h) : g.PathsFollow frame 0 h := by
  have hp : g.paths.path = h.paths.path := ho .pathRecords hn.1
  refine .of_still (P := fun _ => False) hh hk hs.files (fun _ _ => False.elim) (fun p => ?_) (ho .mapping hn.2).2.2.symm
  rw [← hp]
  exact ⟨rfl, rfl, rfl, rfl, rfl⟩

/-- What the statements make of the legs. -/
theorem Hub.PathsFollow.moved (hf : g.PathsFollow frame n h) (hn : n ≤ 2048) : g.PathsMoved h frame := by
  refine ⟨fun p => ⟨hf.stays p, fun hne => ?_⟩, fun hl p => ?_, hf.bonds⟩
  · obtain ⟨hent, htold⟩ := hf.enters p hne
    refine ⟨hent, ?_⟩
    have hcode : pathStateCode (h.paths.path[p]).state = match (h.paths.path[p]).state with
      | .off => 0
      | .reset => 1
      | .down => 2
      | .up => 3
      | .paused => 4 := by cases (h.paths.path[p]).state <;> rfl
    rw [Path.notice, hcode] at htold
    exact htold
  · obtain ⟨new, -, hnew, htells⟩ := hf.labels (by omega)
    exact ⟨new, hnew, htells p⟩

end

/-! ### One evaluation -/

/-- The label of a change of path p. -/
def Path.draft (p : Fin 8) (s : PathState) (why : DownReason) (frame : Frame) : Draft where
  kind := if s = .up then .pathUp else .pathDown
  source := .link
  frame := frame
  value := some (BitVec.ofNat 32 p.val)
  text := pathText s why

/-- The bond at a change of path p (R99). -/
def Hub.tellBond (h : Hub) (p : Fin 8) (old : Path) : Hub :=
  if old.state = .off ∨ old.state = .reset then h.modBond (pairOf p) Bond.refresh else h

/-- The bond, the notice and the label of a change of path p (R92, R99). -/
def Hub.tellChange (h : Hub) (p : Fin 8) (old : Path) (s : PathState) (why : DownReason) : Hub :=
  ((h.tellBond p old).notify .pathState (p.val + 256 * pathStateCode s)).label (Path.draft p s why h.tb.frame)

/-- The gauge of a path that leaves UP or PAUSED (R118, R122). -/
def Hub.leaveGauge (h : Hub) (p : Fin 8) (old : Path) (s : PathState) : Hub :=
  if old.carrying ∧ s ≠ .up ∧ s ≠ .paused then h.gaugeLeave p else h

section
variable (h : Hub) (p : Fin 8) (old : Path) (s : PathState) (why : DownReason)

theorem Hub.tellBond_log : (h.tellBond p old).log = h.log := by
  unfold Hub.tellBond
  split <;> rfl

theorem Hub.tellBond_tb : (h.tellBond p old).tb = h.tb := by
  unfold Hub.tellBond
  split <;> rfl

theorem Hub.tellBond_heard {kinds : List NoticeKind} : Hub.Heard kinds h (h.tellBond p old) :=
  .opt (.refl _ h) (h.modBond_heard _ _)

theorem Hub.afterChange_eq : h.afterChange p old s why = ((h.tellChange p old s why).leaveGauge p old s).recompute := by
  unfold Hub.tellChange
  rw [← h.tellBond_tb p old]
  rfl

theorem Hub.leaveGauge_only : Hub.OnlyChanges [.gauges, .notices] h (h.leaveGauge p old s) :=
  .opt (.refl _ h) (h.gaugeLeave_only p)

theorem Hub.afterTold_heard : Hub.Heard pathKinds (h.tellChange p old s why) (h.afterChange p old s why) := by
  rw [Hub.afterChange_eq]
  exact .trans (.opt (.refl _ _) ((Hub.gaugeLeave_heard _ p).mono (by decide))) ((Hub.recompute_heard _).mono (by decide))

theorem Hub.afterTold_only : Hub.OnlyChanges [.gauges, .budget, .notices] (h.tellChange p old s why)
    (h.afterChange p old s why) := by
  rw [Hub.afterChange_eq]
  exact ((Hub.leaveGauge_only _ p old s).mono (by decide)).trans ((Hub.recompute_only _).mono (by decide))

theorem Hub.tellChange_bonds : (h.tellChange p old s why).paths.bonds = (h.tellBond p old).paths.bonds := by
  unfold Hub.tellChange
  rw [← ((Hub.label_only _ _) .mapping (by decide)).2.2]
  rfl

/-- PATH_STATE is given at a change. -/
theorem Hub.tellChange_told :
    h.Told (h.tellChange p old s why)
      { kind := .pathState, param := BitVec.ofNat 32 (p.val + 256 * pathStateCode s), serial := h.tb.frame.serial } := by
  have htold := (h.tellBond p old).notify_told (k := .pathState) (p.val + 256 * pathStateCode s) nofun (fun _ => rfl)
  rw [Hub.tellBond_tb] at htold
  exact (htold.earlier (h.tellBond_heard (kinds := []) p old)).later (Hub.label_heard _ _) (by decide)

theorem Hub.tellChange_labels (hl : h.log.labels.length + 5 ≤ 4096) :
    ∃ fires, fires.length ≤ 4 ∧ (∀ y ∈ fires, y.source = .trigger) ∧
      (h.tellChange p old s why).log.labels = h.log.labels ++
        (if h.log.keeps (Path.draft p s why h.tb.frame).kind (Path.draft p s why h.tb.frame).source = true then
          [h.log.labelOf (Path.draft p s why h.tb.frame)] else []) ++ fires := by
  unfold Hub.tellChange
  have hlog : ((h.tellBond p old).notify .pathState (p.val + 256 * pathStateCode s)).log = h.log := h.tellBond_log p old
  generalize (h.tellBond p old).notify .pathState (p.val + 256 * pathStateCode s) = g at hlog ⊢
  generalize Path.draft p s why h.tb.frame = d
  rw [← hlog] at hl ⊢
  rw [Hub.label]
  exact g.arriveLabel_labels d none hl

end

/-- What a write to a path record must leave for the evaluation after it to be one leg. -/
structure Path.Quiet (x y : Path) : Prop where
  state : y.state = x.state
  unmoved : x.Unmoved y

theorem Path.settled_stays {x : Path} (he : x.evaluate.1 = x.state) (w : Word) :
    x.settled w = { x with reason := x.evaluate.2 } := if_pos he

theorem Path.settled_enters {x : Path} (he : x.evaluate.1 ≠ x.state) (w : Word) :
    x.settled w = x.enter x.evaluate.1 x.evaluate.2 w := if_neg he

@[simp] theorem Path.settled_state (x : Path) (w : Word) : (x.settled w).state = x.evaluate.1 := by
  by_cases he : x.evaluate.1 = x.state
  · rw [Path.settled_stays he, ← he]
  · rw [Path.settled_enters he, Path.enter_state]

@[simp] theorem Path.settled_reason (x : Path) (w : Word) : (x.settled w).reason = x.evaluate.2 := by
  by_cases he : x.evaluate.1 = x.state
  · rw [Path.settled_stays he]
  · rw [Path.settled_enters he, Path.enter_reason]

theorem Path.settled_tells (x : Path) (w : Word) (frame : Frame) :
    (x.settled w).tells frame =
      (if x.evaluate.1 = .up then .pathUp else .pathDown, frame.serial, frame.tc, pathText x.evaluate.1 x.evaluate.2) := by
  rw [Path.tells, Path.labelText_eq, Path.settled_state, Path.settled_reason]

/-- The label that a change files, and no other path's. -/
theorem Path.draft_ofPath (p q : Fin 8) (s : PathState) (why : DownReason) (frame : Frame) (l : ClipLog) :
    ([l.labelOf (Path.draft p s why frame)].filter (Label.ofPath q)).map Label.told =
      if q = p then [(if s = .up then .pathUp else .pathDown, frame.serial, frame.tc, pathText s why)] else [] := by
  by_cases hq : q = p
  · subst hq
    rw [if_pos rfl, List.filter_cons_of_pos]
    · rfl
    · simp [Label.ofPath, ClipLog.labelOf, Path.draft]
  · rw [if_neg hq, List.filter_cons_of_neg]
    · rfl
    · rw [Label.ofPath_other hq rfl]
      nofun

theorem Path.draft_filed (p q : Fin 8) (s : PathState) (why : DownReason) (frame : Frame) (l : ClipLog) :
    ((if l.keeps (Path.draft p s why frame).kind (Path.draft p s why frame).source = true then
        [l.labelOf (Path.draft p s why frame)] else []).filter (Label.ofPath q)).map Label.told =
      if q = p ∧ l.keeps (if s = .up then .pathUp else .pathDown) .link = true then
        [(if s = .up then .pathUp else .pathDown, frame.serial, frame.tc, pathText s why)] else [] := by
  by_cases hk : l.keeps (Path.draft p s why frame).kind (Path.draft p s why frame).source = true
  · rw [if_pos hk, Path.draft_ofPath]
    exact if_congr (and_iff_left hk).symm rfl rfl
  · rw [if_neg hk, if_neg fun hc => hk hc.2]
    rfl

section
variable (h : Hub) (p : Fin 8) (f : Path → Path)

theorem Hub.evaluate_stays (he : (f h.paths.path[p]).evaluate.1 = (f h.paths.path[p]).state) :
    Hub.evaluatePath p (h.modPath p f) = h.modPath p fun x => (f x).settled h.tb.frame.serial :=
  (h.evaluatePath_modPath p f).trans (if_pos he)

theorem Hub.evaluate_enters (he : (f h.paths.path[p]).evaluate.1 ≠ (f h.paths.path[p]).state) :
    Hub.evaluatePath p (h.modPath p f) =
      (h.modPath p fun x => (f x).settled h.tb.frame.serial).afterChange p (f h.paths.path[p])
        (f h.paths.path[p]).evaluate.1 (f h.paths.path[p]).evaluate.2 :=
  (h.evaluatePath_modPath p f).trans (if_neg he)

theorem Hub.evaluate_only : Hub.OnlyChanges pathParts h (Hub.evaluatePath p (h.modPath p f)) :=
  ((h.modPath_only p f).mono (by decide)).trans (Hub.evaluatePath_only _ p)

theorem Hub.evaluate_heard : Hub.Heard pathKinds h (Hub.evaluatePath p (h.modPath p f)) :=
  .trans (h.modPath_heard p f) (Hub.evaluatePath_heard _ p)

theorem Hub.evaluate_files : Hub.Files (PathBrings p) 5 h (Hub.evaluatePath p (h.modPath p f)) :=
  ((h.modPath_sameFiling p f).files.trans (Hub.evaluatePath_files _ p)).mono (fun _ => id) (by omega)

/-- The bonds that a change of path p leaves. -/
theorem Hub.afterChange_bonds (old : Path) (s : PathState) (why : DownReason) (j : Fin 4) :
    (h.afterChange p old s why).paths.bonds[j]'j.2 =
      if (old.state = .off ∨ old.state = .reset) ∧ j = pairOf p then (h.paths.bonds[j]'j.2).refresh else
        h.paths.bonds[j]'j.2 := by
  rw [← ((h.afterTold_only p old s why) .mapping (by decide)).2.2, Hub.tellChange_bonds, Hub.tellBond]
  by_cases ho : old.state = .off ∨ old.state = .reset
  · by_cases hj : j = pairOf p
    · rw [if_pos ho, if_pos ⟨ho, hj⟩, hj, Hub.modBond_self]
    · rw [if_pos ho, if_neg fun hc => hj hc.2, Hub.modBond_ne _ _ hj]
  · rw [if_neg ho, if_neg fun hc => ho hc.1]

/-- R92: an evaluation is a leg, with the one label of a path that its change files. -/
theorem Hub.evaluate_follows (hq : (h.paths.path[p]).Quiet (f h.paths.path[p])) :
    h.PathsFollow h.tb.frame 5 (Hub.evaluatePath p (h.modPath p f)) := by
  have hself := h.evaluatePath_self p f
  have hne : ∀ q, q ≠ p → (Hub.evaluatePath p (h.modPath p f)).paths.path[q] = h.paths.path[q] := fun q hq =>
    h.evaluatePath_ne hq f
  have hheard := h.evaluate_heard p f
  have hsel := (h.evaluate_files p f).1
  generalize hx : h.paths.path[p] = x at *
  generalize hy : f x = y at *
  obtain ⟨hstate, hunmoved⟩ := hq
  by_cases he : y.evaluate.1 = y.state
  · have hg := h.evaluate_stays p f (by rw [hx, hy]; exact he)
    refine (Hub.PathsFollow.of_still (P := fun _ => False) hheard (by decide)
      (n := 0) ?_ (fun _ _ => False.elim) (fun q => ?_) ?_).mono (Nat.zero_le _)
    · rw [hg]
      exact (h.modPath_sameFiling p _).files
    · by_cases hqp : q = p
      · subst hqp
        rw [hself, hx, y.settled_stays he]
        exact ⟨hstate, hunmoved⟩
      · rw [hne q hqp]
        exact ⟨rfl, rfl, rfl, rfl, rfl⟩
    · rw [hg]
      rfl
  · have hg := h.evaluate_enters p f (by rw [hx, hy]; exact he)
    rw [hx, hy] at hg
    have hchange : (Hub.evaluatePath p (h.modPath p f)).paths.path[p].state ≠ x.state := by
      rw [hself, Path.settled_state, ← hstate]
      exact he
    refine ⟨⟨_, by decide, hheard⟩, hsel, fun q hs => ?_, fun q hs => ?_, fun hroom => ?_, fun j => ?_⟩
    · by_cases hqp : q = p
      · subst hqp
        exact absurd (hx ▸ hs) hchange
      · rw [hne q hqp]
        exact ⟨rfl, rfl, rfl, rfl⟩
    · by_cases hqp : q = p
      · subst hqp
        refine ⟨?_, ?_⟩
        · rw [hself, hx, y.settled_enters he]
          exact hunmoved.entered (y.enter_entered _ _ _)
        · rw [Path.notice, hself, Path.settled_state, hg]
          have htold := (h.modPath q fun x => (f x).settled h.tb.frame.serial).tellChange_told q y y.evaluate.1 y.evaluate.2
          exact (htold.later (Hub.afterTold_heard _ q y _ _) (by decide)).earlier
            (h.modPath_heard (kinds := []) q _)
      · rw [hne q hqp] at hs
        exact absurd rfl hs
    · obtain ⟨fires, hlen, hfires, hlabels⟩ := (h.modPath p fun x => (f x).settled h.tb.frame.serial).tellChange_labels p y
        y.evaluate.1 y.evaluate.2 hroom
      have hlog : (Hub.evaluatePath p (h.modPath p f)).log =
          ((h.modPath p fun x => (f x).settled h.tb.frame.serial).tellChange p y y.evaluate.1 y.evaluate.2).log := by
        rw [hg]
        exact ((Hub.afterTold_only _ p y y.evaluate.1 y.evaluate.2) .log (by decide)).symm
      refine ⟨_, ?_, (congrArg ClipLog.labels hlog).trans (hlabels.trans (List.append_assoc _ _ _)), fun q => ?_⟩
      · rw [List.length_append]
        split <;> simp <;> omega
      · have hnone : fires.filter (Label.ofPath q) = [] := List.filter_eq_nil_iff.mpr fun z hz => by
          rw [Label.ofPath_trigger (hfires z hz)]
          nofun
        rw [List.filter_append, hnone, List.append_nil, Path.draft_filed, Hub.modPath_log, Hub.modPath_tb]
        by_cases hqp : q = p
        · subst hqp
          rw [hself, Path.settled_state, hx, ← hstate, Path.settled_tells]
          exact if_congr (and_congr (iff_of_true rfl he) Iff.rfl) rfl rfl
        · rw [hne q hqp]
          exact (if_neg fun hc => hqp hc.1).trans (if_neg fun hc => hc.1 rfl).symm
    · have hbonds := (h.modPath p fun x => (f x).settled h.tb.frame.serial).afterChange_bonds p y y.evaluate.1 y.evaluate.2 j
      rw [← hg, Hub.modPath_paths_bonds, hstate] at hbonds
      have hleaves : (∃ q : Fin 8, q.val / 2 = j.val ∧
          ((Hub.evaluatePath p (h.modPath p f)).paths.path[q]).state ≠ (h.paths.path[q]).state ∧
          ((h.paths.path[q]).state = .off ∨ (h.paths.path[q]).state = .reset)) ↔
          (x.state = .off ∨ x.state = .reset) ∧ j = pairOf p := by
        constructor
        · rintro ⟨q, hj, hs, ho⟩
          by_cases hqp : q = p
          · subst hqp
            exact ⟨hx ▸ ho, Fin.ext hj.symm⟩
          · rw [hne q hqp] at hs
            exact absurd rfl hs
        · rintro ⟨ho, rfl⟩
          exact ⟨p, rfl, by rw [hx]; exact hchange, by rw [hx]; exact ho⟩
      refine ⟨fun hl => ?_, fun hl => ?_⟩
      · rw [hbonds, if_pos (hleaves.mp hl), Bond.refresh_eq]
      · rw [hbonds, if_neg (mt hleaves.mpr hl)]

end

/-! ### The Gauge and the Budget at a change (R118, R125) -/

section
variable (h : Hub) (p : Fin 8)

theorem Hub.abortManual_summary (q : Fin 4) :
    ((Hub.abortManual p h).notices[q]'q.2).summary.getLsbD 14 =
      ((h.notices[q]'q.2).summary.getLsbD 14 || decide ((h.gauges.path[p]'p.2).manual ≠ .idle)) := by
  by_cases hm : (h.gauges.path[p]'p.2).manual = .idle
  · rw [Hub.abortManual, if_pos hm, decide_eq_false (not_not.mpr hm), Bool.or_false]
  · rw [Hub.abortManual, if_neg hm, Hub.endManual_summary, decide_eq_true hm, Bool.or_true]

/-- What a path that leaves UP or PAUSED makes of the Gauge (R118, R122). -/
theorem Hub.gaugeLeave_gauges :
    (h.gauges.path[p]).Left (h.gaugeLeave p).gauges.path[p] ∧
      (∀ q, q ≠ p → (h.gaugeLeave p).gauges.path[q]'q.2 = h.gauges.path[q]'q.2) ∧
      (h.gaugeLeave p).gauges.auto = h.gauges.auto ∧ (h.gaugeLeave p).gauges.window = h.gauges.window ∧
      ∀ q : Fin 4, ((h.gaugeLeave p).notices[q]'q.2).summary.getLsbD 14 =
        ((h.notices[q]'q.2).summary.getLsbD 14 || decide ((h.gauges.path[p]'p.2).manual ≠ .idle)) := by
  have hidle : ∀ x : Gauge, ({ x.abortCycle h.now with c := 0, s := 0, e := 0 } : Gauge).manual = x.manual := fun x => by
    unfold Gauge.abortCycle
    split <;> rfl
  refine ⟨h.gaugeLeave_left p, fun q hq => ?_, ?_, ?_, fun q => ?_⟩
  · rw [Hub.gaugeLeave, (Hub.abortManual_sameGauge _ hq).gauge, Hub.modGauge_ne _ _ hq]
  · exact (Hub.abortManual_settings _ p).1
  · exact (Hub.abortManual_settings _ p).2
  · rw [Hub.gaugeLeave, Hub.abortManual_summary, Hub.modGauge_self, hidle]
    rfl

variable (old : Path) (s : PathState) (why : DownReason)

theorem Hub.tellChange_only : Hub.OnlyChanges (.mapping :: unitParts) h (h.tellChange p old s why) :=
  Hub.OnlyChanges.trans (.opt (.refl _ h) ((h.modBond_only _ _).mono (by decide)))
    (((Hub.notify_only _ _ _).mono (by decide)).trans ((Hub.label_only _ _).mono (by decide)))

theorem Hub.tellChange_heard : Hub.Heard (.pathState :: unitKinds) h (h.tellChange p old s why) :=
  ((h.tellBond_heard p old).trans (Hub.notify_heard _ (k := .pathState) (by decide) _)).trans
    ((Hub.label_heard _ _).mono (by decide))

theorem Hub.afterChange_recomputations :
    (h.afterChange p old s why).budget.recomputations = h.budget.recomputations + 1 := by
  have ht : h.budget = (h.tellChange p old s why).budget := h.tellChange_only p old s why .budget (by decide)
  have hl := (h.tellChange p old s why).leaveGauge_only p old s .budget (by decide)
  rw [Hub.afterChange_eq, Hub.recompute_budget, ht, hl]
  rfl

/-- Without a leaving the Gauge stays. -/
theorem Hub.afterChange_gauges_stay (hl : ¬ (old.carrying = true ∧ s ≠ .up ∧ s ≠ .paused)) :
    (h.afterChange p old s why).gauges = h.gauges := by
  have ht := h.tellChange_only p old s why .gauges (by decide)
  rw [Hub.afterChange_eq, Hub.leaveGauge, if_neg hl, ← (Hub.recompute_only _) .gauges (by decide)]
  exact ht.symm

/-- A path that leaves UP or PAUSED has its gauge left and the Budget recomputed. -/
theorem Hub.afterChange_gaugeLeft (hl : old.carrying = true ∧ s ≠ .up ∧ s ≠ .paused) :
    h.GaugeLeft (h.afterChange p old s why) p := by
  have hrec := h.afterChange_recomputations p old s why
  have hg : h.gauges = (h.tellChange p old s why).gauges := h.tellChange_only p old s why .gauges (by decide)
  have hsum : ∀ q : Fin 4, ((h.tellChange p old s why).notices[q]).summary.getLsbD 14 =
      (h.notices[q]).summary.getLsbD 14 := fun q => (h.tellChange_heard p old s why).summary_eq q (by decide) (by decide)
  obtain ⟨hleft, hothers, hauto, hwindow, hdone⟩ := (h.tellChange p old s why).gaugeLeave_gauges p
  have hafter : (h.afterChange p old s why).gauges = ((h.tellChange p old s why).gaugeLeave p).gauges := by
    rw [Hub.afterChange_eq, Hub.leaveGauge, if_pos hl]
    exact ((Hub.recompute_only _) .gauges (by decide)).symm
  have hnotices : ∀ q : Fin 4, ((h.afterChange p old s why).notices[q]).summary.getLsbD 14 =
      (((h.tellChange p old s why).gaugeLeave p).notices[q]).summary.getLsbD 14 := fun q => by
    rw [Hub.afterChange_eq, Hub.leaveGauge, if_pos hl]
    exact (Hub.recompute_heard _).summary_eq q (by decide) (by decide)
  unfold Hub.GaugeLeft
  rw [hafter, hg]
  refine ⟨hleft, hothers, hauto, hwindow, fun q => ?_, hrec⟩
  rw [hnotices, hdone, hsum]

end

/-! ### All that an evaluation does -/

/-- Whether a path leaves UP or PAUSED from one record to another. -/
def Path.Leaves (x y : Path) : Prop := (x.state = .up ∨ x.state = .paused) ∧ y.state ≠ .up ∧ y.state ≠ .paused

section
variable (h : Hub) (p : Fin 8) (f : Path → Path)

/-- PATH_STATE is given exactly at a change. -/
theorem Hub.evaluate_summary (hq : (h.paths.path[p]).Quiet (f h.paths.path[p])) (q : Fin 4) :
    ((Hub.evaluatePath p (h.modPath p f)).notices[q]).summary.getLsbD 13 = true ↔
      (h.notices[q]).summary.getLsbD 13 = true ∨
        ((Hub.evaluatePath p (h.modPath p f)).paths.path[p]).state ≠ (h.paths.path[p]).state := by
  have hf := h.evaluate_follows p f hq
  by_cases he : ((Hub.evaluatePath p (h.modPath p f)).paths.path[p]).state = (h.paths.path[p]).state
  · have hs : (f h.paths.path[p]).evaluate.1 = (f h.paths.path[p]).state := by
      rw [Hub.evaluatePath_self, Path.settled_state] at he
      rw [he, hq.state]
    rw [or_iff_left (not_not.mpr he), h.evaluate_stays p f hs]
    rfl
  · exact iff_of_true ((hf.enters p he).2 q).1 (.inr he)

theorem Hub.evaluate_recomputations (hq : (h.paths.path[p]).Quiet (f h.paths.path[p])) :
    (Hub.evaluatePath p (h.modPath p f)).budget.recomputations =
      if ((Hub.evaluatePath p (h.modPath p f)).paths.path[p]).state = (h.paths.path[p]).state then
        h.budget.recomputations
      else h.budget.recomputations + 1 := by
  rw [Hub.evaluatePath_self, Path.settled_state, ← hq.state]
  by_cases he : (f h.paths.path[p]).evaluate.1 = (f h.paths.path[p]).state
  · rw [if_pos he, h.evaluate_stays p f he]
    rfl
  · rw [if_neg he, h.evaluate_enters p f he, Hub.afterChange_recomputations]
    rfl

theorem Hub.evaluate_leaves (hq : (h.paths.path[p]).Quiet (f h.paths.path[p])) :
    ((h.paths.path[p]).Leaves (Hub.evaluatePath p (h.modPath p f)).paths.path[p] →
      h.GaugeLeft (Hub.evaluatePath p (h.modPath p f)) p) ∧
    (¬ (h.paths.path[p]).Leaves (Hub.evaluatePath p (h.modPath p f)).paths.path[p] →
      (Hub.evaluatePath p (h.modPath p f)).gauges = h.gauges) := by
  rw [Hub.evaluatePath_self]
  unfold Path.Leaves
  rw [Path.settled_state, ← hq.state]
  by_cases he : (f h.paths.path[p]).evaluate.1 = (f h.paths.path[p]).state
  · rw [h.evaluate_stays p f he, he]
    refine ⟨fun ⟨hc, hu, hp⟩ => ?_, fun _ => rfl⟩
    exact (hc.elim hu hp).elim
  · rw [h.evaluate_enters p f he, ← Path.carrying_iff]
    refine ⟨fun hl => ?_, fun hl => ?_⟩
    · exact (h.modPath p fun x => (f x).settled h.tb.frame.serial).afterChange_gaugeLeft p _ _ _ hl
    · rw [Hub.afterChange_gauges_stay _ _ _ _ _ hl]
      rfl

end

end Sys2Proof.Machine
end

section
/-! Proofs: the commands that evaluate a path (R93, R95, R107, R108) and the back channel (R94, R96). -/

namespace Sys2Proof.Machine

-- In order, so that the package in one text stays within the memory of its check.
set_option Elab.async false

/-! ### What an evaluation keeps of a record -/

/-- The fields of a path record that no change of state touches. -/
structure Path.Kept (x y : Path) : Prop where
  enabled : y.enabled = x.enabled
  pauseLimit : y.pauseLimit = x.pauseLimit
  lineRate : y.lineRate = x.lineRate
  hold : y.hold = x.hold
  holder : y.holder = x.holder
  resetCount : y.resetCount = x.resetCount
  releaseDue : y.releaseDue = x.releaseDue
  loss : y.loss = x.loss
  lines : y.lines = x.lines
  change : y.change = x.change
  heard : y.heard = x.heard
  breaks : y.counts.breaks = x.counts.breaks
  framing : y.counts.framing = x.counts.framing

theorem Path.Kept.refl (x : Path) : x.Kept x := ⟨rfl, rfl, rfl, rfl, rfl, rfl, rfl, rfl, rfl, rfl, rfl, rfl, rfl⟩

theorem Path.startTransmission_kept (x : Path) : x.Kept x.startTransmission := by
  unfold Path.startTransmission
  split
  · exact ⟨rfl, rfl, rfl, rfl, rfl, rfl, rfl, rfl, rfl, rfl, rfl, rfl, rfl⟩
  · exact .refl x

theorem Path.enter_kept (x : Path) (s : PathState) (why : DownReason) (w : Word) : x.Kept (x.enter s why w) := by
  cases s with
  | up =>
    obtain ⟨h₁, h₂, h₃, h₄, h₅, h₆, h₇, h₈, h₉, h₁₀, h₁₁, h₁₂, h₁₃⟩ := ({ x with
      state := .up, reason := why,
      upAllFrame := x.upAllFrame && (PathState.up == PathState.up || PathState.up == PathState.paused) } :
        Path).startTransmission_kept
    exact ⟨h₁, h₂, h₃, h₄, h₅, h₆, h₇, h₈, h₉, h₁₀, h₁₁, h₁₂, h₁₃⟩
  | _ => exact ⟨rfl, rfl, rfl, rfl, rfl, rfl, rfl, rfl, rfl, rfl, rfl, rfl, rfl⟩

theorem Path.settled_kept (x : Path) (w : Word) : x.Kept (x.settled w) := by
  unfold Path.settled
  split
  · exact ⟨rfl, rfl, rfl, rfl, rfl, rfl, rfl, rfl, rfl, rfl, rfl, rfl, rfl⟩
  · exact x.enter_kept _ _ w

/-! ### An evaluation as an answer reports it -/

/-- What a command that evaluates path p leaves, but for the record of the path. -/
structure Hub.EvaluationDone (g t : Hub) (p : Fin 8) : Prop where
  table : (t.paths.path[p]'p.2).Table38
  lines : (t.paths.path[p]'p.2).lines = (g.paths.path[p]'p.2).lines
  others : ∀ q, q ≠ p → t.paths.path[q]'q.2 = g.paths.path[q]'q.2
  moved : g.PathsMoved t g.tb.frame
  recomputed : t.budget.recomputations =
    if (t.paths.path[p]'p.2).state = (g.paths.path[p]'p.2).state then g.budget.recomputations else g.budget.recomputations + 1
  told : ∀ q : Fin 4, (t.notices[q]'q.2).summary.getLsbD 13 = true ↔
    (g.notices[q]'q.2).summary.getLsbD 13 = true ∨ (t.paths.path[p]'p.2).state ≠ (g.paths.path[p]'p.2).state
  leaves : (g.paths.path[p]).Leaves t.paths.path[p] → g.GaugeLeft t p
  stays : ¬ (g.paths.path[p]).Leaves t.paths.path[p] → t.gauges = g.gauges
  only : Hub.OnlyChanges pathParts g t

theorem Hub.evaluate_done (h : Hub) (p : Fin 8) (f : Path → Path) (hq : (h.paths.path[p]).Quiet (f h.paths.path[p]))
    (hl : (f h.paths.path[p]).lines = (h.paths.path[p]).lines) :
    h.EvaluationDone (Hub.evaluatePath p (h.modPath p f)) p where
  table := by
    rw [Hub.evaluatePath_self]
    exact Path.settled_table38 _
  lines := by rw [Hub.evaluatePath_self, (Path.settled_kept _ _).lines, hl]
  others q hne := h.evaluatePath_ne hne f
  moved := (h.evaluate_follows p f hq).moved (by omega)
  recomputed := h.evaluate_recomputations p f hq
  told := h.evaluate_summary p f hq
  leaves := (h.evaluate_leaves p f hq).1
  stays := (h.evaluate_leaves p f hq).2
  only := h.evaluate_only p f

/-- The same from the state before the command to the one after its answer. -/
theorem Hub.EvaluationDone.answered {g t : Hub} {p : Fin 8} (c : Caller) (code : Byte) (data : Bytes)
    (hd : (g.arrive c.env).EvaluationDone t p) :
    ((t.answer c code .done data).paths.path[p]'p.2).Table38 ∧
      ((t.answer c code .done data).paths.path[p]'p.2).lines = (g.paths.path[p]'p.2).lines ∧
      (∀ q, q ≠ p → (t.answer c code .done data).paths.path[q]'q.2 = g.paths.path[q]'q.2) ∧
      ((t.answer c code .done data).ports[c.port]).sending =
        some (false, { tag := c.tag, code := code, outcome := .done, data := data }) ∧
      g.PathsMoved (t.answer c code .done data) g.tb.frame ∧
      (t.answer c code .done data).budget.recomputations =
        (if ((t.answer c code .done data).paths.path[p]'p.2).state = (g.paths.path[p]'p.2).state then g.budget.recomputations
         else g.budget.recomputations + 1) ∧
      (∀ q : Fin 4, ((t.answer c code .done data).notices[q]'q.2).summary.getLsbD 13 = true ↔
        (g.notices[q]'q.2).summary.getLsbD 13 = true ∨
          ((t.answer c code .done data).paths.path[p]'p.2).state ≠ (g.paths.path[p]'p.2).state) ∧
      (((g.paths.path[p]).Leaves (t.answer c code .done data).paths.path[p] → g.GaugeLeft (t.answer c code .done data) p) ∧
        (¬ (g.paths.path[p]).Leaves (t.answer c code .done data).paths.path[p] →
          (t.answer c code .done data).gauges = g.gauges)) ∧
      Hub.OnlyChanges (.ports :: pathParts) g (t.answer c code .done data) :=
  ⟨hd.table, hd.lines, hd.others, Hub.answer_sending _ _ _ _ _, hd.moved, hd.recomputed, hd.told,
    ⟨hd.leaves, hd.stays⟩, Hub.OnlyChanges.answered _ _ _ _ (hd.only.mono (by decide)) (by decide)⟩

/-! ### The commands (R93, R95, R107, R108) -/

section
variable (h : Hub)

theorem Hub.setPath_bad {n : Byte} (hn : 7 < n.toNat) (enabled : Bool) (limit : Byte) (rate : BitVec 16) :
    h.setPath n enabled limit rate = h.refuse .badArg := by
  simp only [Hub.setPath, below_eq_none (n := 8) hn]

theorem Hub.clearLoss_badPath {n : Byte} (hn : 7 < n.toNat) (a : Byte) : h.clearLoss n a = h.refuse .badArg := by
  simp only [Hub.clearLoss, below_eq_none (n := 8) hn]

theorem Hub.pathReset_bad {n : Byte} (hn : 7 < n.toNat) (q : Fin 4) : h.pathReset q n = h.refuse .badArg := by
  simp only [Hub.pathReset, below_eq_none (n := 8) hn]

theorem Hub.pathRelease_bad {n : Byte} (hn : 7 < n.toNat) : h.pathRelease n = h.refuse .badArg := by
  simp only [Hub.pathRelease, below_eq_none (n := 8) hn]

/-- What SET PATH writes. -/
def Path.withSettings (enabled : Bool) (limit : Byte) (rate : BitVec 16) (x : Path) : Path :=
  { x with enabled := enabled, pauseLimit := clamp 1 250 limit.toNat, lineRate := clamp 1 1000 rate.toNat }

/-- What CLEAR LOSS clears. -/
def Path.cleared (a : Byte) (x : Path) : Path :=
  { x with loss := if a = 1 then x.loss else false, change := if a = 0 then x.change else false }

/-- What PATH RESET writes. -/
def Path.held (q : Fin 4) (x : Path) : Path :=
  { x with hold := true, holder := some q, resetCount := 0, releaseDue := false, loss := false }

theorem Hub.setPath_path (p : Fin 8) (enabled : Bool) (limit : Byte) (rate : BitVec 16) :
    h.setPath (byte p.val) enabled limit rate =
      (Hub.evaluatePath p (h.modPath p (Path.withSettings enabled limit rate)),
        .done (flagByte enabled ++ le 1 (clamp 1 250 limit.toNat) ++ le 2 (clamp 1 1000 rate.toNat))) := by
  simp only [Hub.setPath, below_byte p (by omega)]
  rw [Hub.modPath_self]
  rfl

theorem Hub.clearLoss_bad (p : Fin 8) {a : Byte} (ha : 2 < a.toNat) : h.clearLoss (byte p.val) a = h.refuse .badArg := by
  have hnone : latchesOf a = none := List.getElem?_eq_none ha
  simp only [Hub.clearLoss, below_byte p (by omega), hnone]

theorem Hub.clearLoss_path (p : Fin 8) {a : Byte} (ha : a.toNat ≤ 2) :
    h.clearLoss (byte p.val) a = (Hub.evaluatePath p (h.modPath p (Path.cleared a))).ok := by
  have hcases : a = 0 ∨ a = 1 ∨ a = 2 := by bv_omega
  unfold Hub.clearLoss
  rw [below_byte p (by omega)]
  rcases hcases with rfl | rfl | rfl
  · refine congrArg (fun g => (Hub.evaluatePath p g).ok) (h.modPath_congr ?_)
    simp [Path.cleared]
  · refine congrArg (fun g => (Hub.evaluatePath p g).ok) (h.modPath_congr ?_)
    simp [Path.cleared]
  · refine congrArg (fun g => (Hub.evaluatePath p g).ok) (h.modPath_congr ?_)
    simp [Path.cleared]

theorem Hub.pathReset_path (q : Fin 4) (p : Fin 8) :
    h.pathReset q (byte p.val) =
      if (h.paths.path[p]'p.2).state = .reset then h.refuse .conflict
      else (Hub.evaluatePath p (h.modPath p (Path.held q))).ok := by
  simp only [Hub.pathReset, below_byte p (by omega)]
  rfl

theorem Hub.pathRelease_path (p : Fin 8) :
    h.pathRelease (byte p.val) =
      if (h.paths.path[p]'p.2).state ≠ .reset ∨ (h.paths.path[p]'p.2).resetCount < 4 then h.refuse .conflict
      else (Hub.evaluatePath p (h.modPath p Path.release)).ok := by
  simp only [Hub.pathRelease, below_byte p (by omega)]

/-- A held path is in RESET. -/
theorem Path.evaluate_held {x : Path} (hx : x.hold = true) : x.evaluate = (.reset, .none) := if_pos hx

/-- PATH RESET on a path that is not in RESET. -/
theorem Hub.pathReset_record (q : Fin 4) (p : Fin 8) (hs : (h.paths.path[p]'p.2).state ≠ .reset) :
    let y := (Hub.evaluatePath p (h.modPath p (Path.held q))).paths.path[p]'p.2
    y.state = .reset ∧ y.hold = true ∧ y.holder = some q ∧ y.resetCount = 0 ∧ y.releaseDue = false ∧ y.loss = false ∧
      y.timeoutMark = false ∧ (h.paths.path[p]'p.2).Emptied y := by
  intro y
  have hy : y = ((h.paths.path[p]'p.2).held q).settled h.tb.frame.serial := h.evaluatePath_self p _
  have hstate : y.state = .reset := by
    rw [hy, Path.settled_state, Path.evaluate_held rfl]
  have hkept : ((h.paths.path[p]'p.2).held q).Kept y := hy ▸ Path.settled_kept _ _
  obtain ⟨hempty, hmark, -⟩ := ((h.evaluate_follows p (Path.held q) ⟨rfl, rfl, rfl, rfl, rfl⟩).enters p
    (by rw [show (Hub.evaluatePath p (h.modPath p (Path.held q))).paths.path[p]'p.2 = y from rfl, hstate]; exact Ne.symm hs)).1
  exact ⟨hstate, hkept.hold, hkept.holder, hkept.resetCount, hkept.releaseDue, hkept.loss, hmark (.inr hstate),
    hempty (.inr (.inl hstate))⟩

end

/-- Settles O40: each command writes the record, and the evaluation does the rest. -/
theorem pathCommandsEvaluate : Obligations.PathCommandsEvaluate := by
  intro c s hs g
  refine ⟨fun n hn => ⟨fun enabled limit rate => hs.run_none (g.setPath_bad hn enabled limit rate) nofun,
    fun a => hs.run_none (g.clearLoss_badPath hn a) nofun, hs.run_none (g.pathReset_bad hn c.port) nofun,
    hs.run_none (g.pathRelease_bad hn) nofun⟩, ?_⟩
  intro p x done
  have hquiet : ∀ f : Path → Path, (f x).state = x.state → (f x).fifo = x.fifo ∧ (f x).baseline = x.baseline ∧
      (f x).transmitting = x.transmitting ∧ (f x).counts.lostInFlight = x.counts.lostInFlight → (f x).lines = x.lines →
      g.EvaluationDone (Hub.evaluatePath p (g.modPath p f)) p := fun f hstate hunmoved hlines =>
    g.evaluate_done p f ⟨hstate, hunmoved⟩ hlines
  refine ⟨?_, fun a ha => hs.run_none (g.clearLoss_bad p ha) nofun, ?_, fun hr => hs.run_none ?_ nofun, ?_,
    fun hr => hs.run_none ?_ nofun, ?_⟩
  · intro enabled limit rate frames speed
    have hd := hquiet (Path.withSettings enabled limit rate) rfl ⟨rfl, rfl, rfl, rfl⟩ rfl
    have hkept := Path.settled_kept (Path.withSettings enabled limit rate x) s.hub.tb.frame.serial
    have hself : (Hub.evaluatePath p (g.modPath p (Path.withSettings enabled limit rate))).paths.path[p] = _ :=
      g.evaluatePath_self p _
    refine exists_became (hs.run_none (g.setPath_path p enabled limit rate) nofun) ?_
    generalize Hub.evaluatePath p (g.modPath p (Path.withSettings enabled limit rate)) = t at hd hself
    refine ⟨?_, hd.answered c 0x50 _⟩
    dsimp only
    rw [Hub.answer_paths, hself]
    exact ⟨hkept.enabled, hkept.pauseLimit, hkept.lineRate, hkept.loss, hkept.hold⟩
  · intro a ha
    have hd := hquiet (Path.cleared a) rfl ⟨rfl, rfl, rfl, rfl⟩ rfl
    have hkept := Path.settled_kept (Path.cleared a x) s.hub.tb.frame.serial
    have hself : (Hub.evaluatePath p (g.modPath p (Path.cleared a))).paths.path[p] = _ := g.evaluatePath_self p _
    refine exists_became (hs.run_none (g.clearLoss_path p ha) nofun) ?_
    generalize Hub.evaluatePath p (g.modPath p (Path.cleared a)) = t at hd hself
    refine ⟨?_, hd.answered c 0x51 _⟩
    dsimp only
    rw [Hub.answer_paths, hself]
    exact ⟨hkept.loss, hkept.change, hkept.enabled, hkept.hold⟩
  · exact (g.pathReset_path c.port p).trans (if_pos hr)
  · intro hr
    have hd := hquiet (Path.held c.port) rfl ⟨rfl, rfl, rfl, rfl⟩ rfl
    have hrec := g.pathReset_record c.port p hr
    refine exists_became (hs.run_none ((g.pathReset_path c.port p).trans (if_neg hr)) nofun) ?_
    generalize Hub.evaluatePath p (g.modPath p (Path.held c.port)) = t at hd hrec
    exact ⟨hrec, hd.answered c 0x56 _⟩
  · exact (g.pathRelease_path p).trans (if_pos hr)
  · intro hr hcount
    have hd := hquiet Path.release rfl ⟨rfl, rfl, rfl, rfl⟩ rfl
    have hkept := Path.settled_kept (Path.release x) s.hub.tb.frame.serial
    have hself : (Hub.evaluatePath p (g.modPath p Path.release)).paths.path[p] = _ := g.evaluatePath_self p _
    have hfree : ¬ ((g.paths.path[p]).state ≠ .reset ∨ (g.paths.path[p]).resetCount < 4) :=
      not_or.mpr ⟨not_not.mpr hr, Nat.not_lt.mpr hcount⟩
    refine exists_became (hs.run_none ((g.pathRelease_path p).trans (if_neg hfree)) nofun) ?_
    generalize Hub.evaluatePath p (g.modPath p Path.release) = t at hd hself
    refine ⟨?_, hd.answered c 0x57 _⟩
    dsimp only
    rw [Hub.answer_paths, hself]
    exact ⟨hkept.hold, hkept.holder, hkept.releaseDue, hkept.enabled⟩

end Sys2Proof.Machine
end

section
/-! Proofs: the back channel (R94, R96) and what an increment makes of a gauge (R114, R116, R117, R121). -/

namespace Sys2Proof.Machine

-- In order, so that the package in one text stays within the memory of its check.
set_option Elab.async false

/-! ### Writes of a gauge -/

section
variable (h : Hub)

theorem Hub.modGauge_modGauge (p : Fin 8) (f g : Gauge → Gauge) :
    (h.modGauge p f).modGauge p g = h.modGauge p fun x => g (f x) := by
  simp [Hub.modGauge]

/-- A write of a gauge reads the gauges alone. -/
theorem Hub.modGauge_gauges {g : Hub} (hg : g.gauges = h.gauges) (p : Fin 8) (f : Gauge → Gauge) :
    (g.modGauge p f).gauges = (h.modGauge p f).gauges := by
  unfold Hub.modGauge
  rw [hg]

theorem Hub.endCycle_gauges (p : Fin 8) (v0 t1 : Nat) :
    (h.endCycle p v0 t1).gauges = (h.modGauge p fun x => x.endCycle v0 t1).gauges :=
  (((Hub.notify_only _ _ _) .gauges (by decide)).trans ((Hub.recompute_only _) .gauges (by decide))).symm

/-- A manual gauge with its result (R122). -/
def Gauge.endManual (result now : Nat) (x : Gauge) : Gauge :=
  { x with manual := .idle, manualCount := x.manualCycles now, result := some (x.volume, BitVec.ofNat 32 result) }

theorem Hub.endManual_gauges (p : Fin 8) (result : Nat) :
    (h.endManual p result).gauges = (h.modGauge p (Gauge.endManual result h.now)).gauges := rfl

/-- An automatic cycle that hears of n bytes (R114, R116). -/
def Gauge.heardAuto (n now : Nat) (x : Gauge) : Gauge :=
  match x.phase with
  | .idle => x
  | .step1 => { x with sum := x.sum + n }
  | .step2 =>
    if x.v0 ≤ x.sum + n then
      ({ x with sum := x.sum + n, count2 := x.step2Count now } : Gauge).endCycle x.v0 (x.step2Count now)
    else { x with sum := x.sum + n }

/-- A manual gauge that hears of n bytes (R114, R121). -/
def Gauge.heardManual (n now : Nat) (x : Gauge) : Gauge :=
  if x.manual = .running then
    if x.volume ∧ x.gate ≤ x.manualSum + n then
      ({ x with manualSum := x.manualSum + n } : Gauge).endManual (x.manualCycles now) now
    else { x with manualSum := x.manualSum + n }
  else x

theorem Gauge.heardAuto_idle {x : Gauge} (hp : x.phase = .idle) (n now : Nat) : x.heardAuto n now = x := by
  simp only [Gauge.heardAuto, hp]

theorem Gauge.heardAuto_step1 {x : Gauge} (hp : x.phase = .step1) (n now : Nat) :
    x.heardAuto n now = { x with sum := x.sum + n } := by
  simp only [Gauge.heardAuto, hp]

theorem Gauge.heardAuto_step2 {x : Gauge} (hp : x.phase = .step2) (n now : Nat) :
    x.heardAuto n now =
      if x.v0 ≤ x.sum + n then
        ({ x with sum := x.sum + n, count2 := x.step2Count now } : Gauge).endCycle x.v0 (x.step2Count now)
      else { x with sum := x.sum + n } := by
  simp only [Gauge.heardAuto, hp]

theorem Hub.autoIncrement_gauges (p : Fin 8) (n : Nat) :
    (h.autoIncrement p n).gauges = (h.modGauge p (Gauge.heardAuto n h.now)).gauges := by
  unfold Hub.autoIncrement
  dsimp only
  split
  next hp =>
    refine congrArg Hub.gauges (Eq.trans ?_ (h.modGauge_congr (f := id) ?_))
    · simp [Hub.modGauge]
    · exact (Gauge.heardAuto_idle hp _ _).symm
  next hp => exact congrArg Hub.gauges (h.modGauge_congr (Gauge.heardAuto_step1 hp _ _).symm)
  next hp =>
    split
    next hv =>
      rw [Hub.endStep2, Hub.endCycle_gauges, Hub.modGauge_modGauge, Hub.modGauge_modGauge]
      refine congrArg Hub.gauges (h.modGauge_congr ?_)
      rw [Gauge.heardAuto_step2 hp, if_pos hv, Hub.modGauge_self]
      rfl
    next hv => exact congrArg Hub.gauges (h.modGauge_congr ((Gauge.heardAuto_step2 hp _ _).trans (if_neg hv)).symm)

theorem Gauge.heardManual_still {x : Gauge} (hm : x.manual ≠ .running) (n now : Nat) : x.heardManual n now = x := if_neg hm

theorem Gauge.heardManual_running {x : Gauge} (hm : x.manual = .running) (n now : Nat) :
    x.heardManual n now =
      if x.volume ∧ x.gate ≤ x.manualSum + n then
        ({ x with manualSum := x.manualSum + n } : Gauge).endManual (x.manualCycles now) now
      else { x with manualSum := x.manualSum + n } := if_pos hm

theorem Hub.manualIncrement_gauges (p : Fin 8) (n : Nat) :
    (h.manualIncrement p n).gauges = (h.modGauge p (Gauge.heardManual n h.now)).gauges := by
  unfold Hub.manualIncrement
  dsimp only
  split
  next hm =>
    split
    next hv =>
      rw [Hub.endManual_gauges, Hub.modGauge_modGauge]
      refine congrArg Hub.gauges (h.modGauge_congr ?_)
      rw [Gauge.heardManual_running hm, if_pos hv]
      rfl
    next hv => exact congrArg Hub.gauges (h.modGauge_congr ((Gauge.heardManual_running hm _ _).trans (if_neg hv)).symm)
  next hm =>
    refine congrArg Hub.gauges (Eq.trans ?_ (h.modGauge_congr (f := id) ?_))
    · simp [Hub.modGauge]
    · exact (Gauge.heardManual_still hm _ _).symm

@[simp] theorem Hub.autoIncrement_moment (p : Fin 8) (n : Nat) : (h.autoIncrement p n).moment = h.moment := by
  unfold Hub.autoIncrement
  dsimp only
  repeat' split
  all_goals simp [Hub.endStep2]

/-- What an increment makes of the Gauge. -/
theorem Hub.increment_gauges (p : Fin 8) (n : Nat) :
    (h.increment p n).gauges = (h.modGauge p fun x => (x.heardAuto n h.now).heardManual n h.now).gauges := by
  have hnow : (h.autoIncrement p n).now = h.now := congrArg Prod.fst (h.autoIncrement_moment p n)
  rw [Hub.increment, Hub.manualIncrement_gauges, hnow, Hub.modGauge_gauges _ (h.autoIncrement_gauges p n),
    Hub.modGauge_modGauge]

theorem Hub.increment_gauge (p : Fin 8) (n : Nat) :
    (h.increment p n).gauges.path[p]'p.2 = ((h.gauges.path[p]'p.2).heardAuto n h.now).heardManual n h.now := by
  rw [Hub.increment_gauges, Hub.modGauge_self]

theorem Hub.increment_gauge_ne {p q : Fin 8} (hq : q ≠ p) (n : Nat) :
    (h.increment p n).gauges.path[q]'q.2 = h.gauges.path[q]'q.2 := by
  rw [Hub.increment_gauges, Hub.modGauge_ne _ _ hq]

/-- Step 2 of a cycle that has its bytes ends with GAUGE_DONE. -/
theorem Hub.increment_doneAuto {p : Fin 8} {n : Nat} (hp : (h.gauges.path[p]'p.2).phase = .step2)
    (hn : (h.gauges.path[p]'p.2).v0 ≤ (h.gauges.path[p]'p.2).sum + n) (q : Fin 4) :
    ((h.increment p n).notices[q]'q.2).summary.getLsbD 14 = true := by
  refine (Hub.manualIncrement_heard _ p n).summary_mono q (by decide) ?_
  have hauto : h.autoIncrement p n =
      (h.modGauge p fun y => { y with sum := y.sum + n }).endStep2 p ((h.gauges.path[p]'p.2).step2Count h.now) := by
    simp only [Hub.autoIncrement, hp, if_pos hn, Hub.modGauge_now]
  rw [hauto, Hub.endStep2]
  exact Hub.endCycle_summary _ p _ _ q

/-- A VOLUME gauge that has its bytes ends with GAUGE_DONE. -/
theorem Hub.increment_doneVolume {p : Fin 8} {n : Nat} (hp : (h.gauges.path[p]'p.2).phase = .idle)
    (hm : (h.gauges.path[p]'p.2).manual = .running) (hv : (h.gauges.path[p]'p.2).volume = true)
    (hn : (h.gauges.path[p]'p.2).gate ≤ (h.gauges.path[p]'p.2).manualSum + n) (q : Fin 4) :
    ((h.increment p n).notices[q]'q.2).summary.getLsbD 14 = true := by
  have hauto : h.autoIncrement p n = h := by simp only [Hub.autoIncrement, hp]
  rw [Hub.increment, hauto, Hub.manualIncrement, if_pos hm]
  dsimp only
  rw [if_pos ⟨hv, hn⟩]
  exact Hub.endManual_summary _ p _ q

end

/-! ### Reports (R96) -/

section
variable (h : Hub) {p : Fin 8} (unused : BitVec 24) (count : Word)

/-- A path that hears a receipt report and counts it. -/
def Path.reported (x : Path) : Path := { x with heard := true, counts := { x.counts with reports := x.counts.reports + 1 } }

theorem Hub.receiptReport_void (hc : (h.paths.path[p]'p.2).carrying = false) (check : Word) :
    Hub.receiptReport p unused count check h = h.modPath p fun y => { y with heard := true } := by
  unfold Hub.receiptReport
  dsimp only
  rw [Hub.modPath_self,
    if_neg (by rw [show (({ h.paths.path[p]'p.2 with heard := true } : Path).carrying) = _ from hc]; nofun)]

theorem Hub.receiptReport_bad (hc : (h.paths.path[p]'p.2).carrying = true) {check : Word}
    (hw : ¬ crc32 (reportFields unused count) = check) :
    Hub.receiptReport p unused count check h =
      h.modPath p fun y => { y with heard := true, counts := { y.counts with bad := y.counts.bad + 1 } } := by
  unfold Hub.receiptReport
  dsimp only
  rw [Hub.modPath_self, if_pos (show (({ h.paths.path[p]'p.2 with heard := true } : Path).carrying) = true from hc),
    if_neg hw, Hub.modPath_modPath]

theorem Hub.receiptReport_taken (hc : (h.paths.path[p]'p.2).carrying = true) {check : Word}
    (hw : crc32 (reportFields unused count) = check) :
    Hub.receiptReport p unused count check h =
      Hub.takeReport p count (h.modPath p fun y => { y with heard := true }) := by
  unfold Hub.receiptReport
  dsimp only
  rw [Hub.modPath_self, if_pos (show (({ h.paths.path[p]'p.2 with heard := true } : Path).carrying) = true from hc),
    if_pos hw]

/-- What a report that is taken does, by the baseline. -/
theorem Hub.takeReport_heard :
    Hub.takeReport p count (h.modPath p fun y => { y with heard := true }) =
      match (h.paths.path[p]'p.2).baseline with
      | none => h.modPath p fun y => { y.reported with baseline := some count }
      | some b =>
        if 2147483648 < (count - b).toNat then
          h.modPath p fun y => { y.reported with counts := { y.reported.counts with stale := y.counts.stale + 1 } }
        else (h.modPath p fun y => { y.reported with baseline := some count }).increment p (count - b).toNat := by
  unfold Hub.takeReport
  dsimp only
  rw [Hub.modPath_modPath, Hub.modPath_self]
  cases hb : (h.paths.path[p]'p.2).baseline with
  | none => simp only [Hub.modPath_modPath]; rfl
  | some b => simp only [Hub.modPath_modPath]; rfl

end

section
variable (h : Hub) (p : Fin 8)

/-- What a framing error on a path that is UP or PAUSED writes before the evaluation. -/
def Path.framed (x : Path) : Path := { x with counts := { x.counts with framing := x.counts.framing + 1 }, loss := true }

theorem Hub.framingError_void (hc : (h.paths.path[p]'p.2).carrying = false) :
    Hub.framingError p h = h.modPath p fun y => { y with counts := { y.counts with framing := y.counts.framing + 1 } } := by
  unfold Hub.framingError
  dsimp only
  rw [Hub.modPath_self]
  exact if_neg (by rw [Path.carrying] at hc ⊢; rw [hc]; nofun)

theorem Hub.framingError_taken (hc : (h.paths.path[p]'p.2).carrying = true) :
    Hub.framingError p h = Hub.evaluatePath p (h.modPath p Path.framed) := by
  unfold Hub.framingError
  dsimp only
  rw [Hub.modPath_self, Hub.modPath_modPath]
  exact if_pos hc

/-- An enabled path that is not held and has its loss latched is DOWN. -/
theorem Path.evaluate_lost {x : Path} (hh : x.hold = false) (he : x.enabled = true) (hl : x.loss = true) :
    x.evaluate.1 = .down := by
  cases hc : carrierOf x.lines <;> cases hk : linkOkOf x.lines <;> simp [Path.evaluate, hh, he, hl, hc, hk]

/-- A framing error takes a path that carries DOWN. -/
theorem Hub.framingError_record (hc : (h.paths.path[p]'p.2).carrying = true) (hh : (h.paths.path[p]'p.2).hold = false)
    (he : (h.paths.path[p]'p.2).enabled = true) :
    let y := (Hub.evaluatePath p (h.modPath p Path.framed)).paths.path[p]'p.2
    y.loss = true ∧ y.counts.framing = (h.paths.path[p]'p.2).counts.framing + 1 ∧ y.lines = (h.paths.path[p]'p.2).lines ∧
      y.state = .down ∧ y.Table38 ∧ (h.paths.path[p]'p.2).Emptied y := by
  intro y
  have hy : y = ((h.paths.path[p]'p.2).framed).settled h.tb.frame.serial := h.evaluatePath_self p _
  have hstate : y.state = .down :=
    by rw [hy, Path.settled_state, Path.evaluate_lost (x := (h.paths.path[p]'p.2).framed) hh he rfl]
  have hkept : ((h.paths.path[p]'p.2).framed).Kept y := hy ▸ Path.settled_kept _ _
  have hne : y.state ≠ (h.paths.path[p]'p.2).state := fun heq => by
    rw [hstate] at heq
    rcases ((h.paths.path[p]'p.2).carrying_iff).mp hc with hs | hs <;> exact absurd (heq.trans hs) nofun
  obtain ⟨hempty, -⟩ := ((h.evaluate_follows p Path.framed ⟨rfl, rfl, rfl, rfl, rfl⟩).enters p hne).1
  exact ⟨hkept.loss, hkept.framing, hkept.lines, hstate, hy ▸ Path.settled_table38 _, hempty (.inr (.inr hstate))⟩

end

/-- Settles O33: a framing error is an evaluation with the loss latched, a report is judged by its check and the baseline. -/
theorem backChannelIsJudged : Obligations.BackChannelIsJudged := by
  intro e p s hs g x carrying
  have hcarry : (g.paths.path[p]'p.2).carrying = true ↔ carrying := Path.carrying_iff _
  refine ⟨State.run_free hs fun h => (h.arrive e).modPath p fun y => { y with heard := true }, fun hc => ?_, fun hc => ?_⟩
  · have hno : (g.paths.path[p]'p.2).carrying = false := Bool.eq_false_iff.mpr fun ht => hc (hcarry.mp ht)
    exact ⟨(State.run_free hs fun h => Hub.framingError p (h.arrive e)).trans (congrArg s.became (g.framingError_void p hno)),
      fun unused count check => (State.run_free hs fun h => Hub.receiptReport p unused count check (h.arrive e)).trans
        (congrArg s.became (g.receiptReport_void unused count hno check))⟩
  · have hyes := hcarry.mpr hc
    refine ⟨fun hh he => ?_, ?_⟩
    · have hd := g.evaluate_done p Path.framed ⟨rfl, rfl, rfl, rfl, rfl⟩ rfl
      have hrec := g.framingError_record p hyes hh he
      refine exists_became ((State.run_free hs fun h => Hub.framingError p (h.arrive e)).trans
        (congrArg s.became (g.framingError_taken p hyes))) ?_
      generalize Hub.evaluatePath p (g.modPath p Path.framed) = t at hd hrec
      obtain ⟨hloss, hframing, hlines, hdown, htable, hempty⟩ := hrec
      have hne : (t.paths.path[p]'p.2).state ≠ (g.paths.path[p]'p.2).state := fun heq => by
        rw [hdown] at heq
        rcases hc with hu | hu <;> exact absurd (heq.trans hu) nofun
      exact ⟨⟨hloss, hframing, hlines, hdown, htable, hempty⟩, hd.moved, hd.others,
        hd.leaves ⟨hc, by rw [hdown]; nofun, by rw [hdown]; nofun⟩, fun q => (hd.told q).mpr (.inr hne), hd.only⟩
    · intro unused count check right cmd heard
      have hrun : exec cmd s = s.became (Hub.receiptReport p unused count check g) :=
        State.run_free hs fun h => Hub.receiptReport p unused count check (h.arrive e)
      refine ⟨fun hw => hrun.trans (congrArg s.became (g.receiptReport_bad unused count hyes hw)), fun hw hb => ?_,
        fun b hw hb => ⟨fun hn => ?_, fun hn => ?_⟩⟩
      · rw [hrun, g.receiptReport_taken unused count hyes hw, g.takeReport_heard]
        simp only [show (g.paths.path[p]'p.2).baseline = none from hb]
        exact congrArg s.became (g.modPath_congr rfl)
      · rw [hrun, g.receiptReport_taken unused count hyes hw, g.takeReport_heard]
        simp only [show (g.paths.path[p]'p.2).baseline = some b from hb, if_pos hn]
        exact congrArg s.became (g.modPath_congr rfl)
      · have htaken : exec cmd s =
            s.became ((g.modPath p fun y => { y.reported with baseline := some count }).increment p (count - b).toNat) := by
          rw [hrun, g.receiptReport_taken unused count hyes hw, g.takeReport_heard]
          simp only [show (g.paths.path[p]'p.2).baseline = some b from hb, if_neg (Nat.not_lt.mpr hn)]
        refine exists_became htaken ?_
        have honly := (g.modPath p fun y => { y.reported with baseline := some count }).increment_only p (count - b).toNat
        have hg := fun (q : Fin 8) (hq : q ≠ p) => (g.modPath p fun y =>
          { y.reported with baseline := some count }).increment_gauge_ne hq (count - b).toNat
        have hpath := honly .pathRecords (by decide)
        have hall := ((g.modPath_only p fun y => { y.reported with baseline := some count }).mono (large :=
          [.pathRecords, .gauges, .budget, .notices]) (by decide)).trans (honly.mono (by decide))
        generalize (g.modPath p fun y => { y.reported with baseline := some count }).increment p (count - b).toNat = t
          at honly hg hpath hall
        have hrec : t.paths.path = (g.modPath p fun y => { y.reported with baseline := some count }).paths.path := hpath.symm
        dsimp only
        rw [hrec]
        exact ⟨g.modPath_self p _, fun q hq => ⟨g.modPath_ne _ hq, hg q hq⟩, hall⟩

/-- What a report that runs forward on a path that is UP or PAUSED leaves of the path's gauge. -/
theorem Hub.report_gauge (h : Hub) {p : Fin 8} (unused : BitVec 24) {count base : Word}
    (hc : (h.paths.path[p]'p.2).carrying = true) (hb : (h.paths.path[p]'p.2).baseline = some base)
    (hn : (count - base).toNat ≤ 2147483648) :
    let g := h.modPath p fun y => { y.reported with baseline := some count }
    Hub.receiptReport p unused count (crc32 (reportFields unused count)) h = g.increment p (count - base).toNat := by
  intro g
  rw [h.receiptReport_taken unused count hc rfl, h.takeReport_heard]
  simp only [hb, if_neg (Nat.not_lt.mpr hn)]
  rfl

/-- Settles O42: the increment in the automatic cycle and then in the manual gauge. -/
theorem incrementsReachTheGauge : Obligations.IncrementsReachTheGauge := by
  intro e p unused count base s hs hc hb hn n now x cmd
  have hcarry : ((s.hub.arrive e).paths.path[p]'p.2).carrying = true := (Path.carrying_iff _).mpr hc
  refine exists_became ((State.run_free hs fun h => Hub.receiptReport p unused count _ (h.arrive e)).trans
    (congrArg s.became ((s.hub.arrive e).report_gauge unused hcarry hb hn))) ?_
  set g := (s.hub.arrive e).modPath p fun y => { y.reported with baseline := some count } with hg
  have hgauge : (g.increment p n).gauges.path[p]'p.2 = (x.heardAuto n now).heardManual n now := g.increment_gauge p n
  have hauto : x.phase = .step2 → x.v0 ≤ x.sum + n → ∀ q : Fin 4,
      ((g.increment p n).notices[q]'q.2).summary.getLsbD 14 = true := fun h₁ h₂ => g.increment_doneAuto h₁ h₂
  have hvolume : x.phase = .idle → x.manual = .running → x.volume = true → x.gate ≤ x.manualSum + n →
      ∀ q : Fin 4, ((g.increment p n).notices[q]'q.2).summary.getLsbD 14 = true := fun h₁ h₂ h₃ h₄ =>
    g.increment_doneVolume h₁ h₂ h₃ h₄
  clear_value g
  generalize g.increment p n = t at hgauge hauto hvolume
  intro y
  have hy : y = (x.heardAuto n now).heardManual n now := hgauge
  refine ⟨fun hp hm => ?_, fun hp hm => ?_, fun hp hm => ⟨fun hv => ?_, ?_⟩, fun hp hm => ⟨fun hv => ?_, ?_⟩⟩
  · rw [hy, Gauge.heardAuto_idle hp, Gauge.heardManual_still hm]
  · rw [hy, Gauge.heardAuto_step1 hp]
    exact Gauge.heardManual_still (by exact hm) n now
  · rw [hy, Gauge.heardAuto_step2 hp, if_neg (Nat.not_le.mpr hv)]
    exact Gauge.heardManual_still (by exact hm) n now
  · intro hv t1 c u
    have hcount : x.step2Count now = t1 := if_pos hp
    refine ⟨?_, hauto hp hv⟩
    rw [hy, Gauge.heardAuto_step2 hp, if_pos hv, hcount]
    exact Gauge.heardManual_still (by exact hm) n now
  · rw [hy, Gauge.heardAuto_idle hp, Gauge.heardManual_running hm, if_neg fun hb => hv.elim
      (fun hf => Bool.false_ne_true (hf.symm.trans hb.1)) fun hl => absurd hb.2 (Nat.not_le.mpr hl)]
  · intro hv hgate cycles
    have hcycles : ∀ k : Nat, ({ x with manualSum := k } : Gauge).manualCycles now = cycles := fun k => if_pos ⟨hm, hv⟩
    refine ⟨?_, hvolume hp hm hv hgate⟩
    rw [hy, Gauge.heardAuto_idle hp, Gauge.heardManual_running hm, if_pos ⟨hv, hgate⟩, Gauge.endManual, hcycles,
      show x.manualCycles now = cycles from if_pos ⟨hm, hv⟩, hv]

end Sys2Proof.Machine
end

section
/-! Proofs: what a unit that is offered leaves of the stream records (R29, R32, R37, R41), and paths that are released
(R108, R109). -/

namespace Sys2Proof.Machine

-- In order, so that the package in one text stays within the memory of its check.
set_option Elab.async false

/-! ### Streams that stand -/

/-- A stream record without what the Store counts and marks in it. -/
def Stream.standing (x : Stream) : Stream :=
  { x with releaseMark := 0, committed := 0, discarded := 0, lost := 0, skipped := 0 }

/-- Between two hubs every stream stands as it did, and but for the streams of a set none had a unit discarded. -/
def Hub.StreamsStand (S : Fin 16 → Prop) (g h : Hub) : Prop :=
  ∀ k, (h.stream k).standing = (g.stream k).standing ∧ (¬ S k → (h.stream k).discarded = (g.stream k).discarded)

section
variable {S T : Fin 16 → Prop} {a b c g h : Hub}

theorem Hub.StreamsStand.refl (S : Fin 16 → Prop) (h : Hub) : Hub.StreamsStand S h h := fun _ => ⟨rfl, fun _ => rfl⟩

theorem Hub.StreamsStand.trans (h₁ : Hub.StreamsStand S a b) (h₂ : Hub.StreamsStand S b c) : Hub.StreamsStand S a c :=
  fun k => ⟨(h₂ k).1.trans (h₁ k).1, fun hk => ((h₂ k).2 hk).trans ((h₁ k).2 hk)⟩

theorem Hub.StreamsStand.mono (hg : Hub.StreamsStand S g h) (hS : ∀ k, S k → T k) : Hub.StreamsStand T g h :=
  fun k => ⟨(hg k).1, fun hk => (hg k).2 (mt (hS k) hk)⟩

theorem Hub.StreamsStand.ite {q : Prop} [Decidable q] (h₁ : Hub.StreamsStand S g a) (h₂ : Hub.StreamsStand S g b) :
    Hub.StreamsStand S g (if q then a else b) := by
  split
  · exact h₁
  · exact h₂

/-- A change that is made under a condition alone. -/
theorem Hub.StreamsStand.opt {q : Prop} [Decidable q] (h₁ : Hub.StreamsStand S g a) (h₂ : Hub.StreamsStand S a b) :
    Hub.StreamsStand S g (if q then b else a) := .ite (h₁.trans h₂) h₁

theorem Hub.StreamsStand.of_only {parts : List Part} (ho : Hub.OnlyChanges parts g h) (hp : Part.streams ∉ parts) :
    Hub.StreamsStand S g h := fun k => by
  rw [ho.stream_eq hp k]
  exact ⟨rfl, fun _ => rfl⟩

theorem Hub.StreamsStand.foldl {α : Type} {f : Hub → α → Hub} (hf : ∀ g x, Hub.StreamsStand S g (f g x)) (xs : List α) :
    ∀ h, Hub.StreamsStand S h (xs.foldl f h) := by
  induction xs with
  | nil => exact fun h => .refl S h
  | cons x xs ih => exact fun h => (hf h x).trans (ih _)

theorem Hub.StreamsStand.forEach {n : Nat} {f : Fin n → Hub → Hub} (hf : ∀ i g, Hub.StreamsStand S g (f i g)) (h : Hub) :
    Hub.StreamsStand S h (h.forEach n f) := .foldl (fun g i => hf i g) _ h

/-- What stands of a stream. -/
theorem Stream.standing_eq {x y : Stream} (hs : x.standing = y.standing) :
    x.state = y.state ∧ x.discard = y.discard ∧ x.setter = y.setter ∧ x.global = y.global ∧ x.fromHeld = y.fromHeld ∧
      x.buffer = y.buffer ∧ x.builder = y.builder := by
  unfold Stream.standing at hs
  simp only [Stream.mk.injEq] at hs
  obtain ⟨h₁, h₂, h₃, h₄, h₅, -, -, -, -, -, h₆, h₇⟩ := hs
  exact ⟨h₁, h₂, h₃, h₄, h₅, h₆, h₇⟩

end

section
variable {S : Fin 16 → Prop} (h : Hub)

theorem Hub.modStream_stands (k : Fin 16) {f : Stream → Stream} (hf : ∀ x, (f x).standing = x.standing)
    (hd : S k ∨ ∀ x, (f x).discarded = x.discarded) : Hub.StreamsStand S h (h.modStream k f) := fun j => by
  by_cases hj : j = k
  · subst hj
    rw [Hub.modStream_self]
    exact ⟨hf _, fun hn => (hd.resolve_left hn) _⟩
  · rw [Hub.modStream_ne _ _ hj]
    exact ⟨rfl, fun _ => rfl⟩

theorem Hub.carryMarks_stands (old : Word) : Hub.StreamsStand S h (h.carryMarks old) := fun k => by
  simp only [Hub.carryMarks, Hub.stream, Fin.getElem_fin, Vector.getElem_ofFn]
  split <;> exact ⟨rfl, fun _ => rfl⟩

theorem Hub.removeTail_stands (r : Fin 17) (e : Entry) : Hub.StreamsStand S h (h.removeTail r e) := by
  have hlose : ∀ g : Hub, Hub.StreamsStand S g (g.loseUnsent r e) := fun g => by
    have hcount : Hub.StreamsStand S g
        ((g.moveSend r (e.key r + 1)).modStream e.stream fun st => { st with lost := st.lost + 1 }) :=
      (Hub.StreamsStand.of_only (g.moveSend_only r _) (by decide)).trans
        (Hub.modStream_stands _ _ (fun _ => rfl) (.inr fun _ => rfl))
    unfold Hub.loseUnsent
    exact .ite hcount (hcount.trans (.of_only (Hub.notify_only _ _ _) (by decide)))
  unfold Hub.removeTail
  dsimp only
  refine .opt (.trans (.opt (.opt (.refl _ _) (.of_only (Hub.lapseRetainers_only _ _ _ h) (by decide))) (hlose _))
    (.of_only (Hub.modRing_only _ r _) (by decide))) (Hub.carryMarks_stands _ _)

theorem Hub.makeRoom_stands (r : Fin 17) (len : Nat) :
    ∀ (n : Nat) (h : Hub), Hub.StreamsStand S h (Hub.makeRoom r len n h)
  | 0, h => .refl S h
  | n + 1, h => by
    unfold Hub.makeRoom
    refine .ite ?_ (.refl S h)
    split
    · exact .refl S h
    · exact (h.removeTail_stands r _).trans (Hub.makeRoom_stands r len n _)

theorem Hub.writeUnit_stands (r : Fin 17) (o : Offer) (unit : Word) (w : Option Word) :
    Hub.StreamsStand S h (h.writeUnit r o unit w) := by
  have hmem : ∀ m, Hub.OnlyChanges [.memory] h { h with store := { h.store with mem := m } } := fun m x hx => by
    cases x <;> simp_all [Part.same]
  unfold Hub.writeUnit
  exact .opt (.trans (.trans (.of_only (hmem _) (by decide)) (.of_only (Hub.modRing_only _ r _) (by decide)))
    (Hub.modStream_stands _ o.stream (fun _ => rfl) (.inr fun _ => rfl))) (.of_only (Hub.modRing_only _ _ _) (by decide))

theorem Hub.commit_stands (o : Offer) : Hub.StreamsStand S h (h.commit o).1 := by
  unfold Hub.commit
  exact (Hub.makeRoom_stands _ _ _ h).trans ((Hub.writeUnit_stands _ _ o _ _).trans
    ((Hub.StreamsStand.of_only (Hub.ringNotices_only _ _ _ _) (by decide)).trans
      ((Hub.StreamsStand.of_only (Hub.mapClips_only _ _) (by decide)).trans
        (.of_only (Hub.mapClips_only _ _) (by decide)))))

theorem Hub.judge_stands {o : Offer} (hS : S o.stream) : Hub.StreamsStand S h (h.judge o).1 := by
  have hd : Hub.StreamsStand S h (h.countDiscard o.stream) := h.modStream_stands _ (fun _ => rfl) (.inl hS)
  unfold Hub.judge
  dsimp only
  repeat' split
  · exact .refl S h
  · exact hd
  · exact hd
  · exact hd
  · exact h.commit_stands o

theorem Hub.offer_stands {o : Offer} (hS : S o.stream) : Hub.StreamsStand S h (h.offer o).1 :=
  (h.judge_stands hS).trans (.of_only (Hub.testClips_only _ _ _) (by decide))

/-- A label's unit goes to stream 12. -/
theorem Hub.fileLabel_stands (d : Draft) (named : Option Word) (hS : S 12) :
    Hub.StreamsStand S h (h.fileLabel d named).1 := by
  unfold Hub.fileLabel
  split
  · refine .trans (.trans (.of_only (h.modLog_only fun l => l.store d) (by decide))
      (.of_only (Hub.modLog_only _ fun l => l.link h.log.nextLabel d named) (by decide))) ?_
    unfold Hub.offerLabel
    exact .ite (Hub.offer_stands _ (by exact hS)) (.refl _ _)
  · exact .of_only (h.modLog_only _) (by decide)

theorem Hub.arriveLabel_stands (d : Draft) (named : Option Word) (hS : S 12) :
    Hub.StreamsStand S h (h.arriveLabel d named).1 := by
  rw [Hub.arriveLabel_fst]
  exact .trans (.trans (.of_only (h.offerTriggers_only d) (by decide)) (Hub.fileLabel_stands _ d named hS))
    (.foldl (f := fun g t => (Hub.fileLabel g t none).1) (fun g t => g.fileLabel_stands t none hS) _ _)

theorem Hub.label_stands (d : Draft) (hS : S 12) : Hub.StreamsStand S h (h.label d) := h.arriveLabel_stands d none hS

theorem Hub.afterChange_stands (p : Fin 8) (old : Path) (s : PathState) (why : DownReason) (hS : S 12) :
    Hub.StreamsStand S h (h.afterChange p old s why) := by
  have hbond : Hub.OnlyChanges [.mapping, .notices] h
      ((h.tellBond p old).notify .pathState (p.val + 256 * pathStateCode s)) :=
    .trans (.opt (.refl _ h) ((h.modBond_only _ _).mono (by decide))) ((Hub.notify_only _ _ _).mono (by decide))
  rw [Hub.afterChange_eq, Hub.tellChange]
  exact .trans (.trans (.of_only hbond (by decide)) (Hub.label_stands _ _ hS))
    (.of_only (((Hub.leaveGauge_only _ p old s).mono (large := [.gauges, .notices, .budget]) (by decide)).trans
      ((Hub.recompute_only _).mono (by decide))) (by decide))

theorem Hub.evaluate_stands (p : Fin 8) (f : Path → Path) (hS : S 12) :
    Hub.StreamsStand S h (Hub.evaluatePath p (h.modPath p f)) := by
  rw [Hub.evaluatePath_modPath]
  exact .ite (.of_only (h.modPath_only p _) (by decide))
    ((Hub.StreamsStand.of_only (h.modPath_only p _) (by decide)).trans (Hub.afterChange_stands _ p _ _ _ hS))

end

/-! ### Releases of paths (R108, R109) -/

/-- A path that is not held and in the state and for the reason that Table 38 gives. -/
def Path.Rests (x : Path) : Prop := x.hold = false ∧ x.evaluate = (x.state, x.reason)

theorem Path.settled_evaluate (x : Path) (w : Word) : (x.settled w).evaluate = x.evaluate := by
  by_cases he : x.evaluate.1 = x.state
  · rw [Path.settled_stays he]
    rfl
  · rw [Path.settled_enters he, Path.evaluate_enter]

/-- An evaluated path that is not held rests. -/
theorem Path.settled_rests {x : Path} (hx : x.hold = false) (w : Word) : (x.settled w).Rests := by
  refine ⟨(x.settled_kept w).hold.trans hx, ?_⟩
  rw [Path.settled_evaluate, Path.settled_state, Path.settled_reason]

/-- A path in the state and for the reason that Table 38 gives. -/
def Path.Evaluated (x : Path) : Prop := x.evaluate = (x.state, x.reason)

theorem Path.settled_evaluated (x : Path) (w : Word) : (x.settled w).Evaluated := by
  rw [Path.Evaluated, Path.settled_evaluate, Path.settled_state, Path.settled_reason]

theorem Path.Evaluated.table38 {x : Path} (hx : x.Evaluated) : x.Table38 := Path.table38_of_evaluate hx

/-- What the end of a hold leaves of a path's record. -/
structure Path.Freed (x y : Path) : Prop where
  enabled : y.enabled = x.enabled
  lines : y.lines = x.lines
  loss : y.loss = x.loss
  change : y.change = x.change
  breaks : y.counts.breaks = x.counts.breaks
  resetCount : y.resetCount = x.resetCount
  evaluated : x.Evaluated → y.Evaluated

theorem Path.Freed.refl (x : Path) : x.Freed x := ⟨rfl, rfl, rfl, rfl, rfl, rfl, id⟩

/-- Entries into OFF and RESET alone clear the pause-timeout mark. -/
theorem Path.settled_mark (x : Path) (w : Word) :
    (x.settled w).timeoutMark = x.timeoutMark ∨
      (((x.settled w).state = .off ∨ (x.settled w).state = .reset) ∧ (x.settled w).timeoutMark = false) := by
  by_cases he : x.evaluate.1 = x.state
  · rw [Path.settled_stays he]
    exact .inl rfl
  · rw [Path.settled_enters he, Path.enter_state]
    generalize x.evaluate.1 = s
    cases s with
    | off => exact .inr ⟨.inl rfl, rfl⟩
    | reset => exact .inr ⟨.inr rfl, rfl⟩
    | up => exact .inl (by simp [Path.enter, Path.startTransmission, apply_ite Path.timeoutMark])
    | _ => exact .inl rfl

/-- A path that is not held is not in RESET. -/
theorem Path.evaluate_free {x : Path} (hx : x.hold = false) : x.evaluate.1 ≠ .reset := by
  unfold Path.evaluate
  rw [hx]
  simp only [Bool.false_eq_true, if_false]
  repeat' split
  all_goals nofun

theorem Path.Freed.trans {x y z : Path} (h₁ : x.Freed y) (h₂ : y.Freed z) : x.Freed z :=
  ⟨h₂.enabled.trans h₁.enabled, h₂.lines.trans h₁.lines, h₂.loss.trans h₁.loss, h₂.change.trans h₁.change,
    h₂.breaks.trans h₁.breaks, h₂.resetCount.trans h₁.resetCount, fun hx => h₂.evaluated (h₁.evaluated hx)⟩

theorem Path.release_freed (x : Path) (w : Word) : x.Freed (x.release.settled w) := by
  obtain ⟨he, -, -, -, -, hr, -, hl, hlines, hc, -, hb, -⟩ := Path.settled_kept x.release w
  exact ⟨he, hlines, hl, hc, hb, hr, fun _ => Path.settled_evaluated _ w⟩

/-- What the end of a hold leaves of the pause-timeout mark: OFF alone clears it. -/
def Path.MarkLeft (x y : Path) : Prop :=
  y.timeoutMark = x.timeoutMark ∨ (y.Rests ∧ y.state = .off ∧ y.timeoutMark = false)

theorem Path.release_markLeft (x : Path) (w : Word) : x.MarkLeft (x.release.settled w) := by
  refine (Path.settled_mark x.release w).imp_right fun ⟨hs, hm⟩ => ⟨Path.settled_rests rfl w, hs.resolve_right ?_, hm⟩
  rw [Path.settled_state]
  exact Path.evaluate_free rfl

/-- A path in its evaluated state does not leave UP or PAUSED when it is released. -/
theorem Path.Evaluated.not_leaves {x : Path} (hx : x.Evaluated) (w : Word) : ¬ x.Leaves (x.release.settled w) := by
  rintro ⟨hs, hup, hpaused⟩
  have hstate : x.evaluate.1 = x.state := congrArg Prod.fst hx
  have hfree : x.hold = false := by
    rw [← Bool.not_eq_true]
    intro hh
    rw [Path.evaluate_held hh] at hstate
    rcases hs with hs | hs <;> exact absurd (hstate.trans hs) nofun
  have hsame : x.release.evaluate = x.evaluate := Path.evaluate_congr hfree.symm rfl rfl rfl rfl
  rw [Path.settled_state, hsame, hstate] at hup hpaused
  exact hs.elim hup hpaused

/-- Releases of paths between two hubs, in a frame: a path changes its state when its hold ends, and then rests. -/
structure Hub.Releases (frame : Frame) (n : Nat) (g h : Hub) : Prop where
  follows : g.PathsFollow frame n h
  timebase : h.tb = g.tb
  one : ∀ p : Fin 8, (h.paths.path[p]'p.2).state = (g.paths.path[p]'p.2).state ∨ (h.paths.path[p]'p.2).Rests
  rests : ∀ p : Fin 8, (g.paths.path[p]).Rests → (g.paths.path[p]).Still h.paths.path[p] ∧ (h.paths.path[p]).Rests
  freed : ∀ p : Fin 8, (g.paths.path[p]).Freed h.paths.path[p]
  mark : ∀ p : Fin 8, (g.paths.path[p]).MarkLeft h.paths.path[p]
  gauges : ∀ p : Fin 8, (g.paths.path[p]'p.2).Evaluated → h.gauges.path[p]'p.2 = g.gauges.path[p]'p.2

section
variable {frame : Frame} {m n : Nat} {a b c g h : Hub}

theorem Hub.Releases.trans (h₁ : a.Releases frame m b) (h₂ : b.Releases frame n c) : a.Releases frame (m + n) c where
  follows := h₁.follows.trans h₂.follows fun p => (h₁.one p).imp_right fun hp => (h₂.rests p hp).1
  timebase := h₂.timebase.trans h₁.timebase
  one p := by
    rcases h₁.one p with he | hr
    · exact (h₂.one p).imp_left fun he' => he'.trans he
    · exact .inr (h₂.rests p hr).2
  rests p hp := by
    obtain ⟨hs₁, hr₁⟩ := h₁.rests p hp
    obtain ⟨hs₂, hr₂⟩ := h₂.rests p hr₁
    exact ⟨⟨hs₂.state.trans hs₁.state, hs₂.reason.trans hs₁.reason, hs₁.unmoved.trans hs₂.unmoved,
      hs₂.pauseCount.trans hs₁.pauseCount, hs₂.timeoutMark.trans hs₁.timeoutMark⟩, hr₂⟩
  freed p := (h₁.freed p).trans (h₂.freed p)
  mark p := by
    rcases h₁.mark p with hm | ⟨hr, hoff, hm⟩
    · exact (h₂.mark p).imp_left fun hm' => hm'.trans hm
    · obtain ⟨hstill, hr'⟩ := h₂.rests p hr
      exact .inr ⟨hr', hstill.state.trans hoff, hstill.timeoutMark.trans hm⟩
  gauges p hp := (h₂.gauges p ((h₁.freed p).evaluated hp)).trans (h₁.gauges p hp)

theorem Hub.Releases.mono (hg : g.Releases frame m h) (hn : m ≤ n) : g.Releases frame n h :=
  { hg with follows := hg.follows.mono hn }

/-- A change that leaves the paths and the labels. -/
theorem Hub.Releases.of_only {parts : List Part} {kinds : List NoticeKind} (ho : Hub.OnlyChanges parts g h)
    (hn : Part.pathRecords ∉ parts ∧ Part.mapping ∉ parts ∧ Part.timebase ∉ parts ∧ Part.gauges ∉ parts)
      (hh : Hub.Heard kinds g h)
    (hk : NoticeKind.supplyWarn ∉ kinds) (hs : g.SameFiling h) : g.Releases frame 0 h := by
  have hp : g.paths.path = h.paths.path := ho .pathRecords hn.1
  have hgauges : g.gauges = h.gauges := ho .gauges hn.2.2.2
  refine ⟨.of_only ho ⟨hn.1, hn.2.1⟩ hh hk hs, (ho .timebase hn.2.2.1).symm, fun p => .inl (by rw [← hp]), fun p hr => ?_,
    fun p => ?_, fun p => ?_, fun p _ => by rw [hgauges]⟩
  · rw [← hp]
    exact ⟨.refl _, hr⟩
  · rw [← hp]
    exact .refl _
  · rw [← hp]
    exact .inl rfl

theorem Hub.Releases.refl (frame : Frame) (h : Hub) : h.Releases frame 0 h :=
  .of_only (.refl [] h) (by decide) (.refl [] h) (by decide) (.refl h)

/-- A loop of releases in the running frame. -/
theorem Hub.Releases.forEach {k : Nat} {f : Fin k → Hub → Hub} (hf : ∀ i (g : Hub), g.Releases g.tb.frame n (f i g))
    (h : Hub) : h.Releases h.tb.frame (k * n) (h.forEach k f) := by
  have hfold : ∀ (is : List (Fin k)) (g : Hub),
      g.Releases g.tb.frame (is.length * n) (is.foldl (fun g i => f i g) g) := by
    intro is
    induction is with
    | nil =>
      intro g
      exact (Hub.Releases.refl g.tb.frame g).mono (Nat.zero_le _)
    | cons i is ih =>
      intro g
      have hrest := ih (f i g)
      rw [(hf i g).timebase] at hrest
      exact ((hf i g).trans hrest).mono (by rw [List.length_cons]; ring_nf; omega)
  have hall := hfold (List.finRange k) h
  rwa [List.length_finRange] at hall

end

section
variable (h : Hub) (p : Fin 4)

/-- A write to a path record that an evaluation does not look at. -/
theorem Hub.modPath_releases {frame : Frame} (q : Fin 8) {f : Path → Path} (hf : ∀ x : Path, x.Still (f x))
    (he : ∀ x, (f x).hold = x.hold ∧ (f x).evaluate = x.evaluate) (hk : ∀ x : Path, x.Freed (f x)) : h.Releases frame 0
      (h.modPath q f) := by
  have hrec : ∀ p : Fin 8, (h.paths.path[p]).Still (h.modPath q f).paths.path[p] ∧
      ((h.modPath q f).paths.path[p]).hold = (h.paths.path[p]).hold ∧
      ((h.modPath q f).paths.path[p]).evaluate = (h.paths.path[p]).evaluate := fun p => by
    by_cases hp : p = q
    · subst hp
      rw [Hub.modPath_self]
      exact ⟨hf _, he _⟩
    · rw [Hub.modPath_ne _ _ hp]
      exact ⟨.refl _, rfl, rfl⟩
  refine ⟨.of_still (P := fun _ => False) (h.modPath_heard (kinds := []) q f) (by decide) (h.modPath_sameFiling q f).files
    (fun _ _ => False.elim) (fun p => ⟨(hrec p).1.state, (hrec p).1.unmoved⟩) rfl, rfl, fun p => .inl (hrec p).1.state,
      fun p hr => ?_,
    fun p => ?_, fun p => .inl (hrec p).1.timeoutMark, fun _ _ => rfl⟩
  · obtain ⟨hstill, hhold, heval⟩ := hrec p
    obtain ⟨hr₁, hr₂⟩ := hr
    refine ⟨hstill, hhold.trans hr₁, ?_⟩
    rw [heval, hr₂, hstill.state, hstill.reason]
  · by_cases hp : p = q
    · subst hp
      rw [Hub.modPath_self]
      exact hk _
    · rw [Hub.modPath_ne _ _ hp]
      exact .refl _

/-- A release with its evaluation (R108). -/
theorem Hub.release_releases (q : Fin 8) :
    h.Releases h.tb.frame 5 (Hub.evaluatePath q (h.modPath q Path.release)) := by
  have hself := h.evaluatePath_self q Path.release
  have hne : ∀ p, p ≠ q → (Hub.evaluatePath q (h.modPath q Path.release)).paths.path[p] = h.paths.path[p] := fun p hp =>
    h.evaluatePath_ne hp Path.release
  refine ⟨h.evaluate_follows q Path.release ⟨rfl, rfl, rfl, rfl, rfl⟩, ?_, fun p => ?_, fun p hr => ?_, fun p => ?_,
    fun p => ?_, fun p hev => ?_⟩
  · exact (h.evaluate_only q Path.release .timebase (by decide)).symm
  · by_cases hp : p = q
    · subst hp
      rw [hself]
      exact .inr (Path.settled_rests rfl _)
    · rw [hne p hp]
      exact .inl rfl
  · by_cases hp : p = q
    · subst hp
      obtain ⟨hhold, heval⟩ := hr
      have hsame : (Path.release h.paths.path[p]).evaluate = ((h.paths.path[p]).state, (h.paths.path[p]).reason) := by
        rw [← heval]
        exact Path.evaluate_congr hhold.symm rfl rfl rfl rfl
      have hstays : (Path.release h.paths.path[p]).evaluate.1 = (Path.release h.paths.path[p]).state :=
        congrArg Prod.fst hsame
      rw [hself]
      refine ⟨?_, Path.settled_rests rfl _⟩
      rw [Path.settled_stays hstays, hsame]
      exact ⟨rfl, rfl, ⟨rfl, rfl, rfl, rfl⟩, rfl, rfl⟩
    · rw [hne p hp]
      exact ⟨.refl _, hr⟩
  · by_cases hp : p = q
    · subst hp
      rw [hself]
      exact Path.release_freed _ _
    · rw [hne p hp]
      exact .refl _
  · by_cases hp : p = q
    · subst hp
      rw [hself]
      exact Path.release_markLeft _ _
    · rw [hne p hp]
      exact .inl rfl
  · obtain ⟨hleaves, hstays⟩ := h.evaluate_leaves q Path.release ⟨rfl, rfl, rfl, rfl, rfl⟩
    by_cases hl : (h.paths.path[q]).Leaves (Hub.evaluatePath q (h.modPath q Path.release)).paths.path[q]
    · by_cases hp : p = q
      · subst hp
        rw [hself] at hl
        exact absurd hl (hev.not_leaves _)
      · exact (hleaves hl).2.1 p hp
    · rw [hstays hl]

/-- R109: what path q does for a port that goes ABSENT. -/
theorem Hub.absentPath_releases (q : Fin 8) : h.Releases h.tb.frame 5 (Hub.absentPath p q h) := by
  unfold Hub.absentPath
  dsimp only
  split
  · split
    · exact h.release_releases q
    · refine Hub.Releases.mono (m := 0) (h.modPath_releases q (fun x => ?_) (fun x => ?_) fun x => ?_) (Nat.zero_le _)
      · exact ⟨rfl, rfl, ⟨rfl, rfl, rfl, rfl⟩, rfl, rfl⟩
      · exact ⟨rfl, rfl⟩
      · exact ⟨rfl, rfl, rfl, rfl, rfl, rfl, id⟩
  · exact (Hub.Releases.refl _ h).mono (Nat.zero_le _)

theorem Hub.absentTally_only : Hub.OnlyChanges [.tally] h (Hub.absentTally p h) := h.withTally_only _

/-- The paths at an absence. -/
theorem Hub.goAbsent_releases (period : Nat) : h.Releases h.tb.frame 40 (Hub.goAbsent p period h) := by
  unfold Hub.goAbsent
  dsimp only
  have hstart : h.Releases h.tb.frame 0 (h.modPort p fun x => x.goAbsent period h.tb.lastTick) :=
    .of_only (h.modPort_only p _) (by decide) (h.modPort_heard (kinds := []) p _) (by decide)
      ((h.modPort_only p _).sameFiling (by decide))
  generalize (h.modPort p fun x => x.goAbsent period h.tb.lastTick) = a at hstart
  have hstreams : a.Releases a.tb.frame (16 * 0) (a.forEach 16 (Hub.absentStream p)) :=
    .forEach (fun k g => .of_only (g.absentStream_only p k) (by decide) (g.absentStream_heard p k) (by decide)
      (g.absentStream_sameFiling p k)) a
  generalize a.forEach 16 (Hub.absentStream p) = b at hstreams
  have hpaths : b.Releases b.tb.frame (8 * 5) (b.forEach 8 (Hub.absentPath p)) :=
    .forEach (fun q g => g.absentPath_releases p q) b
  generalize b.forEach 8 (Hub.absentPath p) = c at hpaths
  have hend : c.Releases c.tb.frame 0 ((Hub.absentTally p (Hub.absentClips p c)).notify .portAbsent p.val) :=
    .of_only (parts := [.log, .tally, .notices]) (((c.absentClips_only p).mono (by decide)).trans
      (((Hub.absentTally_only _ p).mono (by decide)).trans ((Hub.notify_only _ _ _).mono (by decide)))) (by decide)
      (kinds := [.portAbsent])
      (.trans (.trans (.trans (c.mapClips_heard _) (Hub.mapClips_heard _ _)) (Hub.withTally_heard _ _))
        (Hub.notify_heard _ (k := .portAbsent) (by decide) _)) (by decide)
      (((c.absentClips_sameFiling p).trans (Hub.withTally_sameFiling _ _)).trans (Hub.notify_sameFiling _ .portAbsent _))
  have htb₁ := hstart.timebase
  have htb₂ := hstreams.timebase.trans htb₁
  rw [hpaths.timebase.trans htb₂] at hend
  rw [htb₂] at hpaths
  rw [htb₁] at hstreams
  exact Hub.Releases.mono (m := 0 + 16 * 0 + 8 * 5 + 0) (((hstart.trans hstreams).trans hpaths).trans hend) (by omega)

end

end Sys2Proof.Machine
end

section
/-! Proofs: the refutation of `RightsAndPresence` (R179, R153), whose clause about the clips of a port that goes ABSENT
names no
order of the clip table. -/

namespace Sys2Proof.Machine

-- In order, so that the package in one text stays within the memory of its check.
set_option Elab.async false

/-- A clip of number 1, of master port 0, that covers no stream. -/
def twinClip (state : ClipState) : Clip where
  number := 1
  state := state
  owner := .port 0
  mask := 0
  starts := Vector.replicate 16 none
  running := Vector.replicate 16 none
  ends := Vector.replicate 16 none
  startSerial := 0
  startTc := none
  endSerial := none
  endTc := none
  reason := none
  name := []
  labels := []
  passed := 0
  limitDue := false
  damaged := false
  overloadSeen := false
  tcJump := false
  truncated := false

/-- A hub in which port 0 goes ABSENT at the coming tick and holds stream 0, and in which a CLOSING and an OPEN clip of port 0
have one number.  The release of stream 0 tests the clips and ends the CLOSING one, by its number,
  and the OPEN one with it. -/
def twinHub : Hub :=
  (((Hub.released 1 false {}).modStream 0 fun x => { x with state := .held, setter := some 0 }).modPort 0 fun x =>
    { x with timer := 24 }).modLog fun l => { l with clips := [twinClip .closing, twinClip .opened] }

def twinState : State := { pending := [], held := false, hub := twinHub }

/-- The states of the clips after an outcome. -/
def clipStates : Host.Outcome State Fault Refusal → List ClipState
  | .next t => t.hub.log.clips.map Clip.state
  | _ => []

theorem twin_clips_end : clipStates (exec (.portAbsent {} 0) twinState) = [.closed, .closed] := by decide +kernel

/-- Refutes O50: in `twinState` the OPEN clip of port 0 is CLOSED, and not CLOSING with PORT_LOST,
once the port has gone ABSENT.
No run reaches this state, for the clips of one that is reached have numbers of their own (`Hub.ClipsOrdered`). -/
theorem not_rightsAndPresence : ¬ Obligations.RightsAndPresence := by
  rintro ⟨-, -, habsence⟩
  obtain ⟨-, -, hgone⟩ := habsence {} 0 twinState rfl
  obtain ⟨t, ht, -, -, -, -, -, hclips, -⟩ := hgone (by decide) (by decide) (by decide)
  obtain ⟨z, hz, howned, -⟩ := hclips (by decide) 1 (twinClip .opened) rfl
  obtain ⟨-, hclosing⟩ := howned rfl
  have hstates : t.hub.log.clips.map Clip.state = [.closed, .closed] := by
    rw [← twin_clips_end, ht]
    rfl
  have hclosed : (t.hub.log.clips.map Clip.state)[1]? = some z.state := by
    rw [List.getElem?_map, hz]
    rfl
  rw [hstates, (hclosing rfl).1] at hclosed
  exact absurd hclosed (by decide)

end Sys2Proof.Machine
end

section
/-! Proofs: the paths at a tick (R90, R91, R94, R107, R109). -/

namespace Sys2Proof.Machine

-- In order, so that the package in one text stays within the memory of its check.
set_option Elab.async false

/-! ### One path's record -/

/-- A path record without its pause and its reset. -/
def Path.core (x : Path) : Path :=
  { x with pauseCount := 0, timeoutMark := false, hold := false, holder := none, resetCount := 0, releaseDue := false }

/-- A path at the tick whose frame has serial w, with the lines as sampled, ahead of its evaluation. -/
def Path.ticked (lines : BitVec 4) (w : Word) (x : Path) : Path :=
  ((if (x.sampled lines).breaks then (x.sampled lines).takeBreak else x.sampled lines).countPause w).countReset.dueRelease

section
variable (x : Path) (lines : BitVec 4) (w : Word)

@[simp] theorem Path.countPause_core : (x.countPause w).core = x.core := by
  unfold Path.countPause
  dsimp only
  repeat' split
  all_goals rfl

@[simp] theorem Path.countReset_core : x.countReset.core = x.core := by
  unfold Path.countReset
  split <;> rfl

@[simp] theorem Path.dueRelease_core : x.dueRelease.core = x.core := by
  unfold Path.dueRelease
  split <;> rfl

theorem Path.sampled_eq :
    x.sampled lines = { x with lines := lines, change := x.change || decide (lines ≠ x.lines) } := by
  unfold Path.sampled
  split
  · rename_i he
    simp [he]
  · rename_i he
    simp [he]

theorem Path.sampled_breaks : (x.sampled lines).breaks = x.breaks := by
  rw [Path.sampled_eq]
  rfl

/-- The lines and the break of a tick. -/
theorem Path.ticked_core :
    (x.ticked lines w).core =
      ({ x with
        lines := lines
        change := x.change || decide (lines ≠ x.lines)
        loss := x.loss || x.breaks
        counts := if x.breaks = true then { x.counts with breaks := x.counts.breaks + 1 } else x.counts } : Path).core := by
  rw [Path.ticked, Path.dueRelease_core, Path.countReset_core, Path.countPause_core, Path.sampled_breaks, Path.sampled_eq]
  cases x.breaks <;> simp [Path.takeBreak]

theorem Path.ticked_quiet : x.Quiet (x.ticked lines w) := by
  have hcore := x.ticked_core lines w
  refine ⟨(congrArg Path.state hcore :), (congrArg Path.fifo hcore :), (congrArg Path.baseline hcore :),
    (congrArg Path.transmitting hcore :), ?_⟩
  have hlost := congrArg (fun y : Path => y.counts.lostInFlight) hcore
  refine hlost.trans ?_
  simp only [Path.core]
  split <;> rfl

/-- A path at a tick before its pause and its reset are counted. -/
def Path.judged (lines : BitVec 4) (x : Path) : Path :=
  { x with
    lines := lines
    change := x.change || decide (lines ≠ x.lines)
    loss := x.loss || x.breaks
    counts := if x.breaks = true then { x.counts with breaks := x.counts.breaks + 1 } else x.counts }

theorem Path.ticked_eq : x.ticked lines w = (((x.judged lines).countPause w).countReset).dueRelease := by
  rw [Path.ticked, Path.sampled_breaks, Path.sampled_eq, Path.judged]
  cases x.breaks <;> simp [Path.takeBreak]

@[simp] theorem Path.countPause_mark :
    (x.countPause w).timeoutMark =
      (!readyOf x.lines && (x.timeoutMark || (x.pausing w && decide (x.pauseLimit ≤ x.pauseCount + 1)))) := by
  unfold Path.countPause
  by_cases hr : readyOf x.lines = true
  · have hp : ({ x with timeoutMark := false } : Path).pausing w = false := by simp [Path.pausing, hr]
    simp [hr, hp]
  · rw [Bool.not_eq_true] at hr
    cases hp : x.pausing w <;> simp [hr, hp]

@[simp] theorem Path.countPause_pauseCount :
    (x.countPause w).pauseCount = if x.pausing w = true then min 250 (x.pauseCount + 1) else x.pauseCount := by
  unfold Path.countPause
  by_cases hr : readyOf x.lines = true
  · have hp : ({ x with timeoutMark := false } : Path).pausing w = x.pausing w := rfl
    cases hb : x.pausing w <;> simp [hr, hp, hb]
  · rw [Bool.not_eq_true] at hr
    cases hb : x.pausing w <;> simp [hr, hb]

/-- The pause of a path leaves its reset. -/
theorem Path.countPause_reset :
    (x.countPause w).hold = x.hold ∧ (x.countPause w).holder = x.holder ∧ (x.countPause w).resetCount = x.resetCount ∧
      (x.countPause w).releaseDue = x.releaseDue ∧ (x.countPause w).state = x.state := by
  unfold Path.countPause
  dsimp only
  repeat' split
  all_goals exact ⟨rfl, rfl, rfl, rfl, rfl⟩

/-- The reset of a path leaves its pause. -/
theorem Path.reset_pause : x.countReset.dueRelease.timeoutMark = x.timeoutMark ∧
    x.countReset.dueRelease.pauseCount = x.pauseCount := by
  unfold Path.countReset Path.dueRelease Path.release
  repeat' split
  all_goals exact ⟨rfl, rfl⟩

theorem Path.reset_resetCount :
    x.countReset.dueRelease.resetCount = if x.state = .reset then min 4 (x.resetCount + 1) else x.resetCount := by
  unfold Path.countReset Path.dueRelease Path.release
  repeat' split
  all_goals simp_all

/-- A tick ends holds and begins none. -/
theorem Path.reset_hold (hx : x.hold = false) :
    x.countReset.dueRelease.hold = false ∧ x.countReset.dueRelease.holder = x.holder := by
  have hc : x.countReset.hold = false ∧ x.countReset.holder = x.holder := by
    unfold Path.countReset
    split <;> exact ⟨hx, rfl⟩
  rw [Path.dueRelease, hc.1]
  exact hc

theorem Path.ticked_mark :
    (x.ticked lines w).timeoutMark =
      (!readyOf lines && (x.timeoutMark || ((x.judged lines).pausing w && decide (x.pauseLimit ≤ x.pauseCount + 1)))) := by
  rw [Path.ticked_eq, (Path.reset_pause _).1, Path.countPause_mark]
  rfl

theorem Path.ticked_pauseCount :
    (x.ticked lines w).pauseCount =
      if (x.judged lines).pausing w = true then min 250 (x.pauseCount + 1) else x.pauseCount := by
  rw [Path.ticked_eq, (Path.reset_pause _).2, Path.countPause_pauseCount]
  rfl

theorem Path.ticked_resetCount :
    (x.ticked lines w).resetCount = if x.state = .reset then min 4 (x.resetCount + 1) else x.resetCount := by
  obtain ⟨-, -, hr, -, hs⟩ := (x.judged lines).countPause_reset w
  rw [Path.ticked_eq, Path.reset_resetCount, hr, hs]
  rfl

theorem Path.ticked_hold (hx : x.hold = false) : (x.ticked lines w).hold = false := by
  obtain ⟨hh, -⟩ := (x.judged lines).countPause_reset w
  rw [Path.ticked_eq]
  exact (Path.reset_hold _ (hh.trans hx)).1

theorem Path.pausing_iff :
    x.pausing w = true ↔ x.state = .paused ∧ x.pausedIn ≠ w ∧ readyOf x.lines = false ∧ carrierOf x.lines = true ∧
      linkOkOf x.lines = true ∧ x.loss = false := by
  simp [Path.pausing, and_assoc]

theorem Path.breaks_iff : x.breaks = true ↔ (x.state = .up ∨ x.state = .paused) ∧ x.upAllFrame = true ∧ x.heard = false := by
  simp [Path.breaks, Path.carrying, and_assoc]

end

/-! ### One path's leg -/

section
variable (h : Hub) (p : Fin 8)

@[simp] theorem Hub.tellLines_tb : (h.tellLines p).tb = h.tb := by
  unfold Hub.tellLines
  split <;> rfl

theorem Hub.tellLines_only : Hub.OnlyChanges [.notices] h (h.tellLines p) := .ite (.refl _ h) (h.notify_only _ _)

theorem Hub.tellLines_heard : Hub.Heard [.pathChange] h (h.tellLines p) :=
  .ite (.refl _ h) (Hub.notify_heard _ (by decide) _)

theorem Hub.tellLines_same (hl : h.pins p = (h.paths.path[p]'p.2).lines) : h.tellLines p = h := if_pos hl

theorem Hub.tellLines_sameFiling : h.SameFiling (h.tellLines p) := (h.tellLines_only p).sameFiling (by decide)

/-- PATH_CHANGE for the lines that differ. -/
theorem Hub.tellLines_told (hl : h.pins p ≠ (h.paths.path[p]'p.2).lines) :
    h.Told (h.tellLines p)
      { kind := .pathChange, param :=
        BitVec.ofNat 32 (p.val + 256 * (h.paths.path[p]'p.2).lines.toNat + 65536 * (h.pins p).toNat),
        serial := h.tb.frame.serial } := by
  rw [Hub.tellLines, if_neg hl]
  exact h.notify_told _ nofun fun _ => rfl

theorem Hub.tickPath_eq :
    Hub.tickPath p h =
      Hub.evaluatePath p ((h.tellLines p).modPath p (Path.ticked (h.pins p) h.tb.frame.serial)) := by
  unfold Hub.tickPath
  dsimp only
  have htb : ((h.samplePath p).modPath p fun x => if x.breaks then x.takeBreak else x).tb = h.tb := by
    rw [Hub.samplePath_eq]
    exact h.tellLines_tb p
  rw [htb, Hub.samplePath_eq, Hub.modPath_modPath, Hub.modPath_modPath]
  rfl

/-- What the sampling of path p's lines and an evaluation of the path leave, but for its record. -/
structure Hub.TickDone (g t : Hub) (p : Fin 8) : Prop where
  table : (t.paths.path[p]'p.2).Table38
  others : ∀ q, q ≠ p → t.paths.path[q]'q.2 = g.paths.path[q]'q.2
  follows : g.PathsFollow g.tb.frame 5 t
  sampled : g.Sampled t p (g.pins p) g.tb.frame.serial
  changed : ∀ q : Fin 4, (t.notices[q]'q.2).summary.getLsbD 12 = true ↔
    (g.notices[q]'q.2).summary.getLsbD 12 = true ∨ g.pins p ≠ (g.paths.path[p]'p.2).lines
  told : ∀ q : Fin 4, (t.notices[q]'q.2).summary.getLsbD 13 = true ↔
    (g.notices[q]'q.2).summary.getLsbD 13 = true ∨ (t.paths.path[p]'p.2).state ≠ (g.paths.path[p]'p.2).state
  leaves : (g.paths.path[p]).Leaves t.paths.path[p] → g.GaugeLeft t p
  stays : ¬ (g.paths.path[p]).Leaves t.paths.path[p] → t.gauges = g.gauges
  only : Hub.OnlyChanges pathParts g t

variable {h p}

theorem Hub.tick_evaluates {f : Path → Path} (hq : (h.paths.path[p]).Quiet (f h.paths.path[p]))
    (hl : (f h.paths.path[p]).lines = h.pins p)
    (hc : (f h.paths.path[p]).change =
      ((h.paths.path[p]).change || decide (h.pins p ≠ (h.paths.path[p]).lines))) :
    h.TickDone (Hub.evaluatePath p ((h.tellLines p).modPath p f)) p := by
  have hpaths := h.tellLines_paths p
  have hgauges : (h.tellLines p).gauges = h.gauges := ((h.tellLines_only p) .gauges (by decide)).symm
  have hbudget : (h.tellLines p).budget = h.budget := ((h.tellLines_only p) .budget (by decide)).symm
  have htb := h.tellLines_tb p
  have hheard := h.tellLines_heard p
  have hquiet : ((h.tellLines p).paths.path[p]).Quiet (f (h.tellLines p).paths.path[p]) := by rwa [hpaths]
  have hself : (Hub.evaluatePath p ((h.tellLines p).modPath p f)).paths.path[p] =
      (f h.paths.path[p]).settled h.tb.frame.serial := by rw [Hub.evaluatePath_self, hpaths, htb]
  have hlater := Hub.evaluate_heard (h.tellLines p) p f
  obtain ⟨hleaves, hstays⟩ := Hub.evaluate_leaves (h.tellLines p) p f hquiet
  have hkept := (f h.paths.path[p]).settled_kept h.tb.frame.serial
  refine ⟨?_, fun q hne => ?_, ?_, ⟨?_, ?_, fun hne => ?_⟩, fun q => ?_, fun q => ?_, fun hv => ?_, fun hv => ?_,
    ((h.tellLines_only p).mono (by decide)).trans (Hub.evaluate_only _ p f)⟩
  · rw [hself]
    exact Path.settled_table38 _
  · rw [Hub.evaluatePath_ne _ hne, hpaths]
  · have hleg := Hub.evaluate_follows (h.tellLines p) p f hquiet
    rw [htb] at hleg
    refine Hub.PathsFollow.mono (m := 0 + 5) (.trans (.of_only (h.tellLines_only p) (by decide) hheard (by decide)
      (h.tellLines_sameFiling p)) hleg fun q => .inl ?_) (by omega)
    rw [hpaths]
  · rw [hself, hkept.lines, hl]
  · rw [hself, hkept.change, hc]
  · exact (h.tellLines_told p hne).later hlater (by decide)
  · rw [hlater.summary_eq q (by decide) (by decide)]
    by_cases hne : h.pins p = (h.paths.path[p]).lines
    · rw [h.tellLines_same p hne]
      exact ⟨.inl, fun hc => hc.resolve_right fun hn => hn hne⟩
    · exact ⟨fun _ => .inr hne, fun _ => ((h.tellLines_told p hne) q).1⟩
  · rw [Hub.evaluate_summary (h.tellLines p) p f hquiet, hpaths, hheard.summary_eq q (by decide) (by decide)]
  · have hleft := hleaves (by rwa [hpaths])
    unfold Hub.GaugeLeft at hleft ⊢
    rw [hgauges, hbudget] at hleft
    obtain ⟨h₁, h₂, h₃, h₄, h₅, h₆⟩ := hleft
    refine ⟨h₁, h₂, h₃, h₄, fun q => ?_, h₆⟩
    rw [h₅ q, hheard.summary_eq q (by decide) (by decide)]
  · rw [hstays (by rwa [hpaths]), hgauges]

end

/-! ### The rows ahead of a tick (R91, R94, R109) -/

/-- The hub in which the part of a coming tick is done ahead of it. -/
def Hub.ahead (h : Hub) (e : Env) : Hub := { h.arrive e with tb := h.tb.tick (h.arrive e).now }

/-- The hub after that part. -/
def Hub.behind (t : Hub) (h : Hub) : Hub := { t with tb := h.tb }

theorem Hub.atTick_eq (h : Hub) (e : Env) (f : Hub → Hub) : (h.arrive e).atTick f = (f (h.ahead e)).behind h := rfl

theorem Hub.behind_ahead (h : Hub) (e : Env) : (h.ahead e).behind h = h.arrive e := rfl

theorem Hub.OnlyChanges.behind {parts : List Part} {h t : Hub} {e : Env} (ho : Hub.OnlyChanges parts (h.ahead e) t) :
    Hub.OnlyChanges parts h (t.behind h) := fun x hx => by
  have hsame := ho x hx
  cases x with
  | timebase => rfl
  | _ => exact hsame

section
variable {h : Hub} {p : Fin 8}

/-- R91: when the coming tick does not find the pause timeout. -/
theorem Hub.pauseTimeout_void
    (hv : ¬ (((h.paths.path[p]'p.2).sampled (h.pins p)).pausing h.tb.frame.serial = true ∧ ¬ (h.paths.path[p]'p.2).breaks =
      true ∧
      (h.paths.path[p]'p.2).pauseLimit ≤ (h.paths.path[p]'p.2).pauseCount + 1)) : Hub.pauseTimeout p h = h := by
  have hrec : (h.samplePath p).paths.path[p]'p.2 = (h.paths.path[p]'p.2).sampled (h.pins p) := by
    rw [Hub.samplePath_eq, Hub.modPath_self, Hub.tellLines_paths]
  unfold Hub.pauseTimeout
  dsimp only
  rw [hrec, Path.sampled_breaks]
  refine if_neg fun hc => hv ⟨hc.1, hc.2.1, ?_⟩
  rw [Path.sampled_eq] at hc
  exact hc.2.2

/-- R91: the pause timeout is the tick's own judgement of the path. -/
theorem Hub.pauseTimeout_taken (hp : ((h.paths.path[p]'p.2).sampled (h.pins p)).pausing h.tb.frame.serial = true)
    (hb : ¬ (h.paths.path[p]'p.2).breaks = true)
      (hl : (h.paths.path[p]'p.2).pauseLimit ≤ (h.paths.path[p]'p.2).pauseCount + 1)
    (hh : (h.paths.path[p]'p.2).hold = false) :
    Hub.pauseTimeout p h =
      Hub.evaluatePath p ((h.tellLines p).modPath p (Path.ticked (h.pins p) h.tb.frame.serial)) := by
  have hrec : (h.samplePath p).paths.path[p]'p.2 = (h.paths.path[p]'p.2).sampled (h.pins p) := by
    rw [Hub.samplePath_eq, Hub.modPath_self, Hub.tellLines_paths]
  have hlimit : ((h.paths.path[p]'p.2).sampled (h.pins p)).pauseLimit ≤
    ((h.paths.path[p]'p.2).sampled (h.pins p)).pauseCount + 1 := by
    rw [Path.sampled_eq]
    exact hl
  unfold Hub.pauseTimeout
  dsimp only
  rw [hrec, Path.sampled_breaks, if_pos ⟨hp, hb, hlimit⟩, Hub.samplePath_eq, Hub.modPath_modPath]
  refine congrArg (Hub.evaluatePath p) (Hub.modPath_congr _ ?_)
  rw [Hub.tellLines_paths]
  rw [Path.ticked, Path.sampled_breaks, if_neg hb]
  generalize hy : (h.paths.path[p]'p.2).sampled (h.pins p) = y at *
  obtain ⟨hhold, -, -, -, hstate⟩ := y.countPause_reset h.tb.frame.serial
  have hfree : (y.countPause h.tb.frame.serial).hold = false := by
    rw [hhold, ← hy, Path.sampled_eq]
    exact hh
  have hpaused : (y.countPause h.tb.frame.serial).state ≠ .reset := by
    rw [hstate, ((y.pausing_iff _).mp hp).1]
    nofun
  rw [Path.countReset, if_neg hpaused, Path.dueRelease, hfree]
  rfl

/-- R94: the break of a path. -/
theorem Hub.backChannelBreak_taken (hb : (h.paths.path[p]'p.2).breaks = true) :
    Hub.backChannelBreak p h =
      Hub.evaluatePath p ((h.tellLines p).modPath p fun x => (x.sampled (h.pins p)).takeBreak) := by
  rw [Hub.backChannelBreak, if_pos hb, Hub.samplePath_eq, Hub.modPath_modPath]

/-- R109: the release that is due. -/
theorem Hub.releaseDue_taken (hd : (h.paths.path[p]'p.2).hold = true ∧ (h.paths.path[p]'p.2).releaseDue = true ∧
      3 ≤ (h.paths.path[p]'p.2).resetCount) :
    Hub.releaseDue p h =
      Hub.evaluatePath p ((h.tellLines p).modPath p fun x => (x.sampled (h.pins p)).countReset.dueRelease) := by
  rw [Hub.releaseDue, Hub.samplePath_eq, Hub.modPath_modPath]
  exact if_pos hd

end

/-- A path that goes DOWN is emptied. -/
theorem Hub.TickDone.emptied {g t : Hub} {p : Fin 8} (hd : g.TickDone t p) (hs : (t.paths.path[p]).state = .down)
    (hg : (g.paths.path[p]).state ≠ .down) : (g.paths.path[p]).Emptied t.paths.path[p] :=
  ((hd.follows.enters p (by rw [hs]; exact Ne.symm hg)).1.1 (.inr (.inr hs)))

/-- What a row that does a path's part of the coming tick ahead of it leaves, but for the path's record. -/
theorem Hub.TickDone.ahead {h t : Hub} {e : Env} {p : Fin 8} (hd : (h.ahead e).TickDone t p) :
    let lines : BitVec 4 := BitVec.ofNat 4 (e.lines.toNat / 16 ^ p.val)
    let frame := (h.tb.tick (h.now + e.dt)).frame
    (h.Sampled (t.behind h) p lines (h.tb.frame.serial + 1) ∧
      (∀ q : Fin 4, ((t.behind h).notices[q]).summary.getLsbD 12 = true ↔
        (h.notices[q]).summary.getLsbD 12 = true ∨ lines ≠ (h.paths.path[p]).lines) ∧
      h.PathsMoved (t.behind h) frame) ∧
    (∀ q, q ≠ p → (t.behind h).paths.path[q] = h.paths.path[q]) ∧ Hub.OnlyChanges pathParts h (t.behind h) := by
  have hserial : (h.ahead e).tb.frame.serial = h.tb.frame.serial + 1 := Timebase.tick_serial _ _
  have hsampled := hd.sampled
  rw [hserial] at hsampled
  exact ⟨⟨hsampled, hd.changed, hd.follows.moved (by omega)⟩, hd.others, hd.only.behind⟩

end Sys2Proof.Machine
end

section
/-! Proofs: the stages of a tick as the paths and the gauges see them (R90, R115, R120, R177). -/

namespace Sys2Proof.Machine

-- In order, so that the package in one text stays within the memory of its check.
set_option Elab.async false

/-! ### The paths' stage -/

/-- The kinds of notice that the paths' part of a tick gives. -/
def lineKinds : List NoticeKind := [.pathChange] ++ pathKinds

/-- What the other paths' parts of a tick leave of path p. -/
structure Hub.SamePath (p : Fin 8) (g h : Hub) : Prop where
  path : h.paths.path[p]'p.2 = g.paths.path[p]'p.2
  gauge : h.gauges.path[p]'p.2 = g.gauges.path[p]'p.2
  moment : h.moment = g.moment
  timebase : h.tb = g.tb
  settings : h.gauges.auto = g.gauges.auto ∧ h.gauges.window = g.gauges.window
  heard : Hub.Heard lineKinds g h

theorem Hub.SamePath.refl (p : Fin 8) (h : Hub) : h.SamePath p h := ⟨rfl, rfl, rfl, rfl, ⟨rfl, rfl⟩, .refl _ h⟩

theorem Hub.SamePath.trans {p : Fin 8} {a b c : Hub} (h₁ : a.SamePath p b) (h₂ : b.SamePath p c) : a.SamePath p c where
  path := h₂.path.trans h₁.path
  gauge := h₂.gauge.trans h₁.gauge
  moment := h₂.moment.trans h₁.moment
  timebase := h₂.timebase.trans h₁.timebase
  settings := ⟨h₂.settings.1.trans h₁.settings.1, h₂.settings.2.trans h₁.settings.2⟩
  heard := h₁.heard.trans h₂.heard

section
variable (h : Hub)

theorem Hub.pins_congr {g : Hub} (hm : g.moment = h.moment) (p : Fin 8) : g.pins p = h.pins p := by
  have henv : g.env = h.env := congrArg Prod.snd hm
  rw [Hub.pins, Hub.pins, henv]

theorem Hub.tickPath_done (p : Fin 8) : h.TickDone (Hub.tickPath p h) p := by
  rw [Hub.tickPath_eq]
  have hcore := (h.paths.path[p]'p.2).ticked_core (h.pins p) h.tb.frame.serial
  exact Hub.tick_evaluates (Path.ticked_quiet _ _ _) (congrArg Path.lines hcore :) (congrArg Path.change hcore :)

theorem Hub.tickPath_record (p : Fin 8) :
    (Hub.tickPath p h).paths.path[p]'p.2 =
      ((h.paths.path[p]'p.2).ticked (h.pins p) h.tb.frame.serial).settled h.tb.frame.serial := by
  rw [Hub.tickPath_eq, Hub.evaluatePath_self, Hub.tellLines_paths, Hub.tellLines_tb]

theorem Hub.tickPath_timebase (p : Fin 8) : (Hub.tickPath p h).tb = h.tb := ((h.tickPath_only p) .timebase (by decide)).symm

theorem Hub.tickPath_settings (q : Fin 8) :
    (Hub.tickPath q h).gauges.auto = h.gauges.auto ∧ (Hub.tickPath q h).gauges.window = h.gauges.window := by
  have hd := h.tickPath_done q
  by_cases hl : (h.paths.path[q]).Leaves (Hub.tickPath q h).paths.path[q]
  · obtain ⟨-, -, ha, hw, -⟩ := hd.leaves hl
    exact ⟨ha, hw⟩
  · rw [hd.stays hl]
    exact ⟨rfl, rfl⟩

theorem Hub.tickPath_samePath {p q : Fin 8} (hq : p ≠ q) : h.SamePath p (Hub.tickPath q h) where
  path := (h.tickPath_done q).others p hq
  gauge := by
    by_cases hl : (h.paths.path[q]).Leaves (Hub.tickPath q h).paths.path[q]
    · exact ((h.tickPath_done q).leaves hl).2.1 p hq
    · rw [(h.tickPath_done q).stays hl]
  moment := h.tickPath_moment q
  timebase := h.tickPath_timebase q
  settings := h.tickPath_settings q
  heard := h.tickPath_heard q

theorem Hub.tickPaths_at (p : Fin 8) :
    ∃ g : Hub, h.SamePath p g ∧ (Hub.tickPath p g).SamePath p h.tickPaths :=
  Hub.forEach_at (R := Hub.SamePath p) (Hub.SamePath.refl p) Hub.SamePath.trans p
    (fun _ g hq => g.tickPath_samePath (Ne.symm hq)) h

/-- The record of a path after the paths' stage. -/
theorem Hub.tickPaths_record (p : Fin 8) :
    h.tickPaths.paths.path[p] =
      ((h.paths.path[p]'p.2).ticked (h.pins p) h.tb.frame.serial).settled h.tb.frame.serial := by
  obtain ⟨g, hbefore, hafter⟩ := h.tickPaths_at p
  rw [hafter.path, Hub.tickPath_record, hbefore.path, hbefore.timebase, h.pins_congr hbefore.moment]

theorem Hub.tickPaths_sampled (p : Fin 8) : h.Sampled h.tickPaths p (h.pins p) h.tb.frame.serial := by
  obtain ⟨g, hbefore, hafter⟩ := h.tickPaths_at p
  obtain ⟨hl, hc, ht⟩ := (g.tickPath_done p).sampled
  rw [hbefore.path, hbefore.timebase, h.pins_congr hbefore.moment] at ht
  rw [hbefore.path, h.pins_congr hbefore.moment] at hc
  refine ⟨?_, ?_, fun hne => ((ht hne).later hafter.heard (by decide)).earlier hbefore.heard⟩
  · rw [hafter.path, hl, h.pins_congr hbefore.moment]
  · rw [hafter.path, hc]

/-- The gauge of a path after the paths' stage. -/
theorem Hub.tickPaths_gauge (p : Fin 8) :
    ((h.paths.path[p]).Leaves h.tickPaths.paths.path[p] →
      (h.gauges.path[p]).Left h.tickPaths.gauges.path[p] ∧
        ((h.gauges.path[p]).manual ≠ .idle → ∀ q : Fin 4, (h.tickPaths.notices[q]).summary.getLsbD 14 = true)) ∧
    (¬ (h.paths.path[p]).Leaves h.tickPaths.paths.path[p] → h.tickPaths.gauges.path[p] = h.gauges.path[p]) := by
  obtain ⟨g, hbefore, hafter⟩ := h.tickPaths_at p
  rw [hafter.path, hafter.gauge, ← hbefore.path, ← hbefore.gauge]
  refine ⟨fun hl => ?_, fun hl => by rw [(g.tickPath_done p).stays hl]⟩
  obtain ⟨hleft, -, -, -, hdone, -⟩ := (g.tickPath_done p).leaves hl
  refine ⟨hleft, fun hm q => hafter.heard.summary_mono q (by decide) ?_⟩
  rw [hdone, decide_eq_true hm, Bool.or_true]

theorem Hub.tickPaths_settings :
    h.tickPaths.gauges.auto = h.gauges.auto ∧ h.tickPaths.gauges.window = h.gauges.window := by
  obtain ⟨g, hbefore, hafter⟩ := h.tickPaths_at 0
  obtain ⟨ha, hw⟩ := g.tickPath_settings 0
  exact ⟨hafter.settings.1.trans (ha.trans hbefore.settings.1), hafter.settings.2.trans (hw.trans hbefore.settings.2)⟩

/-- A loop over the paths in which each one's part leaves the records of the others is a chain of legs. -/
theorem Hub.paths_follow {f : Fin 8 → Hub → Hub} {n : Nat} (hf : ∀ q (g : Hub), g.PathsFollow g.tb.frame n (f q g))
    (htb : ∀ q (g : Hub), (f q g).tb = g.tb)
    (hne : ∀ p q (g : Hub), p ≠ q → (f q g).paths.path[p]'p.2 = g.paths.path[p]'p.2) :
    h.PathsFollow h.tb.frame (8 * n) (h.forEach 8 f) := by
  have hfold : ∀ (qs : List (Fin 8)), qs.Nodup → ∀ g : Hub,
      g.PathsFollow g.tb.frame (qs.length * n) (qs.foldl (fun g q => f q g) g) ∧
        ∀ p, p ∉ qs → (qs.foldl (fun g q => f q g) g).paths.path[p]'p.2 = g.paths.path[p]'p.2 := by
    intro qs
    induction qs with
    | nil =>
      exact fun _ g => ⟨(Hub.PathsFollow.of_only (.refl [] g) (by decide) (.refl [] g) (by decide) (.refl g)).mono
        (Nat.zero_le _), fun _ _ => rfl⟩
    | cons q qs ih =>
      intro hnd g
      obtain ⟨hq, hnd⟩ := List.nodup_cons.mp hnd
      obtain ⟨hrest, hkeeps⟩ := ih hnd (f q g)
      rw [htb] at hrest
      refine ⟨((hf q g).trans hrest fun p => ?_).mono (by rw [List.length_cons]; ring_nf; omega), fun p hp => ?_⟩
      · by_cases hp : p = q
        · subst hp
          right
          rw [hkeeps p hq]
          exact .refl _
        · left
          rw [hne p q g hp]
      · rw [List.mem_cons, not_or] at hp
        obtain ⟨hpq, hp⟩ := hp
        rw [List.foldl_cons, hkeeps p hp, hne p q g hpq]
  have hall := (hfold (List.finRange 8) (List.nodup_finRange 8) h).1
  rwa [List.length_finRange] at hall

theorem Hub.tickPaths_follow : h.PathsFollow h.tb.frame (8 * 5) h.tickPaths :=
  h.paths_follow (fun q g => (g.tickPath_done q).follows) (fun q g => g.tickPath_timebase q)
    fun p q g hq => (g.tickPath_done q).others p hq

/-- Without a line that differs the paths' stage gives no PATH_CHANGE. -/
theorem Hub.tickPaths_quiet (hl : ∀ p : Fin 8, h.pins p = (h.paths.path[p]'p.2).lines) :
    Hub.Heard pathKinds h h.tickPaths := by
  have hfold : ∀ (qs : List (Fin 8)) (g : Hub), (∀ p : Fin 8, g.pins p = (g.paths.path[p]'p.2).lines) →
      Hub.Heard pathKinds g (qs.foldl (fun g q => Hub.tickPath q g) g) := by
    intro qs
    induction qs with
    | nil => exact fun g _ => .refl _ g
    | cons q qs ih =>
      intro g hg
      have hstep : Hub.Heard pathKinds g (Hub.tickPath q g) := by
        rw [Hub.tickPath_eq, g.tellLines_same q (hg q)]
        exact g.evaluate_heard q _
      refine hstep.trans (ih _ fun p => ?_)
      rw [g.pins_congr (g.tickPath_moment q)]
      by_cases hp : p = q
      · subst hp
        exact (g.tickPath_done p).sampled.1.symm
      · rw [(g.tickPath_done q).others p hp, hg]
  exact hfold _ h hl

/-- PATH_CHANGE is given exactly when a line of some path differs. -/
theorem Hub.tickPaths_changed (q : Fin 4) :
    (h.tickPaths.notices[q]).summary.getLsbD 12 = true ↔
      (h.notices[q]'q.2).summary.getLsbD 12 = true ∨ ∃ p : Fin 8, h.pins p ≠ (h.paths.path[p]'p.2).lines := by
  by_cases hl : ∃ p : Fin 8, h.pins p ≠ (h.paths.path[p]'p.2).lines
  · obtain ⟨p, hp⟩ := hl
    exact iff_of_true (((h.tickPaths_sampled p).2.2 hp) q).1 (.inr ⟨p, hp⟩)
  · have hquiet := h.tickPaths_quiet fun p => not_not.mp fun hne => hl ⟨p, hne⟩
    rw [hquiet.summary_eq q (by decide) (by decide), or_iff_left hl]

end

/-! ### The ports' stage -/

section
variable (h : Hub)

theorem Hub.tickPort_releases (p : Fin 4) : h.Releases h.tb.frame 40 (Hub.tickPort p h) := by
  unfold Hub.tickPort
  split
  · exact (Hub.Releases.refl _ h).mono (Nat.zero_le _)
  · dsimp only
    split
    · exact h.goAbsent_releases p _
    · split
      · exact Hub.Releases.mono (.of_only (h.modPort_only p _) (by decide) (h.modPort_heard (kinds := []) p _) (by decide)
          ((h.modPort_only p _).sameFiling (by decide))) (Nat.zero_le _)
      · exact (Hub.Releases.refl _ h).mono (Nat.zero_le _)

theorem Hub.tickPorts_releases : h.Releases h.tb.frame (4 * 40) h.tickPorts :=
  .forEach (fun p g => g.tickPort_releases p) h

/-! ### The stages before the paths -/

theorem Hub.timebaseNotices_files (old : Timebase) : Hub.Files LabelSource.timebase.Owns 5 h (h.timebaseNotices old) := by
  have hbefore : h.SameFiling h.afterJump :=
    .opt (.opt (.refl h) (h.notify_sameFiling .serialWrap 0)) (Hub.notify_sameFiling _ .tcJump 0)
  have hlabel : Hub.Files LabelSource.timebase.Owns 5 h h.afterJumpLabel :=
    .ite ((hbefore.files.trans (Hub.label_owned _ _)).mono (fun _ => id) (by omega))
      (hbefore.files.mono (fun _ => id) (Nat.zero_le _))
  have hwrap : Hub.Files LabelSource.timebase.Owns 5 h (h.afterWrap old) :=
    .ite (hlabel.trans (Hub.notify_sameFiling _ .dayWrap 0).files) hlabel
  rw [Hub.timebaseNotices_stages]
  exact .ite (hwrap.trans (Hub.notify_sameFiling _ .refState 1).files) hwrap

/-- The parts that the stages of a tick before the paths can change. -/
def earlyParts : List Part := [.timebase] ++ mixerParts ++ coderParts

/-- The kinds of notice that those stages give. -/
def earlyKinds : List NoticeKind := [.serialWrap, .tcJump, .dayWrap, .refState] ++ unitKinds ++ mixerKinds ++ coderKinds

theorem Hub.atPaths_only (m : Nat) : Hub.OnlyChanges earlyParts h (h.atPaths m) :=
  .trans (.trans (.trans ((h.tickFrame_only m).mono (by decide)) ((Hub.timebaseNotices_only _ _).mono (by decide)))
    ((Hub.tickMixer_only _ _).mono (by decide))) ((Hub.tickCoder_only _).mono (by decide))

theorem Hub.atPaths_heard (m : Nat) : Hub.Heard earlyKinds h (h.atPaths m) :=
  .trans (.trans (.trans ((h.tickFrame_only m).heard (by decide)) ((Hub.timebaseNotices_heard _ _).mono (by decide)))
    ((Hub.tickMixer_heard _ _).mono (by decide))) ((Hub.tickCoder_heard _).mono (by decide))

theorem Hub.atPaths_tb (m : Nat) : (h.atPaths m).tb = h.tb.tick m := by
  have hcoder := (h.atCoder m).tickCoder_only .timebase (by decide)
  have hmixer := (h.atMixer m).tickMixer_only h.tb .timebase (by decide)
  have hnotices := (h.tickFrame m).timebaseNotices_only h.tb .timebase (by decide)
  exact (hnotices.trans (hmixer.trans hcoder)).symm

/-- A label of another block is none of a path. -/
theorem LabelSource.Owns.notPath {b : LabelSource} (hb : b ≠ .link) {y : Label} (hy : b.Owns y) (p : Fin 8) :
    y.ofPath p = false := by
  rcases hy with hy | hy
  · simp [Label.ofPath, hy, hb]
  · exact Label.ofPath_trigger hy

/-- The stages before the paths change no path. -/
theorem Hub.atPaths_follow (m : Nat) : h.PathsFollow (h.tb.tick m).frame 205 (h.atPaths m) := by
  have hfiles : Hub.Files (fun y => ∃ b : LabelSource, b ≠ .link ∧ b.Owns y) (0 + 5 + 160 + 40) h (h.atPaths m) :=
    .trans (.trans (.trans (h.tickFrame_sameFiling m).files
      ((Hub.timebaseNotices_files _ _).mono (fun _ hy => ⟨.timebase, nofun, hy⟩) (Nat.le_refl _)))
      ((Hub.tickMixer_files _ _).mono (fun _ hy => ⟨.mixer, nofun, hy⟩) (Nat.le_refl _)))
      ((Hub.tickCoder_files _).mono (fun _ hy => ⟨.coder, nofun, hy⟩) (Nat.le_refl _))
  have hpath : h.paths.path = (h.atPaths m).paths.path := h.atPaths_only m .pathRecords (by decide)
  have hbonds : h.paths.bonds = (h.atPaths m).paths.bonds := (h.atPaths_only m .mapping (by decide)).2.2
  refine .of_still (h.atPaths_heard m) (by decide) hfiles (fun y p ⟨b, hb, hy⟩ => hy.notPath hb p) (fun p => ?_) hbonds.symm
  rw [← hpath]
  exact ⟨rfl, rfl, rfl, rfl, rfl⟩

/-! ### The stages after the ports -/

theorem Hub.modPath_openFrame_at (p : Fin 8) : h.openPaths.paths.path[p]'p.2 = (h.paths.path[p]'p.2).openFrame := by
  obtain ⟨g, hbefore, hafter⟩ := Hub.forEach_at (f := fun q g => g.modPath q Path.openFrame)
    (R := fun a b : Hub => b.paths.path[p]'p.2 = a.paths.path[p]'p.2) (fun _ => rfl) (fun h₁ h₂ => h₂.trans h₁) p
    (fun q g hq => g.modPath_ne _ (Ne.symm hq)) h
  rw [Hub.openPaths, hafter, Hub.modPath_self, hbefore]

theorem Path.openFrame_still (x : Path) : x.Still x.openFrame := ⟨rfl, rfl, ⟨rfl, rfl, rfl, rfl⟩, rfl, rfl⟩

theorem Hub.openPaths_follow (frame : Frame) : h.PathsFollow frame 0 h.openPaths := by
  have hbonds : h.paths.bonds = h.openPaths.paths.bonds := (h.openPaths_only .mapping (by decide)).2.2
  refine .of_still (P := fun _ => False) (h.openPaths_only.heard (kinds := []) (by decide)) (by decide)
    (h.openPaths_only.sameFiling (by decide)).files nofun (fun p => ?_) hbonds.symm
  rw [Hub.modPath_openFrame_at]
  exact ⟨rfl, rfl, rfl, rfl, rfl⟩

/-- The parts that the last stages of a tick change. -/
theorem Hub.lateStages_only : Hub.OnlyChanges [.log, .notices, .tally] h h.tickTests.tickTally :=
  (h.tickTests_only.mono (by decide)).trans ((Hub.tickTally_only _).mono (by decide))

theorem Hub.lateStages_heard : Hub.Heard tickKinds h h.tickTests.tickTally :=
  (Hub.Heard.forEach (fun k g => (g.testClips_heard k none).mono (by decide)) h).trans
    ((Hub.tickTally_only _).heard (by decide))

theorem Hub.lateStages_sameFiling : h.SameFiling h.tickTests.tickTally :=
  h.tickTests_sameFiling.trans ((Hub.tickTally_only _).sameFiling (by decide))

theorem Hub.tickGauges_heard : Hub.Heard gaugeKinds h h.tickGauges :=
  .forEach (fun p g => (g.tickAuto_heard p).trans ((Hub.tickManual_heard _ p).mono (by decide))) h

theorem Hub.tickPorts_heard : Hub.Heard absenceKinds h h.tickPorts := .forEach (fun p g => g.tickPort_heard p) h

end

/-! ### The Gauge's stage (R115, R120) -/

/-- Step 1 of path p's cycle begins at a tick. -/
def Hub.beginsStep1 (h : Hub) (p : Fin 8) (x : Gauge) : Gauge :=
  if h.gauges.auto = true ∧ x.phase = .idle ∧ (h.paths.path[p]'p.2).state = .up then
    { x with phase := .step1, g := h.gauges.window * h.tb.rate.nominal, remaining := h.gauges.window, sum := 0 }
  else x

/-- Step 1 of a cycle ends at a tick. -/
def Hub.endsStep1 (h : Hub) (x : Gauge) : Gauge :=
  if x.sum = 0 then ({ x with remaining := 0, v0 := x.sum } : Gauge).endCycle 0 x.g
  else { x with remaining := 0, v0 := x.sum, phase := .step2, sum := 0, from2 := h.tb.lastTick, count2 := 0 }

/-- The automatic cycle of path p at a tick. -/
def Hub.autoTicked (h : Hub) (p : Fin 8) (x : Gauge) : Gauge :=
  if x.phase = .step1 then
    if x.remaining ≤ 1 then h.beginsStep1 p (h.endsStep1 x) else { x with remaining := x.remaining - 1 }
  else h.beginsStep1 p x

/-- The manual gauge of a path at a tick. -/
def Gauge.manualTicked (now : Nat) (x : Gauge) : Gauge :=
  match x.manual with
  | .idle => x
  | .waiting => { x with manual := .running, manualSum := 0, manualTicks := 0 }
  | .running => if x.timeDue then x.endManual x.timeResult now else { x with manualTicks := x.manualTicks + 1 }

section
variable (h : Hub) (p : Fin 8)

theorem Hub.modGauge_self_eq : h.modGauge p (fun x => x) = h := by simp [Hub.modGauge]

theorem Hub.beginStep1_eq : Hub.beginStep1 p h = h.modGauge p (h.beginsStep1 p) := by
  unfold Hub.beginStep1
  split
  next hc => exact h.modGauge_congr (if_pos hc).symm
  next hc => exact (h.modGauge_self_eq p).symm.trans (h.modGauge_congr (if_neg hc).symm)

theorem Hub.endStep1_gauges : (Hub.endStep1 p h).gauges = (h.modGauge p h.endsStep1).gauges := by
  unfold Hub.endStep1
  dsimp only
  split
  next hs =>
    rw [Hub.endCycle_gauges, Hub.modGauge_modGauge]
    exact congrArg Hub.gauges (h.modGauge_congr (if_pos hs).symm)
  next hs =>
    rw [Hub.modGauge_modGauge]
    exact congrArg Hub.gauges (h.modGauge_congr (if_neg hs).symm)

theorem Hub.beginsStep1_congr {g : Hub} (hg : g.gauges.auto = h.gauges.auto ∧ g.gauges.window = h.gauges.window)
    (hp : (g.paths.path[p]'p.2).state = (h.paths.path[p]'p.2).state) (htb : g.tb = h.tb) : g.beginsStep1 p =
      h.beginsStep1 p := by
  funext x
  rw [Hub.beginsStep1, Hub.beginsStep1, hg.1, hg.2, hp, htb]

theorem Hub.tickAuto_gauges : (Hub.tickAuto p h).gauges = (h.modGauge p (h.autoTicked p)).gauges := by
  unfold Hub.tickAuto
  dsimp only
  split
  next hp =>
    split
    next hr =>
      have hend := h.endStep1_gauges p
      have honly := h.endStep1_only p
      have hpaths : (Hub.endStep1 p h).paths.path = h.paths.path := (honly .pathRecords (by decide)).symm
      have hbegin : (Hub.endStep1 p h).beginsStep1 p = h.beginsStep1 p :=
        h.beginsStep1_congr p (by rw [hend]; exact ⟨rfl, rfl⟩) (by rw [hpaths]) (honly .timebase (by decide)).symm
      rw [Hub.beginStep1_eq, hbegin, Hub.modGauge_gauges _ hend, Hub.modGauge_modGauge]
      refine congrArg Hub.gauges (h.modGauge_congr ?_)
      rw [Hub.autoTicked, if_pos hp, if_pos hr]
    next hr =>
      refine congrArg Hub.gauges (h.modGauge_congr ?_)
      rw [Hub.autoTicked, if_pos hp, if_neg hr]
  next hp =>
    rw [Hub.beginStep1_eq]
    refine congrArg Hub.gauges (h.modGauge_congr ?_)
    rw [Hub.autoTicked, if_neg hp]

theorem Gauge.manualTicked_idle {x : Gauge} (hm : x.manual = .idle) (now : Nat) : x.manualTicked now = x := by
  simp only [Gauge.manualTicked, hm]

theorem Gauge.manualTicked_waiting {x : Gauge} (hm : x.manual = .waiting) (now : Nat) :
    x.manualTicked now = { x with manual := .running, manualSum := 0, manualTicks := 0 } := by
  simp only [Gauge.manualTicked, hm]

theorem Gauge.manualTicked_running {x : Gauge} (hm : x.manual = .running) (now : Nat) :
    x.manualTicked now =
      if x.timeDue = true then x.endManual x.timeResult now else { x with manualTicks := x.manualTicks + 1 } := by
  simp only [Gauge.manualTicked, hm]

theorem Hub.tickManual_gauges : (Hub.tickManual p h).gauges = (h.modGauge p (Gauge.manualTicked h.now)).gauges := by
  unfold Hub.tickManual
  dsimp only
  split
  next hm =>
    refine congrArg Hub.gauges ((h.modGauge_self_eq p).symm.trans (h.modGauge_congr ?_))
    exact (Gauge.manualTicked_idle hm _).symm
  next hm => exact congrArg Hub.gauges (h.modGauge_congr (Gauge.manualTicked_waiting hm _).symm)
  next hm =>
    split
    next ht =>
      rw [Hub.endManual_gauges]
      refine congrArg Hub.gauges (h.modGauge_congr ?_)
      rw [Gauge.manualTicked_running hm, if_pos ht]
    next ht =>
      refine congrArg Hub.gauges (h.modGauge_congr ?_)
      rw [Gauge.manualTicked_running hm, if_neg ht]

/-- What a tick makes of path p's gauge. -/
theorem Hub.tickGauge_gauges :
    (Hub.tickManual p (Hub.tickAuto p h)).gauges =
      (h.modGauge p fun x => (h.autoTicked p x).manualTicked h.now).gauges := by
  have hnow : (Hub.tickAuto p h).now = h.now := congrArg Prod.fst (h.tickAuto_moment p)
  rw [Hub.tickManual_gauges, hnow, Hub.modGauge_gauges _ (h.tickAuto_gauges p), Hub.modGauge_modGauge]

/-- What the other paths' gauges leave of path p at a tick. -/
structure Hub.SameStage (p : Fin 8) (g h : Hub) : Prop where
  gauge : h.gauges.path[p]'p.2 = g.gauges.path[p]'p.2
  settings : h.gauges.auto = g.gauges.auto ∧ h.gauges.window = g.gauges.window
  path : h.paths.path = g.paths.path
  timebase : h.tb = g.tb
  moment : h.moment = g.moment

theorem Hub.SameStage.refl : h.SameStage p h := ⟨rfl, ⟨rfl, rfl⟩, rfl, rfl, rfl⟩

variable {p} in
theorem Hub.SameStage.trans {a b c : Hub} (h₁ : a.SameStage p b) (h₂ : b.SameStage p c) : a.SameStage p c where
  gauge := h₂.gauge.trans h₁.gauge
  settings := ⟨h₂.settings.1.trans h₁.settings.1, h₂.settings.2.trans h₁.settings.2⟩
  path := h₂.path.trans h₁.path
  timebase := h₂.timebase.trans h₁.timebase
  moment := h₂.moment.trans h₁.moment

/-- The Gauge's stage at path p. -/
theorem Hub.tickGauges_gauge : h.tickGauges.gauges.path[p] = (h.autoTicked p h.gauges.path[p]).manualTicked h.now := by
  have hone : ∀ (q : Fin 8) (g : Hub), Hub.OnlyChanges [.gauges, .budget, .notices] g (Hub.tickManual q (Hub.tickAuto q g)) :=
    fun q g => (g.tickAuto_only q).trans ((Hub.tickManual_only _ q).mono (by decide))
  obtain ⟨g, hbefore, hafter⟩ := Hub.forEach_at (f := fun q g => Hub.tickManual q (Hub.tickAuto q g)) (R := Hub.SameStage p)
    (fun a => Hub.SameStage.refl a p) Hub.SameStage.trans p (fun q g hq => by
      refine ⟨?_, ?_, ((hone q g) .pathRecords (by decide)).symm, ((hone q g) .timebase (by decide)).symm, by simp⟩
      · rw [Hub.tickGauge_gauges, Hub.modGauge_ne _ _ (Ne.symm hq)]
      · rw [Hub.tickGauge_gauges]
        exact ⟨rfl, rfl⟩) h
  have hnow : g.now = h.now := congrArg Prod.fst hbefore.moment
  have hauto : g.autoTicked p = h.autoTicked p := by
    funext x
    rw [Hub.autoTicked, Hub.autoTicked, h.beginsStep1_congr p hbefore.settings (by rw [hbefore.path]) hbefore.timebase,
      Hub.endsStep1, Hub.endsStep1, hbefore.timebase]
  rw [Hub.tickGauges, hafter.gauge, Hub.tickGauge_gauges, Hub.modGauge_self, hbefore.gauge, hauto, hnow]

/-- A gauge that is idle, of a path that is not UP, stays so. -/
theorem Hub.tickGauges_idle (ha : (h.gauges.path[p]'p.2).phase = .idle) (hm : (h.gauges.path[p]'p.2).manual = .idle)
    (hs : (h.paths.path[p]).state ≠ .up) : h.tickGauges.gauges.path[p] = h.gauges.path[p] := by
  have hno : ¬ (h.gauges.path[p]'p.2).phase = .step1 := by rw [ha]; nofun
  rw [Hub.tickGauges_gauge, Hub.autoTicked, if_neg hno, Hub.beginsStep1, if_neg fun hc => hs hc.2.2,
    Gauge.manualTicked_idle hm]

end

end Sys2Proof.Machine
end

section
/-! Proofs: what a tick, and the rows ahead of it, make of a path (R90, R91, R94, R107, R109). -/

namespace Sys2Proof.Machine

-- In order, so that the package in one text stays within the memory of its check.
set_option Elab.async false

/-! ### The records that the rows leave -/

section
variable {x : Path} {l : BitVec 4} {w : Word}

/-- A path that is not held, enabled and has its lines good. -/
theorem Path.evaluate_good (hh : x.hold = false) (he : x.enabled = true) (hc : x.lines.getLsbD 1 = true)
    (hk : x.lines.getLsbD 2 = true) (hl : x.loss = false) :
    x.evaluate = if x.timeoutMark = true then (.down, .pauseTimeout)
      else if x.lines.getLsbD 0 = true then (.up, .none) else (.paused, .none) := by
  have hcarrier : carrierOf x.lines = true := hc
  have hlink : linkOkOf x.lines = true := hk
  rw [show x.lines.getLsbD 0 = readyOf x.lines from rfl]
  cases hr : readyOf x.lines <;> simp [Path.evaluate, hh, he, hcarrier, hlink, hl, hr]

theorem Path.ticked_enabled (x : Path) : (x.ticked l w).enabled = x.enabled := (congrArg Path.enabled (x.ticked_core l w) :)

theorem Path.ticked_lines (x : Path) : (x.ticked l w).lines = l := (congrArg Path.lines (x.ticked_core l w) :)

theorem Path.ticked_loss (x : Path) : (x.ticked l w).loss = (x.loss || x.breaks) :=
  (congrArg Path.loss (x.ticked_core l w) :)

/-- The fields that an evaluation after a tick's judgement keeps. -/
theorem Path.ticked_kept (x : Path) (l : BitVec 4) (w : Word) :
    let y := (x.ticked l w).settled w
    y.enabled = x.enabled ∧ y.lines = l ∧ y.loss = (x.loss || x.breaks) ∧
      y.counts.breaks = (if x.breaks = true then x.counts.breaks + 1 else x.counts.breaks) ∧
      y.resetCount = (if x.state = .reset then min 4 (x.resetCount + 1) else x.resetCount) := by
  intro y
  have hcore := x.ticked_core l w
  have hk : (x.ticked l w).Kept y := Path.settled_kept _ w
  have hbreaks : (x.ticked l w).counts.breaks = (if x.breaks = true then x.counts.breaks + 1 else x.counts.breaks) := by
    refine (congrArg (fun z : Path => z.counts.breaks) hcore).trans ?_
    simp only [Path.core]
    split <;> rfl
  exact ⟨hk.enabled.trans x.ticked_enabled, hk.lines.trans x.ticked_lines, hk.loss.trans x.ticked_loss,
    hk.breaks.trans hbreaks, hk.resetCount.trans (x.ticked_resetCount l w)⟩

theorem Path.judged_pausing (x : Path) (l : BitVec 4) (w : Word) :
    (x.judged l).pausing w = true ↔ x.state = .paused ∧ x.pausedIn ≠ w ∧ l.getLsbD 0 = false ∧ l.getLsbD 1 = true ∧
      l.getLsbD 2 = true ∧ x.loss = false ∧ x.breaks = false := by
  rw [Path.pausing_iff]
  simp only [Path.judged, Bool.or_eq_false_iff]
  rfl

theorem Path.sampled_pausing (x : Path) (l : BitVec 4) (w : Word) :
    (x.sampled l).pausing w = true ↔ x.state = .paused ∧ x.pausedIn ≠ w ∧ l.getLsbD 0 = false ∧ l.getLsbD 1 = true ∧
      l.getLsbD 2 = true ∧ x.loss = false := by
  rw [Path.sampled_eq, Path.pausing_iff]
  rfl

/-- The pause count of a path survives an entry into DOWN. -/
theorem Path.settled_down {x : Path} (hx : x.evaluate.1 = .down) (w : Word) :
    (x.settled w).pauseCount = x.pauseCount ∧ (x.settled w).timeoutMark = x.timeoutMark := by
  by_cases he : x.evaluate.1 = x.state
  · rw [Path.settled_stays he]
    exact ⟨rfl, rfl⟩
  · rw [Path.settled_enters he, hx]
    exact ⟨rfl, rfl⟩

/-- What a paused path with good lines, no loss and no break is at a tick. -/
theorem Path.ticked_paused (hs : x.state = .paused) (hh : x.hold = false) (he : x.enabled = true) (hl : x.loss = false)
    (hm : x.timeoutMark = false) (hb : x.breaks = false) (hr : l.getLsbD 0 = false) (hc : l.getLsbD 1 = true)
    (hk : l.getLsbD 2 = true) :
    (x.ticked l w).evaluate =
      if x.pausedIn ≠ w ∧ x.pauseLimit ≤ x.pauseCount + 1 then (.down, .pauseTimeout) else (.paused, .none) := by
  have hlines : (x.ticked l w).lines = l := x.ticked_lines
  have hloss : (x.ticked l w).loss = false := by rw [Path.ticked_loss, hl, hb, Bool.or_self]
  have hmark : (x.ticked l w).timeoutMark = true ↔ x.pausedIn ≠ w ∧ x.pauseLimit ≤ x.pauseCount + 1 := by
    have hp := x.judged_pausing l w
    simp only [hs, hr, hc, hk, hl, hb, and_true, true_and] at hp
    rw [Path.ticked_mark, readyOf, hr, hm, Bool.false_or, Bool.not_false, Bool.true_and, Bool.and_eq_true, decide_eq_true_iff,
      hp]
  rw [Path.evaluate_good (x.ticked_hold l w hh) (x.ticked_enabled.trans he) (by rw [hlines]; exact hc)
    (by rw [hlines]; exact hk) hloss, hlines, hr]
  exact if_congr hmark rfl (if_neg nofun)

end

/-! ### The rows ahead of the tick -/

section
variable {h : Hub} {p : Fin 8}

theorem Hub.TickDone.changes_state {g t : Hub} (hd : g.TickDone t p)
    (hne : (t.paths.path[p]'p.2).state ≠ (g.paths.path[p]'p.2).state)
    (q : Fin 4) : (t.notices[q]'q.2).summary.getLsbD 13 = true := (hd.told q).mpr (.inr hne)

/-- R91: the record of a path at its pause timeout. -/
theorem Hub.pauseTimeout_record (hs : (h.paths.path[p]'p.2).state = .paused) (hh : (h.paths.path[p]'p.2).hold = false)
    (he : (h.paths.path[p]'p.2).enabled = true) (hl : (h.paths.path[p]'p.2).loss = false)
      (hb : (h.paths.path[p]'p.2).breaks = false)
    (hr : (h.pins p).getLsbD 0 = false) (hc : (h.pins p).getLsbD 1 = true) (hk : (h.pins p).getLsbD 2 = true)
    (hlimit : (h.paths.path[p]'p.2).pauseLimit ≤ (h.paths.path[p]'p.2).pauseCount + 1)
    (hin : (h.paths.path[p]'p.2).pausedIn ≠ h.tb.frame.serial) :
    let y := (Hub.pauseTimeout p h).paths.path[p]'p.2
    h.TickDone (Hub.pauseTimeout p h) p ∧ y.state = .down ∧ y.reason = .pauseTimeout ∧ y.timeoutMark = true ∧
      y.pauseCount = min 250 ((h.paths.path[p]'p.2).pauseCount + 1) := by
  intro y
  have hpausing := (Path.sampled_pausing (h.paths.path[p]'p.2) (h.pins p) h.tb.frame.serial).mpr ⟨hs, hin, hr, hc, hk, hl⟩
  have htaken := Hub.pauseTimeout_taken hpausing (by rw [hb]; nofun) hlimit hh
  rw [← Hub.tickPath_eq] at htaken
  have hjudged := (Path.judged_pausing (h.paths.path[p]'p.2) (h.pins p) h.tb.frame.serial).mpr ⟨hs, hin, hr, hc, hk, hl, hb⟩
  have hmark : ((h.paths.path[p]'p.2).ticked (h.pins p) h.tb.frame.serial).timeoutMark = true := by
    rw [Path.ticked_mark, hjudged, readyOf, hr, decide_eq_true hlimit]
    simp
  have hlines := Path.ticked_lines (l := h.pins p) (w := h.tb.frame.serial) (h.paths.path[p]'p.2)
  have heval : ((h.paths.path[p]'p.2).ticked (h.pins p) h.tb.frame.serial).evaluate = (.down, .pauseTimeout) := by
    rw [Path.evaluate_good (Path.ticked_hold _ _ _ hh) ((Path.ticked_enabled _).trans he) (by rw [hlines]; exact hc)
      (by rw [hlines]; exact hk) (by rw [Path.ticked_loss, hl, hb, Bool.or_self]), if_pos hmark]
  have hdown := congrArg Prod.fst heval
  have hrec : y = ((h.paths.path[p]'p.2).ticked (h.pins p) h.tb.frame.serial).settled h.tb.frame.serial := by
    rw [show y = (Hub.pauseTimeout p h).paths.path[p]'p.2 from rfl, htaken, Hub.tickPath_record]
  obtain ⟨hcount, hkeep⟩ := Path.settled_down hdown h.tb.frame.serial
  rw [htaken, hrec]
  refine ⟨h.tickPath_done p, ?_, ?_, hkeep.trans hmark, hcount.trans ?_⟩
  · rw [Path.settled_state, heval]
  · rw [Path.settled_reason, heval]
  · rw [Path.ticked_pauseCount, if_pos hjudged]

/-- R94: the record of a path at its break. -/
theorem Hub.backChannelBreak_record (hb : (h.paths.path[p]'p.2).breaks = true) (hh : (h.paths.path[p]'p.2).hold = false)
    (he : (h.paths.path[p]'p.2).enabled = true) :
    let y := (Hub.backChannelBreak p h).paths.path[p]'p.2
    h.TickDone (Hub.backChannelBreak p h) p ∧ y.loss = true ∧ y.counts.breaks = (h.paths.path[p]'p.2).counts.breaks + 1 ∧
      y.lines = h.pins p ∧ y.state = .down ∧
      ((h.pins p).getLsbD 1 = true ∧ (h.pins p).getLsbD 2 = true → y.reason = .loss) := by
  intro y
  have htaken := Hub.backChannelBreak_taken (p := p) (h := h) hb
  have hform : ((h.paths.path[p]'p.2).sampled (h.pins p)).takeBreak =
      { h.paths.path[p]'p.2 with
        lines := h.pins p
        change := (h.paths.path[p]'p.2).change || decide (h.pins p ≠ (h.paths.path[p]'p.2).lines)
        loss := true
        counts := { (h.paths.path[p]'p.2).counts with breaks := (h.paths.path[p]'p.2).counts.breaks + 1 } } := by
    rw [Path.sampled_eq]
    rfl
  have hdone : h.TickDone (Hub.backChannelBreak p h) p := by
    rw [htaken]
    refine Hub.tick_evaluates ?_ ?_ ?_
    all_goals rw [hform]
    exact ⟨rfl, rfl, rfl, rfl, rfl⟩
  generalize hz : ((h.paths.path[p]'p.2).sampled (h.pins p)).takeBreak = z at hform
  have hrec : y = z.settled h.tb.frame.serial := by
    rw [show y = (Hub.backChannelBreak p h).paths.path[p]'p.2 from rfl, htaken, Hub.evaluatePath_self, Hub.tellLines_paths,
      Hub.tellLines_tb, hz]
  have hkept : z.Kept y := hrec ▸ z.settled_kept _
  have hdown : z.evaluate.1 = .down := Path.evaluate_lost (by rw [hform]; exact hh) (by rw [hform]; exact he) (by rw [hform])
  refine ⟨hdone, ?_, ?_, ?_, ?_, fun ⟨hc, hk⟩ => ?_⟩
  · rw [hkept.loss, hform]
  · rw [hkept.breaks, hform]
  · rw [hkept.lines, hform]
  · rw [hrec, Path.settled_state, hdown]
  · have hcarrier : carrierOf z.lines = true := by rw [hform]; exact hc
    have hlink : linkOkOf z.lines = true := by rw [hform]; exact hk
    have hfree : z.hold = false := by rw [hform]; exact hh
    have hon : z.enabled = true := by rw [hform]; exact he
    have hloss : z.loss = true := by rw [hform]
    rw [hrec, Path.settled_reason]
    simp [Path.evaluate, hcarrier, hlink, hfree, hon, hloss]

/-- R109: the record of a path at the release that is due. -/
theorem Hub.releaseDue_record (hs : (h.paths.path[p]'p.2).state = .reset) (hh : (h.paths.path[p]'p.2).hold = true)
    (hd : (h.paths.path[p]'p.2).releaseDue = true) (hcount : (h.paths.path[p]'p.2).resetCount = 3) :
    let y := (Hub.releaseDue p h).paths.path[p]'p.2
    h.TickDone (Hub.releaseDue p h) p ∧ y.hold = false ∧ y.holder = none ∧ y.releaseDue = false ∧ y.resetCount = 4 ∧
      y.lines = h.pins p ∧ y.enabled = (h.paths.path[p]'p.2).enabled ∧ y.state ≠ .reset := by
  intro y
  have htaken := Hub.releaseDue_taken (p := p) (h := h) ⟨hh, hd, by omega⟩
  have hform : ((h.paths.path[p]'p.2).sampled (h.pins p)).countReset.dueRelease =
      { h.paths.path[p]'p.2 with
        lines := h.pins p
        change := (h.paths.path[p]'p.2).change || decide (h.pins p ≠ (h.paths.path[p]'p.2).lines)
        resetCount := 4
        hold := false
        holder := none
        releaseDue := false } := by
    clear htaken y
    generalize h.paths.path[p]'p.2 = x at hs hh hd hcount
    rw [Path.sampled_eq, Path.countReset, if_pos (by exact hs)]
    simp [Path.dueRelease, hh, hd, hcount, Path.release]
  have hdone : h.TickDone (Hub.releaseDue p h) p := by
    rw [htaken]
    refine Hub.tick_evaluates ?_ ?_ ?_
    all_goals rw [hform]
    exact ⟨rfl, rfl, rfl, rfl, rfl⟩
  generalize hz : ((h.paths.path[p]'p.2).sampled (h.pins p)).countReset.dueRelease = z at hform
  have hrec : y = z.settled h.tb.frame.serial := by
    rw [show y = (Hub.releaseDue p h).paths.path[p]'p.2 from rfl, htaken, Hub.evaluatePath_self, Hub.tellLines_paths,
      Hub.tellLines_tb, hz]
  have hkept : z.Kept y := hrec ▸ z.settled_kept _
  refine ⟨hdone, ?_, ?_, ?_, ?_, ?_, ?_, ?_⟩
  · rw [hkept.hold, hform]
  · rw [hkept.holder, hform]
  · rw [hkept.releaseDue, hform]
  · rw [hkept.resetCount, hform]
  · rw [hkept.lines, hform]
  · rw [hkept.enabled, hform]
  · rw [hrec, Path.settled_state]
    exact Path.evaluate_free (by rw [hform])

end

/-! ### The tick -/

section
variable (h : Hub) (m : Nat) (p : Fin 8)

/-- The record that the paths' stage of a tick leaves. -/
def Hub.tickedPath : Path :=
  ((h.paths.path[p]'p.2).ticked (h.pins p) (h.tb.tick m).frame.serial).settled (h.tb.tick m).frame.serial

theorem Hub.atPaths_paths : (h.atPaths m).paths.path = h.paths.path := (h.atPaths_only m .pathRecords (by decide)).symm

theorem Hub.atPaths_pins : (h.atPaths m).pins p = h.pins p := h.pins_congr (h.atPaths_moment m) p

theorem Hub.atGauges_tb : (h.atGauges m).tb = h.tb.tick m :=
  ((h.atPaths m).tickPaths_only .timebase (by decide)).symm.trans (h.atPaths_tb m)

theorem Hub.tickBlocks_tb : (h.tickBlocks m).tb = h.tb.tick m :=
  ((h.atGauges m).tickGauges_only .timebase (by decide)).symm.trans (h.atGauges_tb m)

theorem Hub.atGauges_path : (h.atGauges m).paths.path[p] = h.tickedPath m p := by
  rw [Hub.atGauges, Hub.tickPaths_record, Hub.atPaths_tb, Hub.atPaths_pins, Hub.atPaths_paths]
  rfl

theorem Hub.tickBlocks_only : Hub.OnlyChanges [.gauges, .budget, .notices] (h.atGauges m) (h.tickBlocks m) :=
  (h.atGauges m).tickGauges_only

theorem Hub.tickBlocks_path : (h.tickBlocks m).paths.path[p] = h.tickedPath m p := by
  have hone : (h.atGauges m).paths.path = (h.tickBlocks m).paths.path :=
    h.tickBlocks_only m .pathRecords (by decide)
  rw [← hone, Hub.atGauges_path]

/-- The ports' stage of a tick. -/
theorem Hub.afterPorts_releases : (h.tickBlocks m).Releases (h.tb.tick m).frame 160 (h.afterPorts m) := by
  have hr := (h.tickBlocks m).tickPorts_releases
  rwa [Hub.tickBlocks_tb] at hr

theorem Hub.tick_late : Hub.OnlyChanges [.pathRecords, .log, .notices, .tally] (h.afterPorts m) (h.tick m) := by
  rw [Hub.tick_stages]
  exact ((Hub.openPaths_only _).mono (by decide)).trans ((Hub.lateStages_only _).mono (by decide))

theorem Hub.tick_last : Hub.OnlyChanges [.log, .notices, .tally] (h.afterPorts m).openPaths (h.tick m) :=
  Hub.lateStages_only _

theorem Path.openFrame_kept (x : Path) :
    x.openFrame.lines = x.lines ∧ x.openFrame.change = x.change ∧ x.openFrame.enabled = x.enabled ∧
      x.openFrame.loss = x.loss ∧ x.openFrame.counts = x.counts ∧ x.openFrame.resetCount = x.resetCount :=
        ⟨rfl, rfl, rfl, rfl, rfl, rfl⟩

theorem Hub.tick_path : (h.tick m).paths.path[p] = ((h.afterPorts m).paths.path[p]).openFrame := by
  have hlate : (h.afterPorts m).openPaths.paths.path = (h.tick m).paths.path :=
    h.tick_last m .pathRecords (by decide)
  rw [← hlate, Hub.modPath_openFrame_at]

/-- The notices of the stages after the paths. -/
theorem Hub.afterPaths_heard : Hub.Heard (gaugeKinds ++ absenceKinds ++ tickKinds) (h.atGauges m) (h.tick m) := by
  rw [Hub.tick_stages]
  exact .trans (.trans (.trans ((h.atGauges m).tickGauges_heard.mono (by decide))
    ((Hub.tickPorts_heard _).mono (by decide))) ((Hub.openPaths_only _).heard (by decide)))
    ((Hub.lateStages_heard _).mono (by decide))

/-- The kinds of notice that the stages of a tick after the paths give. -/
def lateKinds : List NoticeKind := gaugeKinds ++ absenceKinds ++ (stateKinds ++ [.clipClosed])

theorem Hub.afterPaths_late : Hub.Heard lateKinds (h.atGauges m) (h.tick m) := by
  rw [Hub.tick_stages]
  refine .trans (.trans (.trans ((h.atGauges m).tickGauges_heard.mono (by decide))
    ((Hub.tickPorts_heard _).mono (by decide))) ((Hub.openPaths_only _).heard (by decide))) ?_
  exact (Hub.Heard.forEach (fun k g => (g.testClips_heard k none).mono (by decide)) _).trans
    ((Hub.tickTally_only _).heard (by decide))

/-- R90: the lines of a path at a tick. -/
theorem Hub.tick_sampled : h.Sampled (h.tick m) p (h.pins p) (h.tb.tick m).frame.serial := by
  obtain ⟨hl, hc, ht⟩ : (h.atPaths m).Sampled (h.atGauges m) p ((h.atPaths m).pins p) (h.atPaths m).tb.frame.serial :=
    (h.atPaths m).tickPaths_sampled p
  rw [Hub.atPaths_pins, Hub.atPaths_paths, Hub.atPaths_tb] at ht
  rw [Hub.atPaths_pins, Hub.atPaths_paths] at hc
  rw [Hub.atPaths_pins] at hl
  have hfreed := (h.afterPorts_releases m).freed p
  rw [Hub.tickBlocks_path, ← Hub.atGauges_path] at hfreed
  refine ⟨?_, ?_, fun hne => ((ht hne).later (h.afterPaths_late m) (by decide)).earlier (h.atPaths_heard m)⟩
  · rw [Hub.tick_path, (Path.openFrame_kept _).1, hfreed.lines, hl]
  · rw [Hub.tick_path, (Path.openFrame_kept _).2.1, hfreed.change, hc]

/-- R90: PATH_CHANGE at a tick. -/
theorem Hub.tick_changed (q : Fin 4) :
    ((h.tick m).notices[q]).summary.getLsbD 12 = true ↔
      (h.notices[q]'q.2).summary.getLsbD 12 = true ∨ ∃ p : Fin 8, h.pins p ≠ (h.paths.path[p]'p.2).lines := by
  rw [(h.afterPaths_late m).summary_eq q (by decide) (by decide), Hub.atGauges, Hub.tickPaths_changed,
    (h.atPaths_heard m).summary_eq q (by decide) (by decide), Hub.atPaths_paths]
  simp only [Hub.atPaths_pins]

/-- A path in its evaluated state changes its state once at a tick at most. -/
theorem Hub.tickedPath_one (hx : (h.paths.path[p]'p.2).Table38) :
    (h.tickedPath m p).state = (h.paths.path[p]'p.2).state ∨ (h.tickedPath m p).Rests := by
  cases hh : (h.paths.path[p]'p.2).hold with
  | false => exact .inr (Path.settled_rests (Path.ticked_hold _ _ _ hh) _)
  | true =>
    cases hy : ((h.paths.path[p]'p.2).ticked (h.pins p) (h.tb.tick m).frame.serial).hold with
    | false => exact .inr (Path.settled_rests hy _)
    | true =>
      left
      rw [Hub.tickedPath, Path.settled_state, Path.evaluate_held hy, (hx.1 hh).1]

/-- R92, R99: what the changes of path states at a tick did. -/
theorem Hub.tick_moved (hx : h.PathsEvaluated) : h.PathsMoved (h.tick m) (h.tb.tick m).frame := by
  have hearly := h.atPaths_follow m
  have hpaths : (h.atPaths m).PathsFollow (h.atPaths m).tb.frame (8 * 5) (h.atGauges m) := (h.atPaths m).tickPaths_follow
  rw [Hub.atPaths_tb] at hpaths
  have hgauges : (h.atGauges m).PathsFollow (h.tb.tick m).frame 0 (h.tickBlocks m) :=
    .of_only (h.atGauges m).tickGauges_only (by decide) (h.atGauges m).tickGauges_heard (by decide)
      ((h.atGauges m).tickGauges_only.sameFiling (by decide))
  have hports := h.afterPorts_releases m
  have hopen := (h.afterPorts m).openPaths_follow (h.tb.tick m).frame
  have hlate : (h.afterPorts m).openPaths.PathsFollow (h.tb.tick m).frame 0 (h.tick m) := by
    rw [Hub.tick_stages]
    exact .of_only (Hub.lateStages_only _) (by decide) (Hub.lateStages_heard _) (by decide) (Hub.lateStages_sameFiling _)
  have hlegs := (hearly.trans hpaths fun q => .inl (by rw [Hub.atPaths_paths])).trans hgauges fun q => .inr (by
    have hpath := h.tickBlocks_path m q
    rw [← Hub.atGauges_path] at hpath
    rw [hpath]
    exact .refl _)
  have hall := ((hlegs.trans hports.follows fun q => ?_).trans hopen fun q => .inr ?_).trans hlate fun q => .inr ?_
  · exact hall.moved (by omega)
  · rw [Hub.tickBlocks_path]
    refine (h.tickedPath_one m q (hx q)).imp_right fun hr => ?_
    have hrest := (hports.rests q)
    rw [Hub.tickBlocks_path] at hrest
    exact (hrest hr).1
  · rw [Hub.modPath_openFrame_at]
    exact Path.openFrame_still _
  · rw [Hub.modPath_openFrame_at, Hub.tick_path]
    exact .refl _

end

section
variable (h : Hub) (m : Nat) (p : Fin 8)

theorem Hub.tickedPath_evaluated : (h.tickedPath m p).Evaluated := Path.settled_evaluated _ _

theorem Path.Evaluated.openFrame {x : Path} (hx : x.Evaluated) : x.openFrame.Evaluated := hx

theorem Path.openFrame_watch (x : Path) :
    x.openFrame.heard = false ∧ (x.openFrame.upAllFrame = true ↔ x.openFrame.state = .up ∨ x.openFrame.state = .paused) :=
  ⟨rfl, Path.carrying_iff x⟩

/-- An evaluated path in another state than RESET is not held. -/
theorem Path.Evaluated.free {x : Path} (hx : x.Evaluated) (hs : x.state ≠ .reset) : x.Rests := by
  refine ⟨?_, hx⟩
  rw [← Bool.not_eq_true]
  exact fun hh => hs ((hx.table38.1 hh).1)

/-- What the ports' stage of a tick and the new frame make of a path. -/
theorem Hub.tick_freed :
    ∃ z : Path, (h.tick m).paths.path[p] = z.openFrame ∧ (h.tickedPath m p).Freed z ∧ (h.tickedPath m p).MarkLeft z ∧
      ((h.tickedPath m p).Rests → (h.tickedPath m p).Still z) := by
  have hr := h.afterPorts_releases m
  have hfreed := hr.freed p
  have hmark := hr.mark p
  have hrests := hr.rests p
  rw [Hub.tickBlocks_path] at hfreed hmark hrests
  exact ⟨_, h.tick_path m p, hfreed, hmark, fun h => (hrests h).1⟩

/-- R118, R122: the gauge of a path that leaves UP or PAUSED at a tick. -/
theorem Hub.tick_gaugeLeft (hs : (h.paths.path[p]'p.2).state = .up ∨ (h.paths.path[p]'p.2).state = .paused)
    (hup : ((h.tick m).paths.path[p]).state ≠ .up) (hpaused : ((h.tick m).paths.path[p]).state ≠ .paused) :
    (h.gauges.path[p]).Left (h.tick m).gauges.path[p] ∧
      ((h.gauges.path[p]).manual ≠ .idle → ∀ q : Fin 4, ((h.tick m).notices[q]).summary.getLsbD 14 = true) := by
  obtain ⟨z, hz, -, -, hstill⟩ := h.tick_freed m p
  have hev := h.tickedPath_evaluated m p
  have hstate : ((h.tick m).paths.path[p]).state = z.state := by rw [hz]; exact (Path.openFrame_still z).state
  rw [hstate] at hup hpaused
  have hleaves : (h.paths.path[p]'p.2).Leaves (h.tickedPath m p) := by
    refine ⟨hs, fun hy => hup ?_, fun hy => hpaused ?_⟩
    · rw [(hstill (hev.free (by rw [hy]; nofun))).state, hy]
    · rw [(hstill (hev.free (by rw [hy]; nofun))).state, hy]
  have hgauges : h.gauges = (h.atPaths m).gauges := h.atPaths_only m .gauges (by decide)
  have hstage : ((h.atPaths m).paths.path[p]).Leaves (h.atGauges m).paths.path[p] := by
    rwa [Hub.atPaths_paths, Hub.atGauges_path]
  have hgauge : ((h.atPaths m).paths.path[p]).Leaves (h.atGauges m).paths.path[p] →
      ((h.atPaths m).gauges.path[p]).Left (h.atGauges m).gauges.path[p] ∧
        (((h.atPaths m).gauges.path[p]).manual ≠ .idle →
          ∀ q : Fin 4, ((h.atGauges m).notices[q]).summary.getLsbD 14 = true) := by
    rw [Hub.atGauges]
    exact ((h.atPaths m).tickPaths_gauge p).1
  obtain ⟨hleft, hdone⟩ := hgauge hstage
  have hidle : (h.tickBlocks m).gauges.path[p] = (h.atGauges m).gauges.path[p] := by
    obtain ⟨hphase, -, -, -, -, -, -, -, hmanual, -⟩ := hleft
    rw [Hub.tickBlocks_eq]
    exact (h.atGauges m).tickGauges_idle p hphase hmanual hstage.2.1
  have hports := (h.afterPorts_releases m).gauges p (by rw [Hub.tickBlocks_path]; exact hev)
  have hlast : (h.afterPorts m).gauges = (h.tick m).gauges := h.tick_late m .gauges (by decide)
  rw [← hlast, hports, hidle, hgauges]
  exact ⟨hleft, fun hm q => (h.afterPaths_late m).summary_mono q (by decide) (hdone hm q)⟩

/-- R91: the pause-timeout mark at a tick. -/
theorem Hub.tick_mark :
    ((h.pins p).getLsbD 0 = true → ((h.tick m).paths.path[p]).timeoutMark = false) ∧
      (h.PathsEvaluated → ¬ (h.pins p).getLsbD 0 = true → (h.paths.path[p]'p.2).state ≠ .paused →
        ((h.tick m).paths.path[p]).state = (h.paths.path[p]).state ∨
          (((h.tick m).paths.path[p]).state ≠ .off ∧ ((h.tick m).paths.path[p]).state ≠ .reset) →
        ((h.tick m).paths.path[p]).timeoutMark = (h.paths.path[p]).timeoutMark) := by
  obtain ⟨z, hz, -, hmark, hstill⟩ := h.tick_freed m p
  have hev := h.tickedPath_evaluated m p
  rw [hz, (Path.openFrame_still z).timeoutMark, (Path.openFrame_still z).state]
  have hone := h.tickedPath_one m p
  have hticked := Path.ticked_mark (h.paths.path[p]'p.2) (h.pins p) (h.tb.tick m).frame.serial
  have hset := Path.settled_mark ((h.paths.path[p]'p.2).ticked (h.pins p) (h.tb.tick m).frame.serial)
    (h.tb.tick m).frame.serial
  have hstays : (h.tickedPath m p).state = (h.paths.path[p]'p.2).state →
      (h.tickedPath m p).timeoutMark =
        ((h.paths.path[p]'p.2).ticked (h.pins p) (h.tb.tick m).frame.serial).timeoutMark := fun hs => by
    have hq := (Path.ticked_quiet (h.paths.path[p]'p.2) (h.pins p) (h.tb.tick m).frame.serial).state
    rw [Hub.tickedPath, Path.settled_state] at hs
    rw [Hub.tickedPath, Path.settled_stays (hs.trans hq.symm)]
  change (h.tickedPath m p).timeoutMark = _ ∨ ((h.tickedPath m p).state = _ ∨ (h.tickedPath m p).state = _) ∧
    (h.tickedPath m p).timeoutMark = false at hset
  generalize h.tickedPath m p = y at *
  refine ⟨fun hr => ?_, fun hx hr hs hout => ?_⟩
  · have hclear : ((h.paths.path[p]'p.2).ticked (h.pins p) (h.tb.tick m).frame.serial).timeoutMark = false := by
      rw [hticked, readyOf, hr]
      rfl
    have hy : y.timeoutMark = false := hset.elim (fun he => he.trans hclear) And.right
    exact hmark.elim (fun he => he.trans hy) fun hz => hz.2.2
  · have hkeep : ((h.paths.path[p]'p.2).ticked (h.pins p) (h.tb.tick m).frame.serial).timeoutMark =
      (h.paths.path[p]'p.2).timeoutMark := by
      have hno : ((h.paths.path[p]'p.2).judged (h.pins p)).pausing (h.tb.tick m).frame.serial = false := by
        rw [← Bool.not_eq_true, Path.judged_pausing]
        exact fun hc => hs hc.1
      rw [Bool.not_eq_true] at hr
      rw [hticked, hno, readyOf, hr]
      simp
    by_cases hsame : y.state = (h.paths.path[p]'p.2).state
    · rcases hmark with he | ⟨-, hoff, -⟩
      · rw [he, hstays hsame, hkeep]
      · have hxoff : y.state = .off := by
          rw [hsame]
          exact (hout.resolve_right fun hc => hc.1 hoff).symm.trans hoff
        rw [(hstill (hev.free (by rw [hxoff]; nofun))).timeoutMark, hstays hsame, hkeep]
    · have hrests := (hone (hx p)).resolve_left hsame
      have hs' := hstill hrests
      rw [hs'.state] at hout
      have hlive := hout.resolve_left hsame
      rw [hs'.timeoutMark, hset.resolve_right fun hc => hc.1.elim hlive.1 hlive.2, hkeep]

/-- R91: a paused path at a tick. -/
theorem Hub.tick_paused (hs : (h.paths.path[p]'p.2).state = .paused) (hh : (h.paths.path[p]'p.2).hold = false)
    (he : (h.paths.path[p]'p.2).enabled = true) (hl : (h.paths.path[p]'p.2).loss = false)
    (hm : (h.paths.path[p]'p.2).timeoutMark = false) (hr : ¬ (h.pins p).getLsbD 0 = true) (hc : (h.pins p).getLsbD 1 = true)
    (hk : (h.pins p).getLsbD 2 = true) (hb : (h.paths.path[p]'p.2).breaks = false) :
    let x := h.paths.path[p]'p.2
    let y := (h.tick m).paths.path[p]
    (x.pausedIn = (h.tb.tick m).frame.serial → y.state = .paused ∧ y.pauseCount = x.pauseCount) ∧
      (x.pausedIn ≠ (h.tb.tick m).frame.serial → y.pauseCount = min 250 (x.pauseCount + 1) ∧
        (x.pauseCount + 1 < x.pauseLimit → y.state = .paused ∧ y.reason = .none) ∧
        (x.pauseLimit ≤ x.pauseCount + 1 → y.state = .down ∧ y.reason = .pauseTimeout)) := by
  intro x y
  obtain ⟨z, hz, -, -, hstill⟩ := h.tick_freed m p
  have hrest := hstill (Path.settled_rests (Path.ticked_hold _ _ _ hh) _)
  rw [Bool.not_eq_true] at hr
  have heval : (x.ticked (h.pins p) (h.tb.tick m).frame.serial).evaluate = _ :=
    Path.ticked_paused (w := (h.tb.tick m).frame.serial) hs hh he hl hm hb hr hc hk
  have hjudged := Path.judged_pausing x (h.pins p) (h.tb.tick m).frame.serial
  have hcount := Path.ticked_pauseCount x (h.pins p) (h.tb.tick m).frame.serial
  have hq := (Path.ticked_quiet x (h.pins p) (h.tb.tick m).frame.serial).state
  have hy : y.state = (h.tickedPath m p).state ∧ y.reason = (h.tickedPath m p).reason ∧
      y.pauseCount = (h.tickedPath m p).pauseCount := by
    rw [show y = z.openFrame from hz]
    exact ⟨hrest.state, hrest.reason, hrest.pauseCount⟩
  obtain ⟨hystate, hyreason, hycount⟩ := hy
  rw [Hub.tickedPath, Path.settled_state] at hystate
  rw [Hub.tickedPath, Path.settled_reason] at hyreason
  have hpause : (x.ticked (h.pins p) (h.tb.tick m).frame.serial).evaluate.1 = .paused →
      y.pauseCount = (x.ticked (h.pins p) (h.tb.tick m).frame.serial).pauseCount := fun hp => by
    rw [hycount, Hub.tickedPath, Path.settled_stays (hp.trans (hs.symm.trans hq.symm))]
  refine ⟨fun hin => ?_, fun hin => ⟨?_, fun hlim => ?_, fun hlim => ?_⟩⟩
  · rw [if_neg fun hc => hc.1 hin] at heval
    have hno : ¬ (x.judged (h.pins p)).pausing (h.tb.tick m).frame.serial = true := fun hc => (hjudged.mp hc).2.1 hin
    refine ⟨by rw [hystate, show x.ticked _ _ = _ from rfl, heval], ?_⟩
    rw [hpause (congrArg Prod.fst heval), hcount, if_neg hno]
  · rw [if_pos (hjudged.mpr ⟨hs, hin, hr, hc, hk, hl, hb⟩)] at hcount
    rw [← hcount]
    by_cases hlim : x.pauseLimit ≤ x.pauseCount + 1
    · rw [if_pos ⟨hin, hlim⟩] at heval
      rw [hycount]
      exact (Path.settled_down (congrArg Prod.fst heval) _).1
    · rw [if_neg fun hc => hlim hc.2] at heval
      exact hpause (congrArg Prod.fst heval)
  · rw [if_neg fun hc => absurd hc.2 (Nat.not_le.mpr hlim)] at heval
    exact ⟨hystate.trans (congrArg Prod.fst heval), hyreason.trans (congrArg Prod.snd heval)⟩
  · rw [if_pos ⟨hin, hlim⟩] at heval
    exact ⟨hystate.trans (congrArg Prod.fst heval), hyreason.trans (congrArg Prod.snd heval)⟩

end

/-! ### The obligation -/

/-- A part of the coming tick that finds nothing leaves the hub at the row's moment. -/
theorem State.run_void {s : State} (hs : s.held = false) {e : Env} {f : Hub → Hub} (hf : f (s.hub.ahead e) = s.hub.ahead e) :
    (s.run fun h => (h.arrive e).atTick f) = s.became (s.hub.arrive e) := by
  rw [State.run_free hs, Hub.atTick_eq, hf, Hub.behind_ahead]

theorem State.run_ahead {s : State} (hs : s.held = false) (e : Env) (f : Hub → Hub) :
    (s.run fun h => (h.arrive e).atTick f) = s.became ((f (s.hub.ahead e)).behind s.hub) := by
  rw [State.run_free hs, Hub.atTick_eq]

/-- What a path that leaves UP or PAUSED in a row ahead of the tick leaves. -/
theorem Hub.TickDone.down {h t : Hub} {e : Env} {p : Fin 8} (hd : (h.ahead e).TickDone t p)
    (hc : (h.paths.path[p]'p.2).state = .up ∨ (h.paths.path[p]'p.2).state = .paused)
      (hdown : (t.paths.path[p]'p.2).state = .down) :
    (h.paths.path[p]).Emptied t.paths.path[p] ∧ h.GaugeLeft (t.behind h) p ∧
      ∀ q : Fin 4, ((t.behind h).notices[q]'q.2).summary.getLsbD 13 = true := by
  have hne : (h.paths.path[p]'p.2).state ≠ .down := fun he => by
    rcases hc with hc | hc <;> exact absurd (hc.symm.trans he) nofun
  exact ⟨hd.emptied hdown hne, hd.leaves ⟨hc, by rw [hdown]; nofun, by rw [hdown]; nofun⟩,
    fun q => hd.changes_state (by rw [hdown]; exact hne.symm) q⟩

/-- The record of a path after a tick (R89, R90, R94, R107). -/
theorem Hub.tick_record (h : Hub) (m : Nat) (p : Fin 8) :
    let x := h.paths.path[p]'p.2
    let y := (h.tick m).paths.path[p]
    y.heard = false ∧ (y.upAllFrame = true ↔ y.state = .up ∨ y.state = .paused) ∧ y.Table38 ∧ y.enabled = x.enabled ∧
      y.loss = (x.loss || x.breaks) ∧
      y.counts.breaks = (if x.breaks = true then x.counts.breaks + 1 else x.counts.breaks) ∧
      y.resetCount = (if x.state = .reset then min 4 (x.resetCount + 1) else x.resetCount) := by
  intro x y
  obtain ⟨z, hz, hfreed, -, -⟩ := h.tick_freed m p
  obtain ⟨he, -, hl, hb, hr⟩ := x.ticked_kept (h.pins p) (h.tb.tick m).frame.serial
  rw [show y = z.openFrame from hz]
  obtain ⟨hheard, hwatch⟩ := z.openFrame_watch
  exact ⟨hheard, hwatch, (hfreed.evaluated (h.tickedPath_evaluated m p)).openFrame.table38, hfreed.enabled.trans he,
    hfreed.loss.trans hl, hfreed.breaks.trans hb, hfreed.resetCount.trans hr⟩

/-- The hub at the moment of the divider's expiry. -/
def Hub.expired (h : Hub) (e : Env) : Hub := { h.arrive e with now := max (h.now + e.dt) h.tb.expiry }

theorem Hub.dividerExpiry_expired {h : Hub} {e : Env} (hr : h.tb.ref ≠ .locked) :
    Hub.dividerExpiry e h = (h.expired e).tick h.tb.expiry := Hub.dividerExpiry_unlocked hr

/-- What the tick at the divider's expiry makes of a path, from the hub before it. -/
theorem Hub.expired_judges (h : Hub) (e : Env) (p : Fin 8) :
    let t := (h.expired e).tick h.tb.expiry
    let x := h.paths.path[p]
    let y := t.paths.path[p]
    let lines : BitVec 4 := BitVec.ofNat 4 (e.lines.toNat / 16 ^ p.val)
    let coming := h.tb.frame.serial + 1
    h.Sampled t p lines coming ∧
      (∀ q : Fin 4, (t.notices[q]).summary.getLsbD 12 = true ↔ (h.notices[q]).summary.getLsbD 12 = true ∨
        ∃ q : Fin 8, BitVec.ofNat 4 (e.lines.toNat / 16 ^ q.val) ≠ (h.paths.path[q]).lines) ∧
      (h.PathsEvaluated → h.PathsMoved t t.tb.frame) ∧
      (y.heard = false ∧ (y.upAllFrame = true ↔ y.state = .up ∨ y.state = .paused) ∧ y.Table38 ∧ y.enabled = x.enabled ∧
        y.loss = (x.loss || x.breaks) ∧
        y.counts.breaks = (if x.breaks = true then x.counts.breaks + 1 else x.counts.breaks) ∧
        y.resetCount = (if x.state = .reset then min 4 (x.resetCount + 1) else x.resetCount)) ∧
      ((lines.getLsbD 0 = true → y.timeoutMark = false) ∧
        (h.PathsEvaluated → ¬ lines.getLsbD 0 = true → x.state ≠ .paused →
          y.state = x.state ∨ (y.state ≠ .off ∧ y.state ≠ .reset) → y.timeoutMark = x.timeoutMark)) ∧
      (x.state = .up ∨ x.state = .paused → y.state ≠ .up → y.state ≠ .paused →
        (h.gauges.path[p]).Left t.gauges.path[p] ∧
          ((h.gauges.path[p]).manual ≠ .idle → ∀ q : Fin 4, (t.notices[q]).summary.getLsbD 14 = true)) ∧
      (x.state = .paused → x.hold = false → x.enabled = true → x.loss = false → x.timeoutMark = false →
        ¬ lines.getLsbD 0 = true → lines.getLsbD 1 = true → lines.getLsbD 2 = true → x.breaks = false →
        (x.pausedIn = coming → y.state = .paused ∧ y.pauseCount = x.pauseCount) ∧
          (x.pausedIn ≠ coming → y.pauseCount = min 250 (x.pauseCount + 1) ∧
            (x.pauseCount + 1 < x.pauseLimit → y.state = .paused ∧ y.reason = .none) ∧
            (x.pauseLimit ≤ x.pauseCount + 1 → y.state = .down ∧ y.reason = .pauseTimeout))) := by
  have hserial : ((h.expired e).tb.tick h.tb.expiry).frame.serial = h.tb.frame.serial + 1 := Timebase.tick_serial _ _
  have hsampled := (h.expired e).tick_sampled h.tb.expiry p
  have hmoved := (h.expired e).tick_moved h.tb.expiry
  have hpause := (h.expired e).tick_paused h.tb.expiry p
  have hmark := (h.expired e).tick_mark h.tb.expiry p
  have hleft := (h.expired e).tick_gaugeLeft h.tb.expiry p
  have hchanged := (h.expired e).tick_changed h.tb.expiry
  have hrecord := (h.expired e).tick_record h.tb.expiry p
  rw [hserial] at hsampled hpause
  rw [← Hub.tick_tb] at hmoved
  generalize (h.expired e).tick h.tb.expiry = t at *
  exact ⟨hsampled, hchanged, hmoved, hrecord, hmark, hleft, hpause⟩

/-- Settles O32: the rows are one evaluation ahead of the tick, and the tick's stages act on a path in turn. -/
theorem tickJudgesPaths : Obligations.TickJudgesPaths := by
  intro e p s hs x lines ready good quiet coming frame changes ahead
  have hserial : (s.hub.ahead e).tb.frame.serial = coming := Timebase.tick_serial _ _
  have hbreaks : x.breaks = true ↔ (x.state = .up ∨ x.state = .paused) ∧ quiet := x.breaks_iff
  refine ⟨fun hv => State.run_void hs (Hub.pauseTimeout_void ?_), fun hpaused hh he hl hr hg hq hlim hin => ?_,
    fun hv => State.run_void hs (if_neg ?_), fun hc hq hh he => ?_, fun hv => State.run_void hs (if_neg ?_),
    fun hreset hh hd hcount => ?_, fun href => ?_⟩
  · rintro ⟨hp, hb, hlim⟩
    obtain ⟨h₁, h₂, h₃, h₄, h₅, h₆⟩ := (Path.sampled_pausing _ _ _).mp hp
    rw [hserial] at h₂
    rcases hv with hv | hv | hv | hv | hv | hv | hv
    · exact hv h₁
    · exact absurd (h₃.symm.trans hv) nofun
    · exact hv ⟨h₄, h₅⟩
    · exact absurd (h₆.symm.trans hv) nofun
    · exact hb (hbreaks.mpr ⟨.inr h₁, hv⟩)
    · exact absurd hlim (Nat.not_le.mpr hv)
    · exact h₂ hv
  · have hnb : x.breaks = false := Bool.eq_false_iff.mpr fun hb => hq (hbreaks.mp hb).2
    obtain ⟨hd, hdown, hreason, hmark, hcount⟩ := Hub.pauseTimeout_record (h := s.hub.ahead e) (p := p) hpaused hh he hl hnb
      (Bool.eq_false_iff.mpr hr) hg.1 hg.2 hlim (by rw [hserial]; exact hin)
    refine exists_became (State.run_ahead hs e (Hub.pauseTimeout p)) ?_
    generalize Hub.pauseTimeout p (s.hub.ahead e) = t at hd hdown hreason hmark hcount
    obtain ⟨hahead, hothers, honly⟩ := hd.ahead
    obtain ⟨hempty, hgauge, htold⟩ := hd.down (.inr hpaused) hdown
    exact ⟨⟨hdown, hreason, hmark, hahead.1.1, hcount, hempty⟩, hahead, hothers, hgauge, htold, honly⟩
  · exact fun hb => hv.elim (fun hn => (hbreaks.mp hb).1.elim hn.1 hn.2) fun hn => hn (hbreaks.mp hb).2
  · obtain ⟨hd, hloss, hcount, -, hdown, hreason⟩ := Hub.backChannelBreak_record (h := s.hub.ahead e) (p := p)
      (hbreaks.mpr ⟨hc, hq⟩) hh he
    refine exists_became (State.run_ahead hs e (Hub.backChannelBreak p)) ?_
    generalize Hub.backChannelBreak p (s.hub.ahead e) = t at hd hloss hcount hdown hreason
    obtain ⟨hahead, hothers, honly⟩ := hd.ahead
    obtain ⟨hempty, hgauge, htold⟩ := hd.down hc hdown
    exact ⟨⟨hloss, hcount, hahead.1.1, hdown, hreason, hd.table, hempty⟩, hahead, hothers, hgauge, htold, honly⟩
  · rintro ⟨hh, hd, hcount⟩
    rcases hv with hv | hv | hv
    · exact absurd (hv.symm.trans hh) nofun
    · exact absurd (hv.symm.trans hd) nofun
    · exact absurd hcount (Nat.not_le.mpr hv)
  · obtain ⟨hdone, hhold, hholder, hdue, hfour, -, henabled, hfree⟩ := Hub.releaseDue_record (h := s.hub.ahead e) (p := p)
      hreset hh hd hcount
    refine exists_became (State.run_ahead hs e (Hub.releaseDue p)) ?_
    generalize Hub.releaseDue p (s.hub.ahead e) = t at hdone hhold hholder hdue hfour henabled hfree
    obtain ⟨hahead, hothers, honly⟩ := hdone.ahead
    refine ⟨⟨hhold, hholder, hdue, hfour, hahead.1.1, henabled, hdone.table⟩, hahead, hothers, hdone.stays ?_,
      fun q => hdone.changes_state (fun heq => hfree (heq.trans hreset)) q, honly⟩
    rintro ⟨hc, -⟩
    rcases hc with hc | hc <;> exact absurd (hreset.symm.trans hc) nofun
  · have hrun := (State.run_free hs (Hub.dividerExpiry e)).trans (congrArg s.became (Hub.dividerExpiry_expired href))
    have hfacts := s.hub.expired_judges e p
    refine exists_became hrun ?_
    generalize (s.hub.expired e).tick s.hub.tb.expiry = t at hfacts
    obtain ⟨hsampled, hchanged, hmoved, hrecord, hmark, hleft, hpause⟩ := hfacts
    have hcond : x.breaks = decide ((x.state = .up ∨ x.state = .paused) ∧ quiet) := by
      rw [Bool.eq_iff_iff, hbreaks, decide_eq_true_iff]
    obtain ⟨hheard, hwatch, htable, henabled, hloss, hcount, hreset⟩ := hrecord
    refine ⟨hsampled, hchanged, hmoved, hheard, hwatch, htable, henabled, ?_, ?_, hreset, hmark.1, hmark.2, hleft, ?_⟩
    · rw [← hcond]
      exact hloss
    · exact hcount.trans (if_congr hbreaks rfl rfl)
    · intro hp hh he hl hm hr hg hq
      have hnb : x.breaks = false := Bool.eq_false_iff.mpr fun hb => hq (hbreaks.mp hb).2
      refine ⟨hsampled.1, ?_, hpause hp hh he hl hm hr hg.1 hg.2 hnb⟩
      exact hloss.trans 
        (by rw [show (s.hub.paths.path[p]).loss = false from hl, show (s.hub.paths.path[p]).breaks = false from hnb]; rfl)

end Sys2Proof.Machine
end

section
/-! Proofs: the ends of steps and gauges, and their beginnings at a tick (R115 to R117, R120 to R122). -/

namespace Sys2Proof.Machine

-- In order, so that the package in one text stays within the memory of its check.
set_option Elab.async false

/-! ### Ends of a cycle -/

section
variable (h : Hub) (p : Fin 8)

theorem Hub.endCycle_recomputations (v0 t1 : Nat) :
    (h.endCycle p v0 t1).budget.recomputations = h.budget.recomputations + 1 := by
  unfold Hub.endCycle
  have hd : Hub.OnlyChanges [.notices] _ ((h.modGauge p fun x => x.endCycle v0 t1).gaugeDone p 0) :=
    Hub.notify_only _ _ _
  have hb := hd .budget (by decide)
  rw [Hub.recompute_budget]
  exact congrArg (fun b : Budget => b.recomputations + 1) hb.symm

/-- What the end of a cycle leaves, by the record that it ends on. -/
theorem Hub.endCycle_ended (v0 t1 : Nat) :
    (h.endCycle p v0 t1).gauges.path[p]'p.2 = (h.gauges.path[p]'p.2).endCycle v0 t1 ∧
      (∀ q, q ≠ p → (h.endCycle p v0 t1).gauges.path[q]'q.2 = h.gauges.path[q]'q.2) := by
  rw [Hub.endCycle_gauges]
  exact ⟨h.modGauge_self p _, fun q hq => h.modGauge_ne _ hq⟩

/-- What the end of a manual gauge leaves. -/
theorem Hub.endManual_ended (n : Nat) :
    (h.endManual p n).gauges.path[p]'p.2 = (h.gauges.path[p]'p.2).endManual n h.now ∧
      (∀ q, q ≠ p → (h.endManual p n).gauges.path[q]'q.2 = h.gauges.path[q]'q.2) := by
  rw [Hub.endManual_gauges]
  exact ⟨h.modGauge_self p _, fun q hq => h.modGauge_ne _ hq⟩

/-- Step 1 of path p's cycle ends with bytes. -/
theorem Hub.endStep1_bytes (hs : (h.gauges.path[p]'p.2).sum ≠ 0) :
    Hub.endStep1 p h = h.modGauge p fun x =>
      { x with phase := .step2, remaining := 0, v0 := x.sum, sum := 0, from2 := h.tb.lastTick, count2 := 0 } := by
  unfold Hub.endStep1
  dsimp only
  rw [if_neg hs, Hub.modGauge_modGauge]
  rfl

/-- Step 1 of path p's cycle ends without a byte. -/
theorem Hub.endStep1_none (hs : (h.gauges.path[p]'p.2).sum = 0) :
    Hub.endStep1 p h =
      (h.modGauge p fun x => { x with remaining := 0, v0 := x.sum }).endCycle p 0 (h.gauges.path[p]'p.2).g := by
  unfold Hub.endStep1
  exact if_pos hs

end

/-- What every end of a gauge leaves, but for the record of the path. -/
structure Hub.GaugeEnded (g t : Hub) (p : Fin 8) : Prop where
  others : ∀ q, q ≠ p → t.gauges.path[q]'q.2 = g.gauges.path[q]'q.2
  told : ∀ q : Fin 4, (t.notices[q]'q.2).summary.getLsbD 14 = true
  only : Hub.OnlyChanges [.gauges, .budget, .notices] g t

section
variable (h : Hub) (p : Fin 8)

theorem Hub.modGauge_only_all (f : Gauge → Gauge) : Hub.OnlyChanges [.gauges, .budget, .notices] h (h.modGauge p f) :=
  (h.modGauge_only p f).mono (by decide)

theorem Hub.endCycle_done (f : Gauge → Gauge) (v0 t1 : Nat) : h.GaugeEnded ((h.modGauge p f).endCycle p v0 t1) p where
  others q hq := ((Hub.endCycle_ended _ p v0 t1).2 q hq).trans (h.modGauge_ne f hq)
  told q := Hub.endCycle_summary _ p v0 t1 q
  only := (h.modGauge_only_all p f).trans (Hub.endCycle_only _ p v0 t1)

theorem Hub.endManual_done (n : Nat) : h.GaugeEnded (h.endManual p n) p where
  others := (h.endManual_ended p n).2
  told q := Hub.endManual_summary _ p n q
  only := (h.endManual_only p n).mono (by decide)

end

/-- The same from the hub before a row. -/
theorem Hub.GaugeEnded.behind {h t : Hub} {e : Env} {p : Fin 8} (hd : (h.ahead e).GaugeEnded t p) :
    h.GaugeEnded (t.behind h) p := ⟨hd.others, hd.told, hd.only.behind⟩

theorem Gauge.timeDue_iff (x : Gauge) :
    x.timeDue = true ↔ x.manual = .running ∧ x.volume = false ∧ x.gate ≤ x.manualTicks + 1 := by
  simp [Gauge.timeDue, and_assoc]

/-! ### Beginnings at a tick -/

section
variable (h : Hub) (m : Nat) (p : Fin 8)

/-- The gauge of a path after a tick, by the one that the paths' stage leaves. -/
theorem Hub.tick_gauge :
    (h.tick m).gauges.path[p] =
      ((h.atGauges m).autoTicked p (h.atGauges m).gauges.path[p]).manualTicked (h.atGauges m).now := by
  have hlast : (h.afterPorts m).gauges = (h.tick m).gauges := h.tick_late m .gauges (by decide)
  have hports := (h.afterPorts_releases m).gauges p (by rw [Hub.tickBlocks_path]; exact h.tickedPath_evaluated m p)
  rw [← hlast, hports, Hub.tickBlocks_eq, Hub.tickGauges_gauge]

/-- A path that is UP after the paths' stage of a tick is UP after it. -/
theorem Hub.tick_up (hu : (h.tickedPath m p).state = .up) : ((h.tick m).paths.path[p]).state = .up := by
  obtain ⟨z, hz, -, -, hstill⟩ := h.tick_freed m p
  rw [hz]
  exact (hstill ((h.tickedPath_evaluated m p).free (by rw [hu]; nofun))).state.trans hu

theorem Hub.atGauges_gauge :
    ((h.paths.path[p]).Leaves (h.tickedPath m p) → (h.gauges.path[p]).Left (h.atGauges m).gauges.path[p]) ∧
      (¬ (h.paths.path[p]).Leaves (h.tickedPath m p) → (h.atGauges m).gauges.path[p] = h.gauges.path[p]) := by
  have hgauges : h.gauges = (h.atPaths m).gauges := h.atPaths_only m .gauges (by decide)
  have hleft : ((h.atPaths m).paths.path[p]).Leaves (h.atGauges m).paths.path[p] →
      ((h.atPaths m).gauges.path[p]).Left (h.atGauges m).gauges.path[p] := by
    rw [Hub.atGauges]
    exact fun hl => (((h.atPaths m).tickPaths_gauge p).1 hl).1
  have hstay : ¬ ((h.atPaths m).paths.path[p]).Leaves (h.atGauges m).paths.path[p] →
      (h.atGauges m).gauges.path[p] = (h.atPaths m).gauges.path[p] := by
    rw [Hub.atGauges]
    exact ((h.atPaths m).tickPaths_gauge p).2
  rw [Hub.atPaths_paths, Hub.atGauges_path, ← hgauges] at hleft hstay
  exact ⟨hleft, hstay⟩

theorem Hub.atGauges_settings :
    (h.atGauges m).gauges.auto = h.gauges.auto ∧ (h.atGauges m).gauges.window = h.gauges.window := by
  have hgauges : h.gauges = (h.atPaths m).gauges := h.atPaths_only m .gauges (by decide)
  rw [hgauges, Hub.atGauges]
  exact (h.atPaths m).tickPaths_settings

/-- A beginning at a tick is of the hub before it. -/
theorem Hub.atGauges_begins :
    (h.atGauges m).beginsStep1 p = fun x =>
      if h.gauges.auto = true ∧ x.phase = .idle ∧ (h.tickedPath m p).state = .up then
        { x with phase := .step1, g := h.gauges.window * h.tb.rate.nominal, remaining := h.gauges.window, sum := 0 }
      else x := by
  obtain ⟨hauto, hwindow⟩ := h.atGauges_settings m
  have hrate : (h.tb.tick m).rate = h.tb.rate := by
    rw [Timebase.tick_eq]
    exact h.tb.reseek_rate
  funext x
  rw [Hub.beginsStep1, hauto, hwindow, Hub.atGauges_path, Hub.atGauges_tb, hrate]

/-- A tick keeps the phase of an idle cycle that it may not begin. -/
theorem Hub.tick_idle (hp : (h.gauges.path[p]).phase = .idle)
    (hno : h.gauges.auto = false ∨ ((h.tick m).paths.path[p]).state ≠ .up) : ((h.tick m).gauges.path[p]).phase = .idle := by
  have hphase : ((h.atGauges m).gauges.path[p]).phase = .idle := by
    by_cases hl : (h.paths.path[p]).Leaves (h.tickedPath m p)
    · exact ((h.atGauges_gauge m p).1 hl).1
    · rw [(h.atGauges_gauge m p).2 hl, hp]
  have hauto : (h.atGauges m).autoTicked p (h.atGauges m).gauges.path[p] = (h.atGauges m).gauges.path[p] := by
    rw [Hub.autoTicked, if_neg (by rw [hphase]; nofun), Hub.atGauges_begins]
    refine if_neg fun hc => ?_
    rcases hno with hn | hn
    · exact absurd (hn.symm.trans hc.1) nofun
    · exact hn (h.tick_up m p hc.2.2)
  rw [Hub.tick_gauge, hauto]
  generalize (h.atGauges m).gauges.path[p] = y at hphase
  unfold Gauge.manualTicked
  split
  · exact hphase
  · exact hphase
  · split <;> exact hphase

/-- A tick of a path that stays UP and whose step and gate do not end. -/
theorem Hub.tick_runs (hy : (h.tickedPath m p).state = .up)
    (hstep : (h.gauges.path[p]).phase ≠ .step1 ∨ 1 < (h.gauges.path[p]).remaining)
    (hgate : (h.gauges.path[p]).manual ≠ .running ∨ (h.gauges.path[p]).volume = true ∨
      (h.gauges.path[p]).manualTicks + 1 < (h.gauges.path[p]).gate) :
    let x := h.gauges.path[p]
    let cycle : Gauge :=
      match x.phase with
      | .idle => if h.gauges.auto then
          { x with phase := .step1, g := h.gauges.window * h.tb.rate.nominal, remaining := h.gauges.window, sum := 0 }
        else x
      | .step1 => { x with remaining := x.remaining - 1 }
      | .step2 => x
    (h.tick m).gauges.path[p] = match x.manual with
      | .idle => cycle
      | .waiting => { cycle with manual := .running, manualSum := 0, manualTicks := 0 }
      | .running => { cycle with manualTicks := x.manualTicks + 1 } := by
  intro x cycle
  have hsame : (h.atGauges m).gauges.path[p] = x := (h.atGauges_gauge m p).2 fun hl => hl.2.1 hy
  have hauto : (h.atGauges m).autoTicked p x = cycle ∧ cycle.manual = x.manual ∧ cycle.timeDue = x.timeDue ∧
      cycle.manualTicks = x.manualTicks := by
    rw [Hub.autoTicked, Hub.atGauges_begins]
    cases hp : x.phase with
    | idle =>
      have hc : cycle = if h.gauges.auto then
          { x with phase := .step1, g := h.gauges.window * h.tb.rate.nominal, remaining := h.gauges.window, sum := 0 }
        else x := by simp only [cycle, hp]
      rw [hc, if_neg nofun]
      cases ha : h.gauges.auto <;> simp [hp, hy, Gauge.timeDue]
    | step1 =>
      have hc : cycle = { x with remaining := x.remaining - 1 } := by simp only [cycle, hp]
      rw [hc, if_pos rfl, if_neg (Nat.not_le.mpr (hstep.resolve_left (not_not.mpr hp)))]
      exact ⟨by rw [hp], rfl, rfl, rfl⟩
    | step2 =>
      have hc : cycle = x := by simp only [cycle, hp]
      rw [hc, if_neg AutoPhase.noConfusion]
      dsimp only
      rw [if_neg fun hb => AutoPhase.noConfusion (hp.symm.trans hb.2.1)]
      exact ⟨rfl, rfl, rfl, rfl⟩
  obtain ⟨hcycle, hmanual, hdue, hticks⟩ := hauto
  rw [Hub.tick_gauge, hsame, hcycle]
  cases hm : x.manual with
  | idle => exact Gauge.manualTicked_idle (hmanual.trans hm) _
  | waiting => exact Gauge.manualTicked_waiting (hmanual.trans hm) _
  | running =>
    have hno : ¬ cycle.timeDue = true := by
      rw [hdue, Gauge.timeDue_iff]
      rintro ⟨-, hv, hg⟩
      rcases hgate with hc | hc | hc
      · exact hc hm
      · exact absurd (hv.symm.trans hc) nofun
      · exact absurd hg (Nat.not_le.mpr hc)
    rw [Gauge.manualTicked_running (hmanual.trans hm), if_neg hno, hticks]

end

/-! ### The rows -/

/-- A cycle of path p has ended with V0 and T1 (R117). -/
def Hub.CycleEnded (h t : Hub) (p : Fin 8) (v0 t1 : Nat) : Prop :=
  ∃ z : Gauge, z.g = (h.gauges.path[p]'p.2).g ∧ z.completed = (h.gauges.path[p]'p.2).completed ∧
    z.aborted = (h.gauges.path[p]'p.2).aborted ∧ t.gauges.path[p]'p.2 = z.endCycle v0 t1 ∧
    t.budget.recomputations = h.budget.recomputations + 1

section
variable (h : Hub) (p : Fin 8)

theorem Hub.endCycle_record (f : Gauge → Gauge) (v0 t1 : Nat) :
    ((h.modGauge p f).endCycle p v0 t1).gauges.path[p] = (f h.gauges.path[p]).endCycle v0 t1 := by
  rw [(Hub.endCycle_ended _ p v0 t1).1, h.modGauge_self]

theorem Hub.step1End_void (hv : (h.gauges.path[p]'p.2).phase ≠ .step1 ∨ 1 < (h.gauges.path[p]'p.2).remaining) :
    Hub.step1End p h = h := by
  refine if_neg fun hc => ?_
  rcases hv with hv | hv
  · exact hv hc.1
  · exact absurd hc.2 (Nat.not_le.mpr hv)

theorem Hub.step1End_due (hp : (h.gauges.path[p]'p.2).phase = .step1) (hr : (h.gauges.path[p]'p.2).remaining ≤ 1) :
    Hub.step1End p h = Hub.endStep1 p h := if_pos ⟨hp, hr⟩

theorem Hub.step2Expiry_void (hp : (h.gauges.path[p]'p.2).phase ≠ .step2) : Hub.step2Expiry p h = h := if_neg hp

theorem Hub.step2Expiry_due (hp : (h.gauges.path[p]'p.2).phase = .step2) :
    Hub.step2Expiry p h =
      (({ h with now := max h.now ((h.gauges.path[p]'p.2).from2 + 4 * (h.gauges.path[p]'p.2).g) } : Hub).modGauge p fun x =>
        { x with count2 := 4 * (h.gauges.path[p]'p.2).g }).endCycle p (h.gauges.path[p]'p.2).v0
          (4 * (h.gauges.path[p]'p.2).g) :=
  if_pos hp

theorem Hub.timeGaugeEnd_void
    (hv : (h.gauges.path[p]'p.2).manual ≠ .running ∨ (h.gauges.path[p]'p.2).volume = true ∨
      (h.gauges.path[p]'p.2).manualTicks + 1 < (h.gauges.path[p]'p.2).gate) : Hub.timeGaugeEnd p h = h := by
  refine if_neg ?_
  rw [Gauge.timeDue_iff]
  rintro ⟨hm, hvol, hgate⟩
  rcases hv with hv | hv | hv
  · exact hv hm
  · exact Bool.false_ne_true (hvol.symm.trans hv)
  · exact absurd hgate (Nat.not_le.mpr hv)

theorem Hub.volumeExpiry_void
    (hv : (h.gauges.path[p]'p.2).manual ≠ .running ∨ (h.gauges.path[p]'p.2).volume = false) : Hub.volumeExpiry p h = h := by
  refine if_neg fun hc => ?_
  rcases hv with hv | hv
  · exact hv hc.1
  · exact Bool.false_ne_true (hv.symm.trans hc.2)

theorem Hub.volumeExpiry_due (hm : (h.gauges.path[p]'p.2).manual = .running) (hv : (h.gauges.path[p]'p.2).volume = true) :
    Hub.volumeExpiry p h =
      ({ h with now := max h.now ((h.gauges.path[p]'p.2).manualFrom + allOnes) } : Hub).endManual p allOnes := if_pos ⟨hm, hv⟩

end

section
variable (h : Hub) (e : Env) (p : Fin 8)

/-- STEP1 END without a byte ends the cycle with nothing counted. -/
theorem Hub.step1End_empty (hp : (h.gauges.path[p]).phase = .step1) (hr : (h.gauges.path[p]).remaining ≤ 1)
    (hs : (h.gauges.path[p]).sum = 0) :
    let t := (Hub.step1End p (h.ahead e)).behind h
    h.CycleEnded t p 0 (h.gauges.path[p]).g ∧ h.GaugeEnded t p := by
  have ht : Hub.step1End p (h.ahead e) = _ := ((h.ahead e).step1End_due p hp hr).trans ((h.ahead e).endStep1_none p hs)
  rw [ht]
  exact ⟨⟨{ h.gauges.path[p] with remaining := 0, v0 := (h.gauges.path[p]).sum }, rfl, rfl, rfl,
    Hub.endCycle_record (h.ahead e) p _ _ _, Hub.endCycle_recomputations _ p _ _⟩,
      (Hub.endCycle_done (h.ahead e) p _ _ _).behind⟩

/-- STEP1 END with bytes begins step 2 at the coming tick. -/
theorem Hub.step1End_counted (hp : (h.gauges.path[p]'p.2).phase = .step1) (hr : (h.gauges.path[p]'p.2).remaining ≤ 1)
    (hs : (h.gauges.path[p]'p.2).sum ≠ 0) :
    (Hub.step1End p (h.ahead e)).behind h = (h.arrive e).modGauge p fun _ =>
      { h.gauges.path[p] with phase := .step2, remaining := 0, v0 := (h.gauges.path[p]).sum, sum := 0,
                              from2 := (h.arrive e).now, count2 := 0 } := by
  have ht : Hub.step1End p (h.ahead e) = _ := ((h.ahead e).step1End_due p hp hr).trans ((h.ahead e).endStep1_bytes p hs)
  rw [ht]
  exact Hub.modGauge_congr (h := h.arrive e) (p := p)
    (f := fun x => { x with phase := .step2, remaining := 0, v0 := x.sum, sum := 0, from2 := (h.arrive e).now, count2 := 0 })
    rfl

/-- The expiry of step 2. -/
theorem Hub.step2Expiry_ends (hp : (h.gauges.path[p]).phase = .step2) :
    let t := Hub.step2Expiry p (h.arrive e)
    h.CycleEnded t p (h.gauges.path[p]).v0 (4 * (h.gauges.path[p]).g) ∧ h.GaugeEnded t p := by
  have ht : Hub.step2Expiry p (h.arrive e) = _ := (h.arrive e).step2Expiry_due p hp
  rw [ht]
  have hd := Hub.endCycle_done
    { h.arrive e with now := max (h.arrive e).now ((h.gauges.path[p]).from2 + 4 * (h.gauges.path[p]).g) } p
    (fun x => { x with count2 := 4 * (h.gauges.path[p]).g }) (h.gauges.path[p]).v0 (4 * (h.gauges.path[p]).g)
  exact ⟨⟨{ h.gauges.path[p] with count2 := 4 * (h.gauges.path[p]).g }, rfl, rfl, rfl,
    Hub.endCycle_record _ p _ _ _, Hub.endCycle_recomputations _ p _ _⟩, ⟨hd.others, hd.told, hd.only⟩⟩

end

/-- A manual gauge of kind TIME has no cycle count. -/
theorem Gauge.endManual_time {x : Gauge} (hv : x.volume = false) (n now : Nat) :
    x.endManual n now = { x with manual := .idle, result := some (false, BitVec.ofNat 32 n) } := by
  rw [Gauge.endManual, hv, Gauge.manualCycles, if_neg fun hc => Bool.false_ne_true (hv.symm.trans hc.2)]

/-- A VOLUME gauge that ends 2^32 - 1 cycles after its beginning, or later, has all ones for a cycle count. -/
theorem Gauge.endManual_volume {x : Gauge} (hm : x.manual = .running) (hv : x.volume = true) {now : Nat}
    (hn : x.manualFrom + allOnes ≤ now) :
    x.endManual allOnes now = { x with manual := .idle, manualCount := 4294967295, result := some (true, 4294967295) } := by
  have hc : x.manualCycles now = 4294967295 := by
    rw [Gauge.manualCycles, if_pos ⟨hm, hv⟩]
    exact min_eq_left (by unfold allOnes at hn ⊢; omega)
  rw [Gauge.endManual, hc, hv]
  rfl

theorem Path.breaks_false {x : Path} (hq : ¬ (x.upAllFrame = true ∧ x.heard = false)) : x.breaks = false :=
  Bool.eq_false_iff.mpr fun hb => hq (x.breaks_iff.mp hb).2

/-- A path that is UP stays so at a tick that finds nothing amiss. -/
theorem Path.ticked_up {x : Path} (l : BitVec 4) (w : Word) (hh : x.hold = false)
    (he : x.enabled = true) (hl : x.loss = false) (h0 : l.getLsbD 0 = true) (h1 : l.getLsbD 1 = true)
    (h2 : l.getLsbD 2 = true) (hb : x.breaks = false) : ((x.ticked l w).settled w).state = .up := by
  have hlines : (x.ticked l w).lines = l := x.ticked_lines
  have hloss : (x.ticked l w).loss = false := by rw [Path.ticked_loss, hl, hb, Bool.or_self]
  have hmark : ¬ (x.ticked l w).timeoutMark = true := by
    rw [x.ticked_mark l w, show readyOf l = true from h0]
    exact Bool.false_ne_true
  rw [Path.settled_state, Path.evaluate_good (x.ticked_hold l w hh) (by rw [Path.ticked_enabled, he])
    (by rw [hlines]; exact h1) (by rw [hlines]; exact h2) hloss, if_neg hmark, if_pos (by rw [hlines]; exact h0)]


/-- Settles O41: each end is `Gauge.endCycle` or `Gauge.endManual` of the record, and a tick takes the gauge's stage on the
record that the paths' stage leaves. -/
theorem gaugesEnd : Obligations.GaugesEnd := by
  intro e p s hs g x results ended
  have hended : ∀ {t : Hub}, s.hub.GaugeEnded t p → ended { s with hub := t } := fun hd => ⟨hd.others, hd.told, hd.only⟩
  have hresults : ∀ {t : Hub} {v0 t1 : Nat}, s.hub.CycleEnded t p v0 t1 → results { s with hub := t } v0 t1 := by
    rintro t v0 t1 ⟨z, hg, hc, ha, hz, hrec⟩
    show (t.gauges.path[p]).phase = _ ∧ (t.gauges.path[p]).lastV0 = _ ∧ (t.gauges.path[p]).lastT1 = _ ∧
      (t.gauges.path[p]).c = cycleC v0 x.g t1 ∧ (t.gauges.path[p]).s = cycleS v0 x.g t1 ∧
      (t.gauges.path[p]).e = cycleC v0 x.g t1 * cycleS v0 x.g t1 / 1000 ∧ (t.gauges.path[p]).completed = x.completed + 1 ∧
      (t.gauges.path[p]).aborted = x.aborted ∧ t.budget.recomputations = s.hub.budget.recomputations + 1
    rw [hz, ← hg, ← hc, ← ha]
    exact ⟨rfl, rfl, rfl, rfl, rfl, rfl, rfl, rfl, hrec⟩
  refine ⟨fun hv => State.run_void hs (Hub.step1End_void _ p hv), fun hp hr => ⟨fun hsum => ?_, fun hsum => ?_⟩,
    fun hp => ?_, fun hp => ?_, fun hv => State.run_void hs (Hub.timeGaugeEnd_void _ p hv), fun hm hv hg => ?_,
    fun hv => ?_, fun hm hv => ?_, fun href => ?_⟩
  · exact (State.run_ahead hs e _).trans
      (congrArg s.became (s.hub.step1End_counted e p hp hr (Nat.pos_iff_ne_zero.mp hsum)))
  · obtain ⟨hc, hd⟩ := s.hub.step1End_empty e p hp hr hsum
    exact exists_became (State.run_ahead hs e _) ⟨hresults hc, hended hd⟩
  · exact (State.run_free hs fun h => Hub.step2Expiry p (h.arrive e)).trans
      (congrArg s.became (g.step2Expiry_void p hp))
  · obtain ⟨hc, hd⟩ := s.hub.step2Expiry_ends e p hp
    exact exists_became (State.run_free hs fun h => Hub.step2Expiry p (h.arrive e)) ⟨hresults hc, hended hd⟩
  · have hdue : (x.timeDue) = true := x.timeDue_iff.mpr ⟨hm, hv, hg⟩
    have ht : Hub.timeGaugeEnd p (s.hub.ahead e) = (s.hub.ahead e).endManual p x.timeResult := if_pos hdue
    have hx : ((s.hub.ahead e).endManual p x.timeResult).gauges.path[p] = x.endManual x.timeResult (s.hub.ahead e).now :=
      ((s.hub.ahead e).endManual_ended p _).1
    have hd := ((s.hub.ahead e).endManual_done p x.timeResult).behind
    refine exists_became (State.run_ahead hs e _) ?_
    rw [ht]
    exact ⟨hx.trans (Gauge.endManual_time hv _ _), hended hd⟩
  · exact (State.run_free hs fun h => Hub.volumeExpiry p (h.arrive e)).trans
      (congrArg s.became (g.volumeExpiry_void p hv))
  · have hd := Hub.endManual_done { g with now := max g.now (x.manualFrom + allOnes) } p allOnes
    have hx := (Hub.endManual_ended { g with now := max g.now (x.manualFrom + allOnes) } p allOnes).1
    refine exists_became ((State.run_free hs fun h => Hub.volumeExpiry p (h.arrive e)).trans
      (congrArg s.became (g.volumeExpiry_due p hm hv))) ?_
    exact ⟨hx.trans (Gauge.endManual_volume hm hv (le_max_right _ _)), hd.others, hd.told, hd.only⟩
  · refine exists_became ((State.run_free hs _).trans (congrArg s.became (Hub.dividerExpiry_expired href))) ?_
    have hidle := (s.hub.expired e).tick_idle s.hub.tb.expiry p
    have hticks := (s.hub.expired e).tick_runs s.hub.tb.expiry p
    have hstays := (s.hub.expired e).tick_up s.hub.tb.expiry p
    generalize (s.hub.expired e).tick s.hub.tb.expiry = t at *
    intro z y lines
    refine ⟨hidle, fun hu hh he hl h0 h1 h2 hq hstep hgate => ?_⟩
    have hup : ((s.hub.expired e).tickedPath s.hub.tb.expiry p).state = .up :=
      Path.ticked_up _ _ hh he hl h0 h1 h2 (Path.breaks_false hq)
    exact ⟨hstays hup, hticks hup hstep hgate⟩

end Sys2Proof.Machine
end

section
/-! Proofs: the READ commands and their records (R17, R45, R65, R86, R110, R123, R131, R155, R166, R176, R182, R193). -/

namespace Sys2Proof.Machine

-- In order, so that the package in one text stays within the memory of its check.
set_option Elab.async false

/-! ### The numbered reads, an equation per outcome -/

section
variable (h : Hub)

theorem Hub.readStream_byte (k : Fin 16) :
    h.readStream (byte k.val) = (h, .done ((h.stream k).report (h.nextUnit k))) := by
  rw [Hub.readStream, below_byte k (by omega)]

theorem Hub.readStream_none {n : Byte} (hn : 16 ≤ n.toNat) : h.readStream n = h.refuse .badArg := by
  rw [Hub.readStream, below_eq_none hn]

theorem Hub.readRing_byte {p : Fin 4} {r : Fin 17} (hd : ¬ h.deniedRing p r = true) :
    h.readRing p (byte r.val) = (h, .done ((h.ring r).report (h.tail r))) := by
  rw [Hub.readRing, below_ring]
  exact if_neg hd

theorem Hub.readRing_denied {p : Fin 4} {r : Fin 17} (hd : h.deniedRing p r = true) :
    h.readRing p (byte r.val) = h.refuse .denied := by
  rw [Hub.readRing, below_ring]
  exact if_pos hd

theorem Hub.readRing_none (p : Fin 4) {n : Byte} (hn : 17 ≤ n.toNat) : h.readRing p n = h.refuse .badArg := by
  rw [Hub.readRing, below_eq_none hn]

theorem Hub.readUnit_present {k : Fin 16} {u : Word} {e : Entry} (he : h.present k u = some e) :
    h.readUnit (byte k.val) u = (h, .done e.report) := by
  simp only [Hub.readUnit, below_byte k (by omega), he]

theorem Hub.readUnit_missing {k : Fin 16} {u : Word} (he : h.present k u = none) :
    h.readUnit (byte k.val) u = h.refuse (if (u - (h.ring k.castSucc).head).toNat < 2147483648 then .notYet else .gone) := by
  simp only [Hub.readUnit, below_byte k (by omega), he]
  exact congrArg h.refuse (if_congr decide_eq_true_iff rfl rfl)

theorem Hub.readInput_byte (i : Fin 4) : h.readInput (byte i.val) = (h, .done (h.inputs[i]).report) := by
  rw [Hub.readInput, below_byte i (by omega)]

theorem Hub.readInput_none {n : Byte} (hn : 4 ≤ n.toNat) : h.readInput n = h.refuse .badArg := by
  rw [Hub.readInput, below_eq_none hn]

theorem Hub.readPicture_byte (k : Fin 4) :
    h.readPicture (byte k.val) = (h, .done ((h.coders[k]).report h.engineLoad)) := by
  rw [Hub.readPicture, below_byte k (by omega)]

theorem Hub.readPicture_none {n : Byte} (hn : 4 ≤ n.toNat) : h.readPicture n = h.refuse .badArg := by
  rw [Hub.readPicture, below_eq_none hn]

theorem Hub.readChannel_byte (n : Fin 64) : h.readChannel (byte n.val) = (h, .done (h.mixer.channels[n]).report) := by
  rw [Hub.readChannel, below_byte n (by omega)]

theorem Hub.readChannel_none {n : Byte} (hn : 64 ≤ n.toNat) : h.readChannel n = h.refuse .badArg := by
  rw [Hub.readChannel, below_eq_none hn]

theorem Hub.readBus_byte (k : Fin 16) :
    h.readBus (byte k.val) = (h, .done ((h.mixer.buses[k]).report ++ (h.mixer.packs[packOf k]).report)) := by
  rw [Hub.readBus, below_byte k (by omega)]

theorem Hub.readBus_none {n : Byte} (hn : 16 ≤ n.toNat) : h.readBus n = h.refuse .badArg := by
  rw [Hub.readBus, below_eq_none hn]

theorem Hub.readPath_byte (p : Fin 8) : h.readPath (byte p.val) = (h, .done (h.paths.path[p]).report) := by
  rw [Hub.readPath, below_byte p (by omega)]

theorem Hub.readPath_none {n : Byte} (hn : 8 ≤ n.toNat) : h.readPath n = h.refuse .badArg := by
  rw [Hub.readPath, below_eq_none hn]

theorem Hub.readSend_byte (r : Fin 17) : h.readSend (byte r.val) = (h, .done (h.sendReport r)) := by
  rw [Hub.readSend, below_ring]

theorem Hub.readSend_none {n : Byte} (hn : 17 ≤ n.toNat) : h.readSend n = h.refuse .badArg := by
  rw [Hub.readSend, below_eq_none hn]

theorem Hub.readGauge_byte (p : Fin 8) :
    h.readGauge (byte p.val) = (h, .done (flagByte h.gauges.auto ++ le 1 h.gauges.window ++
      (h.gauges.path[p]).report ((h.paths.path[p]).state == .reset) h.now)) := by
  rw [Hub.readGauge, below_byte p (by omega)]

theorem Hub.readGauge_none {n : Byte} (hn : 8 ≤ n.toNat) : h.readGauge n = h.refuse .badArg := by
  rw [Hub.readGauge, below_eq_none hn]

end

/-! ### The reads of the Clip Log -/

section
variable (h : Hub)

theorem Hub.readClip_unknown {n : Word} (hn : n = 0 ∨ h.log.nextClip ≤ n.toNat) : h.readClip n = h.refuse .badArg := by
  rw [Hub.readClip, ClipLog.named, if_pos hn]

theorem Hub.readClip_gone {n : Word} (hn : ¬ (n = 0 ∨ h.log.nextClip ≤ n.toNat)) (hf : h.log.find n = none) :
    h.readClip n = h.refuse .gone := by
  rw [Hub.readClip, ClipLog.named, if_neg hn, hf]

theorem Hub.readClip_found {n : Word} {y : Clip} (hn : ¬ (n = 0 ∨ h.log.nextClip ≤ n.toNat)) (hf : h.log.find n = some y) :
    h.readClip n = (h, .done y.report) := by
  rw [Hub.readClip, ClipLog.named, if_neg hn, hf]

theorem ClipLog.oldest_eq (l : ClipLog) : l.oldest = (l.labels.head?.map Label.number).getD l.nextLabel := by
  unfold ClipLog.oldest
  cases l.labels <;> rfl

theorem atOrAfter_iff (x y : Word) : atOrAfter x y = true ↔ (x - y).toNat < 2147483648 := decide_eq_true_iff

end

/-! ### Records -/

theorem tcOr0_eq (x : Option Timecode) : tcOr0 x = (x.map tc4).getD (zeros 4) := by cases x <;> rfl

/-- A picture whose coding has not begun is sent with 0 for what does not exist yet (log entry 48). -/
theorem Flight.report_eq (f : Flight) :
    f.report = word4 f.frame.serial ++ flagByte f.captured ++
      match f.coding with
      | none => [0] ++ zeros 9
      | some y => [1] ++ le 1 y.i ++ le 4 y.b ++ le 4 y.cPic := by
  unfold Flight.report
  cases f.coding <;> simp only [List.append_assoc] <;> rfl

section
variable {c : Caller} {code : Byte} {cls : Option CommandClass} {st : Option Byte} {s : State} {block : Hub → Hub × Reply}
  {data spelled : Bytes}

/-- A read answers with a record, as it is spelled. -/
theorem State.Serves.reads (hs : s.Serves c cls none)
    (hb : block (s.hub.arrive c.env) = (s.hub.arrive c.env, .done data)) (hd : data = spelled) :
    s.run (serve c code cls none block) = s.became ((s.hub.arrive c.env).answer c code .done spelled) := by
  rw [← hd]
  exact hs.run_none hb nofun

theorem State.Serves.reads_naming (hs : s.Serves c cls none)
    (hst : ∀ n, st = some n → n.toNat < 16 → s.hub.hasStream c.port n.toNat = true)
    (hb : block (s.hub.arrive c.env) = (s.hub.arrive c.env, .done data)) (hd : data = spelled) :
    s.run (serve c code cls st block) = s.became ((s.hub.arrive c.env).answer c code .done spelled) := by
  rw [← hd]
  exact hs.run_naming hst hb nofun

end

theorem NoticePort.report_eq (n : NoticePort) :
    n.report = le 1 n.queue.length ++ le 1 (n.queue.filter fun x => x.kind.isPart = false).length ++
      le 1 (n.queue.filter fun x => x.kind.isPart = true).length ++ word4 n.mask ++ word4 n.lost ++ le 1 n.mode.code ++
      (if n.line then [0] else [1]) ++ le 1 n.owed := by
  have hstream : (fun x : Notice => !x.kind.isPart) = fun x => decide (x.kind.isPart = false) := by
    funext x
    cases x.kind.isPart <;> rfl
  have hpart : (fun x : Notice => x.kind.isPart) = fun x => decide (x.kind.isPart = true) := by
    funext x
    cases x.kind.isPart <;> rfl
  have hline : flagByte (!n.line) = if n.line then [0] else [1] := by cases n.line <;> rfl
  rw [NoticePort.report, hline, hstream, hpart]

theorem PortRecord.report_eq (x : PortRecord) :
    x.report = (if x.present then [0] else [1]) ++ (if x.expectOdd then [1] else [0]) ++ le 1 x.timer ++
      le 1 x.queue.length ++ le 1 x.fullList.length ++ word4 x.counts.takenIn ++ word4 x.counts.bad ++
      word4 x.counts.overrun ++ word4 x.counts.answered ++ word4 x.counts.full ++ word4 x.counts.denied ++
      word4 x.counts.absent ++ word4 x.counts.wrongPhase ++ word4 x.counts.pairs ++ word4 x.counts.absences := by
  have hpresent : le 1 (if x.present then 0 else 1) = if x.present then [0] else [1] := by cases x.present <;> rfl
  have hodd : le 1 (if x.expectOdd then 1 else 0) = if x.expectOdd then [1] else [0] := by cases x.expectOdd <;> rfl
  simp only [PortRecord.report, PortRecord.presenceData, PortCounts.report, hpresent, hodd, List.append_assoc]

theorem Hub.partReport_eq (h : Hub) :
    h.partReport = le 2 0x4D4E ++ le 2 0x7240 ++ le 1 1 ++ le 2 h.strap.toNat ++ le 1 (h.strap.toNat / 4096) ++
      le 1 (h.strap.toNat % 4) ++ h.ports.toList.flatMap fun x =>
        (if x.present then [0] else [1]) ++ (if x.expectOdd then [1] else [0]) ++ le 1 x.timer ++
          le 1 x.queue.length ++ le 1 x.fullList.length ++ word4 x.counts.takenIn ++ word4 x.counts.bad ++
          word4 x.counts.overrun ++ word4 x.counts.answered ++ word4 x.counts.full ++ word4 x.counts.denied ++
          word4 x.counts.absent ++ word4 x.counts.wrongPhase ++ word4 x.counts.pairs ++ word4 x.counts.absences := by
  rw [Hub.partReport, tableField, funext PortRecord.report_eq]
  rfl

theorem Budget.report_eq (b : Budget) :
    b.report = flagByte b.fixedSource ++ le 8 b.fixedCapacity ++ le 2 b.headroom ++ b.reserves.toList.flatMap (le 4) ++
      le 8 b.kBits ++ le 8 b.u ++ le 8 b.u' ++ le 8 b.soundReserve ++ le 8 b.otherReserve ++ le 8 b.fixedTotal ++
      le 8 b.pool ++ flagByte b.overdrawn ++
      (b.pictures.toList.flatMap fun x =>
        le 4 x.assigned ++ flagByte x.counted ++ optField 8 (le 8) x.share ++ flagByte x.starved) ++
      word4 b.recomputations := by
  have hpicture : PictureBudget.report = fun x =>
      le 4 x.assigned ++ flagByte x.counted ++ optField 8 (le 8) x.share ++ flagByte x.starved := rfl
  simp only [Budget.report, Budget.settings, tableField, hpicture, List.append_assoc]

section
variable (h : Hub) {first : Word} {count : Byte}

theorem Hub.readLabels_bad (hb : count = 0 ∨ 8 < count.toNat) : h.readLabels first count = h.refuse .badArg := if_pos hb

theorem Hub.readLabels_late (hb : ¬ (count = 0 ∨ 8 < count.toNat)) (hl : (first - h.log.nextLabel).toNat < 2147483648) :
    h.readLabels first count = h.refuse .notYet :=
  (if_neg hb).trans (if_pos ((atOrAfter_iff _ _).mpr hl))

theorem Hub.readLabels_early (hb : ¬ (count = 0 ∨ 8 < count.toNat)) (hl : ¬ (first - h.log.nextLabel).toNat < 2147483648)
    (he : 2147483648 ≤ (first - (h.log.labels.head?.map Label.number).getD h.log.nextLabel).toNat) :
    h.readLabels first count = h.refuse .gone := by
  rw [← ClipLog.oldest_eq] at he
  refine (if_neg hb).trans ((if_neg fun ha => hl ((atOrAfter_iff _ _).mp ha)).trans (if_pos fun ha => ?_))
  exact absurd ((atOrAfter_iff _ _).mp ha) (Nat.not_lt.mpr he)

theorem Hub.readLabels_held (hb : ¬ (count = 0 ∨ 8 < count.toNat)) (hl : ¬ (first - h.log.nextLabel).toNat < 2147483648)
    (he : ¬ 2147483648 ≤ (first - (h.log.labels.head?.map Label.number).getD h.log.nextLabel).toNat) :
    h.readLabels first count = (h, .done (listField 1 Label.wire ((h.log.labels.drop
      (first - (h.log.labels.head?.map Label.number).getD h.log.nextLabel).toNat).take count.toNat))) := by
  rw [← ClipLog.oldest_eq] at he ⊢
  exact (if_neg hb).trans ((if_neg fun ha => hl ((atOrAfter_iff _ _).mp ha)).trans
    (if_neg fun hn => hn ((atOrAfter_iff _ _).mpr (Nat.not_le.mp he))))

end

theorem ClipLog.active_eq (l : ClipLog) :
    l.active = (l.clips.filter fun x : Clip => x.state = .opened ∨ x.state = .closing).length := by
  have hactive : Clip.active = fun x : Clip => decide (x.state = .opened ∨ x.state = .closing) := by
    funext x
    unfold Clip.active
    cases x.state <;> rfl
  rw [ClipLog.active, hactive]

theorem Trigger.report_eq (x : Trigger) :
    x.report = optField 1 (fun k : LabelKind => le 1 k.code) x.kind ++ le 1 ((x.source.map LabelSource.code).getD 255) ++
      word4 x.pattern ++ word4 x.mask ++ x.action.report ++ flagByte x.auto ++ le 1 (triggerStateCode x.state) ++
      word4 x.fires ++ word4 x.ignored ++ word4 x.misses := by
  unfold Trigger.report
  cases x.source <;> rfl

/-- Settles O55: each read's block gives the record's report, which is then spelled out. -/
theorem readsReturnRecords : Obligations.ReadsReturnRecords := by
  intro c s h g may done refused word word? gain
  have hnaming : ∀ {k : Fin 16}, may k → ∀ n, some (byte k.val) = some n → n.toNat < 16 →
      s.hub.hasStream c.port n.toNat = true := by
    rintro k hk n ⟨⟩ -
    rwa [byte_toNat (by omega)]
  refine ⟨fun hs => hs.run_none (h := g) rfl nofun, fun hs => ?_, fun hs => ?_, fun hs => ?_, fun hs => ?_, fun hs => ?_,
    fun hs => ?_, fun hs => hs.reads rfl rfl, fun hs => hs.reads rfl rfl, fun hs => hs.reads rfl ?_,
      fun hs => hs.reads rfl ?_⟩
  · refine ⟨fun n hn => hs.run_naming (fun m hm hlt => by cases hm; omega) (g.readStream_none hn) nofun, fun k hk => ?_,
      fun n hn => hs.run_naming (fun m hm hlt => by cases hm; omega) (g.readRing_none c.port hn) nofun, fun hk => ?_,
        fun r hr => ?_,
      fun k u hk => ⟨fun y hy => ?_, fun hy => ?_⟩⟩
    · exact hs.reads_naming (hnaming hk) (g.readStream_byte k) rfl
    · exact hs.run_naming_denied (st := some 16) (fun m hm hlt => by cases hm; exact absurd hlt (by decide))
        (g.readRing_denied (r := 16) ((g.deniedRing_iff c.port 16).mpr
          ⟨rfl, hk.imp fun k hk => ⟨hk.1, Bool.eq_false_iff.mpr hk.2⟩⟩))
    · refine hs.reads_naming (fun m hm hlt => ?_) (g.readRing_byte fun hd => ?_) ?_
      · cases hm
        have hb : (byte r.val).toNat = r.val := byte_toNat (by omega)
        exact hr ⟨(byte r.val).toNat, hlt⟩ (.inl (Fin.ext hb))
      · obtain ⟨hr', k, hk, hno⟩ := (g.deniedRing_iff c.port r).mp hd
        exact Bool.false_ne_true (hno.symm.trans (hr k (.inr ⟨hr', hk⟩)))
      · show (h.ring r).report (h.tail r) = _
        rw [Ring.report, Ring.free, Ring.sectors, Nat.mul_comm]
        rfl
    · refine hs.reads_naming (hnaming hk) (g.readUnit_present hy) ?_
      simp only [Entry.report, UnitFlags.fields, List.append_assoc]
      rfl
    · refine hs.run_naming (hnaming hk) (g.readUnit_missing hy) ?_
      split <;> nofun
  · refine ⟨fun n hn => ⟨hs.run_none (g.readInput_none hn) nofun, fun hk => ?_⟩, fun i => ?_, fun k hk => ?_⟩
    · refine hs.run_naming (fun m hm hlt => ?_) (g.readPicture_none hn) nofun
      cases hm
      exact hk ⟨n.toNat, hlt⟩ rfl
    · refine hs.reads (g.readInput_byte i) ?_
      show VideoInput.report (h.inputs[i]) = _
      generalize h.inputs[i] = x
      simp only [VideoInput.report, List.append_assoc]
      rfl
    · refine hs.reads_naming (hnaming hk) (g.readPicture_byte k) ?_
      show Coder.report (h.coders[k]) h.engineLoad = _
      generalize h.engineLoad = load
      generalize h.coders[k] = x
      simp only [Coder.report, Coder.settings, CoderCounts.report, listField, funext Flight.report_eq, List.append_assoc]
      rfl
  · refine ⟨fun n => ⟨fun hn => hs.run_none (g.readChannel_none hn) nofun,
      fun hn => hs.run_none (g.readBus_none hn) nofun⟩, fun n => ?_, fun k j hj => ?_⟩
    · exact hs.reads (g.readChannel_byte n) rfl
    · obtain rfl : j = packOf k := Fin.ext hj
      refine hs.reads (g.readBus_byte k) ?_
      show (h.mixer.buses[k]).report ++ (h.mixer.packs[packOf k]).report = _
      simp only [Bus.report, Pack.report, Gain.report, List.append_assoc]
      rfl
  · refine ⟨fun n => ⟨fun hn => hs.run_none (g.readPath_none hn) nofun,
      fun hn => hs.run_none (g.readSend_none hn) nofun⟩, fun p => ?_, ?_, fun r => ?_⟩
    · refine hs.reads (g.readPath_byte p) ?_
      show Path.report (h.paths.path[p]) = _
      simp only [Path.report, Path.settings, PathCounts.report, linesData, List.append_assoc]
      rfl
    · refine hs.reads rfl ?_
      show h.paths.spreadReport = _
      simp only [Paths.spreadReport, listField, tableField, List.append_assoc]
    · exact hs.reads (g.readSend_byte r) rfl
  · refine ⟨fun n hn => hs.run_none (g.readGauge_none hn) nofun, fun p => ?_, ?_⟩
    · refine hs.reads (g.readGauge_byte p) ?_
      show flagByte h.gauges.auto ++ le 1 h.gauges.window ++
        (h.gauges.path[p]).report ((h.paths.path[p]).state == .reset) (h.now + c.env.dt) = _
      generalize (h.paths.path[p]).state = z
      simp only [Gauge.report, veil, beq_iff_eq, List.append_assoc]
      rfl
    · refine hs.reads rfl ?_
      exact h.budget.report_eq
  · refine ⟨fun n => ⟨fun hn => hs.run_none (g.readClip_unknown hn) nofun,
      fun hn hf => hs.run_none (g.readClip_gone hn hf) nofun,
      fun y hn hf => hs.reads (g.readClip_found hn hf) ?_⟩, fun first count => ?_, ?_⟩
    · simp only [Clip.report, tcOr0_eq]
      rfl
    · exact ⟨fun hb => hs.run_none (g.readLabels_bad hb) nofun, fun hb hl => hs.run_none (g.readLabels_late hb hl) nofun,
        fun hb hl he => hs.run_none (g.readLabels_early hb hl he) nofun,
        fun hb hl he => hs.reads (g.readLabels_held hb hl he) rfl⟩
    · refine hs.reads rfl ?_
      show h.log.report = _
      simp only [ClipLog.report, ClipLog.oldest_eq, ClipLog.active_eq, tableField, funext Trigger.report_eq, listField,
        List.append_assoc]
      rfl
  · exact NoticePort.report_eq _
  · exact h.partReport_eq

end Sys2Proof.Machine
end

section
/-! Proofs: the RESET pin (R168) and the Part reset values of every block. -/

namespace Sys2Proof.Machine

-- In order, so that the package in one text stays within the memory of its check.
set_option Elab.async false

/-- No command touches the queue. -/
theorem exec_pending {i : Instr} {s t : State} (h : exec i s = .next t) : t.pending = s.pending := by
  by_cases hp : ∃ e, i = .partReset e
  · obtain ⟨e, rfl⟩ := hp
    cases h
    rfl
  · by_cases hr : ∃ e strap supw, i = .resetRelease e strap supw
    · obtain ⟨e, strap, supw, rfl⟩ := hr
      cases h
      rfl
    · obtain ⟨f, hf⟩ := exec_run i (fun e he => hp ⟨e, he⟩) fun e strap supw he => hr ⟨e, strap, supw, he⟩
      rw [hf, State.run] at h
      cases h
      split <;> rfl

/-- While the pin is held nothing but its release has an effect. -/
theorem exec_held {i : Instr} {s : State} (hs : s.held = true) (hr : ∀ e strap supw, i ≠ .resetRelease e strap supw) :
    exec i s = .next s := by
  by_cases hp : ∃ e, i = .partReset e
  · obtain ⟨e, rfl⟩ := hp
    obtain ⟨pending, held, hub⟩ := s
    cases hs
    rfl
  · obtain ⟨f, hf⟩ := exec_run i (fun e he => hp ⟨e, he⟩) hr
    rw [hf, State.run_held hs]

/-! ### Part reset values -/

section
variable (strap : BitVec 16) (supw : Bool) (e : Env)

theorem strapRate_code : (strapRate strap).code = strap.toNat / 256 % 4 := by
  have hcode : ∀ n : Nat, n < 4 → ((Rate.ofCode n).getD .r25).code = n := by decide
  exact hcode _ (Nat.mod_lt _ (by omega))

theorem Hub.released_input (i : Fin 4) : (Hub.released strap supw e).inputs[i] = .released := Vector.getElem_replicate ..

theorem Hub.released_channel (c : Fin 64) : (Hub.released strap supw e).mixer.channels[c] = .released :=
  Vector.getElem_replicate ..

theorem Channel.released_gain (k : Fin 16) : Channel.released.gains[k] = .silence := Vector.getElem_replicate ..

theorem Hub.released_bus (k : Fin 16) : (Hub.released strap supw e).mixer.buses[k] = .released :=
  Vector.getElem_replicate ..

theorem Hub.released_pack (k : Fin 8) : (Hub.released strap supw e).mixer.packs[k] = .released :=
  Vector.getElem_replicate ..

theorem Hub.released_arbiter (p : Fin 8) : (Hub.released strap supw e).paths.arbiters[p] = .released :=
  Vector.getElem_replicate ..

theorem Arbiter.released_deficit (r : Fin 17) : Arbiter.released.deficits[r] = 0 := Vector.getElem_replicate ..

theorem Hub.released_bond (j : Fin 4) :
    (Hub.released strap supw e).paths.bonds[j] = { setting := false, inForce := false, odd := false } :=
  Vector.getElem_replicate ..

theorem Hub.released_gauge (p : Fin 8) : (Hub.released strap supw e).gauges.path[p] = .released :=
  Vector.getElem_replicate ..

theorem Hub.released_reserve (k : Fin 4) : (Hub.released strap supw e).budget.reserves[k] = 0 :=
  Vector.getElem_replicate ..

theorem Hub.released_picture (k : Fin 4) :
    (Hub.released strap supw e).budget.pictures[k] =
      { assigned := 2000000, counted := false, share := none, starved := false, kept := [], changedAt := none,
        startedAt := none } := Vector.getElem_replicate ..

theorem Hub.released_keeps (kind : LabelKind) (source : LabelSource) :
    (Hub.released strap supw e).log.keeps kind source = true := by
  have hall : ∀ n, ((Vector.replicate 108 true).toList).getD n true = true := by
    intro n
    rw [Vector.toList_replicate, List.getD_eq_getElem?_getD, List.getElem?_replicate]
    split <;> rfl
  exact hall _

theorem Hub.released_trigger (k : Fin 4) : (Hub.released strap supw e).log.triggers[k] = .released :=
  Vector.getElem_replicate ..

theorem Hub.released_tally (o : Fin 16) :
    (Hub.released strap supw e).tally.entries[o] = { source := .none, lamp := .off, override := .none, holder := none } :=
  Vector.getElem_replicate ..

theorem Hub.released_lamp (i : Fin 4) :
    (Hub.released strap supw e).tally.flash[i] = 0 ∧ (Hub.released strap supw e).tally.sent[i] = false :=
  ⟨Vector.getElem_replicate .., Vector.getElem_replicate ..⟩

/-- Table 62 and the editor mask (R173). -/
theorem strapClasses_eq (p : Fin 4) :
    strapClasses strap p =
      (if strap.getLsbD 2 then (#v[0x6C6#16, 0x24A#16, 0x633#16, 0x2C2#16])[p] else 0x6FF#16) |||
        (if strap.getLsbD (3 + p.val) then 0x100#16 else 0#16) := by
  have hprofile : profileClasses (strapSplit strap) p =
      if strap.getLsbD 2 then (#v[0x6C6#16, 0x24A#16, 0x633#16, 0x2C2#16])[p] else 0x6FF#16 := by
    unfold strapSplit
    cases strap.getLsbD 2
    · rfl
    · revert p
      decide
  rw [strapClasses, hprofile, strapEditor]
  cases strap.getLsbD (3 + p.val)
  · exact (BitVec.or_zero).symm
  · rfl

end

/-- Settles O2, block by block. -/
theorem partResetHoldsAndReleases : Obligations.PartResetHoldsAndReleases := by
  refine ⟨fun i s hs hr => exec_held hs hr, fun i s t h => exec_pending h, fun s => rfl,
    fun s hs => ⟨fun o => ?_, fun p => ?_⟩, fun e s => rfl, fun e strap supw s => ⟨_, rfl, rfl, rfl, rfl, ?_⟩⟩
  · exact if_pos hs
  · rw [State.attention, hs]
    rfl
  refine ⟨⟨strapRate_code strap, rfl, rfl, rfl, rfl, rfl, rfl, rfl, rfl, rfl, rfl, rfl, rfl⟩,
    Hub.released_stream strap supw e, Hub.released_ring strap supw e, fun i => ?_, fun k => ?_, fun c => ?_,
    Hub.released_bus strap supw e, fun k => ?_, fun p => ?_, rfl, rfl, Hub.released_bond strap supw e,
    Hub.released_sends strap supw e, rfl, rfl, fun p => ?_, ?_, ?_, Hub.released_tally strap supw e,
    Hub.released_lamp strap supw e, fun p => ?_, Hub.released_notice strap supw e⟩
  · dsimp only
    rw [Hub.released_input]
    exact ⟨rfl, rfl, rfl, rfl, rfl, rfl, rfl⟩
  · dsimp only
    rw [Hub.released_coder]
    exact ⟨rfl, rfl, rfl, rfl, rfl, rfl, rfl, rfl, rfl, rfl, rfl, rfl, rfl, rfl, rfl, rfl, rfl, rfl⟩
  · dsimp only
    rw [Hub.released_channel]
    exact ⟨rfl, rfl, rfl, rfl, rfl, rfl, Channel.released_gain⟩
  · dsimp only
    rw [Hub.released_pack]
    exact ⟨rfl, rfl, rfl, rfl⟩
  · dsimp only
    rw [Hub.released_path, Hub.released_arbiter]
    exact ⟨rfl, rfl, rfl, rfl, rfl, rfl, rfl, rfl, rfl, rfl, rfl, rfl, rfl, rfl, rfl, rfl, rfl, rfl, rfl, rfl, rfl,
      Arbiter.released_deficit⟩
  · dsimp only
    rw [Hub.released_gauge]
    exact ⟨rfl, rfl, rfl, rfl, rfl, rfl, rfl, rfl, rfl, rfl, rfl, rfl, rfl, rfl, rfl, rfl, rfl, rfl, rfl⟩
  · exact ⟨rfl, rfl, rfl, Hub.released_reserve strap supw e, rfl, rfl, rfl, rfl, rfl, rfl, rfl, rfl, rfl,
      Hub.released_picture strap supw e⟩
  · exact ⟨rfl, rfl, Hub.released_keeps strap supw e, rfl, rfl, rfl, rfl, rfl, rfl, rfl, Hub.released_trigger strap supw e⟩
  · dsimp only
    rw [Hub.released_ports]
    exact ⟨rfl, rfl, rfl, rfl, rfl, rfl, rfl, rfl, rfl, strapClasses_eq strap p⟩

end Sys2Proof.Machine
end

section
/-! Proofs: HUB RESET (R181), block by block. -/

namespace Sys2Proof.Machine

-- In order, so that the package in one text stays within the memory of its check.
set_option Elab.async false

section
variable (h : Hub)

theorem Hub.reset_channel (n : Fin 64) :
    h.reset.mixer.channels[n] = { (h.mixer.channels[n]).quiet with invalid := 0 } := by
  simp [Hub.reset, Hub.formLamps, Mixer.hubReset]

theorem Hub.reset_bus (k : Fin 16) : h.reset.mixer.buses[k] = { (h.mixer.buses[k]).quiet with overloadFrames := 0 } := by
  simp [Hub.reset, Hub.formLamps, Mixer.hubReset]

theorem Hub.reset_pack (k : Fin 8) :
    h.reset.mixer.packs[k] = { h.mixer.packs[k] with state := .idle, buffer := [], offered := 0, voided := 0 } := by
  simp [Hub.reset, Hub.formLamps, Mixer.hubReset]

theorem Hub.reset_arbiter (p : Fin 8) : h.reset.paths.arbiters[p] = .released := by
  simp [Hub.reset, Hub.formLamps, Paths.hubReset]

theorem Hub.reset_bond (j : Fin 4) :
    h.reset.paths.bonds[j] = { h.paths.bonds[j] with inForce := (h.paths.bonds[j]).setting, odd := false } := by
  simp [Hub.reset, Hub.formLamps, Paths.hubReset]

theorem Hub.reset_send (r : Fin 17) : h.reset.paths.sends[r] = .released := by
  simp [Hub.reset, Hub.formLamps, Paths.hubReset]

theorem Hub.reset_gauge (p : Fin 8) : h.reset.gauges.path[p] = (h.gauges.path[p]).hubReset := by
  simp [Hub.reset, Hub.formLamps]

theorem Hub.reset_picture (k : Fin 4) :
    h.reset.budget.pictures[k] =
      { assigned := (h.coders[k]).rMin, counted := false, share := none, starved := false, kept := [],
        changedAt := none, startedAt := none } := by
  simp [Hub.reset, Hub.formLamps, Budget.hubReset]

theorem Hub.reset_trigger (k : Fin 4) :
    h.reset.log.triggers[k] = { h.log.triggers[k] with state := .disarmed, fires := 0, ignored := 0, misses := 0 } := by
  simp [Hub.reset, Hub.formLamps, ClipLog.hubReset]

/-- R167: an output after HUB RESET shows what the blocks then hold. -/
theorem Hub.reset_tally (o : Fin 16) :
    h.reset.tally.entries[o] =
      { h.tally.entries[o] with
        override := .none, holder := none, lamp := h.reset.lampOf (h.tally.entries[o]).source } := by
  have hlamp : ∀ (g : Hub) (x : TallySource), g.formLamps.lampOf x = g.lampOf x := by
    intro g x
    cases x <;> rfl
  rw [Hub.reset, hlamp]
  simp [Hub.formLamps, Tally.hubReset]

theorem Hub.reset_sent (i : Fin 4) : h.reset.tally.sent[i] = false := by
  simp [Hub.reset, Hub.formLamps, Tally.hubReset]

theorem Hub.reset_triggerLamp (n : Fin 4) : h.reset.lampOf (.trigger n) = .off := by
  have hclips : h.reset.log.clips = [] := rfl
  show h.reset.triggerLamp n = .off
  rw [Hub.triggerLamp, hclips, Hub.reset_trigger]
  rfl

theorem Channel.quiet_gain (x : Channel) (k : Fin 16) :
    x.quiet.gains[k] = { g := (x.gains[k]).target, target := (x.gains[k]).target, r := 0 } := by
  have hmute : x.endMute.gains = x.gains := rfl
  simp [Channel.quiet, Gain.settle]

end

/-- An answer changes the response and the counts of its own port. -/
theorem Hub.answer_port (h : Hub) (c : Caller) (code : Byte) (o : Answer) (data : Bytes) (p : Fin 4) :
    ∃ sending counts, (h.answer c code o data).ports[p] = { h.ports[p] with sending := sending, counts := counts } ∧
      (p ≠ c.port → (h.answer c code o data).ports[p] = h.ports[p]) := by
  by_cases hp : p = c.port
  · subst hp
    refine ⟨some (false, { tag := c.tag, code := code, outcome := o, data := data }), (h.ports[c.port]).counts.answer o, ?_,
      fun hne => absurd rfl hne⟩
    simp only [Hub.answer, Fin.getElem_fin, Vector.getElem_set_self]
  · have hne : (h.answer c code o data).ports[p] = h.ports[p] := by
      simp only [Hub.answer, Fin.getElem_fin]
      exact Vector.getElem_set_ne _ _ fun hv => hp (Fin.ext hv.symm)
    exact ⟨_, _, hne, fun _ => hne⟩

/-- Settles O51, block by block. -/
theorem hubResetClears : Obligations.HubResetClears := by
  intro c s hs
  refine exists_became (hs.run_none (h := (s.hub.arrive c.env).reset) rfl nofun) ?_
  refine ⟨rfl, rfl, rfl, rfl, (s.hub.arrive c.env).reset_stream, (s.hub.arrive c.env).reset_ring, fun k => ?_, fun n => ?_,
    fun k => (s.hub.arrive c.env).reset_bus k, fun k => ?_, fun p => ?_, rfl, rfl, (s.hub.arrive c.env).reset_bond,
    (s.hub.arrive c.env).reset_send, rfl, rfl, fun p => ?_, ⟨rfl, rfl, rfl, rfl, rfl, rfl, rfl, rfl, rfl, rfl, rfl, rfl, rfl,
      (s.hub.arrive c.env).reset_picture⟩, ⟨rfl, (s.hub.arrive c.env).reset_trigger⟩, fun o => ?_, rfl,
    (s.hub.arrive c.env).reset_sent, fun p => ?_, ?_, (s.hub.arrive c.env).reset_notice⟩
  · intro old new
    have hx : new = old.hubReset := (s.hub.arrive c.env).reset_coder k
    rw [hx]
    exact ⟨rfl, rfl, rfl, rfl, rfl, rfl, rfl, rfl, rfl, rfl, rfl, rfl, rfl, rfl, rfl, rfl, rfl⟩
  · intro old new
    have hx : new = { old.quiet with invalid := 0 } := (s.hub.arrive c.env).reset_channel n
    rw [hx]
    exact ⟨old.quiet_gain, rfl⟩
  · have hx := (s.hub.arrive c.env).reset_pack k
    refine (show ∀ x : Pack, x = { (s.hub.arrive c.env).mixer.packs[k] with
      state := .idle, buffer := [], offered := 0, voided := 0 } → x.state = .idle ∧ x.buffer = [] ∧ x.offered = 0 ∧
        x.voided = 0 from ?_) _ hx
    rintro x rfl
    exact ⟨rfl, rfl, rfl, rfl⟩
  · intro old new
    have hx : new = old.hubReset (pathLines c.env.lines p) := (s.hub.arrive c.env).reset_path p
    have ha := (s.hub.arrive c.env).reset_arbiter p
    rw [hx]
    refine ⟨rfl, rfl, rfl, (old.hubReset_ok (pathLines c.env.lines p)).1, rfl, rfl, rfl, rfl, rfl, rfl, rfl, rfl, rfl, rfl,
      rfl, rfl, rfl, rfl, rfl, (congrArg Arbiter.last0 ha :), (congrArg Arbiter.cur1 ha :), fun r => ?_⟩
    exact (congrArg (fun a : Arbiter => a.deficits[r]) ha).trans (Arbiter.released_deficit r)
  · intro old new
    have hx : new = old.hubReset := (s.hub.arrive c.env).reset_gauge p
    rw [hx]
    exact ⟨rfl, rfl, rfl, rfl, rfl, rfl, rfl, rfl, rfl, rfl, rfl, rfl, rfl, rfl, rfl, rfl, rfl, rfl, rfl⟩
  · intro old new
    have hx : new = { old with override := .none, holder := none, lamp := (s.hub.arrive c.env).reset.lampOf old.source } :=
      (s.hub.arrive c.env).reset_tally o
    rw [hx]
    refine ⟨rfl, rfl, rfl, fun n hn => ?_, fun hn => ?_, fun n hn => ?_⟩
    · show (s.hub.arrive c.env).reset.lampOf old.source = .off
      rw [hn, Hub.reset_triggerLamp]
    · show (s.hub.arrive c.env).reset.lampOf old.source = .off
      rw [hn]
      rfl
    · show (s.hub.arrive c.env).reset.lampOf old.source = _
      rw [hn]
      rfl
  · intro old new
    obtain ⟨sending, counts, hkept, hne⟩ := (s.hub.arrive c.env).reset.answer_port c 0xB0 .done [] p
    rw [Hub.reset_ports] at hkept hne
    have hx : new = { old.hubReset with sending := sending, counts := counts } := hkept
    have hother : p ≠ c.port → new = old.hubReset := hne
    refine ⟨?_, ?_, ?_, ?_, ?_, ?_, ?_, ?_, fun hp => ?_⟩
    case refine_9 =>
      rw [hother hp]
      exact ⟨rfl, rfl⟩
    all_goals
      rw [hx]
      rfl
  · exact Hub.answer_sending ..

end Sys2Proof.Machine
end

section
/-! Proofs: the settings of the mixer, MUTE END and MIXER RESET (R71 to R74, R80, R85), and one sample (R68 to R70, R75 to
R77). -/

namespace Sys2Proof.Machine

-- In order, so that the package in one text stays within the memory of its check.
set_option Elab.async false

/-! ### Commands of class MIX, an equation per outcome -/

section
variable (h : Hub)

theorem Hub.modChannel_congr {c : Fin 64} {f g : Channel → Channel} (hfg : f h.mixer.channels[c] = g h.mixer.channels[c]) :
    h.modChannel c f = h.modChannel c g := by
  simp only [Hub.modChannel, hfg]

theorem Hub.modBus_congr {k : Fin 16} {f g : Bus → Bus} (hfg : f h.mixer.buses[k] = g h.mixer.buses[k]) :
    h.modBus k f = h.modBus k g := by
  simp only [Hub.modBus, hfg]

theorem Channel.write_eq (x : Channel) (d : Nat) (inverted : Bool) :
    x.write d inverted = if d = x.pendingDelay.getD x.delay then { x with inverted := inverted }
      else { x with inverted := inverted, pendingDelay := some d, muteEnd := some 2 } := rfl

theorem Gain.head_eq (g : Gain) (target ramp : BitVec 16) :
    g.head target ramp = { g := g.g, target := target.toNat, r := max 1 ramp.toNat } := by
  have hr : (if ramp = 0 then 1 else ramp.toNat) = max 1 ramp.toNat := by
    split
    · next hz => rw [hz]; rfl
    · next hz =>
      have : ramp.toNat ≠ 0 := fun h0 => hz (BitVec.eq_of_toNat_eq h0)
      omega
  rw [Gain.head, hr]

theorem Hub.setChannel_bad {n a : Byte} (hb : 63 < n.toNat ∨ 1 < a.toNat) (d : BitVec 16) :
    h.setChannel n d a = h.refuse .badArg := by
  rcases hb with hn | ha
  · simp only [Hub.setChannel, below_eq_none (show 64 ≤ n.toNat by omega)]
  · simp only [Hub.setChannel, twoWay_eq_none ha]
    split
    · contradiction
    · rfl

theorem Hub.setChannel_byte (n : Fin 64) (d : BitVec 16) (inverted : Bool) :
    h.setChannel (byte n.val) d (byte inverted.toNat) =
      (h.modChannel n fun x => x.write (min 4095 d.toNat) inverted,
        .done (le 2 (min 4095 d.toNat) ++ flagByte inverted)) := by
  simp only [Hub.setChannel, below_byte n (by omega), twoWay_byte]

theorem Hub.setGain_bad {n b : Byte} (hb : 63 < n.toNat ∨ 15 < b.toNat) (target ramp : BitVec 16) :
    h.setGain n b target ramp = h.refuse .badArg := by
  rcases hb with hn | hb
  · simp only [Hub.setGain, below_eq_none (show 64 ≤ n.toNat by omega)]
  · simp only [Hub.setGain, below_eq_none (show 16 ≤ b.toNat by omega)]
    split
    · contradiction
    · rfl

theorem Hub.setGain_byte (n : Fin 64) (k : Fin 16) (target ramp : BitVec 16) :
    h.setGain (byte n.val) (byte k.val) target ramp =
      (h.modChannel n fun x =>
        { x with gains := x.gains.set k { g := (x.gains[k]).g, target := target.toNat, r := max 1 ramp.toNat } },
        .done (le 2 target.toNat ++ le 2 ramp.toNat)) := by
  simp only [Hub.setGain, below_byte n (by omega), below_byte k (by omega), Gain.head_eq, gainData]

theorem Hub.setBusGain_bad {b : Byte} (hb : 15 < b.toNat) (target ramp : BitVec 16) :
    h.setBusGain b target ramp = h.refuse .badArg := by
  simp only [Hub.setBusGain, below_eq_none (show 16 ≤ b.toNat by omega)]

theorem Hub.setBusGain_byte (k : Fin 16) (target ramp : BitVec 16) :
    h.setBusGain (byte k.val) target ramp =
      (h.modBus k fun x => { x with master := { g := x.master.g, target := target.toNat, r := max 1 ramp.toNat } },
        .done (le 2 target.toNat ++ le 2 ramp.toNat)) := by
  simp only [Hub.setBusGain, below_byte k (by omega), Gain.head_eq, gainData]

theorem Hub.setMeter_bad {b : Byte} (hb : 15 < b.toNat) (threshold : Word) (frames : Byte) :
    h.setMeter b threshold frames = h.refuse .badArg := by
  simp only [Hub.setMeter, below_eq_none (show 16 ≤ b.toNat by omega)]

theorem Hub.setMeter_byte (k : Fin 16) (threshold : Word) (frames : Byte) :
    h.setMeter (byte k.val) threshold frames =
      (h.modBus k fun x =>
        { x with threshold := min 8388607 threshold.toNat, silenceFrames := max 1 (min 250 frames.toNat) },
        .done (le 4 (min 8388607 threshold.toNat) ++ le 1 (max 1 (min 250 frames.toNat)))) := by
  simp only [Hub.setMeter, below_byte k (by omega), clamp]

theorem Hub.muteEnd_due (c : Fin 64) (hm : (h.mixer.channels[c]).muteEnd = some 1) :
    Hub.muteEnd c h = h.modChannel c Channel.endMute := if_pos hm

theorem Hub.muteEnd_void (c : Fin 64) (hm : (h.mixer.channels[c]).muteEnd ≠ some 1) : Hub.muteEnd c h = h := if_neg hm

/-- The hub that MIXER RESET makes. -/
def Hub.quieted (h : Hub) : Hub := { h with mixer := h.mixer.quiet }

theorem Hub.quieted_sampleNo : h.quieted.mixer.sampleNo = h.mixer.sampleNo := by
  simp only [Hub.quieted, Mixer.quiet]

theorem Hub.quieted_channel (n : Fin 64) : h.quieted.mixer.channels[n] = (h.mixer.channels[n]).quiet := by
  simp [Hub.quieted, Mixer.quiet]

theorem Hub.quieted_bus (k : Fin 16) : h.quieted.mixer.buses[k] = (h.mixer.buses[k]).quiet := by
  simp [Hub.quieted, Mixer.quiet]

theorem Hub.quieted_pack (k : Fin 8) : h.quieted.mixer.packs[k] = (h.mixer.packs[k]).cancel := by
  simp [Hub.quieted, Mixer.quiet]

end

/-- Settles O30: each setting's block writes one record, and MIXER RESET quiets every one. -/
theorem mixerCommands : Obligations.MixerCommands := by
  constructor
  · intro e c s hs g
    exact ⟨fun hm => (State.run_free hs fun h => Hub.muteEnd c (h.arrive e)).trans (congrArg s.became (g.muteEnd_due c hm)),
      fun hm => (State.run_free hs fun h => Hub.muteEnd c (h.arrive e)).trans (congrArg s.became (g.muteEnd_void c hm))⟩
  intro c s hs g
  refine ⟨fun n a d hb => ?_, fun n d inverted => ?_,
    fun n b target ramp hb => ?_, fun n k target ramp => ?_, fun b target ramp hb => ?_, fun k target ramp => ?_,
    fun b threshold frames hb => ?_, fun k threshold frames => ?_, ?_⟩
  · exact hs.run_none (g.setChannel_bad hb d) nofun
  · intro delay x data
    refine hs.run_none ((g.setChannel_byte n d inverted).trans ?_) nofun
    rw [g.modChannel_congr (g := fun _ => x.write delay inverted) rfl]
    rfl
  · exact hs.run_none (g.setGain_bad hb target ramp) nofun
  · exact hs.run_none (g.setGain_byte n k target ramp) nofun
  · exact hs.run_none (g.setBusGain_bad hb target ramp) nofun
  · exact hs.run_none (g.setBusGain_byte k target ramp) nofun
  · exact hs.run_none (g.setMeter_bad hb threshold frames) nofun
  · exact hs.run_none (g.setMeter_byte k threshold frames) nofun
  · refine exists_became (hs.run_none (h := g.quieted) rfl nofun) ?_
    refine ⟨g.quieted_sampleNo, fun n => ?_, fun k => ?_, fun k => ?_, ?_, ?_⟩
    · intro old new
      have hx : new = old.quiet := g.quieted_channel n
      rw [hx]
      exact ⟨old.quiet_gain, rfl⟩
    · exact g.quieted_bus k
    · exact g.quieted_pack k
    · exact g.quieted.answer_sending c 0x44 .done []
    · have honly : Hub.OnlyChanges [.mixer, .ports] g g.quieted := (g.withMixer_only g.mixer.quiet).mono (by decide)
      exact honly.answered c 0x44 .done [] (by decide)

/-! ### One sample -/

theorem Channel.output_eq (x : Channel) :
    x.output = let d := (x.line.getD x.delay 0).toInt
      if x.muteEnd ≠ none then 0 else if x.inverted = true then min 8388607 (-d) else d := by
  have hd : -8388608 ≤ (x.line.getD x.delay 0).toInt := by
    have := BitVec.le_toInt (x.line.getD x.delay 0)
    omega
  unfold Channel.output
  generalize (x.line.getD x.delay 0).toInt = d at hd
  dsimp only
  cases x.muteEnd with
  | some n => rfl
  | none =>
    cases x.inverted with
    | false => rfl
    | true =>
      simp only [Option.isSome_none, Bool.false_eq_true, if_false, ne_eq, not_true_eq_false, if_true]
      split <;> omega

theorem busValue_eq (acc : Int) (master : Nat) :
    busValue acc master = ((acc + 8192).fdiv 16384 * (master : Int) + 8192).fdiv 16384 := by
  simp only [busValue, roundGain, Int.fdiv_eq_ediv_of_nonneg _ (show (0 : Int) ≤ 16384 by decide)]

theorem Channel.marks_iff (x : Channel) (k : Fin 16) :
    x.marks k = true ↔ x.valid = false ∧ x.muteEnd = none ∧ (x.gains[k]).g ≠ 0 := by
  simp [Channel.marks, and_assoc]

theorem Hub.channelValid_iff (h : Hub) (x : SampleIn) (c : Fin 64) :
    h.channelValid x c = true ↔ if c.val < 32 then
        ∃ i : Fin 4, i.val = c.val / 8 ∧ (h.inputs[i]).present = true ∧ x.carried.getLsbD c.val = true
      else x.portError.getLsbD ((c.val - 32) / 8) = false := by
  unfold Hub.channelValid
  split
  · next hc =>
    rw [Bool.and_eq_true]
    refine ⟨fun hv => ⟨⟨c.val / 8, by omega⟩, rfl, hv⟩, ?_⟩
    rintro ⟨i, hi, hv⟩
    have hinput : h.inputs[i] = h.inputs[c.val / 8] := by simp only [Fin.getElem_fin, hi]
    rwa [hinput] at hv
  · simp

section
variable (h : Hub) (x : SampleIn)

theorem Hub.mixSample_sampleNo : (h.mixSample x).mixer.sampleNo = h.mixer.sampleNo + 1 := by
  simp only [Hub.mixSample]

theorem Hub.mixSample_channel (c : Fin 64) :
    (h.mixSample x).mixer.channels[c] =
      (h.mixer.channels[c]).sample (h.channelValid x c) (x.samples.getD c.val 0) := by
  simp [Hub.mixSample]

/-- The output of bus k before saturation, from the channels and gains as a sample leaves them (R77). -/
def Hub.busOutput (h : Hub) (k : Fin 16) : Int := busValue (busSum h.mixer.channels k) ((h.mixer.buses[k]).master).g

theorem Hub.mixSample_bus (k : Fin 16) :
    (h.mixSample x).mixer.buses[k] =
      ({ h.mixer.buses[k] with master := ((h.mixer.buses[k]).master).step } : Bus).sample ((h.mixSample x).busOutput k)
        ((List.finRange 64).any fun c => ((h.mixSample x).mixer.channels[c]).marks k) := by
  simp [Hub.mixSample, Hub.busOutput, Bus.sample]

theorem Hub.mixSample_pack (k : Fin 8) {a b : Fin 16} (ha : a.val = 2 * k.val) (hb : b.val = 2 * k.val + 1) :
    (h.mixSample x).mixer.packs[k] = if (h.mixer.packs[k]).state = .packing then
      { h.mixer.packs[k] with
        buffer := (BitVec.ofInt 24 (saturate ((h.mixSample x).busOutput a)),
          BitVec.ofInt 24 (saturate ((h.mixSample x).busOutput b))) :: (h.mixer.packs[k]).buffer }
      else h.mixer.packs[k] := by
  obtain ⟨a, hla⟩ := a
  obtain ⟨b, hlb⟩ := b
  dsimp only at ha hb
  subst ha
  subst hb
  simp [Hub.mixSample, Hub.busOutput, Bus.sample]

theorem Hub.mixSample_only : Hub.OnlyChanges [.mixer] h (h.mixSample x) := h.withMixer_only _

theorem Hub.busOutput_eq (k : Fin 16) :
    h.busOutput k =
      let acc := ((List.finRange 64).map fun c =>
        (h.mixer.channels[c]).output * ((((h.mixer.channels[c]).gains[k]).g : Nat) : Int)).sum
      ((acc + 8192).fdiv 16384 * ((((h.mixer.buses[k]).master).g : Nat) : Int) + 8192).fdiv 16384 := busValue_eq _ _

end

/-- Settles O28: the sample's channels, buses and packing frames, each an equation of its own. -/
theorem sampleMixes : Obligations.SampleMixes := by
  intro e x s hs m limit
  refine ⟨fun hn => ?_, fun hn => exists_became (exec_mixerSample_of_lt e x hs hn) ?_⟩
  · exact (State.run_free hs fun h => Hub.mixerSample x (h.arrive e)).trans (congrArg s.became (if_neg (Nat.not_lt.mpr hn)))
  · have hnumber := (s.hub.arrive e).mixSample_sampleNo x
    have hchannel := (s.hub.arrive e).mixSample_channel x
    have hbus := (s.hub.arrive e).mixSample_bus x
    have hpack := fun k a b => (s.hub.arrive e).mixSample_pack x k (a := a) (b := b)
    have honly := (s.hub.arrive e).mixSample_only x
    generalize (s.hub.arrive e).mixSample x = t at *
    intro n sc exact y
    have houtput : ∀ k, t.busOutput k = exact k := by
      intro k
      rw [Hub.busOutput_eq]
      simp only [Channel.output_eq]
      rfl
    have hy : ∀ k, saturate (t.busOutput k) = y k := fun k => congrArg saturate (houtput k)
    refine ⟨hnumber, fun c => ?_, fun k => ?_, fun k a b ha hb => ?_, fun p hp => ?_⟩
    · intro old new carried
      have hc : new = old.sample ((s.hub.arrive e).channelValid x c) (x.samples.getD c.val 0) := hchannel c
      have hv : new.valid = (s.hub.arrive e).channelValid x c := congrArg Channel.valid hc
      refine ⟨hv ▸ Hub.channelValid_iff _ x c, fun k => ?_, ?_⟩
      · rw [hc, Channel.sample_gains]
        exact (old.gains[k]).ramped_step
      · rw [hc]
        rfl
    · intro old new
      have hb : new = ({ old with master := old.master.step } : Bus).sample (t.busOutput k)
        ((List.finRange 64).any fun c => (t.mixer.channels[c]).marks k) := hbus k
      rw [hb]
      refine ⟨old.master.ramped_step, ?_, ?_⟩
      · simp only [Bus.sample, Bool.or_eq_true, List.any_eq_true, List.mem_finRange, true_and, Channel.marks_iff]
        exact Iff.rfl
      · rw [← hy, ← houtput]
        rfl
    · rw [← hy a, ← hy b]
      exact hpack k a b ha hb
    · exact honly p hp

end Sys2Proof.Machine
end

section
/-! Proofs: the record that spells a command is read as that command (R195, Tables 68 and 76): every field reads back. -/

namespace Sys2Proof.Machine

-- In order, so that the package in one text stays within the memory of its check.
set_option Elab.async false

/-! ### Fields -/

/-- The bytes of a number spell it again. -/
theorem ofLe_le (n v : Nat) (hv : v < 256 ^ n) : ofLe (le n v) = v := by
  induction n generalizing v with
  | zero => rw [Nat.pow_zero] at hv; simp [le, ofLe]; omega
  | succ n ih =>
    have hq : v / 256 < 256 ^ n := Nat.div_lt_of_lt_mul (by rwa [Nat.pow_succ, Nat.mul_comm] at hv)
    rw [le, ofLe, ih _ hq, BitVec.toNat_ofNat]
    omega

section
variable (rest : Bytes)

theorem takeField_le {n v : Nat} (hv : v < 256 ^ n) : takeField n (le n v ++ rest) = some (v, rest) := by
  have hlen : ¬ (le n v ++ rest).length < n := by
    rw [List.length_append, le_length]
    omega
  rw [takeField, if_neg hlen, List.take_left' (le_length n v), List.drop_left' (le_length n v), ofLe_le n v hv]

theorem take1_cons (b : Byte) : take1 (b :: rest) = some (b, rest) := rfl

theorem take2_word2 (w : BitVec 16) : take2 (word2 w ++ rest) = some (w, rest) := by
  simp only [take2, word2, takeField_le rest (show w.toNat < 256 ^ 2 from w.isLt), BitVec.ofNat_toNat, BitVec.setWidth_eq]

theorem take4_word4 (w : Word) : take4 (word4 w ++ rest) = some (w, rest) := by
  simp only [take4, word4, takeField_le rest (show w.toNat < 256 ^ 4 from w.isLt), BitVec.ofNat_toNat, BitVec.setWidth_eq]

theorem take8_le (w : BitVec 64) : take8 (le 8 w.toNat ++ rest) = some (w, rest) := by
  simp only [take8, takeField_le rest (show w.toNat < 256 ^ 8 from w.isLt), BitVec.ofNat_toNat, BitVec.setWidth_eq]

theorem takeFlag_flagByte (b : Bool) : takeFlag (flagByte b ++ rest) = some (b, rest) := by
  cases b <;> rfl

theorem takeData_le {data : Bytes} (hd : data.length < 65536) :
    takeData (le 2 data.length ++ (data ++ rest)) = some (data, rest) := by
  have hlen : ¬ (data ++ rest).length < data.length := by
    rw [List.length_append]
    omega
  simp only [takeData, takeField_le _ (show data.length < 256 ^ 2 from hd), if_neg hlen, List.take_left, List.drop_left]

theorem takeText_textField {t : TextArg} (ht : t.wellFormed = true) : takeText (textField t ++ rest) = some (t, rest) := by
  have hlen : t.bytes.length = 64 := beq_iff_eq.mp ht
  have hrest : ¬ (t.bytes ++ rest).length < 64 := by
    rw [List.length_append]
    omega
  rw [textField, List.cons_append, takeText, if_neg hrest, List.take_left' hlen, List.drop_left' hlen]

/-- A field of n bytes is read by f. -/
theorem takeOpt_optField {α : Type} {n : Nat} {f : α → Bytes} {take : Bytes → Option (α × Bytes)} {x : Option α}
    (hsome : ∀ a, x = some a → take (f a ++ rest) = some (a, rest)) (hnone : ∃ a, take (zeros n ++ rest) = some (a, rest)) :
    takeOpt take (optField n f x ++ rest) = some (x, rest) := by
  cases x with
  | none =>
    obtain ⟨a, ha⟩ := hnone
    rw [optField, List.cons_append, takeOpt, ha]
    rfl
  | some a =>
    rw [optField, List.cons_append, takeOpt, hsome a rfl]
    rfl

theorem takeOpt_word4 (x : Option Word) : takeOpt take4 (optField 4 word4 x ++ rest) = some (x, rest) :=
  takeOpt_optField rest (fun a _ => take4_word4 rest a) ⟨0, take4_word4 rest 0⟩

theorem takeOpt_text {x : Option TextArg} (hx : ∀ t, x = some t → t.wellFormed = true) :
    takeOpt takeText (optField 65 textField x ++ rest) = some (x, rest) :=
  takeOpt_optField rest (fun a ha => takeText_textField rest (hx a ha))
    ⟨{ len := 0, bytes := zeros 64 }, takeText_textField (t := { len := 0, bytes := zeros 64 }) rest rfl⟩

theorem takeAction_actionField (a : ActionArg) : takeAction (actionField a ++ rest) = some (a, rest) := by
  cases a with
  | start mask =>
    rw [actionField, List.cons_append, takeAction, if_pos rfl, take2_word2]
  | stop partner => rfl
  | unknown => rfl

end

/-! ### Commands -/

/-- R195: no byte follows the arguments. -/
theorem whole_nil {α : Type} (a : α) : whole [] a = some a := if_pos rfl

/-! At the end of the arguments. -/

theorem take2_last (w : BitVec 16) : take2 (word2 w) = some (w, []) := by simpa using take2_word2 [] w

theorem take4_last (w : Word) : take4 (word4 w) = some (w, []) := by simpa using take4_word4 [] w

theorem takeFlag_last (b : Bool) : takeFlag (flagByte b) = some (b, []) := by simpa using takeFlag_flagByte [] b

theorem takeOpt_word4_last (x : Option Word) : takeOpt take4 (optField 4 word4 x) = some (x, []) := by
  simpa using takeOpt_word4 [] x

theorem takeOpt_text_last {x : Option TextArg} (hx : ∀ t, x = some t → t.wellFormed = true) :
    takeOpt takeText (optField 65 textField x) = some (x, []) := by
  simpa using takeOpt_text [] hx

/-- A field that is read, and the fields behind it. -/
theorem read_then {α β : Type} {take : Bytes → Option (α × Bytes)} {x rest : Bytes} {a : α} {f : α × Bytes → Option β} {r : β}
    (h : take x = some (a, rest)) (hr : f (a, rest) = some r) : (take x >>= f) = some r := by
  rw [h]
  exact hr

/-- Each command of a master port is read from its record, field by field, and is carried out as it reads. -/
theorem parseCommand_arguments {i : Instr} {H : Header} (hw : i.wellFormed = true) (hi : header i = some H) :
    ∃ f, parseCommand H.caller H.code (arguments i) = some f ∧ ∀ s, exec i s = s.run f := by
  cases i
  case jamTimecode =>
    cases hi
    refine ⟨_, ?_, fun _ => rfl⟩
    dsimp only
    refine read_then (take4_last _) ?_
    exact whole_nil _
  case setRing =>
    cases hi
    refine ⟨_, ?_, fun _ => rfl⟩
    dsimp only
    refine read_then (take1_cons _ _) ?_
    refine read_then (take4_word4 _ _) ?_
    refine read_then (take4_word4 _ _) ?_
    refine read_then (takeFlag_flagByte _ _) ?_
    refine read_then (take1_cons _ _) ?_
    exact whole_nil _
  case fetch =>
    cases hi
    refine ⟨_, ?_, fun _ => rfl⟩
    dsimp only
    refine read_then (take1_cons _ _) ?_
    refine read_then (take4_word4 _ _) ?_
    refine read_then (take4_word4 _ _) ?_
    refine read_then (take2_last _) ?_
    exact whole_nil _
  case insert =>
    cases hi
    refine ⟨_, ?_, fun _ => rfl⟩
    dsimp only
    refine read_then (take1_cons _ _) ?_
    refine read_then (takeData_le _ (of_decide_eq_true hw)) ?_
    refine read_then (takeFlag_last _) ?_
    exact whole_nil _
  case readUnit =>
    cases hi
    refine ⟨_, ?_, fun _ => rfl⟩
    dsimp only
    refine read_then (take1_cons _ _) ?_
    refine read_then (take4_last _) ?_
    exact whole_nil _
  case setPicture =>
    cases hi
    refine ⟨_, ?_, fun _ => rfl⟩
    dsimp only
    refine read_then (take1_cons _ _) ?_
    refine read_then (take1_cons _ _) ?_
    refine read_then (take1_cons _ _) ?_
    refine read_then (take1_cons _ _) ?_
    refine read_then (take4_word4 _ _) ?_
    refine read_then (take4_word4 _ _) ?_
    refine read_then (take4_word4 _ _) ?_
    refine read_then (take1_cons _ _) ?_
    refine read_then (take1_cons _ _) ?_
    exact whole_nil _
  case setChannel =>
    cases hi
    refine ⟨_, ?_, fun _ => rfl⟩
    dsimp only
    refine read_then (take1_cons _ _) ?_
    refine read_then (take2_word2 _ _) ?_
    refine read_then (take1_cons _ _) ?_
    exact whole_nil _
  case setGain =>
    cases hi
    refine ⟨_, ?_, fun _ => rfl⟩
    dsimp only
    refine read_then (take1_cons _ _) ?_
    refine read_then (take1_cons _ _) ?_
    refine read_then (take2_word2 _ _) ?_
    refine read_then (take2_last _) ?_
    exact whole_nil _
  case setBusGain =>
    cases hi
    refine ⟨_, ?_, fun _ => rfl⟩
    dsimp only
    refine read_then (take1_cons _ _) ?_
    refine read_then (take2_word2 _ _) ?_
    refine read_then (take2_last _) ?_
    exact whole_nil _
  case setMeter =>
    cases hi
    refine ⟨_, ?_, fun _ => rfl⟩
    dsimp only
    refine read_then (take1_cons _ _) ?_
    refine read_then (take4_word4 _ _) ?_
    refine read_then (take1_cons _ _) ?_
    exact whole_nil _
  case setPath =>
    cases hi
    refine ⟨_, ?_, fun _ => rfl⟩
    dsimp only
    refine read_then (take1_cons _ _) ?_
    refine read_then (takeFlag_flagByte _ _) ?_
    refine read_then (take1_cons _ _) ?_
    refine read_then (take2_last _) ?_
    exact whole_nil _
  case setBond =>
    cases hi
    refine ⟨_, ?_, fun _ => rfl⟩
    dsimp only
    refine read_then (take1_cons _ _) ?_
    refine read_then (takeFlag_last _) ?_
    exact whole_nil _
  case setGauge =>
    cases hi
    refine ⟨_, ?_, fun _ => rfl⟩
    dsimp only
    refine read_then (takeFlag_flagByte _ _) ?_
    refine read_then (take1_cons _ _) ?_
    exact whole_nil _
  case startGauge =>
    cases hi
    refine ⟨_, ?_, fun _ => rfl⟩
    dsimp only
    refine read_then (take1_cons _ _) ?_
    refine read_then (take1_cons _ _) ?_
    refine read_then (take4_last _) ?_
    exact whole_nil _
  case setBudget =>
    cases hi
    refine ⟨_, ?_, fun _ => rfl⟩
    dsimp only
    refine read_then (take1_cons _ _) ?_
    refine read_then (take8_le _ _) ?_
    refine read_then (take2_word2 _ _) ?_
    refine read_then (take4_word4 _ _) ?_
    refine read_then (take4_word4 _ _) ?_
    refine read_then (take4_word4 _ _) ?_
    refine read_then (take4_last _) ?_
    exact whole_nil _
  case openClip =>
    cases hi
    refine ⟨_, ?_, fun _ => rfl⟩
    dsimp only
    refine read_then (take2_word2 _ _) ?_
    refine read_then (takeOpt_text_last fun _ ht => by subst ht; exact hw) ?_
    exact whole_nil _
  case closeClip =>
    cases hi
    refine ⟨_, ?_, fun _ => rfl⟩
    dsimp only
    refine read_then (take4_last _) ?_
    exact whole_nil _
  case releaseClip =>
    cases hi
    refine ⟨_, ?_, fun _ => rfl⟩
    dsimp only
    refine read_then (take4_last _) ?_
    exact whole_nil _
  case addLabel =>
    cases hi
    refine ⟨_, ?_, fun _ => rfl⟩
    dsimp only
    refine read_then (take1_cons _ _) ?_
    refine read_then (takeOpt_word4 _ _) ?_
    refine read_then (takeText_textField _ hw) ?_
    refine read_then (takeOpt_word4_last _) ?_
    exact whole_nil _
  case setTrigger =>
    cases hi
    refine ⟨_, ?_, fun _ => rfl⟩
    dsimp only
    refine read_then (take1_cons _ _) ?_
    refine read_then (take1_cons _ _) ?_
    refine read_then (take1_cons _ _) ?_
    refine read_then (take4_word4 _ _) ?_
    refine read_then (take4_word4 _ _) ?_
    refine read_then (takeAction_actionField _ _) ?_
    refine read_then (take1_cons _ _) ?_
    exact whole_nil _
  case readClip =>
    cases hi
    refine ⟨_, ?_, fun _ => rfl⟩
    dsimp only
    refine read_then (take4_last _) ?_
    exact whole_nil _
  case readLabels =>
    cases hi
    refine ⟨_, ?_, fun _ => rfl⟩
    dsimp only
    refine read_then (take4_word4 _ _) ?_
    refine read_then (take1_cons _ _) ?_
    exact whole_nil _
  case setRights =>
    cases hi
    refine ⟨_, ?_, fun _ => rfl⟩
    dsimp only
    refine read_then (take1_cons _ _) ?_
    refine read_then (take2_word2 _ _) ?_
    refine read_then (take2_last _) ?_
    exact whole_nil _
  case setNoticeMask =>
    cases hi
    refine ⟨_, ?_, fun _ => rfl⟩
    dsimp only
    refine read_then (take4_last _) ?_
    exact whole_nil _
  all_goals cases hi
  all_goals
    refine ⟨_, ?_, fun _ => rfl⟩
    dsimp only
    exact whole_nil _

/-- Settles O4: the arguments of a command read back as they were spelled. -/
theorem recordsSpellCommands : Obligations.RecordsSpellCommands := by
  intro i H s hw hi
  obtain ⟨f, hparse, hexec⟩ := parseCommand_arguments hw hi
  rw [runRecord, hparse]
  exact hexec s

end Sys2Proof.Machine
end

section
/-! Proofs: the mapping of fragments to members (R100). -/

namespace Sys2Proof.Machine

-- In order, so that the package in one text stays within the memory of its check.
set_option Elab.async false

/-- Reading from a position on is a rotation. -/
theorem rotateFrom_mod {α : Type} (n : Nat) (xs : List α) : rotateFrom (n % xs.length) xs = xs.rotate n :=
  List.rotate_eq_drop_append_take_mod.symm

/-- The first entry of a rotation that passes a test, by its place. -/
theorem find?_rotate {α : Type} {xs : List α} {n i : Nat} {p : α} {test : α → Bool} (hi : i < xs.length)
    (hp : xs[(n + i) % xs.length]? = some p) (ht : test p = true)
    (hfirst : ∀ j, j < i → ∀ q, xs[(n + j) % xs.length]? = some q → ¬ test q = true) :
    (xs.rotate n).find? test = some p := by
  have hat : ∀ j, j < xs.length → (xs.rotate n)[j]? = xs[(n + j) % xs.length]? := by
    intro j hj
    rw [List.getElem?_rotate hj, Nat.add_comm]
  have hlen : i < (xs.rotate n).length := by rwa [List.length_rotate]
  rw [List.find?_eq_some_iff_getElem]
  refine ⟨ht, i, hlen, ?_, fun j hj => ?_⟩
  · exact Option.some_inj.mp (by rw [← List.getElem?_eq_getElem, hat i hi, hp])
  · have hq := hat j (by omega)
    rw [List.getElem?_eq_getElem (by omega)] at hq
    simpa using hfirst j hj _ hq.symm

section
variable (x : Paths)

theorem Paths.mapTo_eq (k : Fin 16) (u : Word) (f : Nat) :
    x.mapTo k u f = (((x.members k).rotate (u.toNat + f)).find? fun p => x.memberUp p).map x.pathOf := by
  rw [Paths.mapTo, rotateFrom_mod]

theorem Paths.maskOf_eq (k : Fin 16) :
    x.maskOf k = ((x.directed.find? fun d => d.1 = k).map Prod.snd).getD x.spread := by
  unfold Paths.maskOf
  cases x.directed.find? fun d => d.1 = k <;> rfl

theorem Paths.isUp_iff (p : Fin 8) : x.isUp p = true ↔ (x.path[p]).state = .up := beq_iff_eq

/-- A member of a list stands alone or at the even path of its pair. -/
theorem Paths.members_even {k : Fin 16} {p : Fin 8} (hp : p ∈ x.members k) (hb : x.bonded p = true) : p.val % 2 = 0 := by
  have hm := (List.mem_filter.mp hp).2
  simpa [hb] using (Bool.and_eq_true_iff.mp hm).2

theorem evenOf_of_even {p : Fin 8} (hp : p.val % 2 = 0) : evenOf p = p := Fin.ext (by simp only [evenOf]; omega)

theorem oddOf_of_even {p : Fin 8} (hp : p.val % 2 = 0) : oddOf p = ⟨(p.val + 1) % 8, by omega⟩ :=
  Fin.ext (by simp only [oddOf]; omega)

end

/-- Settles O34: the first usable member of the rotated list, and then the pair's turn. -/
theorem fragmentsMapToMembers : Obligations.FragmentsMapToMembers := by
  intro x k u f mask bond odd list up usable
  have hlist : x.members k = list := by
    rw [Paths.members, Paths.maskOf_eq]
    rfl
  have hodd : ∀ p ∈ list, x.bonded p = true → evenOf p = p ∧ oddOf p = odd p := by
    intro p hp hb
    have heven := x.members_even (hlist ▸ hp) hb
    exact ⟨evenOf_of_even heven, oddOf_of_even heven⟩
  have husable : ∀ p ∈ list, x.memberUp p = true ↔ usable p := by
    intro p hp
    rw [Paths.memberUp]
    cases hb : x.bonded p with
    | false =>
      have hbond : (bond p).inForce = false := hb
      simp [usable, hbond, x.isUp_iff, up]
    | true =>
      have hbond : (bond p).inForce = true := hb
      obtain ⟨he, ho⟩ := hodd p hp hb
      simp [usable, hbond, he, ho, x.isUp_iff, up]
  rw [Paths.mapTo_eq, hlist]
  refine ⟨fun hnone => ?_, fun i p hi hp hup hfirst => ?_⟩
  · rw [List.find?_eq_none.mpr]
    · rfl
    · intro p hp
      have hmem := List.mem_rotate.mp hp
      exact fun hu => hnone p hmem ((husable p hmem).mp hu)
  · have hmem : p ∈ list := List.mem_of_getElem? hp
    have hfind := find?_rotate (test := fun p => x.memberUp p) hi hp ((husable p hmem).mpr hup) fun j hj q hq hu =>
      hfirst j hj q hq ((husable q (List.mem_of_getElem? hq)).mp hu)
    rw [hfind, Option.map_some, Paths.pathOf]
    refine ⟨fun hb => ?_, fun hb => ?_⟩
    · have hbonded : x.bonded p = false := hb
      rw [hbonded]
      rfl
    · have hbonded : x.bonded p = true := hb
      obtain ⟨he, ho⟩ := hodd p hmem hbonded
      rw [if_pos hbonded, he, ho]
      refine ⟨fun h0 h1 => ?_, fun h0 h1 => ?_, fun h0 => ?_⟩
      · rw [(x.isUp_iff _).mpr h0, (x.isUp_iff _).mpr h1]
        rfl
      · rw [(x.isUp_iff _).mpr h0, Bool.eq_false_iff.mpr fun hu => h1 ((x.isUp_iff _).mp hu)]
        rfl
      · rw [Bool.eq_false_iff.mpr fun hu => h0 ((x.isUp_iff _).mp hu)]
        rfl

end Sys2Proof.Machine
end

section
/-! Proofs: the take-up (R36, R37, R42, R43, R101).  The ring passes units one by one; what the passing of a list of units
leaves is `Hub.Passed`, by induction on the list. -/

namespace Sys2Proof.Machine

-- In order, so that the package in one text stays within the memory of its check.
set_option Elab.async false

/-! ### What is passed (R37, R101) -/

section
variable (h : Hub) (r : Fin 17)

theorem Hub.tail_ringG :
    h.tail 16 = (((h.ring 16).index.head?).map fun x => x.g.getD 0).getD (h.ring 16).head := by
  unfold Hub.tail
  cases (h.ring 16).index <;> rfl

theorem Hub.passedOver_iff (k : Fin 16) (n : Word) : h.passedOver k n = true ↔ h.PassesOver k n := by
  rw [Hub.PassesOver, ← Hub.tail_ringG, Hub.passedOver, Bool.or_eq_true, decide_eq_true_iff, Stream.holding,
    Bool.or_eq_true, Bool.and_eq_true, beq_iff_eq, beq_iff_eq, or_assoc]
  exact Iff.rfl

/-- R37: ring r passes an entry as skipped. -/
def Hub.skipsEntry (z : Entry) : Bool := decide (r = 16) && h.passedOver z.stream (z.key r)

/-- R101: ring r reads an entry. -/
def Hub.readsEntry (z : Entry) : Bool := !z.flags.damaged && !h.skipsEntry r z

theorem Hub.skipsEntry_iff (z : Entry) : h.skipsEntry r z = true ↔ r = 16 ∧ h.PassesOver z.stream (z.g.getD 0) := by
  rw [Hub.skipsEntry, Bool.and_eq_true, decide_eq_true_iff, Hub.passedOver_iff]
  exact and_congr_right fun hr => by rw [Entry.key, if_pos hr]

theorem Hub.readsEntry_iff (z : Entry) :
    h.readsEntry r z = true ↔ z.flags.damaged = false ∧ ¬ (r = 16 ∧ h.PassesOver z.stream (z.g.getD 0)) := by
  rw [Hub.readsEntry, Bool.and_eq_true, Bool.not_eq_true', Bool.not_eq_true', ← Bool.not_eq_true (h.skipsEntry r z),
    Hub.skipsEntry_iff]

end

/-- An entry with the flag DAMAGED set when it is one of those read. -/
def Entry.flagIn (reads : List Entry) (x : Entry) : Entry :=
  if x ∈ reads then { x with flags := { x.flags with damaged := true } } else x

theorem Entry.flagIn_of_mem {reads : List Entry} {x : Entry} (hx : x ∈ reads) :
    x.flagIn reads = { x with flags := { x.flags with damaged := true } } := if_pos hx

theorem Entry.flagIn_of_not_mem {reads : List Entry} {x : Entry} (hx : x ∉ reads) : x.flagIn reads = x := if_neg hx

theorem Entry.flagIn_kept (reads : List Entry) (x : Entry) :
    (x.flagIn reads).stream = x.stream ∧ (x.flagIn reads).unit = x.unit ∧ (x.flagIn reads).g = x.g := by
  unfold Entry.flagIn
  split <;> exact ⟨rfl, rfl, rfl⟩

theorem Entry.flagIn_key (reads : List Entry) (x : Entry) (r : Fin 17) : (x.flagIn reads).key r = x.key r := by
  obtain ⟨-, hu, hg⟩ := x.flagIn_kept reads
  simp only [Entry.key, hu, hg]

/-- One more entry flagged, not flagged before. -/
theorem Entry.flagIn_snoc {reads : List Entry} {z : Entry} (hz : z.flags.damaged = false) (x : Entry) :
    (if x.flagIn reads = z then { x.flagIn reads with flags := { (x.flagIn reads).flags with damaged := true } }
      else x.flagIn reads) = x.flagIn (reads ++ [z]) := by
  by_cases hx : x ∈ reads
  · have hne : x.flagIn reads ≠ z := by
      rintro rfl
      rw [Entry.flagIn_of_mem hx] at hz
      exact absurd hz nofun
    rw [if_neg hne, Entry.flagIn_of_mem hx, Entry.flagIn_of_mem (List.mem_append_left _ hx)]
  · rw [Entry.flagIn_of_not_mem hx]
    by_cases hxz : x = z
    · rw [if_pos hxz, Entry.flagIn_of_mem (by rw [hxz]; exact List.mem_append_right _ (List.mem_singleton_self _))]
    · rw [if_neg hxz, Entry.flagIn_of_not_mem]
      simpa [List.mem_append, hx] using hxz

/-- What the passing of the units `zs` of ring r from its send pointer on makes of a hub, the reads among them having met
uncorrectable errors. -/
structure Hub.Passed (g h : Hub) (r : Fin 17) (zs : List Entry) : Prop where
  ring : h.ring r =
    { g.ring r with
      send := (g.ring r).send + BitVec.ofNat 32 zs.length
      corrected := (g.ring r).corrected + BitVec.ofNat 32
        ((List.range (zs.filter (g.readsEntry r)).length).map fun i => (g.env.ecc.getD i {}).corrected).sum
      damaged := (g.ring r).damaged + BitVec.ofNat 32 (zs.filter (g.readsEntry r)).length
      index := (g.ring r).index.map (Entry.flagIn (zs.filter (g.readsEntry r))) }
  passed : (h.paths.sends[r]).passedDamaged =
    (g.paths.sends[r]).passedDamaged + BitVec.ofNat 32 (zs.length - (zs.filter (g.skipsEntry r)).length)
  first : zs = [] → (h.paths.sends[r]).taken = (g.paths.sends[r]).taken
  taken : zs ≠ [] → (h.paths.sends[r]).taken = none
  stream : ∀ k, h.stream k = { g.stream k with
    skipped := (g.stream k).skipped + BitVec.ofNat 32 ((zs.filter (g.skipsEntry r)).filter fun z => z.stream == k).length }
  others : ∀ q, q ≠ r → h.ring q = g.ring q ∧ h.paths.sends[q] = g.paths.sends[q]
  log : h.log = { g.log with
    clips := g.log.clips.map fun clip =>
      if (zs.filter (g.readsEntry r)).any fun z => g.retains clip z.stream z.unit then { clip with damaged := true }
      else clip }
  told : zs.filter (g.readsEntry r) ≠ [] → ∀ p : Fin 4, (h.notices[p]).summary.getLsbD 8 = true
  quiet : zs.filter (g.readsEntry r) = [] → h.notices = g.notices
  faults : h.env.ecc = g.env.ecc.drop (zs.filter (g.readsEntry r)).length
  only : Hub.OnlyChanges [.streams, .rings, .sending, .log, .notices] g h

theorem Hub.Passed.nil (g : Hub) (r : Fin 17) : g.Passed g r [] where
  ring := by
    have hmap : (g.ring r).index.map (Entry.flagIn []) = (g.ring r).index := by
      refine (List.map_congr_left fun x _ => ?_).trans (List.map_id _)
      exact Entry.flagIn_of_not_mem List.not_mem_nil
    simp [hmap]
  passed := by simp
  first _ := rfl
  taken h := absurd rfl h
  stream k := by simp
  others q _ := ⟨rfl, rfl⟩
  log := by simp
  told h := absurd rfl h
  quiet _ := rfl
  faults := (List.drop_zero ..).symm
  only := .refl _ g

/-! ### One unit passed -/

section
variable (h : Hub) (r : Fin 17)

theorem Hub.moveSend_context (w : Word) :
    (h.moveSend r w).paths.sends[r] = { h.paths.sends[r] with taken := none } := by
  unfold Hub.moveSend
  simp

theorem Hub.calmDeficits_kept : (h.calmDeficits r).log = h.log ∧ (h.calmDeficits r).notices = h.notices ∧
    (h.calmDeficits r).env = h.env := by
  unfold Hub.calmDeficits
  split <;> exact ⟨rfl, rfl, rfl⟩

/-- What an advance leaves. -/
theorem Hub.advance_kept : (h.advance r).log = h.log ∧ (h.advance r).notices = h.notices ∧ (h.advance r).env = h.env :=
  Hub.calmDeficits_kept _ r

end
theorem add_ofNat_succ (a : Word) (n : Nat) : a + BitVec.ofNat 32 (n + 1) = a + BitVec.ofNat 32 n + 1 := by
  rw [BitVec.ofNat_add, BitVec.add_assoc]
  rfl

section
variable {g h : Hub} {r : Fin 17} {zs : List Entry} {z : Entry}

theorem Hub.advance_self : (h.advance r).ring r = { h.ring r with send := (h.ring r).send + 1 } := Hub.moveSend_self _ _ _

theorem Hub.advance_ne {q : Fin 17} (hq : q ≠ r) : (h.advance r).ring q = h.ring q := Hub.moveSend_ne _ _ hq

theorem Hub.advance_context : (h.advance r).paths.sends[r] = { h.paths.sends[r] with taken := none } :=
  Hub.moveSend_context _ _ _

theorem Hub.advance_context_ne {q : Fin 17} (hq : q ≠ r) : (h.advance r).paths.sends[q] = h.paths.sends[q] :=
  Hub.moveSend_sends_ne _ hq _

theorem Hub.advance_stream (k : Fin 16) : (h.advance r).stream k = h.stream k := Hub.moveSend_stream _ _ _ _

theorem Hub.advance_only : Hub.OnlyChanges [.streams, .rings, .sending, .log, .notices] h (h.advance r) :=
  (h.moveSend_only r _).mono (by decide)

/-- What the passing of one unit without a read adds: t is the hub h with its send pointer advanced, after a count. -/
structure Hub.PassedUnread (h t : Hub) (r : Fin 17) (skip : Bool) (k : Fin 16) : Prop where
  ring : t.ring r = { h.ring r with send := (h.ring r).send + 1 }
  passed : (t.paths.sends[r]).passedDamaged = (h.paths.sends[r]).passedDamaged + (if skip then 0 else 1)
  taken : (t.paths.sends[r]).taken = none
  stream : ∀ j, t.stream j = { h.stream j with skipped := (h.stream j).skipped + (if skip && k == j then 1 else 0) }
  others : ∀ q, q ≠ r → t.ring q = h.ring q ∧ t.paths.sends[q] = h.paths.sends[q]
  log : t.log = h.log
  notices : t.notices = h.notices
  env : t.env = h.env
  only : Hub.OnlyChanges [.streams, .rings, .sending, .log, .notices] h t

theorem Hub.passUnit_passed (k : Fin 16) : h.PassedUnread (h.passUnit r k) r true k := by
  obtain ⟨hlog, hnotices, henv⟩ := Hub.advance_kept (h.modStream k fun st => { st with skipped := st.skipped + 1 }) r
  refine ⟨Hub.advance_self, ?_, ?_, fun j => ?_, fun q hq => ⟨Hub.advance_ne hq, Hub.advance_context_ne hq⟩, hlog, hnotices,
    henv, ((h.modStream_only _ _).mono (by decide)).trans Hub.advance_only⟩
  · rw [Hub.passUnit, Hub.advance_context]
    exact (BitVec.add_zero _).symm
  · rw [Hub.passUnit, Hub.advance_context]
  · rw [Hub.passUnit, Hub.advance_stream]
    by_cases hj : j = k
    · subst hj
      rw [Hub.modStream_self]
      simp
    · rw [Hub.modStream_ne _ _ hj]
      simp [Ne.symm hj]

theorem Hub.passDamaged_passed (k : Fin 16) : h.PassedUnread (h.passDamaged r) r false k := by
  obtain ⟨hlog, hnotices, henv⟩ :=
    Hub.advance_kept (h.modSend r fun c => { c with passedDamaged := c.passedDamaged + 1 }) r
  refine ⟨Hub.advance_self, ?_, ?_, fun j => ?_, fun q hq => ⟨Hub.advance_ne hq, ?_⟩, hlog, hnotices,
    henv, ((h.modSend_only _ _).mono (by decide)).trans Hub.advance_only⟩
  · rw [Hub.passDamaged, Hub.advance_context, Hub.modSend_self]
    rfl
  · rw [Hub.passDamaged, Hub.advance_context]
  · rw [Hub.passDamaged, Hub.advance_stream]
    simp
  · rw [Hub.passDamaged, Hub.advance_context_ne hq, Hub.modSend_ne _ _ hq]

theorem Hub.Passed.unread (hp : g.Passed h r zs) (hz : g.readsEntry r z = false) {t : Hub}
    (ht : h.PassedUnread t r (g.skipsEntry r z) z.stream) : g.Passed t r (zs ++ [z]) := by
  have hreads : (zs ++ [z]).filter (g.readsEntry r) = zs.filter (g.readsEntry r) := by
    simp [List.filter_append, hz]
  have hle : (zs.filter (g.skipsEntry r)).length ≤ zs.length := List.length_filter_le _ _
  have hne : zs ++ [z] ≠ [] := by simp
  constructor
  case ring =>
    rw [hreads, List.length_append, ht.ring, hp.ring, List.length_singleton, add_ofNat_succ]
  case passed =>
    rw [ht.passed, hp.passed, List.filter_append, List.length_append, List.length_append]
    cases hs : g.skipsEntry r z
    · have hcount : zs.length + 1 - (zs.filter (g.skipsEntry r)).length =
          zs.length - (zs.filter (g.skipsEntry r)).length + 1 := by omega
      simp only [List.filter_cons, hs, List.filter_nil, List.length_nil, List.length_singleton, Nat.add_zero, hcount,
        add_ofNat_succ, Bool.false_eq_true, if_false]
    · simp [hs]
  case first => exact fun hc => absurd hc hne
  case taken => exact fun _ => ht.taken
  case stream =>
    intro k
    rw [ht.stream, hp.stream, List.filter_append, List.filter_append, List.length_append]
    cases hs : g.skipsEntry r z
    · simp [hs]
    · by_cases hk : z.stream = k
      · simp [hs, hk, BitVec.ofNat_add, BitVec.add_assoc]
      · simp [hs, hk]
  case others => exact fun q hq => ⟨(ht.others q hq).1.trans (hp.others q hq).1, (ht.others q hq).2.trans (hp.others q hq).2⟩
  case log => rw [hreads]; exact ht.log.trans hp.log
  case told =>
    rw [hreads, ht.notices]
    exact hp.told
  case quiet =>
    rw [hreads]
    exact fun hr => ht.notices.trans (hp.quiet hr)
  case faults => rw [hreads, ht.env, hp.faults]
  case only => exact hp.only.trans ht.only

/-! ### One unit read and passed -/

/-- Retention follows the heads, the bindings and the numbers of the entries. -/
theorem Hub.retains_map {g h : Hub} {f : Entry → Entry} (hs : ∀ k, (h.stream k).global = (g.stream k).global)
    (hh : ∀ r, (h.ring r).head = (g.ring r).head)
    (hi : ∀ r, (h.ring r).index = (g.ring r).index ∨ (h.ring r).index = (g.ring r).index.map f)
    (hf : ∀ e, (f e).stream = e.stream ∧ (f e).unit = e.unit ∧ (f e).g = e.g) (c : Clip) (k : Fin 16) (u : Word) :
    h.retains c k u = g.retains c k u :=
  Hub.retains_congr (hh _) (Hub.unitBase_map hs hh hi hf k) c u

theorem Hub.countCorrected_retains (f : ReadFault) (c : Clip) (k : Fin 16) (u : Word) :
    (h.countCorrected r f).retains c k u = h.retains c k u := by
  refine Hub.retains_map (g := h) (h := h.countCorrected r f) (f := id) (fun _ => rfl) (fun q => ?_) (fun q => .inl ?_)
    (fun _ => ⟨rfl, rfl, rfl⟩) c k u
  all_goals
    by_cases hq : q = r
    · rw [hq, Hub.countCorrected_self]
    · rw [Hub.countCorrected_ne _ _ _ hq]

theorem Hub.Passed.retains (hp : g.Passed h r zs) (c : Clip) (k : Fin 16) (u : Word) : h.retains c k u = g.retains c k u := by
  refine Hub.retains_map (f := Entry.flagIn (zs.filter (g.readsEntry r))) (fun j => ?_) (fun q => ?_) (fun q => ?_)
    (Entry.flagIn_kept _) c k u
  · rw [hp.stream]
  · by_cases hq : q = r
    · rw [hq, hp.ring]
    · rw [(hp.others q hq).1]
  · by_cases hq : q = r
    · rw [hq, hp.ring]
      exact .inr rfl
    · rw [(hp.others q hq).1]
      exact .inl rfl

/-- The mark DAMAGED of a clip does not enter what it retains. -/
theorem Hub.retains_marked (g : Hub) (b : Bool) (c : Clip) (k : Fin 16) (u : Word) :
    g.retains (if b then { c with damaged := true } else c) k u = g.retains c k u := by
  cases b <;> rfl

/-- A read that meets an uncorrectable error, and the passing of the unit. -/
def Hub.readPassed (h : Hub) (r : Fin 17) (z : Entry) (f : ReadFault) : Hub :=
  (((h.countCorrected r f).damage r z).dropFault).passDamaged r

/-- The next read meets what the outside world lists after the reads so far. -/
theorem Hub.Passed.nextFault (hp : g.Passed h r zs) :
    h.nextFault = g.env.ecc.getD (zs.filter (g.readsEntry r)).length {} := by
  rw [Hub.nextFault, hp.faults, List.headD_eq_head?_getD, List.head?_drop, List.getD_eq_getElem?_getD]

theorem Hub.Passed.read (hp : g.Passed h r zs) (hz : g.readsEntry r z = true) :
    g.Passed (h.readPassed r z h.nextFault) r (zs ++ [z]) := by
  have hreads : (zs ++ [z]).filter (g.readsEntry r) = zs.filter (g.readsEntry r) ++ [z] := by
    simp [List.filter_append, hz]
  have hskip : g.skipsEntry r z = false := by
    rw [Hub.readsEntry, Bool.and_eq_true, Bool.not_eq_true', Bool.not_eq_true'] at hz
    exact hz.2
  have hflag : z.flags.damaged = false := by
    rw [Hub.readsEntry, Bool.and_eq_true, Bool.not_eq_true'] at hz
    exact hz.1
  have hskips : (zs ++ [z]).filter (g.skipsEntry r) = zs.filter (g.skipsEntry r) := by
    simp [List.filter_append, hskip]
  have hle : (zs.filter (g.skipsEntry r)).length ≤ zs.length := List.length_filter_le _ _
  have hne : zs ++ [z] ≠ [] := by simp
  have hnext := hp.nextFault
  have ht := Hub.passDamaged_passed (h := ((h.countCorrected r h.nextFault).damage r z).dropFault) (r := r) z.stream
  constructor
  case ring =>
    rw [hreads, List.length_append, List.length_append, Hub.readPassed, ht.ring, Hub.dropFault_ring, Hub.damage_self,
      Hub.countCorrected_self, hp.ring, Ring.flag, hnext]
    simp only [List.length_singleton, add_ofNat_succ _ zs.length, add_ofNat_succ _ (zs.filter _).length, List.map_map,
      List.range_succ, List.map_append, List.sum_append, List.map_singleton, List.sum_singleton]
    congr 1
    · exact List.map_congr_left fun x _ => Entry.flagIn_snoc hflag x
    · rw [BitVec.ofNat_add, BitVec.add_assoc]
  case passed =>
    have hcount : zs.length + 1 - (zs.filter (g.skipsEntry r)).length =
        zs.length - (zs.filter (g.skipsEntry r)).length + 1 := by omega
    rw [hskips, List.length_append, Hub.readPassed, ht.passed, List.length_singleton, hcount, add_ofNat_succ,
      ← hp.passed]
    rfl
  case first => exact fun hc => absurd hc hne
  case taken => exact fun _ => ht.taken
  case stream =>
    intro k
    rw [hskips, Hub.readPassed, ht.stream, ← hp.stream k]
    exact congrArg (fun n => { h.stream k with skipped := n }) (BitVec.add_zero _)
  case others =>
    intro q hq
    refine ⟨(ht.others q hq).1.trans ?_, (ht.others q hq).2.trans (hp.others q hq).2⟩
    rw [Hub.dropFault_ring, Hub.damage_ne _ _ _ hq, Hub.countCorrected_ne _ _ _ hq, (hp.others q hq).1]
  case log =>
    have hmark : ∀ c, (h.countCorrected r h.nextFault).retains c z.stream z.unit = g.retains c z.stream z.unit := fun c =>
      (Hub.countCorrected_retains _ c _ _).trans (hp.retains c _ _)
    rw [hreads, Hub.readPassed, ht.log, Hub.dropFault_log, Hub.damage_log]
    simp only [hmark]
    rw [show (h.countCorrected r h.nextFault).log = h.log from rfl, hp.log]
    simp only [List.map_map, List.any_append, List.any_cons, List.any_nil, Bool.or_false]
    congr 1
    refine List.map_congr_left fun c _ => ?_
    rw [Function.comp_apply, Hub.retains_marked]
    cases (zs.filter (g.readsEntry r)).any fun x => g.retains c x.stream x.unit
    · rfl
    · cases g.retains c z.stream z.unit <;> rfl
  case told =>
    intro _ p
    rw [Hub.readPassed, ht.notices]
    exact Hub.notify_summary _ (k := .memoryError) _ (p := p) rfl
  case quiet => exact fun hr => absurd (hreads.symm.trans hr) (by simp)
  case faults =>
    rw [hreads, List.length_append, List.length_singleton, Hub.readPassed, ht.env, ← List.drop_drop, ← hp.faults]
    rfl
  case only =>
    exact hp.only.trans ((((Hub.countCorrected_only _ _ _).mono (by decide)).trans
      (((Hub.damage_only _ _ _).mono (by decide)).trans ((Hub.dropFault_only _).mono (by decide)))).trans ht.only)

end

/-! ### A list of units passed -/

/-- Ring r of a hub is about to pass the units `zs` from its send pointer on. -/
structure Hub.WillPass (g : Hub) (r : Fin 17) (zs : List Entry) : Prop where
  backlogged : g.backlogged r = true
  acts : ∀ e, g.atSend r = some e → g.actsOn r e = true
  within : zs.length ≤ ((g.ring r).head - (g.ring r).send).toNat
  found : ∀ i z, zs[i]? = some z →
    (g.ring r).index.find? (fun x => x.key r = (g.ring r).send + BitVec.ofNat 32 i) = some z
  errors : ∀ i, i < (zs.filter (g.readsEntry r)).length → (g.env.ecc.getD i {}).uncorrectable = true

theorem add_ofNat_eq_iff {a b : Word} {n : Nat} (hn : n < 2 ^ 32) : a + BitVec.ofNat 32 n = b ↔ n = (b - a).toNat := by
  bv_omega

section
variable {g h : Hub} {r : Fin 17} {zs : List Entry} {z : Entry}

theorem Hub.WillPass.init (hw : g.WillPass r (zs ++ [z])) : g.WillPass r zs where
  backlogged := hw.backlogged
  acts := hw.acts
  within := by
    have := hw.within
    rw [List.length_append] at this
    omega
  found i y hi := hw.found i y (by
    have hlt : i < zs.length := (List.getElem?_eq_some_iff.mp hi).1
    rw [List.getElem?_append_left hlt, hi])
  errors i hi := hw.errors i (by
    rw [List.filter_append, List.length_append]
    omega)

theorem Hub.key_of_found {i : Nat} {y : Entry}
    (hf : (g.ring r).index.find? (fun x => x.key r = (g.ring r).send + BitVec.ofNat 32 i) = some y) :
    y.key r = (g.ring r).send + BitVec.ofNat 32 i := by
  simpa using List.find?_some hf

/-- The entry found after a list of units is none of them. -/
theorem Hub.WillPass.not_mem (hw : g.WillPass r zs) {y : Entry} (hlt : zs.length < 2 ^ 32)
    (hf : (g.ring r).index.find? (fun x => x.key r = (g.ring r).send + BitVec.ofNat 32 zs.length) = some y) : y ∉ zs := by
  intro hy
  obtain ⟨i, hi, hget⟩ := List.mem_iff_getElem.mp hy
  have hkey := Hub.key_of_found (hw.found i y (by rw [List.getElem?_eq_getElem hi, hget]))
  rw [Hub.key_of_found hf] at hkey
  have heq : BitVec.ofNat 32 zs.length = BitVec.ofNat 32 i := (BitVec.add_right_inj _).mp hkey
  have hnat := congrArg BitVec.toNat heq
  rw [BitVec.toNat_ofNat, BitVec.toNat_ofNat, Nat.mod_eq_of_lt hlt, Nat.mod_eq_of_lt (by omega)] at hnat
  omega

/-- The entry at the send pointer after the passing. -/
theorem Hub.Passed.atSend (hp : g.Passed h r zs) :
    h.atSend r = ((g.ring r).index.find? fun x => x.key r = (g.ring r).send + BitVec.ofNat 32 zs.length).map
      (Entry.flagIn (zs.filter (g.readsEntry r))) := by
  rw [Hub.atSend, hp.ring, List.find?_map]
  simp only [Function.comp_def, Entry.flagIn_key]

theorem Hub.Passed.atSend_found (hp : g.Passed h r zs) (hw : g.WillPass r zs) {y : Entry} (hlt : zs.length < 2 ^ 32)
    (hf : (g.ring r).index.find? (fun x => x.key r = (g.ring r).send + BitVec.ofNat 32 zs.length) = some y) :
    h.atSend r = some y := by
  rw [hp.atSend, hf, Option.map_some, Entry.flagIn_of_not_mem fun hm => hw.not_mem hlt hf (List.mem_of_mem_filter hm)]

theorem Hub.Passed.skipsEntry (hp : g.Passed h r zs) (y : Entry) : h.skipsEntry r y = g.skipsEntry r y := by
  have htail : h.tail 16 = g.tail 16 := by
    by_cases hq : (16 : Fin 17) = r
    · refine Hub.tail_map (f := Entry.flagIn (zs.filter (g.readsEntry r))) ?_ ?_ fun e => Entry.flagIn_key _ e _
      · rw [hq, hp.ring]
      · rw [hq, hp.ring]
    · unfold Hub.tail
      rw [(hp.others 16 hq).1]
  have hover : h.passedOver y.stream (y.key r) = g.passedOver y.stream (y.key r) := by
    unfold Hub.passedOver
    rw [htail, hp.stream]
    rfl
  rw [Hub.skipsEntry, Hub.skipsEntry, hover]

theorem Hub.Passed.backlogged (hp : g.Passed h r zs) (hb : g.backlogged r = true)
    (hle : zs.length ≤ ((g.ring r).head - (g.ring r).send).toNat) :
    h.backlogged r = decide (zs.length < ((g.ring r).head - (g.ring r).send).toNat) := by
  have hsend : (h.ring r).send = (h.ring r).head ↔ zs.length = ((g.ring r).head - (g.ring r).send).toNat := by
    rw [hp.ring]
    exact add_ofNat_eq_iff (lt_of_le_of_lt hle (BitVec.isLt _))
  have hrest : (if hr : r.val < 16 then !(h.stream ⟨r.val, hr⟩).holding else true) = true := by
    rw [Hub.backlogged, Bool.and_eq_true] at hb
    rw [← hb.2]
    split
    · rw [hp.stream]
      rfl
    · rfl
  rw [Hub.backlogged, hrest, Bool.and_true, Bool.eq_iff_iff, bne_iff_ne, decide_eq_true_iff, Ne, hsend]
  omega

/-- The ring acts on the entry at its send pointer. -/
theorem Hub.Passed.actsOn (hp : g.Passed h r zs) (hw : g.WillPass r zs) {y : Entry} (hlt : zs.length < 2 ^ 32)
    (hf : (g.ring r).index.find? (fun x => x.key r = (g.ring r).send + BitVec.ofNat 32 zs.length) = some y) :
    h.actsOn r y = true := by
  cases zs with
  | nil =>
    rw [Hub.actsOn, hp.first rfl]
    refine hw.acts y ?_
    simpa [Hub.atSend] using hf
  | cons x xs => rw [Hub.actsOn, hp.taken (by simp)]

/-- The branches of the take-up at an entry on which the ring acts. -/
theorem Hub.takeUp_succ {e : Entry} (hb : h.backlogged r = true) (he : h.atSend r = some e) (ha : h.actsOn r e = true)
    (n : Nat) :
    Hub.takeUp r (n + 1) h =
      if h.skipsEntry r e = true then Hub.takeUp r n (h.passUnit r e.stream)
      else if e.flags.damaged = true then Hub.takeUp r n (h.passDamaged r)
      else if h.nextFault.uncorrectable = true then
        Hub.takeUp r n (((h.meetErrors r e h.nextFault).dropFault).passDamaged r)
      else ((h.meetErrors r e h.nextFault).dropFault).hold r e := by
  have hskip : (r = 16 ∧ h.passedOver e.stream (e.key r) = true) ↔ h.skipsEntry r e = true := by
    rw [Hub.skipsEntry, Bool.and_eq_true, decide_eq_true_iff]
  rw [Hub.takeUp, if_pos hb, he]
  simp only [ha, Bool.true_eq_false, if_false, hskip]

/-- The ring passes the units one by one. -/
theorem Hub.takeUp_passes : ∀ zs, g.WillPass r zs →
    ∃ h, g.Passed h r zs ∧ ∀ n, Hub.takeUp r (zs.length + n) g = Hub.takeUp r n h := by
  intro zs
  induction zs using List.reverseRecOn with
  | nil => exact fun _ => ⟨g, .nil g r, fun n => by rw [List.length_nil, Nat.zero_add]⟩
  | append_singleton zs z ih =>
    intro hw
    obtain ⟨h, hp, hrun⟩ := ih hw.init
    have hwithin := hw.within
    rw [List.length_append, List.length_singleton] at hwithin
    have hlt : zs.length < 2 ^ 32 := lt_of_lt_of_le (Nat.lt_of_succ_le hwithin) (BitVec.isLt _).le
    have hf := hw.found zs.length z (by simp)
    have hat := hp.atSend_found hw.init hlt hf
    have hacts := hp.actsOn hw.init hlt hf
    have hback : h.backlogged r = true := by
      rw [hp.backlogged hw.backlogged hw.init.within]
      exact decide_eq_true hwithin
    have hstep : ∀ n, Hub.takeUp r ((zs ++ [z]).length + n) g = Hub.takeUp r (n + 1) h := by
      intro n
      rw [List.length_append, List.length_singleton, Nat.add_assoc, Nat.add_comm 1 n]
      exact hrun (n + 1)
    have hsucc := Hub.takeUp_succ hback hat hacts
    rw [hp.skipsEntry] at hsucc
    by_cases hs : g.skipsEntry r z = true
    · have hread : g.readsEntry r z = false := by simp [Hub.readsEntry, hs]
      refine ⟨h.passUnit r z.stream, hp.unread hread (hs ▸ Hub.passUnit_passed z.stream), fun n => ?_⟩
      rw [hstep, hsucc, if_pos hs]
    · by_cases hd : z.flags.damaged = true
      · have hread : g.readsEntry r z = false := by simp [Hub.readsEntry, hd]
        refine ⟨h.passDamaged r, hp.unread hread (Bool.eq_false_iff.mpr hs ▸ Hub.passDamaged_passed z.stream), fun n => ?_⟩
        rw [hstep, hsucc, if_neg hs, if_pos hd]
      · have hread : g.readsEntry r z = true := by simp [Hub.readsEntry, hs, hd]
        have hbad : h.nextFault.uncorrectable = true := by
          rw [hp.nextFault]
          refine hw.errors _ ?_
          simp [List.filter_append, hread]
        refine ⟨_, hp.read hread, fun n => ?_⟩
        rw [hstep, hsucc, if_neg hs, if_neg hd, if_pos hbad, Hub.meetErrors_damages _ _ _ _ hbad (Bool.eq_false_iff.mpr hd)]
        rfl

/-- Units found at consecutive numbers are different ones. -/
theorem Hub.found_nodup (hlen : zs.length ≤ ((g.ring r).head - (g.ring r).send).toNat)
    (hfound : ∀ i z, zs[i]? = some z →
      (g.ring r).index.find? (fun x => x.key r = (g.ring r).send + BitVec.ofNat 32 i) = some z) : zs.Nodup := by
  refine List.nodup_iff_injective_getElem.mpr fun i j hij => Fin.ext ?_
  have hi := Hub.key_of_found (hfound i zs[i] (List.getElem?_eq_getElem i.isLt))
  have hj := Hub.key_of_found (hfound j zs[j] (List.getElem?_eq_getElem j.isLt))
  have hlt : zs.length < 2 ^ 32 := lt_of_le_of_lt hlen (BitVec.isLt _)
  have heq : BitVec.ofNat 32 i = BitVec.ofNat 32 j :=
    (BitVec.add_right_inj _).mp (hi.symm.trans ((congrArg (fun z : Entry => z.key r) hij).trans hj))
  have hnat := congrArg BitVec.toNat heq
  rwa [BitVec.toNat_ofNat, BitVec.toNat_ofNat, Nat.mod_eq_of_lt (i.isLt.trans hlt), Nat.mod_eq_of_lt (j.isLt.trans hlt)] at hnat

theorem Hub.WillPass.nodup (hw : g.WillPass r zs) : zs.Nodup := Hub.found_nodup hw.within hw.found

/-- The units passed are entries of the ring. -/
theorem Hub.WillPass.length_le (hw : g.WillPass r zs) : zs.length ≤ (g.ring r).index.length := by
  refine (hw.nodup.subperm fun z hz => ?_).length_le
  obtain ⟨i, hi, hget⟩ := List.mem_iff_getElem.mp hz
  exact List.mem_of_find?_eq_some (hw.found i z (by rw [List.getElem?_eq_getElem hi, hget]))

/-- The take-up passes all units up to the head. -/
theorem Hub.takeUp_head (hw : g.WillPass r zs) (hd : zs.length = ((g.ring r).head - (g.ring r).send).toNat) :
    g.Passed (Hub.takeUp r ((g.ring r).index.length + 1) g) r zs := by
  obtain ⟨h, hp, hrun⟩ := Hub.takeUp_passes zs hw
  have hfuel : (g.ring r).index.length + 1 = zs.length + ((g.ring r).index.length + 1 - zs.length) := by
    have := hw.length_le
    omega
  have hidle : h.backlogged r = false := by
    rw [hp.backlogged hw.backlogged hw.within]
    exact decide_eq_false (by omega)
  rw [hfuel, hrun, Hub.takeUp_idle _ hidle]
  exact hp

/-- The take-up passes units and takes up the next. -/
theorem Hub.takeUp_unit (hw : g.WillPass r zs) (hd : zs.length < ((g.ring r).head - (g.ring r).send).toNat) {y : Entry}
    (hf : (g.ring r).index.find? (fun x => x.key r = (g.ring r).send + BitVec.ofNat 32 zs.length) = some y)
    (hs : g.skipsEntry r y = false) (hy : y.flags.damaged = false)
    (hc : (g.env.ecc.getD (zs.filter (g.readsEntry r)).length {}).uncorrectable = false) :
    ∃ h, g.Passed h r zs ∧ Hub.takeUp r ((g.ring r).index.length + 1) g =
      ((h.countCorrected r (g.env.ecc.getD (zs.filter (g.readsEntry r)).length {})).dropFault).hold r y := by
  obtain ⟨h, hp, hrun⟩ := Hub.takeUp_passes zs hw
  have hlt : zs.length < 2 ^ 32 := lt_trans hd (BitVec.isLt _)
  obtain ⟨n, hfuel⟩ : ∃ n, (g.ring r).index.length + 1 = zs.length + (n + 1) :=
    ⟨(g.ring r).index.length - zs.length, by have := hw.length_le; omega⟩
  have hback : h.backlogged r = true := by
    rw [hp.backlogged hw.backlogged hw.within]
    exact decide_eq_true hd
  refine ⟨h, hp, ?_⟩
  rw [hfuel, hrun, Hub.takeUp_succ hback (hp.atSend_found hw hlt hf) (hp.actsOn hw hlt hf), hp.skipsEntry, hp.nextFault, hs,
    hy, hc, Hub.meetErrors_calm _ _ _ _ (by rw [hc]; nofun)]
  rfl

end

/-- A sublist without repetition is the filter of its members. -/
theorem sublist_eq_filter {α : Type} [DecidableEq α] {xs ys : List α} {p : α → Bool} (hs : xs.Sublist ys) (hn : ys.Nodup)
    (hp : ∀ y ∈ ys, y ∈ xs ↔ p y = true) : xs = ys.filter p := by
  have hsub : xs.Sublist (ys.filter p) := by
    have hall : xs.filter p = xs := List.filter_eq_self.mpr fun x hx => (hp x (hs.subset hx)).mp hx
    exact hall ▸ hs.filter p
  refine hsub.eq_of_length_le ?_
  refine ((hn.filter p).subperm fun y hy => ?_).length_le
  obtain ⟨hm, hy⟩ := List.mem_filter.mp hy
  exact (hp y hm).mpr hy

section
variable {g : Hub} {r : Fin 17}

/-- A ring that holds a unit, not flagged before its first fragment, does not act. -/
theorem Hub.actsOn_holding (ht : (g.paths.sends[r]).taken ≠ none) (hf : ¬ ∃ x y, g.HoldsFlagged r x y) (e : Entry)
    (he : g.atSend r = some e) : g.actsOn r e = false := by
  obtain ⟨t, ht⟩ := Option.ne_none_iff_exists'.mp ht
  refine Bool.eq_false_iff.mpr fun ha => hf ⟨t, e, ht, ?_⟩
  rw [Hub.actsOn, ht, Bool.and_eq_true, beq_iff_eq] at ha
  exact ⟨ha.1, ha.2, he⟩

theorem Hub.actsOn_ready (ht : (g.paths.sends[r]).taken = none ∨ ∃ x y, g.HoldsFlagged r x y) (e : Entry)
    (he : g.atSend r = some e) : g.actsOn r e = true := by
  rcases ht with ht | ⟨x, y, ht, hnext, hflag, hfound⟩
  · rw [Hub.actsOn, ht]
  · obtain rfl : e = y := Option.some_inj.mp (he.symm.trans hfound)
    rw [Hub.actsOn, ht, hflag]
    simp [hnext]

end

/-- What the take-up reports of the units passed, with n reads. -/
def Hub.TellsPassed (g t : Hub) (r : Fin 17) (zs : List Entry) (n : Nat) : Prop :=
  t.ring r =
      { g.ring r with
        send := (g.ring r).send + BitVec.ofNat 32 zs.length
        corrected := (g.ring r).corrected +
          BitVec.ofNat 32 ((List.range n).map fun i => (g.env.ecc.getD i {}).corrected).sum
        damaged := (g.ring r).damaged + BitVec.ofNat 32 (zs.filter (g.readsEntry r)).length
        index := (g.ring r).index.map (Entry.flagIn (zs.filter (g.readsEntry r))) } ∧
    (∃ skips : List Entry, skips.Sublist zs ∧
      (∀ z ∈ zs, z ∈ skips ↔ r = 16 ∧ g.PassesOver z.stream (z.g.getD 0)) ∧
      (t.paths.sends[r]).passedDamaged = (g.paths.sends[r]).passedDamaged + BitVec.ofNat 32 (zs.length - skips.length) ∧
      ∀ k, t.stream k = { g.stream k with
        skipped := (g.stream k).skipped + BitVec.ofNat 32 (skips.filter fun z => z.stream == k).length }) ∧
    (∀ q, q ≠ r → t.ring q = g.ring q ∧ t.paths.sends[q] = g.paths.sends[q]) ∧
    t.log = { g.log with
      clips := g.log.clips.map fun clip =>
        if (zs.filter (g.readsEntry r)).any fun z => g.retains clip z.stream z.unit then { clip with damaged := true }
        else clip } ∧
    (zs.filter (g.readsEntry r) ≠ [] → ∀ p : Fin 4, (t.notices[p]).summary.getLsbD 8 = true) ∧
    (zs.filter (g.readsEntry r) = [] → t.notices = g.notices) ∧
    Hub.OnlyChanges [.streams, .rings, .sending, .log, .notices] g t

section
variable {g h : Hub} {r : Fin 17} {zs : List Entry}

theorem Hub.skips_of_filter {z : Entry} (hz : z ∈ zs) :
    z ∈ zs.filter (g.skipsEntry r) ↔ r = 16 ∧ g.PassesOver z.stream (z.g.getD 0) := by
  rw [List.mem_filter, Hub.skipsEntry_iff]
  exact and_iff_right hz

theorem Hub.Passed.tells (hp : g.Passed h r zs) : g.TellsPassed h r zs (zs.filter (g.readsEntry r)).length :=
  ⟨hp.ring, ⟨_, List.filter_sublist, fun _ hz => Hub.skips_of_filter hz, hp.passed, hp.stream⟩, hp.others, hp.log, hp.told,
    hp.quiet, hp.only⟩

/-- The unit read after the passing and held. -/
theorem Hub.Passed.held (hp : g.Passed h r zs) (y : Entry) :
    let f : ReadFault := g.env.ecc.getD (zs.filter (g.readsEntry r)).length {}
    let t := ((h.countCorrected r f).dropFault).hold r y
    g.TellsPassed t r zs ((zs.filter (g.readsEntry r)).length + 1) ∧
      (t.paths.sends[r]).taken =
        some { stream := y.stream, unit := y.unit, g := y.g, next := 0, serial := y.serial, flags := y.flags
               bytes := (g.ring r).readBytes g.store.mem y.start (64 + y.payload) } := by
  intro f t
  have hring : t.ring r = { h.ring r with corrected := (h.ring r).corrected + BitVec.ofNat 32 f.corrected } :=
    Hub.countCorrected_self ..
  have hsend : t.paths.sends[r] = { h.paths.sends[r] with
      taken := some { stream := y.stream, unit := y.unit, g := y.g, next := 0, serial := y.serial, flags := y.flags
                      bytes := ((h.countCorrected r f).dropFault).unitBytes r y } } := Hub.modSend_self _ _ _
  have hmem : h.store.mem = g.store.mem := (hp.only .memory (by decide)).symm
  refine ⟨⟨?_, ⟨_, List.filter_sublist, fun _ hz => Hub.skips_of_filter hz, ?_, hp.stream⟩, fun q hq => ⟨?_, ?_⟩, hp.log,
    hp.told, hp.quiet, ?_⟩, ?_⟩
  · rw [hring, hp.ring, List.range_succ, List.map_append, List.sum_append, List.map_singleton, List.sum_singleton,
      BitVec.ofNat_add, BitVec.add_assoc]
  · rw [hsend, ← hp.passed]
  · exact (Hub.countCorrected_ne _ _ _ hq).trans (hp.others q hq).1
  · exact (Hub.modSend_ne _ _ hq).trans (hp.others q hq).2
  · exact hp.only.trans (((Hub.countCorrected_only h r f).mono (by decide)).trans
      (((Hub.dropFault_only _).mono (by decide)).trans ((Hub.modSend_only _ r _).mono (by decide))))
  · rw [hsend, Hub.unitBytes, Hub.dropFault_ring, Hub.countCorrected_self, hp.ring, ← hmem]
    rfl

end

/-- Settles O35: the units `zs` are passed one by one, and then the head is reached or the next unit is taken up. -/
theorem takeUpReadsUnit : Obligations.TakeUpReadsUnit := by
  intro e r s hs g c ring flagged
  have hrun : exec (.unitTakeUp e r) s = s.became (Hub.takeUp r (ring.index.length + 1) (g.arrive e)) :=
    State.run_free hs fun h => Hub.takeUp r ((h.ring r).index.length + 1) (h.arrive e)
  refine ⟨fun hidle => ?_, fun zs reads hb ht => ?_⟩
  · refine hrun.trans (congrArg s.became ?_)
    rcases hidle with hb | ⟨htaken, hf⟩
    · exact Hub.takeUp_idle (g.arrive e) hb _
    · exact Hub.takeUp_holding (g.arrive e) (Hub.actsOn_holding (g := g) htaken hf) _
  · intro entryAt passes fault corrected hwithin hfound hsub hreads herrors passed
    have hnodup : zs.Nodup := Hub.found_nodup (g := g) hwithin hfound
    have hfilter : reads = zs.filter ((g.arrive e).readsEntry r) :=
      sublist_eq_filter hsub hnodup fun z hz => (hreads z hz).trans ((g.arrive e).readsEntry_iff r z).symm
    have hw : (g.arrive e).WillPass r zs := by
      refine ⟨hb, fun x hx => Hub.actsOn_ready (g := g) ht x hx, hwithin, hfound, fun i hi => herrors i ?_⟩
      rwa [hfilter]
    have htells : ∀ t n, (g.arrive e).TellsPassed t r zs n → passed { s with hub := t } n := by
      rintro t n ⟨hring, hskips, hothers, hlog, htold, hquiet, honly⟩
      rw [← hfilter] at hring hlog htold hquiet
      exact ⟨hring, hskips, hothers, hlog, htold, hquiet, ((g.arrive_only e).mono (by simp)).trans honly⟩
    refine ⟨fun hhead => exists_became hrun ?_, fun y hlt hy hpass hflag hcalm => exists_became hrun ?_⟩
    · have hp := Hub.takeUp_head hw hhead
      refine ⟨hp.taken ?_, ?_⟩
      · rintro rfl
        have hd : (0 : Nat) = (ring.head - ring.send).toNat := hhead
        have hne : ring.send ≠ ring.head := Hub.backlogged_send hb
        bv_omega
      · rw [hfilter]
        exact htells _ _ hp.tells
    · have hskip : (g.arrive e).skipsEntry r y = false :=
        Bool.eq_false_iff.mpr fun h => hpass (((g.arrive e).skipsEntry_iff r y).mp h)
      rw [hfilter] at hcalm ⊢
      obtain ⟨h, hp, heq⟩ := Hub.takeUp_unit hw hlt hy hskip hflag hcalm
      obtain ⟨hheld, htaken⟩ := hp.held y
      have hsame : Hub.takeUp r (ring.index.length + 1) (g.arrive e) = _ := heq
      rw [hsame]
      exact ⟨htells _ _ hheld, htaken⟩

end Sys2Proof.Machine
end

section
/-! Proofs: the arbiters (R36, R37, R101 to R106).  A placement first lets every ring pass and take up what it must
(`Hub.prepare`), looks for the first candidate of an order (`Hub.firstOf_least`), and places one fragment
(`Hub.place_placed`). -/

namespace Sys2Proof.Machine

-- In order, so that the package in one text stays within the memory of its check.
set_option Elab.async false

/-! ### Before the arbiter looks -/

section
variable {h : Hub} {r : Fin 17}

/-- A ring that is ready is left as it is. -/
theorem Hub.Ready.prepare (hr : h.Ready r) : Hub.prepare r h = h := by
  obtain ⟨hback, hflag, hpass⟩ := hr
  have htake : ∀ n, Hub.takeUp r n h = h := by
    cases hb : h.backlogged r
    · exact Hub.takeUp_idle h hb
    · exact Hub.takeUp_holding h (Hub.actsOn_holding (hback hb) fun ⟨x, y, hxy⟩ => hflag x y hxy)
  unfold Hub.prepare
  cases ht : (h.paths.sends[r]'r.2).taken with
  | none => exact htake _
  | some t =>
    have hnot : ¬ (r = 16 ∧ h.passedOver t.stream (t.g.getD 0) = true) := fun ⟨hg, ho⟩ =>
      hpass t hg ht ((h.passedOver_iff _ _).mp ho)
    dsimp only
    rw [if_neg hnot]
    exact htake _

theorem Hub.prepare_ready_foldl : ∀ (rs : List (Fin 17)), (∀ q ∈ rs, h.Ready q) →
    rs.foldl (fun g q => Hub.prepare q g) h = h
  | [], _ => rfl
  | q :: rs, hrs => by
    rw [List.foldl_cons, (hrs q List.mem_cons_self).prepare]
    exact Hub.prepare_ready_foldl rs fun x hx => hrs x (List.mem_cons_of_mem _ hx)

theorem Hub.TakenUp.prepareAll (hh : h.TakenUp) : h.forEach 17 Hub.prepare = h :=
  Hub.prepare_ready_foldl _ fun q _ => hh q

/-- The rings before ring r in a placement, and those after it. -/
theorem Hub.prepareAll_split (r : Fin 17) : ∃ xs ys : List (Fin 17), r ∉ xs ∧ (∀ x ∈ xs, x < r) ∧
    ∀ h : Hub, h.forEach 17 Hub.prepare =
      ys.foldl (fun g q => Hub.prepare q g) (Hub.prepare r (xs.foldl (fun g q => Hub.prepare q g) h)) := by
  obtain ⟨xs, ys, hxy⟩ := List.append_of_mem (List.mem_finRange r)
  have hsorted : (xs ++ r :: ys).Pairwise (· < ·) := hxy ▸ List.pairwise_lt_finRange 17
  have hlt : ∀ x ∈ xs, x < r := fun x hx => (List.pairwise_append.mp hsorted).2.2 x hx r List.mem_cons_self
  refine ⟨xs, ys, fun hr => absurd (hlt r hr) (lt_irrefl r), hlt, fun h => ?_⟩
  rw [Hub.forEach, hxy, List.foldl_append, List.foldl_cons]

/-- Two hubs whose rings before ring r are ready, and which ring r makes the same, go the same way. -/
theorem Hub.prepareAll_congr {g : Hub} (hh : ∀ q, q < r → h.Ready q) (hg : ∀ q, q < r → g.Ready q)
    (heq : Hub.prepare r h = Hub.prepare r g) : h.forEach 17 Hub.prepare = g.forEach 17 Hub.prepare := by
  obtain ⟨xs, ys, -, hlt, hsplit⟩ := Hub.prepareAll_split r
  rw [hsplit, hsplit, Hub.prepare_ready_foldl xs fun q hq => hh q (hlt q hq),
    Hub.prepare_ready_foldl xs fun q hq => hg q (hlt q hq), heq]

end

/-! ### Candidates and their order (R105, R106) -/

section
variable {h : Hub} {p : Fin 8} {r : Fin 17} {y : Taken} {flip : Bool}

theorem Hub.candidate_iff : h.candidate p r = some (y, flip) ↔ h.Supplies p r y flip := by
  unfold Hub.candidate Hub.Supplies
  constructor
  · intro hc
    split at hc
    · rename_i hb
      split at hc
      · cases hc
      · rename_i t ht
        split at hc
        · cases hc
        · rename_i m hm
          split at hc
          · rename_i hp
            cases hc
            exact ⟨hb, ht, hp ▸ hm⟩
          · cases hc
    · cases hc
  · rintro ⟨hb, ht, hm⟩
    rw [if_pos hb, ht]
    simp only [hm, if_true]

theorem classZero_iff (x : Taken) : classZero x.stream = true ↔ x.IsClass0 := by
  rw [classZero, Bool.and_eq_true, decide_eq_true_iff, decide_eq_true_iff]
  exact Iff.rfl

/-- The first entry of a list with an image is the one with the least key. -/
theorem findSome?_least {α β : Type} {f : α → Option β} {key : α → Nat} {a : α} {b : β} (hb : f a = some b) :
    ∀ l : List α, l.Pairwise (fun x y => key x < key y) → a ∈ l → (∀ x ∈ l, f x ≠ none → key a ≤ key x) →
      l.findSome? f = some b
  | [], _, ha, _ => absurd ha List.not_mem_nil
  | x :: xs, hsorted, ha, hleast => by
    rw [List.pairwise_cons] at hsorted
    rw [List.findSome?_cons]
    rcases List.mem_cons.mp ha with rfl | ha
    · rw [hb]
    · have hx : f x = none := by
        by_contra hne
        exact absurd (hsorted.1 a ha) (Nat.not_lt.mpr (hleast x List.mem_cons_self hne))
      rw [hx]
      exact findSome?_least hb xs hsorted.2 ha fun z hz => hleast z (List.mem_cons_of_mem _ hz)

theorem Hub.firstOf_eq_none {zero : Bool} {order : List (Fin 17)}
    (hno : ∀ q ∈ order, ∀ z f, h.Supplies p q z f → classZero z.stream ≠ zero) : h.firstOf p zero order = none := by
  refine List.findSome?_eq_none_iff.mpr fun q hq => ?_
  split
  · rfl
  · rename_i x hx
    exact if_neg (hno q hq x.1 x.2 (Hub.candidate_iff.mp hx))

/-- The candidate with the least key of an order that rises in the key. -/
theorem Hub.firstOf_least {zero : Bool} {order : List (Fin 17)} {key : Fin 17 → Nat}
    (hsorted : order.Pairwise fun a b => key a < key b) (hs : h.Supplies p r y flip) (hzero : classZero y.stream = zero)
    (hr : r ∈ order)
    (hleast : ∀ q ∈ order, ∀ z f, h.Supplies p q z f → classZero z.stream = zero → key r ≤ key q) :
    h.firstOf p zero order = some (r, y, flip) := by
  refine findSome?_least (a := r) ?_ order hsorted hr fun q hq hne => ?_
  · rw [Hub.candidate_iff.mpr hs]
    exact if_pos hzero
  · cases hc : h.candidate p q with
    | none => exact absurd (by rw [hc]) hne
    | some x =>
      rw [hc] at hne
      refine hleast q hq x.1 x.2 (Hub.candidate_iff.mp hc) ?_
      by_contra hx
      exact hne (if_neg hx)

end

/-! ### One placement (R102, R103) -/

section
variable (g h : Hub) (p : Fin 8) (r : Fin 17) (t : Taken) (flip : Bool)

theorem Path.put_fields (x : Path) (packet : Bytes) :
    (x.put packet).fifo = x.fifo ++ [packet] ∧ (x.put packet).seq = x.seq + 1 ∧
      (x.put packet).counts = { x.counts with placed := x.counts.placed + 1 } ∧ (x.put packet).state = x.state := by
  unfold Path.put
  obtain hs | hs := Path.startTransmission_cases
    { x with fifo := x.fifo ++ [packet], seq := x.seq + 1, counts := { x.counts with placed := x.counts.placed + 1 } }
  · rw [hs]
    exact ⟨rfl, rfl, rfl, rfl⟩
  · rw [hs]
    exact ⟨rfl, rfl, rfl, rfl⟩

/-- The last fragment counts the unit as sent, and marks a picture stream. -/
def Hub.countSent (h : Hub) (r : Fin 17) (k : Fin 16) : Hub :=
  let h := h.modSend r fun c => { c with sent := c.sent + 1 }
  if hk : k.val < 4 then { h with tally := { h.tally with sent := h.tally.sent.set k.val true hk } } else h

theorem Hub.unitSent_eq (k : Fin 16) : h.unitSent r k = (h.countSent r k).advance r := rfl

theorem Hub.countSent_store (k : Fin 16) : (h.countSent r k).store = h.store := by
  unfold Hub.countSent
  dsimp only
  split <;> rfl

theorem Hub.countSent_paths (k : Fin 16) :
    (h.countSent r k).paths = (h.modSend r fun c => { c with sent := c.sent + 1 }).paths := by
  unfold Hub.countSent
  dsimp only
  split <;> rfl

theorem Hub.countSent_tally (k : Fin 16) :
    (h.countSent r k).tally.entries = h.tally.entries ∧ (h.countSent r k).tally.flash = h.tally.flash ∧
      ∀ j : Fin 4, (h.countSent r k).tally.sent[j]'j.2 = (h.tally.sent[j]'j.2 || decide (k = pictureStream j)) := by
  unfold Hub.countSent
  dsimp only
  split
  · rename_i hk
    refine ⟨rfl, rfl, fun j => ?_⟩
    by_cases hj : k.val = j.val
    · have heq : k = pictureStream j := Fin.ext hj
      simp [heq, pictureStream]
    · have hne : k ≠ pictureStream j := fun he => hj (congrArg Fin.val he)
      simp [hj, hne]
  · rename_i hk
    refine ⟨rfl, rfl, fun j => ?_⟩
    have hne : k ≠ pictureStream j := fun he => hk (by rw [he]; exact j.isLt)
    simp [hne]

theorem Hub.countSent_only (k : Fin 16) : Hub.OnlyChanges [.sending, .tally] h (h.countSent r k) := by
  have hsend : Hub.OnlyChanges [.sending, .tally] h (h.modSend r fun c => { c with sent := c.sent + 1 }) :=
    (h.modSend_only r _).mono (by decide)
  unfold Hub.countSent
  dsimp only
  split
  · intro x hx
    have hsame := hsend x hx
    cases x <;> simp_all [Part.same]
  · exact hsend

theorem Hub.calmDeficits_idle (hb : h.backlogged r = true) : h.calmDeficits r = h := if_pos hb

theorem Hub.calmDeficits_calms (hb : h.backlogged r = false) : h.calmDeficits r =
    { h with paths := { h.paths with
      arbiters := Vector.ofFn
        fun p => { h.paths.arbiters[p]'p.2 with deficits := (h.paths.arbiters[p]'p.2).deficits.set r 0 } } } :=
  if_neg (by rw [hb]; nofun)

theorem Hub.calmDeficits_arbiter : (h.calmDeficits r).paths.arbiters[p]'p.2 =
    { h.paths.arbiters[p]'p.2 with
      deficits := if (h.calmDeficits r).backlogged r then (h.paths.arbiters[p]'p.2).deficits
        else (h.paths.arbiters[p]'p.2).deficits.set r 0 } := by
  cases hb : h.backlogged r
  · have hb' : (h.calmDeficits r).backlogged r = false := by
      rw [h.calmDeficits_calms r hb]
      exact hb
    rw [hb', h.calmDeficits_calms r hb]
    simp
  · rw [h.calmDeficits_idle r hb, hb]
    rfl

/-- An advance calms the deficits of a ring that stops being backlogged. -/
theorem Hub.advance_arbiter : (h.advance r).paths.arbiters[p]'p.2 =
    { h.paths.arbiters[p]'p.2 with
      deficits := if (h.advance r).backlogged r then (h.paths.arbiters[p]'p.2).deficits
        else (h.paths.arbiters[p]'p.2).deficits.set r 0 } := Hub.calmDeficits_arbiter _ p r

theorem Hub.advance_paths : (h.advance r).paths.path = h.paths.path ∧ (h.advance r).paths.bonds = h.paths.bonds ∧
    (h.advance r).tally = h.tally := by
  have ho := h.moveSend_only r ((h.ring r).send + 1)
  have hm : h.paths.spread = _ ∧ h.paths.directed = _ ∧ h.paths.bonds = (h.advance r).paths.bonds := ho .mapping (by decide)
  have hp : h.paths.path = (h.advance r).paths.path := ho .pathRecords (by decide)
  have ht : h.tally = (h.advance r).tally := ho .tally (by decide)
  exact ⟨hp.symm, hm.2.2.symm, ht.symm⟩

/-- What a packet put into a FIFO leaves. -/
theorem Hub.putPacket_kept :
    (h.putPacket p r t flip).store = h.store ∧ (h.putPacket p r t flip).tally = h.tally ∧
      (h.putPacket p r t flip).paths.arbiters = h.paths.arbiters ∧
      (h.putPacket p r t flip).paths.path = (h.modPath p fun x => x.put (h.packet p t)).paths.path ∧
      (h.putPacket p r t flip).paths.sends =
        (h.modSend r fun c => { c with taken := some { t with next := t.next + 1 } }).paths.sends := by
  unfold Hub.putPacket
  cases flip <;> exact ⟨rfl, rfl, rfl, rfl, rfl⟩

theorem Hub.putPacket_bond : (h.putPacket p r t flip).paths.bonds[pairOf p] =
    { h.paths.bonds[pairOf p] with odd := (h.paths.bonds[pairOf p]).odd ^^ flip } := by
  unfold Hub.putPacket
  cases flip
  · simp
  · simp [Hub.modBond]

theorem Hub.putPacket_only : Hub.OnlyChanges [.pathRecords, .mapping, .sending] h (h.putPacket p r t flip) := by
  have hput : Hub.OnlyChanges [.pathRecords, .mapping, .sending] h (h.modPath p fun x => x.put (h.packet p t)) :=
    (h.modPath_only p _).mono (by decide)
  have hsend : ∀ a : Hub, Hub.OnlyChanges [.pathRecords, .mapping, .sending] a
      (a.modSend r fun c => { c with taken := some { t with next := t.next + 1 } }) := fun a =>
    (a.modSend_only r _).mono (by decide)
  have hbond : ∀ a : Hub, Hub.OnlyChanges [.pathRecords, .mapping, .sending] a
      (a.modBond (pairOf p) fun b => { b with odd := !b.odd }) := fun a => (a.modBond_only _ _).mono (by decide)
  unfold Hub.putPacket
  cases flip
  · exact hput.trans (hsend _)
  · exact (hput.trans (hbond _)).trans (hsend _)

/-- What a placement makes of the arbiter's hub: the packet and the unit (`Hub.Placed`), the deficits of a ring that stops
being backlogged, the alternation of the pair. -/
structure Hub.PlacedOn (h u : Hub) : Prop where
  placed : h.Placed u p r t
  arbiter : u.paths.arbiters[p]'p.2 = { h.paths.arbiters[p]'p.2 with
    deficits := if u.backlogged r then (h.paths.arbiters[p]'p.2).deficits else (h.paths.arbiters[p]'p.2).deficits.set r 0 }
  bond : u.paths.bonds[pairOf p] = { h.paths.bonds[pairOf p] with odd := (h.paths.bonds[pairOf p]).odd ^^ flip }
  only : Hub.OnlyChanges [.rings, .pathRecords, .mapping, .sending, .tally] h u

end

section
variable {h : Hub} {p : Fin 8} {r : Fin 17} {t : Taken} {flip : Bool}

theorem Hub.place_placed (hb : h.backlogged r = true) : h.PlacedOn p r t flip (h.place p r t flip) := by
  obtain ⟨hstore, htally, harb, hpath, hsends⟩ := h.putPacket_kept p r t flip
  have hbond := h.putPacket_bond p r t flip
  have honly := h.putPacket_only p r t flip
  obtain ⟨hfifo, hseq, hcounts, hstate⟩ := (h.paths.path[p]'p.2).put_fields (h.packet p t)
  have hself : (h.putPacket p r t flip).paths.path[p]'p.2 = (h.paths.path[p]'p.2).put (h.packet p t) := by
    rw [hpath]
    exact h.modPath_self p _
  have hne : ∀ q, q ≠ p → (h.putPacket p r t flip).paths.path[q]'q.2 = h.paths.path[q]'q.2 := fun q hq => by
    rw [hpath]
    exact h.modPath_ne _ hq
  have hsend : (h.putPacket p r t flip).paths.sends[r]'r.2 =
    { h.paths.sends[r]'r.2 with taken := some { t with next := t.next + 1 } } := by
    rw [hsends]
    exact h.modSend_self r _
  have hsend_ne : ∀ q, q ≠ r → (h.putPacket p r t flip).paths.sends[q]'q.2 = h.paths.sends[q]'q.2 := fun q hq => by
    rw [hsends]
    exact h.modSend_ne _ hq
  have hring := h.putPacket_ring p r t flip
  rw [Hub.place_eq]
  generalize h.putPacket p r t flip = u at hstore htally harb hpath hsends hbond honly hself hne hsend hsend_ne hring ⊢
  split
  · rename_i hlast
    have hlast : (t.bytes.length + 1199) / 1200 ≤ t.next + 1 := hlast
    have hpaths := u.countSent_paths r t.stream
    obtain ⟨hentries, hflash, hmark⟩ := u.countSent_tally r t.stream
    have hsent : (u.countSent r t.stream).paths.sends[r]'r.2 =
      { u.paths.sends[r]'r.2 with sent := (u.paths.sends[r]'r.2).sent + 1 } := by
      rw [hpaths]
      exact u.modSend_self r _
    have hsent_ne : ∀ q, q ≠ r → (u.countSent r t.stream).paths.sends[q]'q.2 = u.paths.sends[q]'q.2 := fun q hq => by
      rw [hpaths]
      exact u.modSend_ne _ hq
    have hcring : ∀ q, (u.countSent r t.stream).ring q = u.ring q := fun q => by
      rw [Hub.ring, u.countSent_store]
      rfl
    have hconly := u.countSent_only r t.stream
    rw [Hub.unitSent_eq]
    obtain ⟨hapath, habonds, hatally⟩ := (u.countSent r t.stream).advance_paths r
    have hactx := Hub.advance_context (h := u.countSent r t.stream) (r := r)
    have haarb := (u.countSent r t.stream).advance_arbiter p r
    have haring := Hub.advance_self (h := u.countSent r t.stream) (r := r)
    refine ⟨⟨?_, ?_, ?_, ?_, fun q hq => ?_, fun hn => absurd hlast (Nat.not_le.mpr hn), fun _ => ⟨?_, ?_, ?_, ?_, ?_⟩,
      fun q hq => ?_, ?_, ?_, fun k => ?_⟩, ?_, ?_, ?_⟩
    · rw [hapath, hpaths]
      exact (congrArg Path.fifo hself).trans hfifo
    · rw [hapath, hpaths]
      exact (congrArg Path.seq hself).trans hseq
    · rw [hapath, hpaths]
      exact (congrArg Path.counts hself).trans hcounts
    · rw [hapath, hpaths]
      exact (congrArg Path.state hself).trans hstate
    · rw [hapath, hpaths]
      exact hne q hq
    · rw [hactx]
    · rw [hactx, hsent, hsend]
    · rw [haring, hcring, hring]
    · rw [haring, hcring, hring]
    · rw [haring, hcring, hring]
    · exact (Hub.advance_context_ne hq).trans ((hsent_ne q hq).trans (hsend_ne q hq))
    · rw [hatally, hentries, htally]
    · rw [hatally, hflash, htally]
    · rw [hatally, hmark, htally]
      simp [hlast]
    · rw [haarb, hpaths]
      simp [harb]
    · rw [habonds, hpaths]
      exact hbond
    · exact (honly.mono (by decide)).trans ((hconly.mono (by decide)).trans ((Hub.moveSend_only _ r _).mono (by decide)))
  · rename_i hmore
    have hmore : t.next + 1 < (t.bytes.length + 1199) / 1200 := Nat.not_le.mp hmore
    have hback : u.backlogged r = true := by
      rw [← hb]
      unfold Hub.backlogged Hub.ring Hub.stream
      rw [hstore]
    refine ⟨⟨(congrArg Path.fifo hself).trans hfifo, (congrArg Path.seq hself).trans hseq,
      (congrArg Path.counts hself).trans hcounts, (congrArg Path.state hself).trans hstate, hne, fun _ => ⟨?_, ?_, hstore⟩,
      fun hn => absurd hn (Nat.not_le.mpr hmore), hsend_ne, congrArg Tally.entries htally,
      congrArg Tally.flash htally, fun k => ?_⟩, ?_, hbond, honly.mono (by decide)⟩
    · rw [hsend]
    · rw [hsend]
    · rw [htally]
      simp [Nat.not_le.mpr hmore]
    · rw [harb, hback]
      rfl

end

/-! ### The orders of the arbiter -/

/-- The place of ring r in the order of class 0 after ring a. -/
def after0 (a r : Fin 17) : Nat :=
  ((if r = 16 then 9 else r.val - 4) + 9 - (if a = 16 then 9 else a.val - 4)) % 10

/-- The place of ring r in the order of class 1 after ring a. -/
def after1 (a r : Fin 17) : Nat :=
  ((if r = 16 then 7 else if r.val < 4 then r.val else r.val - 9) + 7 -
    (if a = 16 then 7 else if a.val < 4 then a.val else a.val - 9)) % 8

theorem orderAfter0_sorted : ∀ a : Fin 17, (4 ≤ a.val ∧ a.val ≤ 12) ∨ a = 16 →
    (orderAfter order0 a).Pairwise fun x y => after0 a x < after0 a y := by decide

theorem mem_orderAfter0 : ∀ a r : Fin 17, r ∈ orderAfter order0 a ↔ (4 ≤ r.val ∧ r.val ≤ 12) ∨ r = 16 := by decide

theorem orderAfter1_sorted : ∀ a : Fin 17, a.val < 4 ∨ 13 ≤ a.val →
    (orderAfter order1 a).Pairwise fun x y => after1 a x < after1 a y := by decide

theorem mem_orderAfter1 : ∀ a r : Fin 17, r ∈ orderAfter order1 a ↔ r.val < 4 ∨ 13 ≤ r.val := by decide

/-- The orders of class 0 and of class 1 hold every ring that they may serve, each at its place. -/
theorem Hub.firstOf_order0 {h : Hub} {p : Fin 8} {a r : Fin 17} {y : Taken} {flip : Bool} (hs : h.Supplies p r y flip)
    (hy : y.IsClass0) (hr : (4 ≤ r.val ∧ r.val ≤ 12) ∨ r = 16) (ha : (4 ≤ a.val ∧ a.val ≤ 12) ∨ a = 16)
    (hleast : ∀ q z f, h.Supplies p q z f → z.IsClass0 → (4 ≤ q.val ∧ q.val ≤ 12) ∨ q = 16 → after0 a r ≤ after0 a q) :
    h.firstOf p true (orderAfter order0 a) = some (r, y, flip) :=
  Hub.firstOf_least (orderAfter0_sorted a ha) hs ((classZero_iff y).mpr hy) ((mem_orderAfter0 a r).mpr hr)
    fun q hq z f hz hc => hleast q z f hz ((classZero_iff z).mp hc) ((mem_orderAfter0 a q).mp hq)

theorem Hub.firstOf_order1 {h : Hub} {p : Fin 8} {a r : Fin 17} {y : Taken} {flip : Bool} (hs : h.Supplies p r y flip)
    (hy : ¬ y.IsClass0) (hr : r.val < 4 ∨ 13 ≤ r.val) (ha : a.val < 4 ∨ 13 ≤ a.val)
    (hleast : ∀ q z f, h.Supplies p q z f → after1 a r ≤ after1 a q) :
    h.firstOf p false (orderAfter order1 a) = some (r, y, flip) :=
  Hub.firstOf_least (orderAfter1_sorted a ha) hs (Bool.eq_false_iff.mpr fun hc => hy ((classZero_iff y).mp hc))
    ((mem_orderAfter1 a r).mpr hr) fun q _ z f hz _ => hleast q z f hz

/-! ### A ring that passes its unit first -/

section
variable {h : Hub} {r : Fin 17}

theorem Hub.modSend_modSend (f g : SendContext → SendContext) :
    (h.modSend r f).modSend r g = h.modSend r fun c => g (f c) := by
  simp [Hub.modSend]

theorem Hub.calmDeficits_map : h.calmDeficits r =
    if h.backlogged r then h
    else { h with paths := { h.paths with
      arbiters := h.paths.arbiters.map fun a => { a with deficits := a.deficits.set r 0 } } } := by
  cases hb : h.backlogged r
  · rw [h.calmDeficits_calms r hb]
    have hmap : (Vector.ofFn fun p : Fin 8 =>
        ({ h.paths.arbiters[p]'p.2 with deficits := (h.paths.arbiters[p]'p.2).deficits.set r 0 } : Arbiter)) =
        h.paths.arbiters.map fun a => { a with deficits := a.deficits.set r 0 } := Vector.ext fun i hi => by simp
    rw [hmap]
    rfl
  · rw [h.calmDeficits_idle r hb]
    rfl

/-- A passing is an advance of the send pointer, after a count. -/
theorem Hub.passing_eq (skips : Option (Fin 16)) : h.passing r skips =
    Hub.calmDeficits
      { h with
        store := { h.store with
          streams := Vector.ofFn fun k =>
            if skips = some k then { h.store.streams[k]'k.2 with skipped := (h.store.streams[k]'k.2).skipped + 1 }
            else h.store.streams[k]'k.2
          rings := h.store.rings.set r { h.store.rings[r]'r.2 with send := (h.store.rings[r]'r.2).send + 1 } }
        paths := { h.paths with
          sends := h.paths.sends.set r
            { h.paths.sends[r]'r.2 with
              taken := none
              passedDamaged := if skips = none then (h.paths.sends[r]'r.2).passedDamaged + 1
                else (h.paths.sends[r]'r.2).passedDamaged } } } r :=
  Hub.calmDeficits_map.symm

theorem Hub.passUnit_eq_passing (k : Fin 16) : h.passUnit r k = h.passing r (some k) := by
  have hstreams : h.store.streams.set k { h.store.streams[k]'k.2 with skipped := (h.store.streams[k]'k.2).skipped + 1 } =
      Vector.ofFn fun j : Fin 16 =>
        if some k = some j then { h.store.streams[j]'j.2 with skipped := (h.store.streams[j]'j.2).skipped + 1 }
        else h.store.streams[j]'j.2 := by
    refine Vector.ext fun i hi => ?_
    rw [Vector.getElem_set, Vector.getElem_ofFn]
    by_cases hk : k.val = i
    · subst hk
      simp
    · have hne : k ≠ (⟨i, hi⟩ : Fin 16) := fun he => hk (congrArg Fin.val he)
      simp [hk, hne]
  rw [Hub.passing_eq, ← hstreams]
  rfl

theorem Hub.passDamaged_eq_passing : h.passDamaged r = h.passing r none := by
  have hstreams : (Vector.ofFn fun j : Fin 16 => if none = some j then
      { h.store.streams[j]'j.2 with skipped := (h.store.streams[j]'j.2).skipped + 1 } else h.store.streams[j]'j.2) =
        h.store.streams := Vector.ext fun i hi => by simp
  have hsend : h.passDamaged r = ((h.modRing r fun x => { x with send := x.send + 1 }).modSend r fun c =>
      { c with taken := none, passedDamaged := c.passedDamaged + 1 }).calmDeficits r :=
    congrArg (Hub.calmDeficits · r) (Hub.modSend_modSend (h := h.modRing r fun x => { x with send := x.send + 1 })
      (fun c => { c with passedDamaged := c.passedDamaged + 1 }) fun c => { c with taken := none })
  rw [Hub.passing_eq, hstreams, hsend]
  rfl

/-- What a passing leaves of the other rings. -/
theorem Hub.passing_ready {k : Option (Fin 16)} {q : Fin 17} (hq : q < r) (hr : h.Ready q) : (h.passing r k).Ready q := by
  have hne : q ≠ r := ne_of_lt hq
  have hring : (h.passing r k).ring q = h.ring q := by
    rw [Hub.passing_eq, Hub.calmDeficits_ring]
    exact Vector.getElem_set_ne r.isLt q.isLt (fun he => hne (Fin.ext he.symm))
  have hsend : (h.passing r k).paths.sends[q]'q.2 = h.paths.sends[q]'q.2 := by
    rw [Hub.passing_eq, Hub.calmDeficits_sends]
    exact Vector.getElem_set_ne r.isLt q.isLt (fun he => hne (Fin.ext he.symm))
  have hstream : ∀ j, ((h.passing r k).stream j).holding = (h.stream j).holding := fun j => by
    rw [Hub.passing_eq, Hub.stream, Hub.calmDeficits_store, Fin.getElem_fin, Vector.getElem_ofFn]
    split <;> rfl
  have hback : (h.passing r k).backlogged q = h.backlogged q := by
    unfold Hub.backlogged
    simp only [hring, hstream]
  obtain ⟨hb, hf, -⟩ := hr
  refine ⟨by rwa [hback, hsend], fun x y hxy => hf x y ?_, fun x hg => ?_⟩
  · unfold Hub.HoldsFlagged at hxy ⊢
    rwa [hsend, hring] at hxy
  · subst hg
    exact absurd hq (by omega)

theorem Hub.passing_index (k : Option (Fin 16)) : ((h.passing r k).ring r).index = (h.ring r).index := by
  rw [Hub.passing_eq, Hub.calmDeficits_ring]
  simp [Hub.ring]

theorem Hub.passing_taken (k : Option (Fin 16)) : ((h.passing r k).paths.sends[r]'r.2).taken = none := by
  rw [Hub.passing_eq, Hub.calmDeficits_sends]
  simp

theorem Hub.prepare_passing (k : Option (Fin 16)) :
    Hub.prepare r (h.passing r k) = Hub.takeUp r ((h.ring r).index.length + 1) (h.passing r k) := by
  unfold Hub.prepare
  rw [Hub.passing_taken, ← Hub.passing_index k]

/-- A unit of ring G that now fails the tests of R37 is passed before the arbiter looks. -/
theorem Hub.prepare_passes {y : Taken} (hr : r = 16) (ht : (h.paths.sends[r]'r.2).taken = some y)
    (ho : h.PassesOver y.stream (y.g.getD 0)) :
    Hub.prepare r h = Hub.prepare r (h.passing r (some y.stream)) := by
  rw [Hub.prepare_passing, ← Hub.passUnit_eq_passing]
  have hindex := Hub.passing_index (h := h) (r := r) (some y.stream)
  rw [← Hub.passUnit_eq_passing] at hindex
  unfold Hub.prepare
  rw [ht]
  dsimp only
  rw [if_pos ⟨hr, (h.passedOver_iff _ _).mpr ho⟩, hindex]

theorem Hub.calmDeficits_arrive (e : Env) : (h.arrive e).calmDeficits r = (h.calmDeficits r).arrive e := by
  cases hb : h.backlogged r
  · rw [h.calmDeficits_calms r hb, (h.arrive e).calmDeficits_calms r hb]
    rfl
  · rw [h.calmDeficits_idle r hb, (h.arrive e).calmDeficits_idle r hb]

theorem Hub.passing_arrive (e : Env) (k : Option (Fin 16)) : (h.arrive e).passing r k = (h.passing r k).arrive e := by
  rw [Hub.passing_eq, Hub.passing_eq, ← Hub.calmDeficits_arrive]
  rfl

theorem Hub.passing_path (k : Option (Fin 16)) : (h.passing r k).paths.path = h.paths.path := by
  rw [Hub.passing_eq]
  exact ((Hub.calmDeficits_only _ r) .pathRecords (by decide)).symm

/-! ### The fuel of a take-up -/

/-- The entries that the take-up of ring r may still meet. -/
def Hub.entriesAhead (h : Hub) (r : Fin 17) : List Entry :=
  (h.ring r).index.filter fun e =>
    decide ((e.key r - (h.ring r).send).toNat < ((h.ring r).head - (h.ring r).send).toNat)

/-- The send pointer of ring r moves on by one, over an entry; the entries keep their numbers. -/
structure Hub.StepsOn (h g : Hub) (r : Fin 17) : Prop where
  send : (g.ring r).send = (h.ring r).send + 1
  head : (g.ring r).head = (h.ring r).head
  index : ∃ f : Entry → Entry, (∀ e, (f e).key r = e.key r) ∧ (g.ring r).index = (h.ring r).index.map f

theorem Hub.StepsOn.entriesAhead_lt {g : Hub} (hs : h.StepsOn g r) (hb : h.backlogged r = true) {e : Entry}
    (he : h.atSend r = some e) : (g.entriesAhead r).length < (h.entriesAhead r).length := by
  obtain ⟨hsend, hhead, f, hf, hindex⟩ := hs
  have hne := Hub.backlogged_send hb
  have hkey : e.key r = (h.ring r).send := by simpa using List.find?_some he
  have hlen : (g.entriesAhead r).length = ((h.ring r).index.filter fun e =>
      decide ((e.key r - ((h.ring r).send + 1)).toNat < ((h.ring r).head - ((h.ring r).send + 1)).toNat)).length := by
    rw [Hub.entriesAhead, hsend, hhead, hindex, List.filter_map, List.length_map]
    simp only [Function.comp_def, hf]
  have hsub : ((h.ring r).index.filter fun e =>
      decide ((e.key r - ((h.ring r).send + 1)).toNat < ((h.ring r).head - ((h.ring r).send + 1)).toNat)).Sublist
      (h.entriesAhead r) := by
    refine List.monotone_filter_right _ fun x hx => ?_
    rw [decide_eq_true_iff] at hx ⊢
    bv_omega
  rw [hlen]
  refine lt_of_le_of_ne hsub.length_le fun hl => ?_
  have hmem : e ∈ h.entriesAhead r := by
    refine List.mem_filter.mpr ⟨List.mem_of_find?_eq_some he, decide_eq_true ?_⟩
    bv_omega
  rw [← hsub.eq_of_length hl, List.mem_filter, decide_eq_true_iff] at hmem
  have hlt := hmem.2
  bv_omega

theorem Hub.PassedUnread.stepsOn {g t : Hub} {skip : Bool} {k : Fin 16} (hp : g.PassedUnread t r skip k)
    (hsend : (g.ring r).send = (h.ring r).send) (hhead : (g.ring r).head = (h.ring r).head)
    (hindex : ∃ f : Entry → Entry, (∀ e, (f e).key r = e.key r) ∧ (g.ring r).index = (h.ring r).index.map f) :
    h.StepsOn t r :=
  ⟨by rw [hp.ring, hsend], by rw [hp.ring, hhead], by rw [hp.ring]; exact hindex⟩

theorem Hub.meetErrors_numbers (e : Entry) (f : ReadFault) :
    ((h.meetErrors r e f).ring r).send = (h.ring r).send ∧ ((h.meetErrors r e f).ring r).head = (h.ring r).head ∧
      ∃ m : Entry → Entry, (∀ x, (m x).key r = x.key r) ∧ ((h.meetErrors r e f).ring r).index = (h.ring r).index.map m := by
  by_cases hf : f.uncorrectable = true ∧ ¬ e.flags.damaged = true
  · rw [Hub.meetErrors_damages _ _ _ _ hf.1 (Bool.eq_false_iff.mpr hf.2), Hub.damage_self, Hub.countCorrected_self]
    refine ⟨rfl, rfl, _, fun x => ?_, rfl⟩
    split <;> rfl
  · rw [Hub.meetErrors_calm _ _ _ _ hf, Hub.countCorrected_self]
    exact ⟨rfl, rfl, id, fun _ => rfl, (List.map_id _).symm⟩

/-- More fuel than entries ahead changes nothing. -/
theorem Hub.takeUp_fuel : ∀ (n : Nat) (h : Hub), (h.entriesAhead r).length ≤ n →
    Hub.takeUp r (n + 1) h = Hub.takeUp r n h := by
  intro n
  induction n with
  | zero =>
    intro h hn
    cases hb : h.backlogged r
    · exact Hub.takeUp_idle h hb 1
    · cases he : h.atSend r with
      | none => exact Hub.takeUp_holding h (fun x hx => by rw [he] at hx; cases hx) 1
      | some e =>
        have hkey : e.key r = (h.ring r).send := by simpa using List.find?_some he
        have hne := Hub.backlogged_send hb
        have hmem : e ∈ h.entriesAhead r := by
          refine List.mem_filter.mpr ⟨List.mem_of_find?_eq_some he, decide_eq_true ?_⟩
          bv_omega
        exact absurd (List.length_pos_of_mem hmem) (by omega)
  | succ n ih =>
    intro h hn
    cases hb : h.backlogged r
    · rw [Hub.takeUp_idle h hb, Hub.takeUp_idle h hb]
    · cases he : h.atSend r with
      | none =>
        have hnone : ∀ x, h.atSend r = some x → h.actsOn r x = false := fun x hx => by rw [he] at hx; cases hx
        rw [Hub.takeUp_holding h hnone, Hub.takeUp_holding h hnone]
      | some e =>
        cases ha : h.actsOn r e
        · have hidle : ∀ x, h.atSend r = some x → h.actsOn r x = false := fun x hx => by
            rw [he, Option.some_inj] at hx
            rwa [← hx]
          rw [Hub.takeUp_holding h hidle, Hub.takeUp_holding h hidle]
        · have hstep : ∀ {g : Hub}, h.StepsOn g r → Hub.takeUp r (n + 1) g = Hub.takeUp r n g := fun hs =>
            ih _ (by have := hs.entriesAhead_lt hb he; omega)
          have hid : ∃ f : Entry → Entry, (∀ x, (f x).key r = x.key r) ∧ (h.ring r).index = (h.ring r).index.map f :=
            ⟨id, fun _ => rfl, (List.map_id _).symm⟩
          obtain ⟨hsend, hhead, hindex⟩ := h.meetErrors_numbers (r := r) e h.nextFault
          rw [Hub.takeUp_succ hb he ha, Hub.takeUp_succ hb he ha,
            hstep ((Hub.passUnit_passed e.stream).stepsOn rfl rfl hid),
            hstep ((Hub.passDamaged_passed e.stream).stepsOn rfl rfl hid),
            hstep ((Hub.passDamaged_passed (h := (h.meetErrors r e h.nextFault).dropFault) e.stream).stepsOn hsend hhead
              hindex)]

/-- A unit flagged DAMAGED before its first fragment is passed before the arbiter looks. -/
theorem Hub.prepare_flagged {y : Taken} {z : Entry} (hf : h.HoldsFlagged r y z) (hb : h.backlogged r = true)
    (hno : r = 16 → ¬ h.PassesOver y.stream (y.g.getD 0) ∧ ¬ h.PassesOver z.stream (z.g.getD 0)) :
    Hub.prepare r h = Hub.prepare r (h.passing r none) := by
  obtain ⟨ht, -, hflag, hat⟩ := id hf
  have hskip : h.skipsEntry r z = false :=
    Bool.eq_false_iff.mpr fun hs => (hno ((h.skipsEntry_iff r z).mp hs).1).2 ((h.skipsEntry_iff r z).mp hs).2
  have hnot : ¬ (r = 16 ∧ h.passedOver y.stream (y.g.getD 0) = true) := fun ⟨hg, ho⟩ =>
    (hno hg).1 ((h.passedOver_iff _ _).mp ho)
  have hprep : Hub.prepare r h = Hub.takeUp r ((h.ring r).index.length + 1) h := by
    unfold Hub.prepare
    rw [ht]
    dsimp only
    rw [if_neg hnot]
  have hfuel : ((h.passing r none).entriesAhead r).length ≤ (h.ring r).index.length := by
    rw [← Hub.passing_index (h := h) none]
    exact List.length_filter_le _ _
  rw [hprep, Hub.takeUp_succ hb hat (Hub.actsOn_ready (.inr ⟨y, z, hf⟩) z hat), Hub.prepare_passing,
    Hub.takeUp_fuel _ _ hfuel, ← Hub.passDamaged_eq_passing, hskip, hflag]
  rfl

end

/-! ### The arbiter's choice -/

section
variable {h : Hub} {p : Fin 8} {r : Fin 17} {y : Taken} {flip : Bool}

theorem Hub.arbitrate_idle (hno : ∀ r y flip, ¬ h.Supplies p r y flip) : h.arbitrate p = h := by
  have hnone : ∀ zero order, h.firstOf p zero order = none := fun zero order =>
    Hub.firstOf_eq_none fun q _ z f hz => absurd hz (hno q z f)
  have hcur : h.current1 p = none := by
    unfold Hub.current1
    split
    · rfl
    · rw [hnone]
  unfold Hub.arbitrate
  simp only [hnone, hcur]

theorem Hub.arbitrate_zero (hs : h.firstOf p true (orderAfter order0 (h.paths.arbiters[p]'p.2).last0) = some (r, y, flip)) :
    h.arbitrate p = h.serve0 p (r, y, flip) := by
  unfold Hub.arbitrate
  simp only [hs]

theorem Hub.arbitrate_current (hz : h.firstOf p true (orderAfter order0 (h.paths.arbiters[p]'p.2).last0) = none)
    (hs : h.current1 p = some (r, y, flip)) : h.arbitrate p = h.serve1 p (r, y, flip) 0 := by
  unfold Hub.arbitrate
  simp only [hz, hs]

theorem Hub.arbitrate_next (hz : h.firstOf p true (orderAfter order0 (h.paths.arbiters[p]'p.2).last0) = none)
    (hc : h.current1 p = none)
    (hs : h.firstOf p false (orderAfter order1 ((h.paths.arbiters[p]'p.2).cur1.getD 16)) = some (r, y, flip)) :
    h.arbitrate p = h.serve1 p (r, y, flip) (h.quantum r) := by
  unfold Hub.arbitrate
  simp only [hz, hc, hs]

theorem Hub.serve0_placed (hb : h.backlogged r = true) :
    (h.modArbiter p fun a => { a with last0 := r }).PlacedOn p r y flip (h.serve0 p (r, y, flip)) :=
  Hub.place_placed (h := h.modArbiter p fun a => { a with last0 := r }) hb

theorem Hub.serve1_placed (hb : h.backlogged r = true) (add : Nat) :
    (h.setDeficit p r (h.deficit p r + add - y.payload.length)).PlacedOn p r y flip (h.serve1 p (r, y, flip) add) :=
  Hub.place_placed (h := h.setDeficit p r (h.deficit p r + add - y.payload.length)) hb

theorem Hub.current1_covers (hc : (h.paths.arbiters[p]'p.2).cur1 = some r) (hs : h.Supplies p r y flip) (hy : ¬ y.IsClass0)
    (hd : y.payload.length ≤ h.deficit p r) : h.current1 p = some (r, y, flip) := by
  have hfirst : h.firstOf p false [r] = some (r, y, flip) := by
    refine Hub.firstOf_least (key := fun _ => 0) (List.pairwise_singleton _ _) hs ?_ (List.mem_singleton_self r)
      fun _ _ _ _ _ _ => le_rfl
    exact Bool.eq_false_iff.mpr fun h0 => hy ((classZero_iff y).mp h0)
  unfold Hub.current1
  simp only [hc, hfirst]
  exact if_pos hd

theorem Hub.current1_short
    (hd : ∀ r y flip, (h.paths.arbiters[p]'p.2).cur1 = some r → h.Supplies p r y flip → h.deficit p r < y.payload.length) :
    h.current1 p = none := by
  unfold Hub.current1
  split
  · rfl
  · rename_i q hq
    split
    · rfl
    · rename_i x hx
      obtain ⟨a, ha, hax⟩ := List.exists_of_findSome?_eq_some hx
      obtain rfl := List.mem_singleton.mp ha
      split at hax
      · cases hax
      · rename_i c hc
        split at hax
        · cases hax
          exact if_neg (Nat.not_le.mpr (hd _ _ _ hq (Hub.candidate_iff.mp hc)))
        · cases hax

theorem Hub.modArbiter_placed {f : Arbiter → Arbiter} {u : Hub} (hu : (h.modArbiter p f).PlacedOn p r y flip u) :
    h.Placed u p r y ∧
      u.paths.arbiters[p] = { f h.paths.arbiters[p] with
        deficits := if u.backlogged r then (f h.paths.arbiters[p]).deficits
          else (f h.paths.arbiters[p]).deficits.set r 0 } ∧
      u.paths.bonds[pairOf p] = { h.paths.bonds[pairOf p] with odd := (h.paths.bonds[pairOf p]).odd ^^ flip } ∧
      Hub.OnlyChanges [.rings, .pathRecords, .mapping, .sending, .tally] h u := by
  have harb : (h.modArbiter p f).paths.arbiters[p] = f h.paths.arbiters[p] := by simp [Hub.modArbiter]
  refine ⟨hu.placed, ?_, hu.bond, ((h.modArbiter_only p f).mono (by decide)).trans hu.only⟩
  rw [hu.arbiter, harb]

end

/-- The deficit of a ring served, which becomes 0 when the ring stops being backlogged. -/
theorem Arbiter.calmed_deficit (v : Vector Nat 17) (r : Fin 17) (n : Nat) (b : Bool) :
    (if b then v.set r n else (v.set r n).set r 0)[r]'r.2 = if b then n else 0 := by
  cases b <;> simp

/-- Settles O36: the rings pass and take up what they must, and the first candidate of class 0 is served. -/
theorem classZeroIsServedFirst : Obligations.ClassZeroIsServedFirst := by
  intro e p s hs g x arbiter pos pair after ring0
  have hrun : ∀ s : State, s.held = false → exec (.fragmentPlacement e p) s =
      s.became (Hub.fragmentPlacement p (s.hub.arrive e)) := fun s hs => State.run_free hs fun h => Hub.fragmentPlacement p
        (h.arrive e)
  refine ⟨fun hno => ?_, fun hup hroom htaken => ?_, fun r hup hroom hready => ?_⟩
  · have hfull : x.hasRoom = false := by
      rw [Path.hasRoom, Bool.and_eq_false_iff, beq_eq_false_iff_ne, decide_eq_false_iff_not, Nat.not_lt]
      exact hno
    exact (hrun s hs).trans (congrArg s.became (if_neg (by rw [Bool.not_eq_true]; exact hfull)))
  · have hfree : x.hasRoom = true := by
      rw [Path.hasRoom, Bool.and_eq_true, beq_iff_eq, decide_eq_true_iff]
      exact ⟨hup, hroom⟩
    have htaken : (g.arrive e).TakenUp := htaken
    have hplace : exec (.fragmentPlacement e p) s = s.became ((g.arrive e).arbitrate p) := by
      refine (hrun s hs).trans (congrArg s.became ((if_pos hfree).trans ?_))
      rw [htaken.prepareAll]
    refine ⟨fun hno => hplace.trans (congrArg s.became (Hub.arbitrate_idle hno)), ?_⟩
    intro r y flip hsup hy hr hlo hhi hleast
    have hlast : (4 ≤ arbiter.last0.val ∧ arbiter.last0.val ≤ 12) ∨ arbiter.last0 = 16 := by tauto
    have hfirst : (g.arrive e).firstOf p true (orderAfter order0 arbiter.last0) = some (r, y, flip) :=
      Hub.firstOf_order0 (h := g.arrive e) hsup hy hr hlast hleast
    refine exists_became (hplace.trans (congrArg s.became (Hub.arbitrate_zero hfirst))) ?_
    obtain ⟨hplaced, harb, hbond, honly⟩ := Hub.modArbiter_placed (Hub.serve0_placed (h := g.arrive e) (p := p) hsup.1)
    refine ⟨hplaced, ?_, ?_, hbond, ((g.arrive_only e).mono (by simp)).trans honly⟩
    · exact congrArg Arbiter.last0 harb
    · exact (congrArg Arbiter.cur1 harb).trans rfl
  · have hfree : x.hasRoom = true := by
      rw [Path.hasRoom, Bool.and_eq_true, beq_iff_eq, decide_eq_true_iff]
      exact ⟨hup, hroom⟩
    have hskip : ∀ k, Hub.prepare r (g.arrive e) = Hub.prepare r ((g.arrive e).passing r k) →
        exec (.fragmentPlacement e p) s = exec (.fragmentPlacement e p) { s with hub := g.passing r k } := by
      intro k heq
      have hall : (g.arrive e).forEach 17 Hub.prepare = ((g.arrive e).passing r k).forEach 17 Hub.prepare :=
        Hub.prepareAll_congr (h := g.arrive e) (g := (g.arrive e).passing r k) (r := r) (fun q hq => hready q (ne_of_lt hq))
        (fun q hq => Hub.passing_ready hq (hready q (ne_of_lt hq))) heq
      refine (hrun s hs).trans (Eq.trans ?_ (hrun { s with hub := g.passing r k } hs).symm)
      refine congrArg s.became ?_
      rw [← Hub.passing_arrive, Hub.fragmentPlacement, Hub.fragmentPlacement, Hub.passing_path, hall,
        if_pos (show ((s.hub.arrive e).paths.path[p]).hasRoom = true from hfree),
        if_pos (show ((g.arrive e).paths.path[p]).hasRoom = true from hfree)]
    refine ⟨fun y hr ht ho => hskip _ (Hub.prepare_passes (h := g.arrive e) hr ht ho), fun y z hf hb hno => ?_⟩
    exact hskip _ (Hub.prepare_flagged (h := g.arrive e) hf hb hno)

/-- Settles O37: without a candidate of class 0 the current ring is served while its deficit covers the payload, and else the
next candidate in the order, with its quantum. -/
theorem classOneSharesByDeficit : Obligations.ClassOneSharesByDeficit := by
  intro e p s hs g x arbiter pos class1 after weight need served hup hroom htaken hcur hone
  have hfree : x.hasRoom = true := by
    rw [Path.hasRoom, Bool.and_eq_true, beq_iff_eq, decide_eq_true_iff]
    exact ⟨hup, hroom⟩
  have htaken : (g.arrive e).TakenUp := htaken
  have hplace : exec (.fragmentPlacement e p) s = s.became ((g.arrive e).arbitrate p) := by
    refine (State.run_free hs fun h => Hub.fragmentPlacement p (h.arrive e)).trans
      (congrArg s.became ((if_pos hfree).trans ?_))
    rw [htaken.prepareAll]
  have hzero : (g.arrive e).firstOf p true (orderAfter order0 arbiter.last0) = none :=
    Hub.firstOf_eq_none fun q _ z f hz hc => (hone q z f hz).2 ((classZero_iff z).mp hc)
  have hserved : ∀ r y flip add, g.Supplies p r y flip →
      (g.arrive e).arbitrate p = (g.arrive e).serve1 p (r, y, flip) add →
      ∃ t, served t r y (arbiter.deficits[r] + add - need y) := by
    intro r y flip add hsup harbitrate
    obtain ⟨hplaced, harb, -, honly⟩ :=
      Hub.modArbiter_placed (Hub.serve1_placed (h := g.arrive e) (p := p) (y := y) (flip := flip) hsup.1 add)
    refine ⟨_, hplace.trans (congrArg s.became harbitrate), hplaced, ?_, ?_, ?_,
      ((g.arrive_only e).mono (by simp)).trans honly⟩
    · exact (congrArg Arbiter.last0 harb).trans rfl
    · exact (congrArg Arbiter.cur1 harb).trans rfl
    · exact (congrArg (fun a : Arbiter => a.deficits[r]) harb).trans (Arbiter.calmed_deficit _ _ _ _)
  refine ⟨fun r y flip hc hsup hd => ?_, fun hshort r y flip hsup hleast => ?_⟩
  · refine hserved r y flip 0 hsup (Hub.arbitrate_current hzero ?_)
    exact Hub.current1_covers (h := g.arrive e) hc hsup (hone r y flip hsup).2 hd
  · refine hserved r y flip (1200 * weight r) hsup ?_
    have hquantum : (g.arrive e).quantum r = 1200 * weight r := by
      simp only [Hub.quantum, weight]
      split <;> rfl
    rw [← hquantum]
    exact Hub.arbitrate_next hzero (Hub.current1_short (h := g.arrive e) hshort)
      (Hub.firstOf_order1 (h := g.arrive e) hsup (hone r y flip hsup).2 (hone r y flip hsup).1 hcur hleast)

end Sys2Proof.Machine
end

section
/-! Proofs: rate control (R55, R56). -/

namespace Sys2Proof.Machine

-- In order, so that the package in one text stays within the memory of its check.
set_option Elab.async false

section
variable {h : Hub} {k : Fin 4} {f : Flight} {rest : List Flight}

/-- A picture whose coding has not begun starts. -/
theorem Hub.pictureStart_starts (hf : (h.coders[k]).flight = f :: rest) (hs : f.subst = none) (hc : f.coding = none) :
    Hub.pictureStart k h =
      (h.modCoder k fun _ =>
        { (h.coders[k]).start h.tb.rate (h.pictureRate k f) with
          flight :=
            { f with coding := some ((h.coders[k]).start h.tb.rate (h.pictureRate k f)).beginCoding } :: rest }).modShare k
        fun x => { x with kept := x.keptAt h.now, startedAt := some h.now } := by
  unfold Hub.pictureStart
  rw [hf]
  exact if_pos ⟨hs, hc⟩

theorem Hub.sliceStart_starts {x : Coding} (hf : (h.coders[k]).flight = f :: rest) (hc : f.coding = some x)
    (hx : x.slice = none) (hi : x.i < (h.coders[k]).format.slices) :
    Hub.sliceStart k h = h.modCoder k fun c =>
      { c with flight := { f with coding := some { x with slice := some (c.quantiser x.i x.b) } } :: rest } := by
  unfold Hub.sliceStart
  dsimp only
  rw [hf]
  dsimp only
  rw [hc]
  exact if_pos ⟨hx, hi⟩

end

/-- Settles O24: the rate state at a picture start, and the quantiser of a slice. -/
theorem rateControl : Obligations.RateControl := by
  constructor
  · intro e k f rest s hs hflight hsubst hcoding g c share kept rate target size fullness
    have hrate : g.pictureRate k f = rate := rfl
    have htarget : s.hub.tb.rate.target rate = target := rfl
    refine (State.run_free hs fun h => Hub.pictureStart k (h.arrive e)).trans (congrArg s.became ?_)
    refine (Hub.pictureStart_starts (h := g) hflight hsubst hcoding).trans ?_
    rfl
  · intro e k f x rest s hs hflight hcoding hslice c slices hi hpos
    refine ⟨c.quantiser x.i x.b, ?_, ?_⟩
    · have hfloor : ∀ d : Int, Int.floor ((16 * d : Rat) / (c.target : Rat)) = 16 * d / (c.target : Int) := fun d => by
        have hcast : (16 * d : Rat) = ((16 * d : Int) : Rat) := by push_cast; rfl
        rw [hcast, Rat.floor_intCast_div_natCast]
      intro d
      rw [hfloor]
      exact Int.toNat_of_nonneg (le_max_of_le_left Int.one_nonneg)
    · exact (State.run_free hs fun h => Hub.sliceStart k (h.arrive e)).trans
        (congrArg s.became (Hub.sliceStart_starts (h := s.hub.arrive e) hflight hcoding hslice hi))

end Sys2Proof.Machine
end

section
/-! Proofs: what the operations leave of the units of a stream (R20, R29, R34): its counts of units committed and discarded,
and its own ring but for the send pointer. -/

namespace Sys2Proof.Machine

-- In order, so that the package in one text stays within the memory of its check.
set_option Elab.async false

/-- Between two hubs stream k had no unit committed or discarded, and its own ring stays but for its send pointer. -/
structure Hub.KeepsUnits (k : Fin 16) (g h : Hub) : Prop where
  committed : (h.stream k).committed = (g.stream k).committed
  discarded : (h.stream k).discarded = (g.stream k).discarded
  ring : ∃ w, h.ring k.castSucc = { g.ring k.castSucc with send := w }

section
variable {k : Fin 16} {a b c g h : Hub}

theorem Hub.KeepsUnits.refl (k : Fin 16) (h : Hub) : Hub.KeepsUnits k h h := ⟨rfl, rfl, _, rfl⟩

theorem Hub.KeepsUnits.trans (h₁ : Hub.KeepsUnits k a b) (h₂ : Hub.KeepsUnits k b c) : Hub.KeepsUnits k a c := by
  obtain ⟨v, hv⟩ := h₁.ring
  obtain ⟨w, hw⟩ := h₂.ring
  exact ⟨h₂.committed.trans h₁.committed, h₂.discarded.trans h₁.discarded, w, by rw [hw, hv]⟩

theorem Hub.KeepsUnits.ite {q : Prop} [Decidable q] (h₁ : Hub.KeepsUnits k g a) (h₂ : Hub.KeepsUnits k g b) :
    Hub.KeepsUnits k g (if q then a else b) := by
  split
  · exact h₁
  · exact h₂

/-- A change that is made under a condition alone. -/
theorem Hub.KeepsUnits.opt {q : Prop} [Decidable q] (h₁ : Hub.KeepsUnits k g a) (h₂ : Hub.KeepsUnits k a b) :
    Hub.KeepsUnits k g (if q then b else a) := .ite (h₁.trans h₂) h₁

theorem Hub.KeepsUnits.of_only {parts : List Part} (ho : Hub.OnlyChanges parts g h) (hs : Part.streams ∉ parts)
    (hr : Part.rings ∉ parts) : Hub.KeepsUnits k g h := by
  refine ⟨?_, ?_, _, (ho.ring_eq hr _).trans rfl⟩
  · rw [ho.stream_eq hs]
  · rw [ho.stream_eq hs]

theorem Hub.KeepsUnits.foldl {α : Type} {f : Hub → α → Hub} (hf : ∀ g x, Hub.KeepsUnits k g (f g x)) (xs : List α) :
    ∀ h, Hub.KeepsUnits k h (xs.foldl f h) := by
  induction xs with
  | nil => exact fun h => .refl k h
  | cons x xs ih => exact fun h => (hf h x).trans (ih _)

theorem Hub.KeepsUnits.forEach {n : Nat} {f : Fin n → Hub → Hub} (hf : ∀ i g, Hub.KeepsUnits k g (f i g)) (h : Hub) :
    Hub.KeepsUnits k h (h.forEach n f) := .foldl (fun g i => hf i g) _ h

end

section
variable {k : Fin 16} (h : Hub)

theorem Hub.modStream_keepsUnits (j : Fin 16) {f : Stream → Stream}
    (hf : j = k → ∀ x, (f x).committed = x.committed ∧ (f x).discarded = x.discarded) :
    Hub.KeepsUnits k h (h.modStream j f) := by
  by_cases hj : k = j
  · subst hj
    refine ⟨?_, ?_, _, rfl⟩
    · rw [Hub.modStream_self]
      exact (hf rfl _).1
    · rw [Hub.modStream_self]
      exact (hf rfl _).2
  · refine ⟨?_, ?_, _, rfl⟩
    · rw [Hub.modStream_ne _ _ hj]
    · rw [Hub.modStream_ne _ _ hj]

theorem Hub.modRing_keepsUnits (r : Fin 17) {f : Ring → Ring} (hf : r = k.castSucc → ∀ x, ∃ w, f x = { x with send := w }) :
    Hub.KeepsUnits k h (h.modRing r f) := by
  refine ⟨rfl, rfl, ?_⟩
  by_cases hr : k.castSucc = r
  · subst hr
    rw [Hub.modRing_self]
    exact hf rfl _
  · rw [Hub.modRing_ne _ _ hr]
    exact ⟨_, rfl⟩

theorem Hub.moveSend_keepsUnits (r : Fin 17) (w : Word) : Hub.KeepsUnits k h (h.moveSend r w) := by
  refine ⟨by rw [Hub.moveSend_stream], by rw [Hub.moveSend_stream], ?_⟩
  by_cases hr : k.castSucc = r
  · subst hr
    exact ⟨w, Hub.moveSend_self _ _ _⟩
  · rw [Hub.moveSend_ne _ _ hr]
    exact ⟨_, rfl⟩

theorem Hub.carryMarks_keepsUnits (old : Word) : Hub.KeepsUnits k h (h.carryMarks old) := by
  have hs : ((h.carryMarks old).stream k).committed = (h.stream k).committed ∧
      ((h.carryMarks old).stream k).discarded = (h.stream k).discarded := by
    simp only [Hub.carryMarks, Hub.stream, Fin.getElem_fin, Vector.getElem_ofFn]
    split <;> exact ⟨rfl, rfl⟩
  exact ⟨hs.1, hs.2, _, rfl⟩

theorem Hub.endHold_keepsUnits (j : Fin 16) : Hub.KeepsUnits k h (h.endHold j) := by
  have hskip : ∀ w : Word, Hub.KeepsUnits k h
      (h.modStream j fun st => { st with skipped := st.skipped + w }) := fun w => h.modStream_keepsUnits j
        fun _ _ => ⟨rfl, rfl⟩
  have hmark : ∀ w : Word, Hub.KeepsUnits k h (h.modStream j fun st => { st with releaseMark := w }) := fun w =>
    h.modStream_keepsUnits j fun _ _ => ⟨rfl, rfl⟩
  have hend : ∀ g : Hub, Hub.KeepsUnits k g (g.modStream j fun st => { st with setter := none, fromHeld := false }) :=
    fun g => g.modStream_keepsUnits j fun _ _ => ⟨rfl, rfl⟩
  unfold Hub.endHold
  exact .trans (.ite (hmark _) ((hskip _).trans (Hub.moveSend_keepsUnits _ _ _))) (hend _)

theorem Hub.streamChanged_keepsUnits (j : Fin 16) : Hub.KeepsUnits k h (h.streamChanged j) :=
  .of_only (h.streamChanged_only j) (by decide) (by decide)

theorem Hub.endClosing_keepsUnits (j : Fin 16) : Hub.KeepsUnits k h (h.endClosing j) := by
  have hclose : ∀ g : Hub, Hub.KeepsUnits k g
      (g.modStream j fun st => { st with state := .closed, setter := none, fromHeld := false }) := fun g =>
    g.modStream_keepsUnits j fun _ _ => ⟨rfl, rfl⟩
  unfold Hub.endClosing
  exact (Hub.KeepsUnits.trans (.opt (.refl k h) (h.endHold_keepsUnits j)) (hclose _)).trans
    (Hub.streamChanged_keepsUnits _ j)

theorem Hub.releaseHold_keepsUnits (j : Fin 16) : Hub.KeepsUnits k h (h.releaseHold j) := by
  have hopen : ∀ g : Hub, Hub.KeepsUnits k g (g.modStream j fun st => { st with state := .opened }) := fun g =>
    g.modStream_keepsUnits j fun _ _ => ⟨rfl, rfl⟩
  unfold Hub.releaseHold
  exact ((h.endHold_keepsUnits j).trans (hopen _)).trans (Hub.streamChanged_keepsUnits _ j)

/-! ### Commits of other streams -/

theorem Hub.removeTail_keepsUnits {r : Fin 17} (hr : r ≠ k.castSucc) (e : Entry) : Hub.KeepsUnits k h (h.removeTail r e) := by
  have hlose : ∀ g : Hub, Hub.KeepsUnits k g (g.loseUnsent r e) := fun g => by
    have hcount : Hub.KeepsUnits k g
        ((g.moveSend r (e.key r + 1)).modStream e.stream fun st => { st with lost := st.lost + 1 }) :=
      (g.moveSend_keepsUnits r _).trans (Hub.modStream_keepsUnits _ _ fun _ _ => ⟨rfl, rfl⟩)
    unfold Hub.loseUnsent
    exact .ite hcount (hcount.trans (.of_only (Hub.notify_only _ _ _) (by decide) (by decide)))
  unfold Hub.removeTail
  dsimp only
  refine .opt (.trans (.opt (.opt (.refl _ _) (.of_only (Hub.lapseRetainers_only _ _ _ h) (by decide) (by decide)))
    (hlose _)) (Hub.modRing_keepsUnits _ r fun he => absurd he hr)) (Hub.carryMarks_keepsUnits _ _)

theorem Hub.makeRoom_keepsUnits {r : Fin 17} (hr : r ≠ k.castSucc) (len : Nat) :
    ∀ (n : Nat) (h : Hub), Hub.KeepsUnits k h (Hub.makeRoom r len n h)
  | 0, h => .refl k h
  | n + 1, h => by
    unfold Hub.makeRoom
    refine .ite ?_ (.refl k h)
    split
    · exact .refl k h
    · exact (h.removeTail_keepsUnits hr _).trans (Hub.makeRoom_keepsUnits hr len n _)

theorem castSucc_ne {j k : Fin 16} (hj : j ≠ k) : j.castSucc ≠ k.castSucc := fun he => hj (Fin.castSucc_injective 16 he)

theorem Hub.writeUnit_keepsUnits {r : Fin 17} {o : Offer} (hr : r ≠ k.castSucc) (ho : o.stream ≠ k) (unit : Word)
    (w : Option Word) : Hub.KeepsUnits k h (h.writeUnit r o unit w) := by
  refine ⟨?_, ?_, _, (Hub.writeUnit_ring_ne _ hr.symm (fun _ => (castSucc_ne ho).symm) _ _).trans rfl⟩
  · rw [Hub.writeUnit_stream, if_neg ho.symm]
  · rw [Hub.writeUnit_stream, if_neg ho.symm]

theorem Hub.boundRing_ne {j : Fin 16} (hj : j ≠ k) : h.boundRing j ≠ k.castSucc := by
  unfold Hub.boundRing
  split
  · exact (ownRing_ne_ringG k).symm
  · exact castSucc_ne hj

theorem Hub.commit_keepsUnits {o : Offer} (ho : o.stream ≠ k) : Hub.KeepsUnits k h (h.commit o).1 := by
  have hr := h.boundRing_ne ho
  unfold Hub.commit
  exact (((Hub.makeRoom_keepsUnits hr _ _ h).trans (Hub.writeUnit_keepsUnits _ hr ho _ _)).trans
    (.of_only (Hub.ringNotices_only _ _ _ _) (by decide) (by decide))).trans
    ((Hub.KeepsUnits.of_only (Hub.mapClips_only _ _) (by decide) (by decide)).trans
      (.of_only (Hub.mapClips_only _ _) (by decide) (by decide)))

theorem Hub.judge_keepsUnits {o : Offer} (ho : o.stream ≠ k) : Hub.KeepsUnits k h (h.judge o).1 := by
  have hd : Hub.KeepsUnits k h (h.countDiscard o.stream) := h.modStream_keepsUnits _ fun he => absurd he ho
  unfold Hub.judge
  dsimp only
  repeat' split
  · exact .refl k h
  · exact hd
  · exact hd
  · exact hd
  · exact h.commit_keepsUnits ho

theorem Hub.offer_keepsUnits {o : Offer} (ho : o.stream ≠ k) : Hub.KeepsUnits k h (h.offer o).1 :=
  (h.judge_keepsUnits ho).trans (.of_only (Hub.testClips_only _ _ _) (by decide) (by decide))

/-! ### Labels -/

theorem Hub.fileLabel_keepsUnits (hk : (12 : Fin 16) ≠ k) (d : Draft) (named : Option Word) :
    Hub.KeepsUnits k h (h.fileLabel d named).1 := by
  unfold Hub.fileLabel
  split
  · refine .trans (.trans (.of_only (h.modLog_only fun l => l.store d) (by decide) (by decide))
      (.of_only (Hub.modLog_only _ fun l => l.link h.log.nextLabel d named) (by decide) (by decide))) ?_
    unfold Hub.offerLabel
    exact .ite (Hub.offer_keepsUnits _ (by exact hk)) (.refl _ _)
  · exact .of_only (h.modLog_only _) (by decide) (by decide)

theorem Hub.arriveLabel_keepsUnits (hk : (12 : Fin 16) ≠ k) (d : Draft) (named : Option Word) :
    Hub.KeepsUnits k h (h.arriveLabel d named).1 := by
  rw [Hub.arriveLabel_fst]
  exact .trans (.trans (.of_only (h.offerTriggers_only d) (by decide) (by decide)) (Hub.fileLabel_keepsUnits _ hk d named))
    (.foldl (f := fun g t => (Hub.fileLabel g t none).1) (fun g t => g.fileLabel_keepsUnits hk t none) _ _)

theorem Hub.label_keepsUnits (hk : (12 : Fin 16) ≠ k) (d : Draft) : Hub.KeepsUnits k h (h.label d) :=
  h.arriveLabel_keepsUnits hk d none

/-! ### Pictures -/

theorem Hub.modCoder_keepsUnits (j : Fin 4) (f : Coder → Coder) : Hub.KeepsUnits k h (h.modCoder j f) :=
  .of_only (h.modCoder_only j f) (by decide) (by decide)

theorem Hub.offerPicture_keepsUnits {j : Fin 4} {o : Offer} (ho : o.stream ≠ k) :
    Hub.KeepsUnits k h (h.offerPicture j o).1 := (h.modCoder_keepsUnits j _).trans (Hub.offer_keepsUnits _ ho)

theorem Hub.flush_keepsUnits {j : Fin 4} (hj : pictureStream j ≠ k) :
    ∀ (n : Nat) (h : Hub), Hub.KeepsUnits k h (Hub.flush j n h)
  | 0, h => .refl k h
  | n + 1, h => by
    unfold Hub.flush
    split
    · exact .refl k h
    · split
      · exact .refl k h
      · exact ((h.modCoder_keepsUnits j _).trans ((Hub.modCoder_keepsUnits _ j _).trans
          (Hub.offerPicture_keepsUnits _ hj))).trans (Hub.flush_keepsUnits hj n _)

theorem Hub.settle_keepsUnits {j : Fin 4} (hj : pictureStream j ≠ k) : Hub.KeepsUnits k h (h.settle j) :=
  .opt (Hub.flush_keepsUnits hj _ h) (Hub.endClosing_keepsUnits _ _)

theorem Hub.dropPicture_keepsUnits (hk : (12 : Fin 16) ≠ k) (j : Fin 4) (f : Flight) (why : DropReason) :
    Hub.KeepsUnits k h (h.dropPicture j f why) :=
  (((h.modCoder_keepsUnits j _).trans (.of_only (Hub.notify_only _ _ _) (by decide) (by decide))).trans
    (Hub.label_keepsUnits _ hk _)).trans (.of_only (Hub.testClips_only _ _ _) (by decide) (by decide))

end

end Sys2Proof.Machine
end

section
/-! Proofs: what a commit makes of the ring, the stream and the memory (R20, R29, R32, R34). -/

namespace Sys2Proof.Machine

-- In order, so that the package in one text stays within the memory of its check.
set_option Elab.async false

/-! ### Room (R32) -/

/-- A unit of len sectors fits into a ring behind entries. -/
def Ring.RoomBehind (x : Ring) (len : Nat) (l : List Entry) : Prop := (l.map Entry.len).sum + len ≤ x.sectors ∧
    l.length < 1024

/-- The counts of a stream of its units committed and discarded. -/
def Stream.unitCounts (x : Stream) : Word × Word := (x.committed, x.discarded)

section
variable (h : Hub) (k : Fin 16)

theorem Hub.removeTail_ring_ne {r q : Fin 17} (hq : q ≠ r) (e : Entry) : (h.removeTail r e).ring q = h.ring q := by
  have hl := (h.lapseTail_only r e).ring_eq (by decide) q
  rw [Hub.removeTail_eq, Hub.dropTail_ring_ne _ hq]
  unfold Hub.beforeDrop
  split
  · unfold Hub.loseUnsent
    dsimp only
    split
    · rw [Hub.modStream_ring, Hub.moveSend_ne _ _ hq, hl]
    · rw [Hub.notify_ring, Hub.modStream_ring, Hub.moveSend_ne _ _ hq, hl]
  · exact hl

theorem Hub.makeRoom_ring_ne {r q : Fin 17} (hq : q ≠ r) (len : Nat) :
    ∀ (n : Nat) (h : Hub), (Hub.makeRoom r len n h).ring q = h.ring q
  | 0, _ => rfl
  | n + 1, h => by
    unfold Hub.makeRoom
    split
    · split
      · rfl
      · rw [Hub.makeRoom_ring_ne hq len n, Hub.removeTail_ring_ne _ hq]
    · rfl

theorem Hub.modStream_unitCounts (j : Fin 16) {f : Stream → Stream} (hf : ∀ x, (f x).unitCounts = x.unitCounts) :
    ((h.modStream j f).stream k).unitCounts = (h.stream k).unitCounts := by
  by_cases hj : k = j
  · subst hj
    rw [Hub.modStream_self, hf]
  · rw [Hub.modStream_ne _ _ hj]

theorem Hub.lost_unitCounts (j : Fin 16) :
    ((h.modStream j fun st => { st with lost := st.lost + 1 }).stream k).unitCounts = (h.stream k).unitCounts :=
  h.modStream_unitCounts k j fun _ => rfl

theorem Hub.carryMarks_unitCounts (old : Word) : ((h.carryMarks old).stream k).unitCounts = (h.stream k).unitCounts := by
  simp only [Hub.carryMarks, Hub.stream, Fin.getElem_fin, Vector.getElem_ofFn]
  split <;> rfl

theorem Hub.removeTail_unitCounts (r : Fin 17) (e : Entry) :
    ((h.removeTail r e).stream k).unitCounts = (h.stream k).unitCounts := by
  have hlose : ∀ g : Hub, ((g.loseUnsent r e).stream k).unitCounts = (g.stream k).unitCounts := fun g => by
    have hcount : (((g.moveSend r (e.key r + 1)).modStream e.stream fun st => { st with lost := st.lost + 1 }).stream
        k).unitCounts = (g.stream k).unitCounts := by
      rw [Hub.lost_unitCounts, Hub.moveSend_stream]
    unfold Hub.loseUnsent
    dsimp only
    split
    · exact hcount
    · rw [Hub.notify_stream]
      exact hcount
  have hlapse : ((h.lapseTail r e).stream k).unitCounts = (h.stream k).unitCounts := by
    rw [(h.lapseTail_only r e).stream_eq (by decide)]
  have hbefore : ((h.beforeDrop r e).stream k).unitCounts = (h.stream k).unitCounts := by
    unfold Hub.beforeDrop
    split
    · rw [hlose, hlapse]
    · exact hlapse
  rw [Hub.removeTail_eq]
  unfold Hub.dropTail
  dsimp only
  split
  · rw [Hub.carryMarks_unitCounts, Hub.modRing_stream, hbefore]
  · rw [Hub.modRing_stream, hbefore]

theorem Hub.makeRoom_unitCounts (r : Fin 17) (len : Nat) :
    ∀ (n : Nat) (h : Hub), ((Hub.makeRoom r len n h).stream k).unitCounts = (h.stream k).unitCounts
  | 0, _ => rfl
  | n + 1, h => by
    unfold Hub.makeRoom
    split
    · split
      · rfl
      · rw [Hub.makeRoom_unitCounts r len n, Hub.removeTail_unitCounts]
    · rfl

theorem Hub.makeRoom_ring (r : Fin 17) (len : Nat) : ∀ (n : Nat) (h : Hub),
    ∃ l w, (Hub.makeRoom r len n h).ring r = { h.ring r with index := l, send := w }
  | 0, _ => ⟨_, _, rfl⟩
  | n + 1, h => by
    unfold Hub.makeRoom
    split
    · split
      · exact ⟨_, _, rfl⟩
      · rename_i e rest hi
        obtain ⟨w, hw⟩ := h.removeTail_ring r e
        obtain ⟨l, v, hl⟩ := Hub.makeRoom_ring r len n (h.removeTail r e)
        exact ⟨l, v, by rw [hl, hw]⟩
    · exact ⟨_, _, rfl⟩

theorem Ring.not_roomBehind_iff (x : Ring) {len : Nat} (hl : 1 ≤ len) :
    x.free < len ∨ 1024 ≤ x.index.length ↔ ¬ x.RoomBehind len x.index := by
  unfold Ring.free Ring.RoomBehind
  omega

/-- R32: the units that leave make just room, oldest first. -/
theorem Hub.makeRoom_drops {r : Fin 17} {len : Nat} (hl : 1 ≤ len) :
    ∀ (m : Nat) (h : Hub), (h.ring r).index.length ≤ m → len ≤ (h.ring r).sectors →
      ∃ n w, (Hub.makeRoom r len m h).ring r = { h.ring r with index := (h.ring r).index.drop n, send := w } ∧
        (h.ring r).RoomBehind len ((h.ring r).index.drop n) ∧ ∀ i, i < n → ¬ (h.ring r).RoomBehind len
          ((h.ring r).index.drop i)
  | 0, h, hm, hlen => by
    have hi : (h.ring r).index = [] := List.length_eq_zero_iff.mp (Nat.le_zero.mp hm)
    refine ⟨0, _, rfl, ?_, fun i hi => absurd hi (Nat.not_lt_zero i)⟩
    rw [List.drop_zero, hi]
    exact ⟨by simpa using hlen, by decide⟩
  | m + 1, h, hm, hlen => by
    unfold Hub.makeRoom
    split
    · rename_i hfull
      rw [Ring.not_roomBehind_iff _ hl] at hfull
      split
      · rename_i hi
        rw [hi] at hfull
        exact absurd ⟨by simpa using hlen, by decide⟩ hfull
      · rename_i e rest hi
        obtain ⟨w, hw⟩ := h.removeTail_ring r e
        have hdrop : ((h.removeTail r e).ring r).index = (h.ring r).index.drop 1 := by rw [hw]
        obtain ⟨n, v, hring, hfits, hmore⟩ := Hub.makeRoom_drops hl m (h.removeTail r e)
          (by rw [hdrop, List.length_drop]; omega) (by rw [hw]; exact hlen)
        rw [hdrop, List.drop_drop] at hfits
        have hsame : ∀ l, ((h.removeTail r e).ring r).RoomBehind len l ↔ (h.ring r).RoomBehind len l :=
          fun l => by rw [hw]; exact Iff.rfl
        refine ⟨1 + n, v, ?_, (hsame _).mp hfits, fun i hi => ?_⟩
        · rw [hring, hw, List.drop_drop]
        · cases i with
          | zero => rwa [List.drop_zero]
          | succ i =>
            have hno := hmore i (by omega)
            rw [hdrop, List.drop_drop, hsame] at hno
            rwa [Nat.add_comm i 1]
    · rename_i hroom
      rw [Ring.not_roomBehind_iff _ hl, not_not] at hroom
      exact ⟨0, _, rfl, hroom, fun i hi => absurd hi (Nat.not_lt_zero i)⟩

end

/-! ### A commit -/

/-- The unit number and the G-number that a commit gives. -/
def Hub.nextG (h : Hub) (k : Fin 16) : Option Word := if h.boundRing k = 16 then some (h.ring 16).head else none

/-- The index entry that a commit adds. -/
def Hub.committedEntry (h : Hub) (o : Offer) : Entry :=
  h.newEntry (h.boundRing o.stream) o (h.nextUnit o.stream) (h.nextG o.stream)

/-- What a commit makes of the bound ring, the stream and the memory. -/
structure Hub.Commits (h t : Hub) (o : Offer) : Prop where
  ring : ∃ n w, t.ring (h.boundRing o.stream) =
      { h.ring (h.boundRing o.stream) with
        index := (h.ring (h.boundRing o.stream)).index.drop n ++ [h.committedEntry o]
        headOff := ((h.ring (h.boundRing o.stream)).headOff + sectorsOf o.payload.length) %
          (h.ring (h.boundRing o.stream)).sectors
        head := (h.ring (h.boundRing o.stream)).head + 1
        send := w } ∧
    (h.ring (h.boundRing o.stream)).RoomBehind (sectorsOf o.payload.length)
      ((h.ring (h.boundRing o.stream)).index.drop n) ∧
    ∀ i, i < n → ¬ (h.ring (h.boundRing o.stream)).RoomBehind (sectorsOf o.payload.length)
      ((h.ring (h.boundRing o.stream)).index.drop i)
  own : (t.ring o.stream.castSucc).head = h.nextUnit o.stream + 1
  committed : (t.stream o.stream).committed = (h.stream o.stream).committed + 1
  discarded : (t.stream o.stream).discarded = (h.stream o.stream).discarded
  mem : t.store.mem = (h.ring (h.boundRing o.stream)).writeBytes h.store.mem (h.ring (h.boundRing o.stream)).headOff
    (h.unitImage o (h.nextUnit o.stream) (h.nextG o.stream))

section
variable {h : Hub} {o : Offer}

theorem Hub.boundRing_cases (h : Hub) (k : Fin 16) :
    (h.stream k).global = true ∧ h.boundRing k = 16 ∨ (h.stream k).global = false ∧ h.boundRing k = k.castSucc := by
  unfold Hub.boundRing
  cases (h.stream k).global
  · exact .inr ⟨rfl, rfl⟩
  · exact .inl ⟨rfl, rfl⟩

theorem sectorsOf_pos (n : Nat) : 1 ≤ sectorsOf n := by
  unfold sectorsOf
  omega

/-- A hub in which room was made for the unit. -/
def Hub.roomed (h : Hub) (o : Offer) : Hub :=
  Hub.makeRoom (h.boundRing o.stream) (sectorsOf o.payload.length) (h.ring (h.boundRing o.stream)).index.length h

theorem Hub.roomed_only (h : Hub) (o : Offer) : Hub.OnlyChanges [.streams, .rings, .sending, .log, .notices] h (h.roomed o) :=
  Hub.makeRoom_only _ _ _ h

theorem Hub.roomed_ring (h : Hub) (o : Offer) (q : Fin 17) :
    ∃ l w, (h.roomed o).ring q = { h.ring q with index := l, send := w } := by
  by_cases hq : q = h.boundRing o.stream
  · subst hq
    exact Hub.makeRoom_ring _ _ _ h
  · rw [Hub.roomed, Hub.makeRoom_ring_ne hq]
    exact ⟨_, _, rfl⟩

theorem Hub.roomed_head (h : Hub) (o : Offer) (q : Fin 17) : ((h.roomed o).ring q).head = (h.ring q).head := by
  obtain ⟨l, w, hl⟩ := h.roomed_ring o q
  rw [hl]

theorem Hub.roomed_nextUnit (h : Hub) (o : Offer) (k : Fin 16) : (h.roomed o).nextUnit k = h.nextUnit k :=
  h.roomed_head o k.castSucc

/-- A commit: room, the unit, its notice, and the clips. -/
theorem Hub.commit_eq (h : Hub) (o : Offer) :
    h.commit o =
      (((((h.roomed o).writeUnit (h.boundRing o.stream) o (h.nextUnit o.stream) (h.nextG o.stream)).ringNotices
          (h.boundRing o.stream) (h.ring (h.boundRing o.stream)).headOff (sectorsOf o.payload.length)).spanCommit o.stream
          (h.nextUnit o.stream) o.frame.serial).measureClips (h.boundRing o.stream),
        .committed (h.nextUnit o.stream) (h.nextG o.stream)) := by
  obtain ⟨l, w, hl⟩ := h.roomed_ring o (h.boundRing o.stream)
  have hunit := h.roomed_nextUnit o o.stream
  have hg := h.roomed_head o 16
  unfold Hub.commit
  dsimp only
  rw [← Hub.roomed, hunit, hg, hl]
  rfl

/-- The notice and the clips of a commit. -/
theorem Hub.afterWrite_only (u : Hub) (r : Fin 17) (start len : Nat) (k : Fin 16) (unit serial : Word) :
    Hub.OnlyChanges [.log, .notices] u (((u.ringNotices r start len).spanCommit k unit serial).measureClips r) :=
  ((u.ringNotices_only r start len).mono (by decide)).trans
    (((Hub.mapClips_only _ _).mono (by decide)).trans ((Hub.mapClips_only _ _).mono (by decide)))

/-- What the commit of a unit that the ring can hold makes. -/
theorem Hub.commit_commits (hl : sectorsOf o.payload.length ≤ (h.ring (h.boundRing o.stream)).sectors) :
    h.Commits (h.commit o).1 o := by
  have hroomed := h.roomed_ring o
  obtain ⟨n, w, hdrop, hroom, hmore⟩ := Hub.makeRoom_drops (sectorsOf_pos o.payload.length)
    (h.ring (h.boundRing o.stream)).index.length h le_rfl hl
  rw [← Hub.roomed] at hdrop
  have hentry : (h.roomed o).newEntry (h.boundRing o.stream) o (h.nextUnit o.stream) (h.nextG o.stream) =
    h.committedEntry o := by
    rw [Hub.newEntry, hdrop]
    rfl
  have hcounts : ((h.roomed o).stream o.stream).unitCounts = (h.stream o.stream).unitCounts :=
    Hub.makeRoom_unitCounts o.stream _ _ _ h
  have hmem : (h.roomed o).store.mem = h.store.mem := ((h.roomed_only o) .memory (by decide)).symm
  have hstrap : (h.roomed o).strap = h.strap := ((h.roomed_only o) .strap (by decide)).symm
  have htb : (h.roomed o).tb = h.tb := ((h.roomed_only o) .timebase (by decide)).symm
  have hhead := h.roomed_head o
  have hback : ((h.roomed o).ring (h.boundRing o.stream)).headOff = (h.ring (h.boundRing o.stream)).headOff := by rw [hdrop]
  have hwrites := (h.roomed o).writeUnit_ring_self (r := h.boundRing o.stream) o (h.nextUnit o.stream) (h.nextG o.stream)
  have hown : (((h.roomed o).writeUnit (h.boundRing o.stream) o (h.nextUnit o.stream) (h.nextG o.stream)).ring
      o.stream.castSucc).head = h.nextUnit o.stream + 1 := by
    rcases h.boundRing_cases o.stream with ⟨-, hr⟩ | ⟨-, hr⟩
    · rw [hr, Hub.writeUnit_ring_own]
      exact congrArg (· + 1) (hhead _)
    · rw [hr, Hub.writeUnit_ring_self]
      exact congrArg (· + 1) (hhead _)
  have hcount := (h.roomed o).writeUnit_stream (h.boundRing o.stream) o (h.nextUnit o.stream) (h.nextG o.stream) o.stream
  rw [if_pos rfl] at hcount
  have hbytes := (h.roomed o).writeUnit_mem (h.boundRing o.stream) o (h.nextUnit o.stream) (h.nextG o.stream)
  rw [Hub.commit_eq]
  have hlate := Hub.afterWrite_only
    ((h.roomed o).writeUnit (h.boundRing o.stream) o (h.nextUnit o.stream) (h.nextG o.stream)) (h.boundRing o.stream)
    (h.ring (h.boundRing o.stream)).headOff (sectorsOf o.payload.length) o.stream (h.nextUnit o.stream) o.frame.serial
  have himage : (h.roomed o).unitImage o (h.nextUnit o.stream) (h.nextG o.stream) =
      h.unitImage o (h.nextUnit o.stream) (h.nextG o.stream) := by
    unfold Hub.unitImage Hub.unitHeader
    rw [hstrap, htb]
  constructor
  case ring =>
    refine ⟨n, w, ?_, hroom, hmore⟩
    rw [hlate.ring_eq (by decide), hwrites, hentry, hdrop]
    rfl
  case own => rw [hlate.ring_eq (by decide), hown]
  case committed =>
    rw [hlate.stream_eq (by decide), hcount]
    exact congrArg (· + 1) (congrArg Prod.fst hcounts)
  case discarded =>
    rw [hlate.stream_eq (by decide), hcount]
    exact congrArg Prod.snd hcounts
  case mem =>
    rw [← hlate .memory (by decide), hbytes, himage, hmem, hback, hdrop]
    rfl

end

/-! ### The bytes of a commit (R34) -/

/-- A write into a ring leaves every byte outside the sectors written. -/
theorem Ring.read_writeBytes_outside (x : Ring) (m : List (Nat × BitVec 8)) {start len a : Nat} {bs : Bytes}
    (hs : start < x.sectors) (hl : len ≤ x.sectors) (hb : bs.length = len * 512) (ha : x.Outside start len a) :
    Memory.read (x.writeBytes m start bs) a = Memory.read m a := by
  unfold Ring.sectors at hs hl
  have htake : (bs.take ((x.size * 8 - start) * 512)).length = min ((x.size * 8 - start) * 512) (len * 512) := by
    rw [List.length_take, hb]
  have hdrop : (bs.drop ((x.size * 8 - start) * 512)).length = len * 512 - (x.size * 8 - start) * 512 := by
    rw [List.length_drop, hb]
  unfold Ring.writeBytes Ring.sectors Ring.baseByte
  dsimp only
  rw [Memory.read_write, if_neg, Memory.read_write, if_neg]
  · rintro ⟨hlow, hhigh⟩
    rw [htake] at hhigh
    refine ha (a - (x.base * 4096 + start * 512)) (by omega) ?_
    rw [Nat.mod_eq_of_lt (by omega)]
    omega
  · rintro ⟨hlow, hhigh⟩
    rw [hdrop] at hhigh
    refine ha ((x.size * 8 - start) * 512 + (a - x.base * 4096)) (by omega) ?_
    have hsum : 512 * start + ((x.size * 8 - start) * 512 + (a - x.base * 4096)) = 4096 * x.size + (a - x.base * 4096) := by
      omega
    rw [hsum, Nat.add_mod_left, Nat.mod_eq_of_lt (by omega)]
    omega

/-- Table 73: the header that a commit writes is that of its entry. -/
theorem Hub.unitHeader_eq (h : Hub) (o : Offer) (hp : o.producer.length ≤ 32) :
    h.unitHeader o { o.flags with damaged := false, tcJump := o.frame.jump } (h.nextUnit o.stream) (h.nextG o.stream) =
      h.headerOf (h.committedEntry o) o.frame.phase o.producer := by
  have hprod : (o.producer ++ zeros 32).take 32 = o.producer ++ zeros (32 - o.producer.length) := by
    rw [List.take_append, List.take_of_length_le hp]
    unfold zeros
    rw [List.take_replicate, Nat.min_eq_left (Nat.sub_le _ _)]
  unfold Hub.unitHeader
  rw [hprod, ← List.append_assoc]
  rfl

/-- The sectors of a committed unit hold its header, its payload and zeros. -/
theorem Hub.Commits.stores {h t u : Hub} {o : Offer} (hc : h.Commits t o) (hm : h.MemoryOk)
    (hs : (h.ring (h.boundRing o.stream)).headOff < (h.ring (h.boundRing o.stream)).sectors)
    (hl : sectorsOf o.payload.length ≤ (h.ring (h.boundRing o.stream)).sectors) (hp : o.producer.length ≤ 32)
    (hbase : (u.ring (h.boundRing o.stream)).base = (h.ring (h.boundRing o.stream)).base)
    (hsize : (u.ring (h.boundRing o.stream)).size = (h.ring (h.boundRing o.stream)).size)
    (hmem : (u.ring (h.boundRing o.stream)).readBytes u.store.mem (h.ring (h.boundRing o.stream)).headOff
        (512 * sectorsOf o.payload.length) =
      (u.ring (h.boundRing o.stream)).readBytes t.store.mem (h.ring (h.boundRing o.stream)).headOff
        (512 * sectorsOf o.payload.length)) (hstrap : u.strap = h.strap) (hrate : u.tb.rate = h.tb.rate) :
    u.Stores (h.boundRing o.stream) (h.committedEntry o) o.frame.phase o.producer o.payload := by
  have hlen := h.unitImage_length o (h.nextUnit o.stream) (h.nextG o.stream)
  have hread := (h.ring (h.boundRing o.stream)).readBytes_writeBytes hm (n := 512 * sectorsOf o.payload.length)
    (bs := h.unitImage o (h.nextUnit o.stream) (h.nextG o.stream)) hs (by rw [hlen]; exact Nat.mul_le_mul_right _ hl)
    (by rw [hlen]; omega)
  have hring : ∀ m a n, (u.ring (h.boundRing o.stream)).readBytes m a n =
      (h.ring (h.boundRing o.stream)).readBytes m a n := fun m a n => by
    unfold Ring.readBytes Ring.sectors Ring.baseByte
    rw [hbase, hsize]
  have hheader : u.headerOf (h.committedEntry o) o.frame.phase o.producer =
      h.headerOf (h.committedEntry o) o.frame.phase o.producer := by
    unfold Hub.headerOf
    rw [hstrap, hrate]
  unfold Hub.Stores
  rw [hheader, ← Hub.unitHeader_eq h o hp]
  refine (hmem.trans (hring _ _ _)).trans ?_
  rw [hc.mem, hread, List.take_of_length_le (by rw [hlen]; omega)]
  unfold Hub.unitImage
  dsimp only
  rw [List.length_append, Hub.unitHeader_length, Nat.mul_comm]
  rfl

/-! ### The fate of a unit that is offered (R29, R30) -/

section
variable {h : Hub} {o : Offer}

theorem Hub.offer_eq (h : Hub) (o : Offer) :
    h.offer o = ((h.judge o).1.testClips o.stream (some o.frame.serial), (h.judge o).2) := rfl

theorem Hub.judge_commits (hs : (h.stream o.stream).state ≠ .closed)
    (hd : ¬ ((h.stream o.stream).holding = true ∧ (h.stream o.stream).discard = true))
    (hl : sectorsOf o.payload.length ≤ (h.ring (h.boundRing o.stream)).sectors / 2)
    (he : ¬ (o.flags.inputError = true ∧ ¬ (h.ring (h.boundRing o.stream)).keep = true)) : h.judge o = h.commit o := by
  unfold Hub.judge
  dsimp only
  rw [if_neg hs, if_neg hd, if_neg (Nat.not_lt.mpr hl), if_neg he]

theorem Hub.judge_closed (hs : (h.stream o.stream).state = .closed) : h.judge o = (h, .notTaken) := if_pos hs

theorem Hub.judge_discards (hs : (h.stream o.stream).state ≠ .closed)
    (hd : (h.stream o.stream).holding = true ∧ (h.stream o.stream).discard = true) :
    h.judge o = (h.countDiscard o.stream, .discarded) := by
  unfold Hub.judge
  dsimp only
  rw [if_neg hs, if_pos hd]

theorem Hub.judge_tooLarge (hs : (h.stream o.stream).state ≠ .closed)
    (hd : ¬ ((h.stream o.stream).holding = true ∧ (h.stream o.stream).discard = true))
    (hl : (h.ring (h.boundRing o.stream)).sectors / 2 < sectorsOf o.payload.length) :
    h.judge o = (h.countDiscard o.stream, .tooLarge) := by
  unfold Hub.judge
  dsimp only
  rw [if_neg hs, if_neg hd, if_pos hl]

theorem Hub.judge_aborts (hs : (h.stream o.stream).state ≠ .closed)
    (hd : ¬ ((h.stream o.stream).holding = true ∧ (h.stream o.stream).discard = true))
    (hl : sectorsOf o.payload.length ≤ (h.ring (h.boundRing o.stream)).sectors / 2)
    (he : o.flags.inputError = true ∧ ¬ (h.ring (h.boundRing o.stream)).keep = true) :
    h.judge o = (h.countDiscard o.stream, .aborted) := by
  unfold Hub.judge
  dsimp only
  rw [if_neg hs, if_neg hd, if_neg (Nat.not_lt.mpr hl), if_pos he]

theorem Stream.holding_iff (x : Stream) :
    x.holding = true ↔ x.state = .held ∨ (x.state = .closing ∧ x.fromHeld = true) := by
  rw [Stream.holding, Bool.or_eq_true, Bool.and_eq_true, beq_iff_eq, beq_iff_eq]

theorem Stream.discards_iff (x : Stream) : x.holding = true ∧ x.discard = true ↔
    x.discard = true ∧ (x.state = .held ∨ (x.state = .closing ∧ x.fromHeld = true)) := by
  rw [Stream.holding_iff, and_comm]

theorem Stream.holding_ne_closed {x : Stream} (hx : x.holding = true) : x.state ≠ .closed := by
  rcases (Stream.holding_iff x).mp hx with hs | ⟨hs, -⟩ <;> rw [hs] <;> nofun

/-- A unit that is not committed is counted at most. -/
theorem Hub.judge_counts {fate : Fate} (hj : h.judge o = (h.countDiscard o.stream, fate)) :
    ((h.offer o).1.stream o.stream) =
      { h.stream o.stream with discarded := (h.stream o.stream).discarded + 1 } ∧
    (h.offer o).1.store.rings = h.store.rings ∧ (h.offer o).1.store.mem = h.store.mem ∧ (h.offer o).2 = fate := by
  rw [Hub.offer_eq, hj]
  have ht := (h.countDiscard o.stream).testClips_only o.stream (some o.frame.serial)
  refine ⟨?_, (ht .rings (by decide)).symm, (ht .memory (by decide)).symm, rfl⟩
  rw [ht.stream_eq (by decide)]
  exact Hub.modStream_self _ _ _

end

end Sys2Proof.Machine
end

section
/-! Proofs: the ends of pictures (R56 to R60): slices, drops, completion, and what a context is left with. -/

namespace Sys2Proof.Machine

-- In order, so that the package in one text stays within the memory of its check.
set_option Elab.async false

/-! ### Substitute units that a flush offers (R62) -/

/-- The number of substitute units of a kind among flights. -/
def substitutes (fs : List Flight) (black : Bool) : Nat := (fs.filter fun f => f.subst == some black).length

/-- The flights before the first picture. -/
def Coder.waiting (c : Coder) : List Flight := c.flight.takeWhile fun f => f.subst != none

/-- A context after its substitute units at the front have been offered. -/
def Coder.flushed (c : Coder) : Coder :=
  { c with
    sourceChange := c.sourceChange && c.waiting.isEmpty
    flight := c.flight.dropWhile fun f => f.subst != none
    counts := { c.counts with
      repeats := c.counts.repeats + BitVec.ofNat 32 (substitutes c.waiting false)
      blacks := c.counts.blacks + BitVec.ofNat 32 (substitutes c.waiting true) } }

theorem Coder.flushed_of_picture {c : Coder} (hf : ∀ f ∈ c.flight.head?, f.subst = none) : c.flushed = c := by
  have hempty : c.waiting = [] ∧ (c.flight.dropWhile fun f => f.subst != none) = c.flight := by
    unfold Coder.waiting
    cases hfl : c.flight with
    | nil => exact ⟨rfl, rfl⟩
    | cons f rest =>
      have hs : f.subst = none := hf f (by rw [hfl]; rfl)
      simp [hs]
  obtain ⟨hwait, hdrop⟩ := hempty
  unfold Coder.flushed
  rw [hwait, hdrop]
  simp [substitutes]

section
variable (h : Hub) (k : Fin 4)

theorem Hub.offerSubstitute_context (f : Flight) (black : Bool) :
    (h.offerSubstitute k f black).coders[k]'k.2 = { h.coders[k]'k.2 with
      sourceChange := false
      counts := { (h.coders[k]'k.2).counts with
        repeats := if black then (h.coders[k]'k.2).counts.repeats else (h.coders[k]'k.2).counts.repeats + 1
        blacks := if black then (h.coders[k]'k.2).counts.blacks + 1 else (h.coders[k]'k.2).counts.blacks } } := by
  unfold Hub.offerSubstitute
  dsimp only
  simp only [Hub.offerPicture_coders]
  rw [Hub.modCoder_self, Hub.modCoder_self]
  cases black <;> rfl

theorem Coder.flushed_cons {c : Coder} {f : Flight} {rest : List Flight} {black : Bool} (hf : c.flight = f :: rest)
    (hs : f.subst = some black) :
    c.flushed = Coder.flushed { c with
      flight := rest
      sourceChange := false
      counts := { c.counts with
        repeats := if black then c.counts.repeats else c.counts.repeats + 1
        blacks := if black then c.counts.blacks + 1 else c.counts.blacks } } := by
  have hwait : c.waiting = f :: rest.takeWhile fun f => f.subst != none := by
    unfold Coder.waiting
    rw [hf, List.takeWhile_cons, hs]
    rfl
  have hdrop : (c.flight.dropWhile fun f => f.subst != none) = rest.dropWhile fun f => f.subst != none := by
    rw [hf, List.dropWhile_cons, hs]
    rfl
  unfold Coder.flushed
  rw [hwait, hdrop]
  cases black
  · simp [substitutes, Coder.waiting, hs, Nat.add_comm, BitVec.ofNat_add, BitVec.add_assoc]
  · simp [substitutes, Coder.waiting, hs, Nat.add_comm, BitVec.ofNat_add, BitVec.add_assoc]

variable {k}

/-- R62: what a flush makes of its context. -/
theorem Hub.flush_context : ∀ (n : Nat) (h : Hub), (h.coders[k]'k.2).flight.length ≤ n →
    (Hub.flush k n h).coders[k]'k.2 = (h.coders[k]'k.2).flushed := by
  intro n
  induction n with
  | zero =>
    intro h hn
    have hnil : (h.coders[k]'k.2).flight = [] := List.length_eq_zero_iff.mp (Nat.le_zero.mp hn)
    exact (Coder.flushed_of_picture (forall_head?_nil hnil _)).symm
  | succ n ih =>
    intro h hn
    match hf : (h.coders[k]'k.2).flight with
    | [] => rw [Hub.flush_empty hf, Coder.flushed_of_picture (forall_head?_nil hf _)]
    | f :: rest =>
      cases hs : f.subst with
      | none =>
        have hhead : ∀ x ∈ (h.coders[k]'k.2).flight.head?, x.subst = none := by rw [hf]; simpa using hs
        rw [Hub.flush_stop hhead, Coder.flushed_of_picture hhead]
      | some black =>
        have hself : ((h.modCoder k fun c => { c with flight := rest }).offerSubstitute k f black).coders[k]'k.2 = _ :=
          Hub.offerSubstitute_context _ _ _ _
        rw [Hub.modCoder_self] at hself
        rw [hf, List.length_cons] at hn
        rw [Hub.flush_offer hf hs, ih _ (by rw [hself]; exact Nat.le_of_succ_le_succ hn), hself, Coder.flushed_cons hf hs]

theorem Hub.settle_context : (h.settle k).coders[k]'k.2 = (h.coders[k]'k.2).flushed := by
  rw [h.settle_coders k]
  exact Hub.flush_context _ h le_rfl

theorem Hub.settle_other {j : Fin 4} (hj : j ≠ k) : (h.settle k).coders[j]'j.2 = h.coders[j]'j.2 := by
  rw [h.settle_coders k]
  exact (Hub.flush_coders k _ h).1 j hj

/-- With a picture at the front nothing is offered. -/
theorem Hub.settle_picture (hf : ∀ f ∈ (h.coders[k]'k.2).flight.head?, f.subst = none) : h.settle k = h.closeIfDone k := by
  unfold Hub.settle
  rw [Hub.flush_stop hf]

/-! ### Drops and completion -/

theorem Hub.dropPicture_coders (j : Fin 4) (f : Flight) (why : DropReason) :
    (h.dropPicture j f why).coders =
      (h.modCoder j fun c => { c with q := min 63 (c.q + 8), counts := c.counts.drop why }).coders := by
  unfold Hub.dropPicture
  dsimp only
  rw [← (Hub.testClips_only _ _ _) .coders (by decide), ← (Hub.label_only _ _) .coders (by decide)]
  exact ((Hub.notify_only _ _ _) .coders (by decide)).symm

theorem Hub.dropPicture_context (j : Fin 4) (f : Flight) (why : DropReason) :
    (h.dropPicture j f why).coders[j] =
      { h.coders[j]'j.2 with q := min 63 ((h.coders[j]'j.2).q + 8), counts := (h.coders[j]'j.2).counts.drop why } := by
  simp only [Hub.dropPicture_coders]
  exact Hub.modCoder_self _ _ _

theorem Hub.dropPicture_other {i j : Fin 4} (hi : i ≠ j) (f : Flight) (why : DropReason) :
    (h.dropPicture j f why).coders[i] = h.coders[i] := by
  simp only [Hub.dropPicture_coders]
  exact Hub.modCoder_ne _ _ hi

/-- R60: a picture that has left the flight is dropped, and what waited behind it is offered. -/
theorem Hub.drop_settles {h t : Hub} {f : Flight} {why : DropReason} (ht : t = (h.dropPicture k f why).settle k) :
    t.coders[k] = Coder.flushed
      { h.coders[k] with q := min 63 ((h.coders[k]).q + 8), counts := (h.coders[k]).counts.drop why } ∧
    (∀ j, j ≠ k → t.coders[j] = h.coders[j]) ∧ (∀ p : Fin 4, (t.notices[p]).summary.getLsbD 10 = true) ∧
    Hub.OnlyChanges pictureParts h t := by
  have hself := (h.dropPicture k f why).settle_context (k := k)
  have hother : ∀ j, j ≠ k → _ := fun j hj => (h.dropPicture k f why).settle_other (k := k) (j := j) hj
  have hheard := Hub.settle_heard (h.dropPicture k f why) k
  have honly := Hub.settle_pictureParts (h.dropPicture k f why) k
  rw [← ht] at hself hheard honly
  rw [Hub.dropPicture_context] at hself
  refine ⟨hself, fun j hj => ?_, fun p => ?_, (h.dropPicture_pictureParts k f why).trans honly⟩
  · have hsame := hother j hj
    rw [← ht] at hsame
    exact hsame.trans (h.dropPicture_other hj f why)
  · exact hheard.summary_mono p (by decide) (h.dropPicture_summary k f why p)

end

/-! ### The end of a slice -/

section
variable {h : Hub} {k : Fin 4} {f : Flight} {x : Coding} {q : Nat} {rest : List Flight} {coded : Bytes}

theorem Hub.sliceEnd_eq (hf : (h.coders[k]'k.2).flight = f :: rest) (hc : f.coding = some x) (hq : x.slice = some q) :
    Hub.sliceEnd k coded h =
      if x.cPic < x.b + 8 * coded.length then
        ((h.modCoder k fun c => { c with flight := rest }).dropPicture k f .ceiling).settle k
      else if (h.coders[k]'k.2).format.slices ≤ x.i + 1 then
        ((h.modCoder k fun c => { c with flight := rest }).completePicture k f (x.afterSlice q coded)).settle k
      else h.modCoder k fun c => { c with flight := { f with coding := some (x.afterSlice q coded) } :: rest } := by
  unfold Hub.sliceEnd
  dsimp only
  rw [hf]
  dsimp only
  rw [hc]
  dsimp only
  rw [hq]
  rfl

/-- What the end of CLOSING leaves of every ring. -/
theorem Hub.endHold_rings (h : Hub) (j : Fin 16) (r : Fin 17) : ∃ w, (h.endHold j).ring r = { h.ring r with send := w } := by
  by_cases hr : r = j.castSucc
  · subst hr
    exact (h.endHold_keepsUnits (k := j) j).ring
  · exact ⟨(h.ring r).send, Hub.endHold_ring_ne _ hr⟩

theorem Hub.closeIfDone_keeps (h : Hub) (k : Fin 4) :
    (∀ j, Hub.KeepsUnits j h (h.closeIfDone k)) ∧ (h.closeIfDone k).store.mem = h.store.mem ∧
      ∀ r, ∃ w, (h.closeIfDone k).ring r = { h.ring r with send := w } := by
  unfold Hub.closeIfDone
  split
  · refine ⟨fun j => h.endClosing_keepsUnits _, (h.endClosing_only _ .memory (by decide)).symm, fun r => ?_⟩
    rw [Hub.endClosing_ring]
    split
    · exact h.endHold_rings _ r
    · exact ⟨_, rfl⟩
  · exact ⟨fun j => .refl j h, rfl, fun r => ⟨_, rfl⟩⟩

/-- The unit that a complete picture offers, with the mark that stands. -/
def Hub.pictureUnit (h : Hub) (k : Fin 4) (f : Flight) (y : Coding) : Offer :=
  { h.pictureOffer k f y with flags := { inputError := f.lineError, sourceChange := (h.coders[k]'k.2).sourceChange } }

/-- The hub after the unit of a complete picture has been offered. -/
def Hub.offered (h : Hub) (k : Fin 4) (f : Flight) (y : Coding) : Hub :=
  ((h.modCoder k fun c => { c with sourceChange := false }).offer (h.pictureUnit k f y)).1

theorem Hub.completePicture_offered (h : Hub) (k : Fin 4) (f : Flight) (y : Coding) :
    h.completePicture k f y =
      if ((h.modCoder k fun c => { c with sourceChange := false }).judge (h.pictureUnit k f y)).2 = .tooLarge then
        (h.offered k f y).dropPicture k f .tooLarge
      else (h.offered k f y).modCoder k fun c => c.complete y.b y.last := h.completePicture_eq k f y

theorem Hub.offered_coders (h : Hub) (k : Fin 4) (f : Flight) (y : Coding) :
    (h.offered k f y).coders = (h.modCoder k fun c => { c with sourceChange := false }).coders :=
  ((Hub.offer_only _ _) .coders (by decide)).symm

theorem Hub.offered_only (h : Hub) (k : Fin 4) (f : Flight) (y : Coding) :
    Hub.OnlyChanges pictureParts h (h.offered k f y) :=
  (h.modCoder_pictureParts k _).trans ((Hub.offer_only _ _).mono (by decide))

theorem Hub.offered_context (h : Hub) (k : Fin 4) (f : Flight) (y : Coding) :
    (h.offered k f y).coders[k]'k.2 = { h.coders[k]'k.2 with sourceChange := false } ∧
      ∀ j, j ≠ k → (h.offered k f y).coders[j]'j.2 = h.coders[j]'j.2 := by
  simp only [Hub.offered_coders]
  exact ⟨h.modCoder_self k _, fun j hj => h.modCoder_ne _ hj⟩

/-- What a completion within the ring's measure leaves. -/
theorem Hub.complete_settles {h t : Hub} {k : Fin 4} {f : Flight} {y : Coding}
    (ht : t = ((h.offered k f y).modCoder k fun c => c.complete y.b y.last).settle k) :
    t.coders[k]'k.2 = Coder.flushed (Coder.complete { h.coders[k]'k.2 with sourceChange := false } y.b y.last) ∧
    (∀ j, j ≠ k → t.coders[j]'j.2 = h.coders[j]'j.2) ∧ Hub.OnlyChanges pictureParts h t := by
  obtain ⟨hself, hother⟩ := h.offered_context k f y
  have hmod : ((h.offered k f y).modCoder k fun c => c.complete y.b y.last).coders[k]'k.2 =
      Coder.complete { h.coders[k]'k.2 with sourceChange := false } y.b y.last := by rw [Hub.modCoder_self, hself]
  have hctx := ((h.offered k f y).modCoder k fun c => c.complete y.b y.last).settle_context (k := k)
  rw [← ht, hmod] at hctx
  refine ⟨hctx, fun j hj => ?_, ?_⟩
  · rw [ht]
    exact (Hub.settle_other _ hj).trans ((Hub.modCoder_ne _ _ hj).trans (hother j hj))
  · rw [ht]
    exact (h.offered_only k f y).trans ((Hub.modCoder_pictureParts _ k _).trans (Hub.settle_pictureParts _ k))

/-- With no substitute unit behind it, a completion adds nothing to what the offer made. -/
theorem Hub.complete_settles_units {h t : Hub} {k : Fin 4} {f : Flight} {y : Coding}
    (hrest : ∀ g ∈ (h.coders[k]'k.2).flight.head?, g.subst = none)
    (ht : t = ((h.offered k f y).modCoder k fun c => c.complete y.b y.last).settle k) :
    (∀ j, Hub.KeepsUnits j (h.offered k f y) t) ∧ t.store.mem = (h.offered k f y).store.mem ∧
      ∀ r, ∃ w, t.ring r = { (h.offered k f y).ring r with send := w } := by
  have hfl : (((h.offered k f y).modCoder k fun c => c.complete y.b y.last).coders[k]'k.2).flight =
    (h.coders[k]'k.2).flight := by
    rw [Hub.modCoder_self, (h.offered_context k f y).1]
    rfl
  rw [ht, Hub.settle_picture _ (by rw [hfl]; exact hrest)]
  obtain ⟨hkeeps, hmem, hrings⟩ := ((h.offered k f y).modCoder k fun c => c.complete y.b y.last).closeIfDone_keeps k
  exact ⟨fun j => (Hub.modCoder_keepsUnits _ k _).trans (hkeeps j), hmem, hrings⟩

/-- A flight whose substitute units are none at the front. -/
theorem head_of_dropWhile {fs : List Flight} (hd : (fs.dropWhile fun f => f.subst != none) = fs) :
    ∀ g ∈ fs.head?, g.subst = none := by
  cases fs with
  | nil => exact forall_head?_nil rfl _
  | cons f fs =>
    intro g hg
    obtain rfl : f = g := by simpa using hg
    by_contra hs
    rw [List.dropWhile_cons, if_pos (by simpa using hs)] at hd
    have hlen := List.length_dropWhile_le (fun f : Flight => f.subst != none) fs
    rw [hd, List.length_cons] at hlen
    omega

theorem labelStream_ne (k : Fin 4) : (12 : Fin 16) ≠ pictureStream k := fun he => by
  have hv := congrArg Fin.val he
  have hk := k.isLt
  simp only [pictureStream] at hv
  omega

/-- A drop leaves the units of every stream but those that follow it. -/
theorem Hub.drop_settles_units (h : Hub) (k : Fin 4) (f : Flight) (why : DropReason)
    (hrest : ∀ g ∈ (h.coders[k]'k.2).flight.head?, g.subst = none) :
    Hub.KeepsUnits (pictureStream k) h ((h.dropPicture k f why).settle k) := by
  have hfl : ((h.dropPicture k f why).coders[k]).flight = (h.coders[k]).flight := by
    rw [Hub.dropPicture_context]
  rw [Hub.settle_picture _ (by rw [hfl]; exact hrest)]
  exact (h.dropPicture_keepsUnits (labelStream_ne k) k f why).trans
    ((Hub.closeIfDone_keeps _ k).1 _)

/-! ### What the completion of a picture leaves -/

/-- Whether the Store discards what a stream offers. -/
def Stream.Discards (x : Stream) : Prop := x.discard = true ∧ (x.state = .held ∨ (x.state = .closing ∧ x.fromHeld = true))

/-- R58: a picture that is not too large completes, whatever the Store does with the unit. -/
theorem Hub.completePicture_completes (h : Hub) (k : Fin 4) (f : Flight) (y : Coding)
    (hn : ¬ ((h.stream (pictureStream k)).state ≠ .closed ∧ ¬ (h.stream (pictureStream k)).Discards ∧
      (h.ring (h.boundRing (pictureStream k))).sectors / 2 < sectorsOf y.coded.length)) :
    h.completePicture k f y = (h.offered k f y).modCoder k fun c => c.complete y.b y.last := by
  refine (h.completePicture_offered k f y).trans (if_neg fun hfate => hn ?_)
  unfold Hub.judge at hfate
  dsimp only at hfate
  split at hfate
  · exact absurd hfate nofun
  · rename_i hs
    split at hfate
    · exact absurd hfate nofun
    · rename_i hd
      split at hfate
      · rename_i hl
        exact ⟨hs, fun hc => hd ((Stream.discards_iff _).mpr hc), hl⟩
      · split at hfate
        · exact absurd hfate nofun
        · exact absurd hfate nofun

theorem Hub.pictureUnit_counted (h : Hub) (k : Fin 4) (f : Flight) (y : Coding)
    (hn : (h.stream (pictureStream k)).Discards ∨ ((h.stream (pictureStream k)).state ≠ .closed ∧
      ¬ (h.stream (pictureStream k)).Discards ∧
      sectorsOf y.coded.length ≤ (h.ring (h.boundRing (pictureStream k))).sectors / 2 ∧ f.lineError = true ∧
      (h.ring (h.boundRing (pictureStream k))).keep = false)) :
    ∃ fate, (h.modCoder k fun c => { c with sourceChange := false }).judge (h.pictureUnit k f y) =
      ((h.modCoder k fun c => { c with sourceChange := false }).countDiscard (pictureStream k), fate) := by
  rcases hn with hd | ⟨hs, hd, hl, he, hk⟩
  · have hdisc := (Stream.discards_iff (h.stream (pictureStream k))).mpr hd
    exact ⟨.discarded, Hub.judge_discards (h := h.modCoder k fun c => { c with sourceChange := false })
      (o := h.pictureUnit k f y) (Stream.holding_ne_closed hdisc.1) hdisc⟩
  · exact ⟨.aborted, Hub.judge_aborts (h := h.modCoder k fun c => { c with sourceChange := false })
      (o := h.pictureUnit k f y) hs (fun hc => hd ((Stream.discards_iff _).mp hc)) hl
      ⟨he, fun hkeep => absurd (hk.symm.trans hkeep) nofun⟩⟩

theorem Hub.offered_counted {h : Hub} {k : Fin 4} {f : Flight} {y : Coding} {fate : Fate}
    (hj : (h.modCoder k fun c => { c with sourceChange := false }).judge (h.pictureUnit k f y) =
      ((h.modCoder k fun c => { c with sourceChange := false }).countDiscard (pictureStream k), fate)) :
    (h.offered k f y).stream (pictureStream k) =
        { h.stream (pictureStream k) with discarded := (h.stream (pictureStream k)).discarded + 1 } ∧
      (∀ r, (h.offered k f y).ring r = h.ring r) ∧ (h.offered k f y).store.mem = h.store.mem := by
  obtain ⟨hstream, hring, hbytes, -⟩ := Hub.judge_counts hj
  exact ⟨hstream, fun r => congrArg (fun v : Vector Ring 17 => v[r]'r.2) hring, hbytes⟩

/-- R58, R30: a picture longer than half its ring is dropped. -/
theorem Hub.tooLarge_settles {h t : Hub} {k : Fin 4} {f : Flight} {y : Coding}
    (hs : (h.stream (pictureStream k)).state ≠ .closed) (hd : ¬ (h.stream (pictureStream k)).Discards)
    (hl : (h.ring (h.boundRing (pictureStream k))).sectors / 2 < sectorsOf y.coded.length)
    (ht : t = (h.completePicture k f y).settle k) :
    t.coders[k]'k.2 = Coder.flushed { h.coders[k]'k.2 with
      sourceChange := false, q := min 63 ((h.coders[k]'k.2).q + 8), counts := (h.coders[k]'k.2).counts.drop .tooLarge } ∧
    (∀ j, j ≠ k → t.coders[j]'j.2 = h.coders[j]'j.2) ∧ (∀ p : Fin 4, (t.notices[p]'p.2).summary.getLsbD 10 = true) ∧
    Hub.OnlyChanges pictureParts h t ∧
    ((∀ g ∈ (h.coders[k]'k.2).flight.head?, g.subst = none) →
      (t.stream (pictureStream k)).discarded = (h.stream (pictureStream k)).discarded + 1 ∧
      (t.stream (pictureStream k)).committed = (h.stream (pictureStream k)).committed ∧
      (t.ring (pictureStream k).castSucc).index = (h.ring (pictureStream k).castSucc).index) := by
  have hjudge := Hub.judge_tooLarge (h := h.modCoder k fun c => { c with sourceChange := false }) (o := h.pictureUnit k f y)
    hs (fun hc => hd ((Stream.discards_iff _).mp hc)) hl
  rw [h.completePicture_offered k f y, if_pos (by rw [hjudge])] at ht
  obtain ⟨hself, hoth⟩ := h.offered_context k f y
  obtain ⟨hctx, hothers, htold, honly⟩ := Hub.drop_settles ht
  refine ⟨?_, fun j hj => (hothers j hj).trans (hoth j hj), htold, (h.offered_only k f y).trans honly, fun hrest => ?_⟩
  · rw [hctx, hself]
  · have hkeeps := (h.offered k f y).drop_settles_units k f .tooLarge (by rw [hself]; exact hrest)
    rw [← ht] at hkeeps
    obtain ⟨hcount, hring, -⟩ := Hub.offered_counted hjudge
    obtain ⟨w, hw⟩ := hkeeps.ring
    refine ⟨?_, ?_, ?_⟩
    · rw [hkeeps.discarded, hcount]
    · rw [hkeeps.committed, hcount]
    · rw [hw, hring]

/-- R29, R30: a unit that is discarded or aborted is counted. -/
theorem Hub.counted_settles {h t : Hub} {k : Fin 4} {f : Flight} {y : Coding}
    (hrest : ∀ g ∈ (h.coders[k]'k.2).flight.head?, g.subst = none)
    (ht : t = ((h.offered k f y).modCoder k fun c => c.complete y.b y.last).settle k)
    (hn : (h.stream (pictureStream k)).Discards ∨ ((h.stream (pictureStream k)).state ≠ .closed ∧
      ¬ (h.stream (pictureStream k)).Discards ∧
      sectorsOf y.coded.length ≤ (h.ring (h.boundRing (pictureStream k))).sectors / 2 ∧ f.lineError = true ∧
      (h.ring (h.boundRing (pictureStream k))).keep = false)) :
    (t.stream (pictureStream k)).discarded = (h.stream (pictureStream k)).discarded + 1 ∧
      (t.stream (pictureStream k)).committed = (h.stream (pictureStream k)).committed ∧
      (∀ r, (t.ring r).index = (h.ring r).index) ∧ t.store.mem = h.store.mem := by
  obtain ⟨fate, hjudge⟩ := h.pictureUnit_counted k f y hn
  obtain ⟨hkeeps, hmem, hrings⟩ := Hub.complete_settles_units hrest ht
  obtain ⟨hcount, hsame, hbytes⟩ := Hub.offered_counted hjudge
  refine ⟨?_, ?_, fun r => ?_, hmem.trans hbytes⟩
  · rw [(hkeeps _).discarded, hcount]
  · rw [(hkeeps _).committed, hcount]
  · obtain ⟨w, hw⟩ := hrings r
    rw [hw, hsame]

/-- R34: the unit of a picture is committed. -/
theorem Hub.committed_settles {h t : Hub} {k : Fin 4} {f : Flight} {y : Coding}
    (hrest : ∀ g ∈ (h.coders[k]'k.2).flight.head?, g.subst = none)
    (ht : t = ((h.offered k f y).modCoder k fun c => c.complete y.b y.last).settle k)
    (hs : (h.stream (pictureStream k)).state ≠ .closed) (hd : ¬ (h.stream (pictureStream k)).Discards)
    (hl : sectorsOf y.coded.length ≤ (h.ring (h.boundRing (pictureStream k))).sectors / 2)
    (he : f.lineError = false ∨ (h.ring (h.boundRing (pictureStream k))).keep = true) :
    ∃ u, (h.modCoder k fun c => { c with sourceChange := false }).Commits u (h.pictureUnit k f y) ∧
      (∀ j, Hub.KeepsUnits j u t) ∧ t.store.mem = u.store.mem ∧ ∀ r, ∃ w, t.ring r = { u.ring r with send := w } := by
  have hjudge : (h.modCoder k fun c => { c with sourceChange := false }).judge (h.pictureUnit k f y) =
      (h.modCoder k fun c => { c with sourceChange := false }).commit (h.pictureUnit k f y) :=
    Hub.judge_commits (h := h.modCoder k fun c => { c with sourceChange := false }) (o := h.pictureUnit k f y) hs
      (fun hc => hd ((Stream.discards_iff _).mp hc)) hl fun ⟨herr, hkeep⟩ => by
        rcases he with he | he
        · exact absurd (he.symm.trans herr) nofun
        · exact hkeep he
  have hcommits := Hub.commit_commits (h := h.modCoder k fun c => { c with sourceChange := false })
    (o := h.pictureUnit k f y) (hl.trans (Nat.div_le_self _ _))
  obtain ⟨hkeeps, hmem, hrings⟩ := Hub.complete_settles_units hrest ht
  have htest : Hub.OnlyChanges [.log, .notices]
      ((h.modCoder k fun c => { c with sourceChange := false }).commit (h.pictureUnit k f y)).1 (h.offered k f y) := by
    rw [Hub.offered, Hub.offer_eq, hjudge]
    exact Hub.testClips_only _ _ _
  refine ⟨_, hcommits, fun j => (Hub.KeepsUnits.of_only htest (by decide) (by decide)).trans (hkeeps j),
    hmem.trans (htest .memory (by decide)).symm, fun r => ?_⟩
  obtain ⟨w, hw⟩ := hrings r
  exact ⟨w, by rw [hw, htest.ring_eq (by decide)]⟩

/-- R34, Table 73: the entry, the counts and the bytes of a picture's committed unit. -/
theorem Hub.committed_unit {h t : Hub} {k : Fin 4} {f : Flight} {y : Coding} {r : Fin 17}
    (hr : h.boundRing (pictureStream k) = r) (hrest : ∀ g ∈ (h.coders[k]'k.2).flight.head?, g.subst = none)
    (ht : t = ((h.offered k f y).modCoder k fun c => c.complete y.b y.last).settle k)
    (hs : (h.stream (pictureStream k)).state ≠ .closed) (hd : ¬ (h.stream (pictureStream k)).Discards)
    (hl : sectorsOf y.coded.length ≤ (h.ring r).sectors / 2) (he : f.lineError = false ∨ (h.ring r).keep = true) :
    ∃ u, (t.ring r).index.getLast? = some u ∧ u.stream = pictureStream k ∧
      u.unit = (h.ring (pictureStream k).castSucc).head ∧
      u.g = (if (h.stream (pictureStream k)).global then some (h.ring r).head else none) ∧
      u.start = (h.ring r).headOff ∧ u.len = sectorsOf y.coded.length ∧ u.payload = y.coded.length ∧
      u.serial = f.frame.serial ∧ u.tc = f.frame.tc ∧
      u.flags = { inputError := f.lineError, sourceChange := (h.coders[k]'k.2).sourceChange, tcJump := f.frame.jump } ∧
      (t.ring r).head = (h.ring r).head + 1 ∧
      (t.stream (pictureStream k)).committed = (h.stream (pictureStream k)).committed + 1 ∧
      (t.stream (pictureStream k)).discarded = (h.stream (pictureStream k)).discarded ∧
      ((h.ring r).headOff < (h.ring r).sectors →
        (∀ a, (h.ring r).Outside (h.ring r).headOff (sectorsOf y.coded.length) a →
          Memory.read t.store.mem a = Memory.read h.store.mem a) ∧
        (h.MemoryOk → t.Stores r u f.frame.phase
          (pictureProducer (h.coders[k]'k.2).format f.source y.first y.last y.b) y.coded)) := by
  subst hr
  obtain ⟨-, -, honly⟩ := Hub.complete_settles ht
  obtain ⟨v, hcommits, hkeeps, hmem, hrings⟩ := Hub.committed_settles hrest ht hs hd hl he
  obtain ⟨n, w, hring, -, -⟩ := hcommits.ring
  obtain ⟨w', hlast⟩ := hrings (h.boundRing (pictureStream k))
  have hfit : sectorsOf y.coded.length ≤ (h.ring (h.boundRing (pictureStream k))).sectors :=
    hl.trans (Nat.div_le_self _ _)
  have hthere : t.ring (h.boundRing (pictureStream k)) =
      { h.ring (h.boundRing (pictureStream k)) with
        index := (h.ring (h.boundRing (pictureStream k))).index.drop n ++
          [(h.modCoder k fun c => { c with sourceChange := false }).committedEntry (h.pictureUnit k f y)]
        headOff := ((h.ring (h.boundRing (pictureStream k))).headOff + sectorsOf y.coded.length) %
          (h.ring (h.boundRing (pictureStream k))).sectors
        head := (h.ring (h.boundRing (pictureStream k))).head + 1
        send := w' } := hlast.trans (congrArg (fun x : Ring => { x with send := w' }) hring)
  have hbase : (t.ring (h.boundRing (pictureStream k))).base = (h.ring (h.boundRing (pictureStream k))).base :=
    by rw [hthere]
  have hsize : (t.ring (h.boundRing (pictureStream k))).size = (h.ring (h.boundRing (pictureStream k))).size :=
    by rw [hthere]
  refine ⟨(h.modCoder k fun c => { c with sourceChange := false }).committedEntry (h.pictureUnit k f y),
    ?_, rfl, rfl, ?_, rfl, rfl, rfl, rfl, rfl, rfl, ?_, ?_, ?_, fun hoff => ⟨fun a ha => ?_, fun hm => ?_⟩⟩
  · rw [hthere, List.getLast?_concat]
  · change (if h.boundRing (pictureStream k) = 16 then some (h.ring 16).head else none) = _
    rcases h.boundRing_cases (pictureStream k) with ⟨hglobal, hbound⟩ | ⟨hglobal, hbound⟩
    · rw [hglobal, hbound]
      rfl
    · rw [hglobal, hbound, if_neg (ownRing_ne_ringG _)]
      rfl
  · rw [hthere]
  · exact (hkeeps _).committed.trans hcommits.committed
  · exact (hkeeps _).discarded.trans hcommits.discarded
  · rw [hmem, hcommits.mem]
    exact Ring.read_writeBytes_outside _ _ hoff hfit (Hub.unitImage_length _ _ _ _) ha
  · exact hcommits.stores hm hoff hfit (by unfold Hub.pictureUnit Hub.pictureOffer pictureProducer; simp [le_length])
      hbase hsize (by rw [hmem]) (honly .strap (by decide)).symm
      (congrArg Timebase.rate (honly .timebase (by decide)).symm)

end

/-- R61: at the second tick after its own a picture is late. -/
theorem Hub.lateDrop_second {h : Hub} {k : Fin 4} {f : Flight} {rest : List Flight}
    (hf : (h.coders[k]'k.2).flight = f :: rest) (hsub : f.subst = none)
      (hserial : h.tb.frame.serial = f.frame.serial + 1 + 1) :
    Hub.lateDrop k h = ((h.modCoder k fun c => { c with flight := rest }).dropPicture k f .late).settle k := by
  unfold Hub.lateDrop
  rw [hf]
  refine if_pos ⟨hsub, ?_⟩
  rw [hserial, dist]
  bv_omega

/-- Settles O25: the cases of a slice's end, and the LATE drop. -/
theorem picturesEnd : Obligations.PicturesEnd := by
  constructor
  · intro e k f x q rest coded s hs hf hc hq c b st r ring sectors discards tooLarge cmd left
    have hrun : exec cmd s = s.became (Hub.sliceEnd k coded (s.hub.arrive e)) :=
      State.run_free hs fun h => Hub.sliceEnd k coded (h.arrive e)
    have heq := Hub.sliceEnd_eq (h := s.hub.arrive e) (coded := coded) hf hc hq
    have hpop : ((s.hub.arrive e).modCoder k fun c => { c with flight := rest }).coders[k]'k.2 = { c with flight := rest } :=
      Hub.modCoder_self _ _ _
    have hother : ∀ j, j ≠ k → ((s.hub.arrive e).modCoder k fun c => { c with flight := rest }).coders[j]'j.2 =
      s.hub.coders[j]'j.2 :=
      fun j hj => Hub.modCoder_ne _ _ hj
    have hpopOnly : Hub.OnlyChanges pictureParts s.hub ((s.hub.arrive e).modCoder k fun c => { c with flight := rest }) :=
      ((s.hub.arrive_only e).mono (by simp)).trans (Hub.modCoder_pictureParts _ _ _)
    have hstore : ((s.hub.arrive e).modCoder k fun c => { c with flight := rest }).store = s.hub.store := rfl
    constructor
    · intro hb hi
      refine hrun.trans (congrArg s.became (heq.trans ?_))
      rw [if_neg (Nat.not_lt.mpr hb)]
      exact if_neg (Nat.not_le.mpr hi)
    generalize hP : (s.hub.arrive e).modCoder k (fun c => { c with flight := rest }) = P at heq hpop hother hpopOnly hstore
    have hparts : ∀ {t : Hub}, Hub.OnlyChanges pictureParts P t →
        t.tb = s.hub.tb ∧ t.inputs = s.hub.inputs ∧ t.mixer = s.hub.mixer ∧ t.ports = s.hub.ports := fun ho =>
      have hall := hpopOnly.trans ho
      ⟨(hall .timebase (by decide)).symm, (hall .inputs (by decide)).symm, (hall .mixer (by decide)).symm,
        (hall .ports (by decide)).symm⟩
    constructor
    · intro hb
      obtain ⟨t, ht⟩ : ∃ t, t = (P.dropPicture k f .ceiling).settle k := ⟨_, rfl⟩
      obtain ⟨hctx, hoth, htold, honly⟩ := Hub.drop_settles ht
      rw [hpop] at hctx
      refine exists_became (h := t) (hrun.trans (congrArg s.became (heq.trans ((if_pos hb).trans ht.symm)))) ?_
      refine ⟨?_, ?_, ?_, ?_, ?_, htold, fun j hj => (hoth j hj).trans (hother j hj), hparts honly⟩
      all_goals
        dsimp only
        rw [hctx]
        rfl
    have hstream : P.stream (pictureStream k) = st := congrArg (fun z : Store => z.streams[pictureStream k]) hstore
    have hring : ∀ r, P.ring r = s.hub.ring r := fun r => congrArg (fun z : Store => z.rings[r]'r.2) hstore
    have hbound : P.boundRing (pictureStream k) = r := by
      unfold Hub.boundRing
      rw [hstream]
    have hends : x.cPic ≥ b → c.format.slices ≤ x.i + 1 → Hub.sliceEnd k coded (s.hub.arrive e) =
        (P.completePicture k f (x.afterSlice q coded)).settle k := fun hb hi =>
      heq.trans ((if_neg (Nat.not_lt.mpr hb)).trans (if_pos hi))
    have hfront : left = rest → ∀ g ∈ (P.coders[k]'k.2).flight.head?, g.subst = none := fun hleft => by
      rw [hpop]
      exact head_of_dropWhile hleft
    constructor
    · intro hb hi hlarge
      obtain ⟨hstate, hdisc, hlong⟩ := hlarge
      obtain ⟨t, ht⟩ : ∃ t, t = (P.completePicture k f (x.afterSlice q coded)).settle k := ⟨_, rfl⟩
      obtain ⟨hctx, hoth, htold, honly, hunits⟩ := Hub.tooLarge_settles (by rw [hstream]; exact hstate)
        (by rw [hstream]; exact hdisc) (by rw [hbound, hring]; exact hlong) ht
      rw [hpop] at hctx
      refine exists_became (h := t) (hrun.trans (congrArg s.became ((hends hb hi).trans ht.symm))) ?_
      refine ⟨?_, ?_, ?_, ?_, ?_, ?_, htold, fun hleft => ?_, fun j hj => (hoth j hj).trans (hother j hj), hparts honly⟩
      case refine_7 =>
        obtain ⟨hdiscarded, hcommitted, hindex⟩ := hunits (hfront hleft)
        rw [hstream] at hdiscarded hcommitted
        refine ⟨hdiscarded, hcommitted, fun hglobal => ?_⟩
        have hown : r = (pictureStream k).castSucc := if_neg (by rw [hglobal]; exact nofun)
        rw [hring, ← hown] at hindex
        exact hindex
      all_goals
        dsimp only
        rw [hctx]
        rfl
    · intro hb hi hsmall
      have hcompletes := P.completePicture_completes k f (x.afterSlice q coded) (by
        rw [hstream, hbound, hring]
        exact hsmall)
      obtain ⟨t, ht⟩ : ∃ t, t = ((P.offered k f (x.afterSlice q coded)).modCoder k fun c =>
        c.complete (x.afterSlice q coded).b (x.afterSlice q coded).last).settle k := ⟨_, rfl⟩
      obtain ⟨hctx, hoth, honly⟩ := Hub.complete_settles ht
      rw [hpop] at hctx
      have hfits : st.state ≠ .closed → ¬ discards → sectors ≤ ring.sectors / 2 := fun hstate hdisc =>
        Nat.not_lt.mp fun hlong => hsmall ⟨hstate, hdisc, hlong⟩
      refine exists_became (h := t) (hrun.trans (congrArg s.became ((hends hb hi).trans
        ((congrArg (Hub.settle · k) hcompletes).trans ht.symm)))) ?_
      refine ⟨?_, ?_, ?_, ?_, ?_, ?_, fun hleft hcounted => ?_, fun hleft hstate hdisc hkeep => ?_,
        fun j hj => (hoth j hj).trans (hother j hj), hparts honly⟩
      case refine_7 =>
        obtain ⟨hdiscarded, hcommitted, hindex, hmem⟩ := Hub.counted_settles (hfront hleft) ht (by
          rw [hstream, hbound, hring]
          by_cases hd : discards
          · exact .inl hd
          · obtain ⟨hstate, herr, hkeep⟩ := hcounted.resolve_left hd
            exact .inr ⟨hstate, hd, hfits hstate hd, herr, hkeep⟩)
        rw [hstream] at hdiscarded hcommitted
        exact ⟨hdiscarded, hcommitted, (hindex r).trans (congrArg Ring.index (hring r)),
          hmem.trans (congrArg Store.mem hstore)⟩
      case refine_8 =>
        obtain ⟨u, hu⟩ := Hub.committed_unit hbound (hfront hleft) ht (by rw [hstream]; exact hstate)
          (by rw [hstream]; exact hdisc) (by rw [hring]; exact hfits hstate hdisc) (by rw [hring]; exact hkeep)
        rw [hstream, hring, hring, hpop] at hu
        have hok : P.MemoryOk = s.hub.MemoryOk := congrArg (fun z : Store => Memory.wf z.mem = true) hstore
        rw [hok, hstore] at hu
        exact ⟨u, hu⟩
      all_goals
        dsimp only
        rw [hctx]
        rfl
  · intro e k f rest s hs hf hsub hserial c
    have hdrop : Hub.lateDrop k (s.hub.ahead e) =
        (((s.hub.ahead e).modCoder k fun c => { c with flight := rest }).dropPicture k f .late).settle k :=
      Hub.lateDrop_second hf hsub (by
        have hnext : (s.hub.ahead e).tb.frame.serial = s.hub.tb.frame.serial + 1 := Timebase.tick_serial _ _
        rw [hnext, hserial])
    obtain ⟨t, ht⟩ : ∃ t,
      t = (((s.hub.ahead e).modCoder k fun c => { c with flight := rest }).dropPicture k f .late).settle k :=
      ⟨_, rfl⟩
    obtain ⟨hctx, hoth, htold, honly⟩ := Hub.drop_settles ht
    have hpop : ((s.hub.ahead e).modCoder k fun c => { c with flight := rest }).coders[k]'k.2 = { c with flight := rest } :=
      Hub.modCoder_self _ _ _
    have hpopOnly : Hub.OnlyChanges pictureParts (s.hub.ahead e) t := (Hub.modCoder_pictureParts _ _ _).trans honly
    have hbehind := hpopOnly.behind
    rw [hpop] at hctx
    refine exists_became (h := t.behind s.hub) ((State.run_ahead hs e (Hub.lateDrop k)).trans
      (congrArg (fun z : Hub => s.became (z.behind s.hub)) (hdrop.trans ht.symm))) ?_
    have hctx' : (t.behind s.hub).coders[k]'k.2 = _ := hctx
    refine ⟨?_, ?_, ?_, ?_, htold, fun j hj => (hoth j hj).trans (Hub.modCoder_ne _ _ hj),
      (hbehind .timebase (by decide)).symm,
      (hbehind .inputs (by decide)).symm, (hbehind .mixer (by decide)).symm, (hbehind .ports (by decide)).symm⟩
    all_goals
      rw [hctx']
      rfl

end Sys2Proof.Machine
end

section
/-! Proofs: CODER RESET (R64). -/

namespace Sys2Proof.Machine

-- In order, so that the package in one text stays within the memory of its check.
set_option Elab.async false

section
variable {S : Fin 16 → Prop} (h : Hub)

theorem Hub.flush_stands {k : Fin 4} (hS : S (pictureStream k)) :
    ∀ (n : Nat) (h : Hub), Hub.StreamsStand S h (Hub.flush k n h)
  | 0, h => .refl S h
  | n + 1, h => by
    have hmod : ∀ (g : Hub) (f : Coder → Coder), Hub.StreamsStand S g (g.modCoder k f) := fun g f =>
      .of_only (g.modCoder_only k f) (by decide)
    unfold Hub.flush
    split
    · exact .refl S h
    · split
      · exact .refl S h
      · exact ((hmod h _).trans ((hmod _ _).trans ((hmod _ _).trans (Hub.offer_stands _ hS)))).trans
          (Hub.flush_stands hS n _)

end

/-! ### One context under CODER RESET (R64) -/

/-- The context that CODER RESET leaves of a stream that is built and OPEN or HELD, or of another. -/
def Coder.discarded (c : Coder) (reset : Prop) [Decidable reset] : Coder :=
  { c with
    flight := c.flight.filter Flight.waits
    fullness := if reset then c.size / 2 else c.fullness
    q := if reset then 24 else c.q
    counts := { c.counts with
      discarded := c.counts.discarded + BitVec.ofNat 32 (c.flight.filter fun f => f.subst == none).length } }

theorem Flight.waits_substitute {f : Flight} (hf : f.waits = true) : (f.subst != none) = true := by
  unfold Flight.waits at hf
  exact (Bool.and_eq_true_iff.mp hf).1

/-- The substitute units of a kind that ticks made. -/
def Coder.made (c : Coder) (black : Bool) : Nat := (c.flight.filter fun f => f.subst == some black && !f.aborted).length

theorem Coder.waiting_filter {c : Coder} (hc : ∀ f ∈ c.flight, (f.subst != none) = true) :
    c.waiting = c.flight ∧ (c.flight.dropWhile fun f => f.subst != none) = [] :=
  ⟨List.takeWhile_eq_self_iff.mpr hc, List.dropWhile_eq_nil_iff.mpr hc⟩

theorem substitutes_waits (fs : List Flight) (black : Bool) :
    substitutes (fs.filter Flight.waits) black = (fs.filter fun f => f.subst == some black && !f.aborted).length := by
  unfold substitutes
  rw [List.filter_filter]
  refine congrArg List.length (List.filter_congr fun f _ => ?_)
  unfold Flight.waits
  cases f.subst with
  | none => rfl
  | some b => cases b <;> cases black <;> simp

theorem waits_isEmpty (fs : List Flight) :
    (fs.filter Flight.waits).isEmpty =
      decide ((fs.filter fun f => f.subst == some false && !f.aborted).length +
        (fs.filter fun f => f.subst == some true && !f.aborted).length = 0) := by
  induction fs with
  | nil => rfl
  | cons f fs ih =>
    simp only [List.filter_cons]
    cases hs : f.subst with
    | none => simpa [Flight.waits, hs] using ih
    | some b => cases ha : f.aborted <;> cases b <;> simp [Flight.waits, hs, ha] <;> simpa using ih

/-- R64, R62: what waited is offered. -/
theorem Coder.discarded_flushed (c : Coder) (reset : Prop) [Decidable reset] :
    (c.discarded reset).flushed =
      { c with
        flight := []
        fullness := if reset then c.size / 2 else c.fullness
        q := if reset then 24 else c.q
        sourceChange := decide (c.sourceChange = true ∧ c.made false + c.made true = 0)
        counts := { c.counts with
          repeats := c.counts.repeats + BitVec.ofNat 32 (c.made false)
          blacks := c.counts.blacks + BitVec.ofNat 32 (c.made true)
          discarded := c.counts.discarded +
            BitVec.ofNat 32 (c.flight.filter fun f => f.subst == none).length } } := by
  have hall : ∀ f ∈ (c.discarded reset).flight, (f.subst != none) = true := fun f hf =>
    Flight.waits_substitute (List.mem_filter.mp hf).2
  obtain ⟨hwait, hnone⟩ := Coder.waiting_filter hall
  have hmark : (c.sourceChange && (c.flight.filter Flight.waits).isEmpty) =
      decide (c.sourceChange = true ∧ c.made false + c.made true = 0) := by
    rw [waits_isEmpty, Bool.decide_and, Bool.decide_eq_true]
    rfl
  unfold Coder.flushed
  rw [hnone, hwait]
  simp only [Coder.discarded, substitutes_waits, hmark]
  rfl

section
variable (h : Hub) (k : Fin 4)

theorem Hub.discardPictures_only : Hub.OnlyChanges [.coders, .log, .notices] h (h.discardPictures k) :=
  ((h.modCoder_only k _).mono (by decide)).trans
    (.foldl (fun g f => (g.testClips_only _ _).mono (by decide)) _ _)

theorem Hub.discardPictures_heard : Hub.Heard [.clipClosed] h (h.discardPictures k) :=
  (h.modCoder_heard k _).trans (.foldl (fun g _ => g.testClips_heard _ _) _ _)

theorem Hub.discardPictures_context :
    (h.discardPictures k).coders[k] = (h.coders[k]).discarded ((h.coders[k]).built = true ∧
      ((h.stream (pictureStream k)).state = .opened ∨ (h.stream (pictureStream k)).state = .held)) := by
  have hfold (fs : List Flight) (g : Hub) :
      (fs.foldl (fun h f => h.testClips (pictureStream k) (some f.frame.serial)) g).coders = g.coders :=
    (Hub.OnlyChanges.foldl (fun g f => g.testClips_only _ _) fs g .coders (by decide)).symm
  unfold Hub.discardPictures Coder.discarded
  simp only [hfold]
  rw [Hub.modCoder_self]
  split <;> rfl

/-- R25: a picture stream in CLOSING ends where nothing of it is left in flight. -/
theorem Hub.settle_empties (hf : ((h.coders[k]).flushed).flight = []) :
    h.settle k = if (h.stream (pictureStream k)).state = .closing then
      (Hub.flush k (h.coders[k]).flight.length h).endClosing (pictureStream k)
      else Hub.flush k (h.coders[k]).flight.length h := by
  have hstand := Hub.flush_stands (S := fun _ => True) (k := k) trivial (h.coders[k]).flight.length h
  have hstate : ((Hub.flush k (h.coders[k]).flight.length h).stream (pictureStream k)).state =
      (h.stream (pictureStream k)).state := (Stream.standing_eq (hstand _).1).1
  have hempty : ((Hub.flush k (h.coders[k]).flight.length h).coders[k]).flight = [] := by
    rw [Hub.flush_context _ h le_rfl, hf]
  unfold Hub.settle Hub.closeIfDone
  rw [hstate, hempty]
  simp only [and_true]

/-- What CODER RESET on stream k leaves of the other streams and contexts. -/
structure Hub.OthersStand (k : Fin 4) (g h : Hub) : Prop where
  coders : ∀ j, j ≠ k → h.coders[j] = g.coders[j]
  states : ∀ j, j ≠ pictureStream k → (h.stream j).state = (g.stream j).state
  commits : ∀ j, j ≠ pictureStream k → (h.stream j).committed = (g.stream j).committed

theorem Hub.resetCoder_others : Hub.OthersStand k h (Hub.resetCoder k h) := by
  obtain ⟨hcoders, -⟩ := h.discardPictures_coders k
  refine ⟨fun j hj => (Hub.settle_other (h.discardPictures k) hj).trans (hcoders j hj), fun j hj => ?_, fun j hj => ?_⟩
  · have hflush := Hub.flush_stands (S := fun _ => True) (k := k) trivial
      ((h.discardPictures k).coders[k]).flight.length (h.discardPictures k)
    have hstate : ((Hub.flush k ((h.discardPictures k).coders[k]).flight.length (h.discardPictures k)).stream j).state =
        (h.stream j).state := (Stream.standing_eq (hflush _).1).1.trans
      (congrArg Stream.state ((h.discardPictures_only k).stream_eq (by decide) j))
    rw [Hub.resetCoder_eq]
    unfold Hub.settle Hub.closeIfDone
    split
    · rw [Hub.endClosing_ne _ hj, hstate]
    · exact hstate
  · exact ((Hub.KeepsUnits.of_only (h.discardPictures_only k) (by decide) (by decide)).trans
      (Hub.settle_keepsUnits _ hj.symm)).committed

/-- R64: the context, the stream's state and its notice. -/
theorem Hub.resetCoder_own {t : Hub} (ht : t = Hub.resetCoder k h) :
    t.coders[k] = ((h.coders[k]).discarded ((h.coders[k]).built = true ∧
      ((h.stream (pictureStream k)).state = .opened ∨ (h.stream (pictureStream k)).state = .held))).flushed ∧
    (t.stream (pictureStream k)).state =
      (if (h.stream (pictureStream k)).state = .closing then .closed else (h.stream (pictureStream k)).state) ∧
    ((h.stream (pictureStream k)).state = .closing → ∀ p : Fin 4, (t.notices[p]).summary.getLsbD 4 = true) := by
  have hctx : t.coders[k] = _ := (congrArg (fun g : Hub => g.coders[k]) ht).trans (h.discardPictures k).settle_context
  rw [h.discardPictures_context k] at hctx
  have hnone : (((h.discardPictures k).coders[k]).flushed).flight = [] := by
    rw [h.discardPictures_context k, Coder.discarded_flushed]
  have hsame : (h.discardPictures k).stream (pictureStream k) = h.stream (pictureStream k) :=
    (h.discardPictures_only k).stream_eq (by decide) _
  have hends := (h.discardPictures k).settle_empties k hnone
  rw [← h.resetCoder_eq k, ← ht, hsame] at hends
  have hflush := Hub.flush_stands (S := fun _ => True) (k := k) trivial
    ((h.discardPictures k).coders[k]).flight.length (h.discardPictures k)
  have hstate := (Stream.standing_eq (hflush (pictureStream k)).1).1
  rw [hsame] at hstate
  refine ⟨hctx, ?_, fun hc p => ?_⟩
  · rw [hends]
    split
    · rw [Hub.endClosing_self]
    · exact hstate
  · rw [hends, if_pos hc]
    exact Hub.endClosing_summary _ _ p

theorem Hub.resetCoder_heard : Hub.Heard (stateKinds ++ unitKinds) h (Hub.resetCoder k h) :=
  ((h.discardPictures_heard k).mono (by decide)).trans (Hub.settle_heard _ k)

theorem Hub.resetCoder_pictureParts : Hub.OnlyChanges pictureParts h (Hub.resetCoder k h) :=
  ((h.discardPictures_only k).mono (by decide)).trans (Hub.settle_pictureParts _ k)

/-- With no substitute unit made by a tick, no unit is offered. -/
theorem Hub.resetCoder_offersNone (hw : ∀ f ∈ (h.coders[k]).flight, f.subst ≠ none → f.aborted = true) :
    (∀ j, j ≠ pictureStream k → (Hub.resetCoder k h).stream j = h.stream j) ∧
      (Hub.resetCoder k h).store.mem = h.store.mem := by
  have hnone : ((h.discardPictures k).coders[k]).flight = [] := by
    rw [h.discardPictures_context k]
    refine List.filter_eq_nil_iff.mpr fun f hf hwaits => ?_
    unfold Flight.waits at hwaits
    simp only [Bool.and_eq_true, bne_iff_ne, Bool.not_eq_true'] at hwaits
    exact absurd ((hw f hf hwaits.1).symm.trans hwaits.2) nofun
  rw [Hub.resetCoder_eq, Hub.settle_picture _ (forall_head?_nil hnone _)]
  unfold Hub.closeIfDone
  refine ⟨fun j hj => ?_, ?_⟩
  · have hsame : (h.discardPictures k).stream j = h.stream j := (h.discardPictures_only k).stream_eq (by decide) _
    split
    · rw [Hub.endClosing_ne _ hj, hsame]
    · exact hsame
  · have hsame : (h.discardPictures k).store.mem = h.store.mem := ((h.discardPictures_only k) .memory (by decide)).symm
    split
    · exact ((Hub.endClosing_only _ _) .memory (by decide)).symm.trans hsame
    · exact hsame

end

/-! ### The four contexts -/

/-- What every turn of a loop over a table does, the loop does. -/
theorem Hub.forEach_relates {n : Nat} {f : Fin n → Hub → Hub} {R : Hub → Hub → Prop} (hrefl : ∀ a, R a a)
    (htrans : ∀ {a b c}, R a b → R b c → R a c) (hR : ∀ q g, R g (f q g)) (h : Hub) : R h (h.forEach n f) := by
  unfold Hub.forEach
  induction List.finRange n generalizing h with
  | nil => exact hrefl h
  | cons q qs ih => exact htrans (hR q h) (ih _)

/-- No tick made a substitute unit that is in flight. -/
def Hub.NoneMade (h : Hub) : Prop := ∀ k : Fin 4, ∀ f ∈ (h.coders[k]).flight, f.subst ≠ none → f.aborted = true

theorem Hub.resetCoder_noneMade {h : Hub} (k : Fin 4) (hn : h.NoneMade) : (Hub.resetCoder k h).NoneMade := fun j => by
  by_cases hj : j = k
  · subst hj
    rw [(h.resetCoder_own j rfl).1, Coder.discarded_flushed]
    exact fun f hf => absurd hf List.not_mem_nil
  · rw [(h.resetCoder_others k).coders j hj]
    exact hn j

theorem pictureStream_injective {j k : Fin 4} (hj : j ≠ k) : pictureStream j ≠ pictureStream k := fun he =>
  hj (Fin.ext (Fin.mk.inj he))

theorem pictureStream_ne {j : Fin 16} (hj : 4 ≤ j.val) (k : Fin 4) : j ≠ pictureStream k := fun he => by
  have hv := congrArg Fin.val he
  have hk := k.isLt
  simp only [pictureStream] at hv
  omega

section
variable {h t : Hub} (ht : t = h.forEach 4 Hub.resetCoder)
include ht

/-- R64: the context, the stream's state and its notice. -/
theorem Hub.resets_own (k : Fin 4) :
    t.coders[k] = ((h.coders[k]).discarded ((h.coders[k]).built = true ∧
      ((h.stream (pictureStream k)).state = .opened ∨ (h.stream (pictureStream k)).state = .held))).flushed ∧
    (t.stream (pictureStream k)).state =
      (if (h.stream (pictureStream k)).state = .closing then .closed else (h.stream (pictureStream k)).state) ∧
    ((h.stream (pictureStream k)).state = .closing → ∀ p : Fin 4, (t.notices[p]).summary.getLsbD 4 = true) := by
  obtain ⟨g, ⟨hcoder, hstate, -⟩, hcoder', hstate', hheard⟩ := Hub.forEach_at (f := Hub.resetCoder)
    (R := fun a b => b.coders[k] = a.coders[k] ∧ (b.stream (pictureStream k)).state = (a.stream (pictureStream k)).state ∧
      Hub.Heard (stateKinds ++ unitKinds) a b) (fun a => ⟨rfl, rfl, .refl _ a⟩)
    (fun h₁ h₂ => ⟨h₂.1.trans h₁.1, h₂.2.1.trans h₁.2.1, h₁.2.2.trans h₂.2.2⟩) k
    (fun q g hq => ⟨(g.resetCoder_others q).coders k hq.symm,
      (g.resetCoder_others q).states _ (pictureStream_injective hq.symm), g.resetCoder_heard q⟩) h
  rw [← ht] at hcoder' hstate' hheard
  obtain ⟨hctx, hown, htold⟩ := g.resetCoder_own k rfl
  rw [hcoder, hstate] at hctx
  rw [hstate] at hown htold
  exact ⟨hcoder'.trans hctx, hstate'.trans hown, fun hc p => hheard.summary_mono p (by decide) (htold hc p)⟩

theorem Hub.resets_others (j : Fin 16) (hj : 4 ≤ j.val) :
    (t.stream j).state = (h.stream j).state ∧ (t.stream j).committed = (h.stream j).committed := by
  rw [ht]
  exact Hub.forEach_relates (f := Hub.resetCoder)
    (R := fun a b => (b.stream j).state = (a.stream j).state ∧ (b.stream j).committed = (a.stream j).committed)
    (fun _ => ⟨rfl, rfl⟩) (fun h₁ h₂ => ⟨h₂.1.trans h₁.1, h₂.2.trans h₁.2⟩)
    (fun q g => ⟨(g.resetCoder_others q).states j (pictureStream_ne hj q),
      (g.resetCoder_others q).commits j (pictureStream_ne hj q)⟩) h

theorem Hub.resets_offerNone (hn : h.NoneMade) :
    (∀ j : Fin 16, 4 ≤ j.val → t.stream j = h.stream j) ∧ t.store.mem = h.store.mem := by
  rw [ht]
  refine (Hub.forEach_relates (f := Hub.resetCoder)
    (R := fun a b => a.NoneMade → b.NoneMade ∧ (∀ j : Fin 16, 4 ≤ j.val → b.stream j = a.stream j) ∧
      b.store.mem = a.store.mem)
    (fun _ ha => ⟨ha, fun _ _ => rfl, rfl⟩) (fun h₁ h₂ ha => ?_) (fun q g hg => ?_) h hn).2
  · obtain ⟨hb, hstreams, hmem⟩ := h₁ ha
    obtain ⟨hc, hstreams', hmem'⟩ := h₂ hb
    exact ⟨hc, fun j hj => (hstreams' j hj).trans (hstreams j hj), hmem'.trans hmem⟩
  · obtain ⟨hstreams, hmem⟩ := g.resetCoder_offersNone q (hg q)
    exact ⟨Hub.resetCoder_noneMade q hg, fun j hj => hstreams j (pictureStream_ne hj q), hmem⟩

end

/-- Settles O27: every context is emptied in its turn, and leaves the others. -/
theorem coderResetDiscards : Obligations.CoderResetDiscards := by
  intro c s hs
  obtain ⟨t, ht⟩ : ∃ t, t = (s.hub.arrive c.env).forEach 4 Hub.resetCoder := ⟨_, rfl⟩
  have hrun : exec (.coderReset c) s = s.became (t.answer c 0x32 .done []) :=
    hs.run_none (block := Hub.coderReset) (by rw [ht]; rfl) nofun
  have honly : Hub.OnlyChanges pictureParts (s.hub.arrive c.env) t := by
    rw [ht]
    exact .forEach (fun k g => g.resetCoder_pictureParts k) _
  refine exists_became hrun ⟨fun k => ?_, fun k hk => ?_, fun hn => ?_, Hub.answer_sending _ c _ _ _, ?_⟩
  · obtain ⟨hctx, hstate, htold⟩ := Hub.resets_own ht k
    rw [Coder.discarded_flushed] at hctx
    exact ⟨hctx, hstate, htold⟩
  · exact Hub.resets_others (h := s.hub.arrive c.env) (t := t) ht k hk
  · exact Hub.resets_offerNone (h := s.hub.arrive c.env) (t := t) ht hn
  · exact (((s.hub.arrive_only c.env).mono (by simp)).trans (honly.mono (by decide))).trans
      ((t.answer_only c 0x32 .done []).mono (by decide))

end Sys2Proof.Machine
end

section
/-! Proofs: ADD LABEL (R144 to R151): its checks, filing, linking, and the fires of triggers. -/

namespace Sys2Proof.Machine

-- In order, so that the package in one text stays within the memory of its check.
set_option Elab.async false

/-! ### The checks of ADD LABEL (R148) -/

/-- The kind that a port's label has. -/
def portKind (name : Bool) : LabelKind := if name then .name else .note

/-- The label that ADD LABEL hands to the Clip Log. -/
def Hub.portDraft (h : Hub) (p : Fin 4) (name : Bool) (value : Option Word) (text : TextArg) : Draft :=
  { kind := portKind name, source := .port p, frame := h.tb.frame, value := value, text := text.bytes.take text.len.toNat }

/-- What a label does to the name of a clip. -/
def Clip.renamed (name : Bool) (clip : Option Word) (text : TextArg) (y : Clip) : Clip :=
  if name = true ∧ clip = some y.number then { y with name := text.bytes.take text.len.toNat } else y

/-- The hub with the clip that a label names renamed by it. -/
def Hub.renamed (h : Hub) (name : Bool) (clip : Option Word) (text : TextArg) : Hub :=
    h.mapClips (Clip.renamed name clip text)

theorem portKindOf_byte (name : Bool) : portKindOf (byte name.toNat) = some (portKind name) := by
  cases name <;> rfl

theorem portKindOf_bad {a : Byte} (ha : 1 < a.toNat) : portKindOf a = none := by
  unfold portKindOf
  rw [if_neg (by rintro rfl; simp at ha), if_neg (by rintro rfl; simp at ha)]

section
variable {h : Hub} {p : Fin 4} {a : Byte} {name : Bool} {value : Option Word} {text : TextArg} {clip : Option Word}

theorem Hub.addLabel_bad (hb : 1 < a.toNat ∨ 64 < text.len.toNat) :
    h.addLabel p a value text clip = h.refuse .badArg := by
  unfold Hub.addLabel
  rcases hb with ha | hl
  · rw [portKindOf_bad ha]
  · rw [TextArg.text, if_neg (Nat.not_le.mpr hl)]
    cases portKindOf a <;> rfl

theorem Hub.addLabel_refused {o : Answer} (hl : text.len.toNat ≤ 64) (ho : h.labelRefusal p clip = some o) :
    h.addLabel p (byte name.toNat) value text clip = h.refuse o := by
  unfold Hub.addLabel
  rw [portKindOf_byte, TextArg.text, if_pos hl]
  dsimp only
  rw [ho]

theorem Hub.rename_eq (h : Hub) (name : Bool) (clip : Option Word) (text : TextArg) :
    h.rename (portKind name) clip (text.bytes.take text.len.toNat) = h.renamed name clip text := by
  have hnone : ∀ f : Clip → Clip, (∀ c, f c = c) → h.mapClips f = h := fun f hf => by
    have hid : f = id := funext hf
    unfold Hub.mapClips Hub.modLog
    dsimp only
    rw [hid, List.map_id]
  unfold Hub.renamed
  cases name with
  | false => exact (hnone _ fun c => if_neg (by simp)).symm
  | true =>
    cases clip with
    | none => exact (hnone _ fun c => if_neg (by simp)).symm
    | some n =>
      refine congrArg h.mapClips (funext fun c => ?_)
      refine if_congr ⟨fun he => ⟨rfl, congrArg some he.symm⟩, fun he => ?_⟩ rfl rfl
      exact (Option.some.inj he.2).symm

theorem Hub.addLabel_taken (hl : text.len.toNat ≤ 64) (ho : h.labelRefusal p clip = none) :
    h.addLabel p (byte name.toNat) value text clip =
      (((h.renamed name clip text).arriveLabel (h.portDraft p name value text) clip).1,
        .done (optField 4 word4 ((h.renamed name clip text).arriveLabel (h.portDraft p name value text) clip).2)) := by
  unfold Hub.addLabel
  rw [portKindOf_byte, TextArg.text, if_pos hl]
  dsimp only
  rw [ho, ← Hub.rename_eq]
  rfl

theorem Hub.labelRefusal_error {n : Word} {o : Answer} (hc : clip = some n) (hn : h.log.named n = .error o) :
    h.labelRefusal p clip = some o := by
  unfold Hub.labelRefusal
  rw [hc]
  dsimp only
  rw [hn]

theorem Hub.labelRefusal_named {n : Word} {x : Clip} (hc : clip = some n) (hn : h.log.named n = .ok x) :
    h.labelRefusal p clip =
      if ¬ h.hasStreams p x.mask = true then some .denied else if x.state = .lapsed then some .conflict else none := by
  unfold Hub.labelRefusal
  rw [hc]
  dsimp only
  rw [hn]

end

/-! ### Filing (R144 to R146) -/

/-- R144: what filing makes of the store and its counts. -/
theorem ClipLog.store_filing (l : ClipLog) (d : Draft) :
    (l.store d).labels = (if l.labels.length < 4096 then l.labels else l.labels.drop 1) ++ [l.labelOf d] ∧
      (l.store d).nextLabel = l.nextLabel + 1 ∧ (l.store d).filed = l.filed + 1 ∧
      (l.store d).removed = (if l.labels.length < 4096 then l.removed else l.removed + 1) := by
  by_cases hl : l.labels.length < 4096
  · rw [ClipLog.store_room hl, if_pos hl, if_pos hl]
    exact ⟨rfl, rfl, rfl, rfl⟩
  · unfold ClipLog.store
    simp only [if_neg hl]
    unfold ClipLog.dropOldest
    split
    · rename_i hnil
      rw [hnil] at hl
      exact absurd (by decide) hl
    · rename_i x rest hx
      rw [hx]
      exact ⟨rfl, rfl, rfl, rfl⟩

section
variable {h : Hub} {d : Draft} {named : Option Word}

/-- Without an ARMED trigger a label is filed alone. -/
theorem Hub.arriveLabel_unarmed (ht : ∀ t : Fin 4, (h.log.triggers[t]).state ≠ .armed) :
    h.arriveLabel d named = h.fileLabel d named := by
  unfold Hub.arriveLabel
  rw [h.offerTriggers_unarmed ht]
  rfl

theorem Hub.fileLabel_ignored (hk : h.log.keeps d.kind d.source = false) :
    h.fileLabel d named = (h.modLog fun l => { l with ignored := l.ignored + 1 }, none) := by
  unfold Hub.fileLabel
  rw [if_neg (by rw [hk]; nofun)]

/-- The hub with a label filed and linked, before its unit is offered. -/
def Hub.linked (h : Hub) (d : Draft) (named : Option Word) : Hub :=
  (h.modLog fun l => l.store d).modLog fun l => l.link h.log.nextLabel d named

theorem Hub.fileLabel_kept (hk : h.log.keeps d.kind d.source = true) :
    h.fileLabel d named = ((h.linked d named).offerLabel h.log.nextLabel d, some h.log.nextLabel) := if_pos hk

theorem Hub.fileLabel_filing (hk : h.log.keeps d.kind d.source = true) :
    (h.fileLabel d named).1.log.labels =
        (if h.log.labels.length < 4096 then h.log.labels else h.log.labels.drop 1) ++ [h.log.labelOf d] ∧
      (h.fileLabel d named).1.log.nextLabel = h.log.nextLabel + 1 ∧ (h.fileLabel d named).1.log.filed = h.log.filed + 1 ∧
      (h.fileLabel d named).1.log.removed =
        (if h.log.labels.length < 4096 then h.log.removed else h.log.removed + 1) := by
  obtain ⟨hlabels, hnext, hfiled, hremoved⟩ := h.log.store_filing d
  have hsame := (h.linked d named).offerLabel_sameFiling h.log.nextLabel d
  rw [Hub.fileLabel_kept hk]
  exact ⟨hsame.labels.trans hlabels, hsame.nextLabel.trans hnext, hsame.filed.trans hfiled, hsame.removed.trans hremoved⟩

end

/-! ### Linking (R146) -/

/-- Whether a label dated so reaches a clip. -/
def Clip.Reached (x : Clip) (serial : Word) (named : Option Word) : Prop :=
  ((x.state = .opened ∨ x.state = .closing) ∧ (serial - x.startSerial).toNat < 2147483648 ∧
      ∀ w, x.endSerial = some w → 2147483648 ≤ (serial - w).toNat) ∨
    (x.state ≠ .lapsed ∧ named = some x.number)

theorem Clip.reached_iff (x : Clip) (serial : Word) (named : Option Word) :
    ((x.active && x.spans serial) || (x.live && named == some x.number)) = true ↔ x.Reached serial named := by
  unfold Clip.Reached Clip.live
  rw [Bool.or_eq_true, Bool.and_eq_true, Bool.and_eq_true, x.active_iff, Clip.spans, Bool.and_eq_true]
  cases x.endSerial <;> simp [atOrAfter]

section
variable {l : ClipLog} {n : Word} {kind : LabelKind} {c : Clip}

theorem ClipLog.linkTo_full (hk : kind ≠ .overload ∧ kind ≠ .tcJump) (hc : 64 ≤ c.labels.length) :
    l.linkTo n kind c = { c with truncated := true } := by
  unfold ClipLog.linkTo
  rw [if_neg (Nat.not_lt.mpr hc)]
  simp [hk.1, hk.2]

theorem ClipLog.linkTo_room (hk : kind ≠ .overload ∧ kind ≠ .tcJump) (hc : c.labels.length < 64) :
    l.linkTo n kind c = { c with labels := l.placeIn n c.labels } := by
  unfold ClipLog.linkTo
  rw [if_pos hc]
  simp [hk.1, hk.2]

/-- R146: the place of a label in a list, in the order of frame serials. -/
theorem ClipLog.placeIn_split (l : ClipLog) (n : Word) (xs : List Word) :
    ∃ a b, xs = a ++ b ∧ l.placeIn n xs = a ++ [n] ++ b ∧ (∀ m ∈ a, (l.serialOf n - l.serialOf m).toNat < 2147483648) ∧
      ∀ m ∈ b.head?, 2147483648 ≤ (l.serialOf n - l.serialOf m).toNat := by
  refine ⟨xs.takeWhile fun m => atOrAfter (l.serialOf n) (l.serialOf m),
    xs.dropWhile fun m => atOrAfter (l.serialOf n) (l.serialOf m), List.takeWhile_append_dropWhile.symm, rfl,
    fun m hm => of_decide_eq_true (List.mem_takeWhile_imp (p := fun m => atOrAfter (l.serialOf n) (l.serialOf m)) hm),
    fun m hm => ?_⟩
  have hstop := List.head?_dropWhile_not (fun m => atOrAfter (l.serialOf n) (l.serialOf m)) xs
  rw [Option.mem_def.mp hm] at hstop
  have hlate : atOrAfter (l.serialOf n) (l.serialOf m) = false := by simpa using hstop
  exact Nat.not_lt.mp (of_decide_eq_false hlate)

theorem ClipLog.serialOf_store {d : Draft} (hroom : l.labels.length < 4096) {m : Word} (hm : m ≠ l.nextLabel) :
    (l.store d).serialOf m = l.serialOf m := by
  have hlast : ([l.labelOf d].find? fun x : Label => x.number = m) = none :=
    List.find?_eq_none.mpr fun x hx => by
      rw [List.mem_singleton.mp hx]
      exact mt of_decide_eq_true (Ne.symm hm)
  unfold ClipLog.serialOf
  rw [ClipLog.store_room hroom, List.find?_append, hlast, Option.or_none]

theorem ClipLog.serialOf_new {d : Draft} (hroom : l.labels.length < 4096) (hfresh : ∀ x ∈ l.labels, x.number ≠ l.nextLabel) :
    (l.store d).serialOf l.nextLabel = d.frame.serial := by
  have hnone : (l.labels.find? fun x : Label => x.number = l.nextLabel) = none :=
    List.find?_eq_none.mpr fun x hx => by simpa using hfresh x hx
  have hlast : ([l.labelOf d].find? fun x : Label => x.number = l.nextLabel) = some (l.labelOf d) := by
    simp [ClipLog.labelOf]
  unfold ClipLog.serialOf
  rw [ClipLog.store_room hroom, List.find?_append, hnone, Option.none_or, hlast]
  rfl

end

/-- R146: what a label that is filed with room in the store makes of a clip. -/
def Hub.linkedClip (h : Hub) (d : Draft) (named : Option Word) (c : Clip) : Clip :=
  if (c.active && c.spans d.frame.serial) || (c.live && named == some c.number) then
    (h.log.store d).linkTo h.log.nextLabel d.kind c
  else c

theorem Hub.linked_clips {h : Hub} {d : Draft} (hroom : h.log.labels.length < 4096) (named : Option Word) :
    (h.linked d named).log.clips = h.log.clips.map (h.linkedClip d named) := by
  have hsame : (h.log.store d).clips = h.log.clips := by rw [ClipLog.store_room hroom]
  exact congrArg (List.map (h.linkedClip d named)) hsame

theorem Clip.renamed_kept (name : Bool) (clip : Option Word) (text : TextArg) (x : Clip) :
    (x.renamed name clip text).number = x.number ∧ (x.renamed name clip text).state = x.state ∧
      (x.renamed name clip text).startSerial = x.startSerial ∧ (x.renamed name clip text).endSerial = x.endSerial ∧
      (x.renamed name clip text).labels = x.labels := by
  unfold Clip.renamed
  split <;> exact ⟨rfl, rfl, rfl, rfl, rfl⟩

theorem Clip.renamed_reached (name : Bool) (clip : Option Word) (text : TextArg) (x : Clip) (serial : Word)
    (named : Option Word) : (x.renamed name clip text).Reached serial named ↔ x.Reached serial named := by
  obtain ⟨hnumber, hstate, hstart, hend, -⟩ := x.renamed_kept name clip text
  unfold Clip.Reached
  rw [hnumber, hstate, hstart, hend]

/-- R146: a label's place in the clips that it reaches. -/
theorem Hub.linkedClip_cases {h : Hub} {d : Draft} {named : Option Word} {c : Clip}
    (hk : d.kind ≠ .overload ∧ d.kind ≠ .tcJump) (hroom : h.log.labels.length < 4096)
    (hfresh : ∀ x ∈ h.log.labels, x.number ≠ h.log.nextLabel) :
    (¬ c.Reached d.frame.serial named → h.linkedClip d named c = c) ∧
    (c.Reached d.frame.serial named → 64 ≤ c.labels.length → h.linkedClip d named c = { c with truncated := true }) ∧
    (c.Reached d.frame.serial named → c.labels.length < 64 → h.log.nextLabel ∉ c.labels →
      ∃ a b, c.labels = a ++ b ∧ h.linkedClip d named c = { c with labels := a ++ [h.log.nextLabel] ++ b } ∧
        (∀ m ∈ a, (d.frame.serial - h.log.serialOf m).toNat < 2147483648) ∧
        ∀ m ∈ b.head?, 2147483648 ≤ (d.frame.serial - h.log.serialOf m).toNat) := by
  have hreach := c.reached_iff d.frame.serial named
  refine ⟨fun hn => if_neg (mt hreach.mp hn), fun hr hl => (if_pos (hreach.mpr hr)).trans (ClipLog.linkTo_full hk hl),
    fun hr hl hnot => ?_⟩
  obtain ⟨a, b, hsplit, hplace, hbefore, hafter⟩ := (h.log.store d).placeIn_split h.log.nextLabel c.labels
  have hold : ∀ m ∈ c.labels, (h.log.store d).serialOf m = h.log.serialOf m := fun m hm =>
    ClipLog.serialOf_store hroom fun he => hnot (he ▸ hm)
  rw [ClipLog.serialOf_new hroom hfresh] at hbefore hafter
  refine ⟨a, b, hsplit, ?_, fun m hm => ?_, fun m hm => ?_⟩
  · rw [← hplace]
    exact (if_pos (hreach.mpr hr)).trans (ClipLog.linkTo_room hk hl)
  · rw [← hold m (by rw [hsplit]; exact List.mem_append_left _ hm)]
    exact hbefore m hm
  · rw [← hold m (by rw [hsplit]; exact List.mem_append_right _ (List.mem_of_mem_head? hm))]
    exact hafter m hm

/-! ### Triggers (R150, R151) -/

section
variable (h : Hub) {j k : Fin 4}

theorem Hub.fired_self (k : Fin 4) :
    (h.fired k).log.triggers[k] = { h.log.triggers[k] with
      fires := (h.log.triggers[k]).fires + 1, state := if (h.log.triggers[k]).auto then .armed else .fired } :=
  h.modTrigger_self k fun x => { x with fires := x.fires + 1, state := if x.auto then .armed else .fired }

theorem Hub.fired_ne (hj : j ≠ k) : (h.fired k).log.triggers[j] = h.log.triggers[j] :=
  h.modTrigger_ne (fun x => { x with fires := x.fires + 1, state := if x.auto then .armed else .fired }) hj

theorem ClipLog.makeRoom_triggers (l : ClipLog) : l.makeRoom.triggers = l.triggers := by
  unfold ClipLog.makeRoom
  split <;> rfl

theorem Hub.addClip_triggers (owner : Owner) (mask : BitVec 16) (name : Bytes) :
    (h.addClip owner mask name).log.triggers = h.log.triggers := h.log.makeRoom_triggers

/-- A fire attempt leaves the other triggers. -/
theorem Hub.attemptFire_ne (hj : j ≠ k) : (h.attemptFire k).1.log.triggers[j] = h.log.triggers[j] := by
  unfold Hub.attemptFire
  split
  · split
    · exact h.modTrigger_ne _ hj
    · split
      · refine (Hub.fired_ne _ hj).trans ?_
        simp only [Hub.addClip_triggers]
      · exact h.modTrigger_ne _ hj
  · exact Hub.fired_ne _ hj

theorem Trigger.matches_unarmed {x : Trigger} (hx : x.state ≠ .armed) (d : Draft) : x.matches d = false := by
  have hstate : (x.state == .armed) = false := beq_eq_false_iff_ne.mpr hx
  simp only [Trigger.matches, hstate, Bool.false_and]

theorem Trigger.matches_iff (x : Trigger) (d : Draft) :
    x.matches d = true ↔ x.state = .armed ∧ x.kind = some d.kind ∧ (x.source = none ∨ x.source = some d.source) ∧
      d.value.getD 0 &&& x.mask = x.pattern &&& x.mask := by
  simp only [Trigger.matches, Bool.and_eq_true, Bool.or_eq_true, beq_iff_eq, and_assoc]

/-- A label that one trigger alone can match is offered to that one. -/
theorem Hub.offerTriggers_one {d : Draft} (hj : ∀ j, j ≠ k → (h.log.triggers[j]).state ≠ .armed)
    (hm : (h.log.triggers[k]).matches d = true) : h.offerTriggers d = h.attemptFire k := by
  have hpass : ∀ (ts : List (Fin 4)) (x : Hub × List Draft), k ∉ ts →
      (∀ j, j ≠ k → (x.1.log.triggers[j]).state ≠ .armed) → ts.foldl (Hub.offerTrigger d) x = x := by
    intro ts x hk hx
    induction ts with
    | nil => rfl
    | cons t ts ih =>
      rw [List.mem_cons, not_or] at hk
      rw [List.foldl_cons, Hub.offerTrigger, Trigger.matches_unarmed (hx t (Ne.symm hk.1))]
      exact ih hk.2
  obtain ⟨xs, ys, hxy⟩ := List.append_of_mem (List.mem_finRange k)
  have hnodup : (xs ++ k :: ys).Nodup := hxy ▸ List.nodup_finRange 4
  obtain ⟨-, hys, hdisj⟩ := List.nodup_append.mp hnodup
  have hturn : Hub.offerTrigger d (h, []) k = h.attemptFire k := by
    rw [Hub.offerTrigger, if_pos hm]
    rfl
  rw [Hub.offerTriggers_eq, hxy, List.foldl_append, List.foldl_cons,
    hpass xs (h, []) (fun hk => hdisj k hk k (by simp) rfl) hj,
    hturn]
  refine hpass ys _ (List.nodup_cons.mp hys).1 fun j hne => ?_
  rw [h.attemptFire_ne hne]
  exact hj j hne

end

/-! ### What filing leaves of triggers and clips -/

/-- A clip that labels alone have changed. -/
structure Clip.SameRun (x y : Clip) : Prop where
  number : y.number = x.number
  state : y.state = x.state
  owner : y.owner = x.owner
  mask : y.mask = x.mask
  start : y.startSerial = x.startSerial
  ends : y.endSerial = x.endSerial
  reason : y.reason = x.reason

/-- A log that the filing of labels alone has changed. -/
def ClipLog.OnlyFiled (l m : ClipLog) : Prop :=
  m.triggers = l.triggers ∧ m.nextClip = l.nextClip ∧ ∃ f : Clip → Clip, m.clips = l.clips.map f ∧ ∀ c, Clip.SameRun c (f c)

theorem Clip.SameRun.refl (x : Clip) : x.SameRun x := ⟨rfl, rfl, rfl, rfl, rfl, rfl, rfl⟩

theorem Clip.SameRun.trans {x y z : Clip} (h₁ : x.SameRun y) (h₂ : y.SameRun z) : x.SameRun z :=
  ⟨h₂.number.trans h₁.number, h₂.state.trans h₁.state, h₂.owner.trans h₁.owner, h₂.mask.trans h₁.mask,
    h₂.start.trans h₁.start, h₂.ends.trans h₁.ends, h₂.reason.trans h₁.reason⟩

theorem ClipLog.OnlyFiled.refl (l : ClipLog) : l.OnlyFiled l := ⟨rfl, rfl, id, (List.map_id _).symm, .refl⟩

theorem ClipLog.OnlyFiled.trans {l m n : ClipLog} (h₁ : l.OnlyFiled m) (h₂ : m.OnlyFiled n) : l.OnlyFiled n := by
  obtain ⟨ht, hn, f, hf, hrun⟩ := h₁
  obtain ⟨ht', hn', f', hf', hrun'⟩ := h₂
  exact ⟨ht'.trans ht, hn'.trans hn, f' ∘ f, by rw [hf', hf, List.map_map], fun c => (hrun c).trans (hrun' _)⟩

theorem ClipLog.store_onlyFiled (l : ClipLog) (d : Draft) : l.OnlyFiled (l.store d) := by
  unfold ClipLog.store
  dsimp only
  split
  · exact .refl l
  · unfold ClipLog.dropOldest
    split
    · exact .refl l
    · refine ⟨rfl, rfl, _, rfl, fun c => ?_⟩
      split <;> exact ⟨rfl, rfl, rfl, rfl, rfl, rfl, rfl⟩

theorem ClipLog.link_onlyFiled (l : ClipLog) (n : Word) (d : Draft) (named : Option Word) :
    l.OnlyFiled (l.link n d named) := by
  refine ⟨rfl, rfl, _, rfl, fun c => ?_⟩
  unfold ClipLog.linkTo
  split
  · split <;> exact ⟨rfl, rfl, rfl, rfl, rfl, rfl, rfl⟩
  · exact .refl c

section
variable {h : Hub} (hs : (h.stream 12).state = .closed)
include hs

theorem Hub.fileLabel_onlyFiled (d : Draft) (named : Option Word) :
    h.log.OnlyFiled (h.fileLabel d named).1.log ∧ (((h.fileLabel d named).1).stream 12).state = .closed := by
  cases hk : h.log.keeps d.kind d.source with
  | false =>
    rw [Hub.fileLabel_ignored hk]
    exact ⟨.refl h.log, hs⟩
  | true =>
    have hoffer : (h.linked d named).offerLabel h.log.nextLabel d = h.linked d named :=
      Hub.offerLabel_closed (h.linked d named) hs _ _
    rw [Hub.fileLabel_kept hk, hoffer]
    exact ⟨(h.log.store_onlyFiled d).trans ((h.log.store d).link_onlyFiled h.log.nextLabel d named), hs⟩

theorem Hub.fileLabels_onlyFiled (ds : List Draft) :
    h.log.OnlyFiled (ds.foldl (fun g t => (g.fileLabel t none).1) h).log := by
  induction ds generalizing h with
  | nil => exact .refl h.log
  | cons d ds ih =>
    obtain ⟨hfiled, hclosed⟩ := h.fileLabel_onlyFiled hs d none
    exact hfiled.trans (ih hclosed)

/-- R150: what a label that fires one trigger leaves, but for what is filed. -/
theorem Hub.arriveLabel_fires {d : Draft} {k : Fin 4} (hj : ∀ j, j ≠ k → (h.log.triggers[j]).state ≠ .armed)
    (hm : (h.log.triggers[k]).matches d = true) :
    (h.attemptFire k).1.log.OnlyFiled (h.arriveLabel d none).1.log := by
  have hclosed : ((h.attemptFire k).1.stream 12).state = .closed := by
    rw [(h.attemptFire_only k).stream_eq (by decide)]
    exact hs
  obtain ⟨hfiled, hclosed'⟩ := Hub.fileLabel_onlyFiled hclosed d none
  rw [Hub.arriveLabel_fst, h.offerTriggers_one hj hm]
  exact hfiled.trans (Hub.fileLabels_onlyFiled hclosed' _)

end

/-- R151: a STOP closes the clips of its partner. -/
theorem Hub.attemptFire_stop {h : Hub} {k partner : Fin 4} (ha : (h.log.triggers[k]).action = .stop partner) :
    (h.attemptFire k).1 = (h.closeClips (fun c => c.owner == .trigger partner) .trigger).fired k := by
  unfold Hub.attemptFire
  rw [ha]

/-- R151: a START with an OPEN clip of its own is ignored, and one without room misses. -/
theorem Hub.attemptFire_start {h : Hub} {k : Fin 4} {mask : BitVec 16} (ha : (h.log.triggers[k]).action = .start mask) :
    ((∃ y ∈ h.log.clips, y.state = .opened ∧ y.owner = .trigger k) →
      (h.attemptFire k).1 = h.modTrigger k fun x => { x with ignored := x.ignored + 1 }) ∧
    ((¬ ∃ y ∈ h.log.clips, y.state = .opened ∧ y.owner = .trigger k) →
      (h.log.canOpen = false → (h.attemptFire k).1 = h.modTrigger k fun x => { x with misses := x.misses + 1 }) ∧
      (h.log.canOpen = true → (h.attemptFire k).1 = (h.addClip (.trigger k) mask []).fired k)) := by
  have hown : (h.log.clips.any fun c => c.state == .opened && c.owner == .trigger k) = true ↔
      ∃ y ∈ h.log.clips, y.state = .opened ∧ y.owner = .trigger k := by
    simp only [List.any_eq_true, Bool.and_eq_true, beq_iff_eq]
  unfold Hub.attemptFire
  rw [ha]
  dsimp only
  refine ⟨fun ho => by rw [if_pos (hown.mpr ho)], fun ho => ⟨fun hc => ?_, fun hc => ?_⟩⟩
  · rw [if_neg (mt hown.mp ho), if_neg (by rw [hc]; nofun)]
  · rw [if_neg (mt hown.mp ho), if_pos hc]

theorem portKind_plain (name : Bool) : portKind name ≠ .overload ∧ portKind name ≠ .tcJump := by
  cases name <;> exact ⟨nofun, nofun⟩

theorem Hub.renamed_none (h : Hub) (name : Bool) (text : TextArg) : (h.renamed name none text) = h := by
  rw [← Hub.rename_eq]
  cases name <;> rfl

/-- R146, R148: what a label of a port with room in the store makes of a clip. -/
theorem Hub.portLabel_links {h : Hub} {p : Fin 4} {name : Bool} {value : Option Word} {text : TextArg} {clip : Option Word}
    {i : Nat} {x : Clip} (hroom : h.log.labels.length < 4096) (hfresh : ∀ y ∈ h.log.labels, y.number ≠ h.log.nextLabel)
    (hx : h.log.clips[i]? = some x) {t : Hub}
    (ht : t = (h.renamed name clip text).linked (h.portDraft p name value text) clip) :
    (¬ x.Reached h.tb.frame.serial clip → t.log.clips[i]? = some (x.renamed name clip text)) ∧
    (x.Reached h.tb.frame.serial clip → 64 ≤ x.labels.length →
      t.log.clips[i]? = some { x.renamed name clip text with truncated := true }) ∧
    (x.Reached h.tb.frame.serial clip → x.labels.length < 64 → h.log.nextLabel ∉ x.labels →
      ∃ a b, x.labels = a ++ b ∧
        t.log.clips[i]? = some { x.renamed name clip text with labels := a ++ [h.log.nextLabel] ++ b } ∧
        (∀ m ∈ a, (h.tb.frame.serial - h.log.serialOf m).toNat < 2147483648) ∧
        ∀ m ∈ b.head?, 2147483648 ≤ (h.tb.frame.serial - h.log.serialOf m).toNat) := by
  have hclip : t.log.clips[i]? = some ((h.renamed name clip text).linkedClip (h.portDraft p name value text) clip
      (x.renamed name clip text)) := by
    rw [ht, Hub.linked_clips (h := h.renamed name clip text) hroom]
    change (List.map _ (List.map _ h.log.clips))[i]? = _
    rw [List.getElem?_map, List.getElem?_map, hx]
    rfl
  have hreach := x.renamed_reached name clip text h.tb.frame.serial clip
  obtain ⟨-, -, -, -, hlist⟩ := x.renamed_kept name clip text
  obtain ⟨houtside, hfull, hplaced⟩ := Hub.linkedClip_cases (h := h.renamed name clip text)
    (d := h.portDraft p name value text) (named := clip) (c := x.renamed name clip text) (portKind_plain name) hroom hfresh
  rw [hlist] at hplaced
  refine ⟨fun hn => hclip.trans (congrArg some (houtside (mt hreach.mp hn))),
    fun hr hl => hclip.trans (congrArg some (hfull (hreach.mpr hr) (by rw [hlist]; exact hl))), fun hr hl hnot => ?_⟩
  obtain ⟨a, b, hsplit, hlink, hbefore, hafter⟩ := hplaced (hreach.mpr hr) hl hnot
  exact ⟨a, b, hsplit, hclip.trans (congrArg some hlink), hbefore, hafter⟩

/-- The refusals of the clip that a label names. -/
theorem State.Serves.addLabel_refused {c : Caller} {s : State} {name : Bool} {value : Option Word} {text : TextArg}
    {clip : Option Word} {o : Answer} (hs : s.Serves c (some .log) none) (hl : text.len.toNat ≤ 64)
    (ho : (s.hub.arrive c.env).labelRefusal c.port clip = some o) (hd : o ≠ .denied) :
    exec (.addLabel c (byte name.toNat) value text clip) s = s.became ((s.hub.arrive c.env).answer c 0x73 o []) :=
  hs.run_none (Hub.addLabel_refused hl ho) hd

/-- A label that the clip it names allows is handed to the Clip Log. -/
theorem State.Serves.addLabel_taken {c : Caller} {s : State} {name : Bool} {value : Option Word} {text : TextArg}
    {clip : Option Word} {t : Hub} {r : Option Word} (hs : s.Serves c (some .log) none) (hl : text.len.toNat ≤ 64)
    (ho : (s.hub.arrive c.env).labelRefusal c.port clip = none)
    (ht : ((s.hub.arrive c.env).renamed name clip text).arriveLabel
      ((s.hub.arrive c.env).portDraft c.port name value text) clip = (t, r)) :
    exec (.addLabel c (byte name.toNat) value text clip) s = s.became (t.answer c 0x73 .done (optField 4 word4 r)) := by
  have htaken := Hub.addLabel_taken (value := value) (name := name) hl ho
  rw [ht] at htaken
  exact hs.run_none htaken nofun

/-- Settles O47: the checks, then filing with no trigger ARMED, then the fires of one trigger. -/
theorem labelsAreFiled : Obligations.LabelsAreFiled := by
  intro c name value text clip s hs g l frame kind cmd bytes unknown outside allowed number label renamed
  refine ⟨fun a hb => hs.run_none (Hub.addLabel_bad hb) nofun, fun hl => ?_⟩
  have hallowed : allowed → g.labelRefusal c.port clip = none := fun ha => by
    cases hc : clip with
    | none => rfl
    | some n =>
      obtain ⟨hknown, x, hx, hinside, hlive⟩ := ha n hc
      exact (Hub.labelRefusal_named (h := g) rfl (ClipLog.named_held hknown hx)).trans ((if_neg fun hn => hinside
        ((g.not_hasStreams_iff c.port x.mask).mp hn)).trans (if_neg hlive))
  refine ⟨fun n hc => ⟨fun hu => ?_, fun hu hall => ?_, fun x hu hx => ?_⟩, fun ha ht => ?_, fun k ha hnone hclosed hothers
    => ?_⟩
  · exact hs.addLabel_refused hl (Hub.labelRefusal_error (h := g) hc (ClipLog.named_unknown hu)) nofun
  · exact hs.addLabel_refused hl (Hub.labelRefusal_error (h := g) hc (ClipLog.named_gone hu hall)) nofun
  · have hrefusal := Hub.labelRefusal_named (h := g) (p := c.port) hc (ClipLog.named_held hu hx)
    have houtside : outside x ↔ ¬ g.hasStreams c.port x.mask = true := (g.not_hasStreams_iff c.port x.mask).symm
    refine ⟨fun ho => ?_, fun ho hlapsed => ?_⟩
    · exact hs.run_denied (fun _ h => by cases h)
        (Hub.addLabel_refused (h := g) hl (hrefusal.trans (if_pos (houtside.mp ho))))
    · exact hs.addLabel_refused hl (hrefusal.trans ((if_neg (mt houtside.mpr ho)).trans (if_pos hlapsed))) nofun
  · have hunarmed : (g.renamed name clip text).arriveLabel (g.portDraft c.port name value text) clip =
        (g.renamed name clip text).fileLabel (g.portDraft c.port name value text) clip := Hub.arriveLabel_unarmed ht
    refine ⟨fun hk => ?_, fun hk => ?_⟩
    · exact hs.addLabel_taken hl (hallowed ha) (hunarmed.trans (Hub.fileLabel_ignored hk))
    · have hkept := Hub.fileLabel_kept (h := g.renamed name clip text) (d := g.portDraft c.port name value text)
        (named := clip) hk
      obtain ⟨hlabels, hnext, hfiled, hremoved⟩ := Hub.fileLabel_filing (h := g.renamed name clip text)
        (d := g.portDraft c.port name value text) (named := clip) hk
      have honly := (g.renamed name clip text).fileLabel_only (g.portDraft c.port name value text) clip
      rw [hkept] at hlabels hnext hfiled hremoved honly
      dsimp only at hlabels hnext hfiled hremoved honly
      refine exists_became (hs.addLabel_taken hl (hallowed ha) (hunarmed.trans hkept)) ?_
      refine ⟨hlabels, hnext, hfiled, hremoved, Hub.answer_sending _ c _ _ _, ?_, fun hclosed hroom hfresh i x hx => ?_⟩
      · exact Hub.OnlyChanges.answered _ _ _ _
          ((((g.mapClips_only _).mono (by decide)).trans (honly.mono (by decide)))) (by decide)
      · have hoffer := Hub.offerLabel_closed ((g.renamed name clip text).linked (g.portDraft c.port name value text) clip)
          hclosed (g.renamed name clip text).log.nextLabel (g.portDraft c.port name value text)
        exact Hub.portLabel_links (h := g) (p := c.port) (value := value) hroom hfresh hx
          (t := ((g.renamed name clip text).linked (g.portDraft c.port name value text) clip).offerLabel
            (g.renamed name clip text).log.nextLabel (g.portDraft c.port name value text)) hoffer
  · have hnamed : g.renamed name clip text = g := by
      rw [hnone]
      exact g.renamed_none name text
    have hfires := fun hm => Hub.arriveLabel_fires (h := g) hclosed (d := g.portDraft c.port name value text) (k := k)
      hothers hm
    obtain ⟨t, ht⟩ : ∃ t, t = (g.arriveLabel (g.portDraft c.port name value text) none).1 := ⟨_, rfl⟩
    rw [← ht] at hfires
    have hrun : exec cmd s = s.became (t.answer c 0x73 .done
        (optField 4 word4 (g.arriveLabel (g.portDraft c.port name value text) none).2)) :=
      hs.addLabel_taken hl (hallowed ha) (by rw [hnamed, hnone, ht])
    intro x fired matching
    have hmatches : matching → (g.log.triggers[k]).matches (g.portDraft c.port name value text) = true :=
      fun hm => (Trigger.matches_iff _ _).mpr hm
    constructor
    · intro partner haction hm
      obtain ⟨htriggers, -, f, hclips, hsame⟩ := hfires (hmatches hm)
      rw [Hub.attemptFire_stop (h := g) haction] at htriggers hclips
      refine exists_became hrun ⟨?_, fun i y hy hopen howner => ?_⟩
      · exact (congrArg (fun v : Vector Trigger 4 => v[k]) htriggers).trans (Hub.fired_self _ k)
      · have hclosing : t.log.clips[i]? = some (f (y.close g.tb.frame.serial .trigger)) := by
          rw [hclips]
          change (List.map f (g.closeClips (fun c => c.owner == .trigger partner) .trigger).log.clips)[i]? = _
          rw [Hub.closeClips_clips, List.getElem?_map, List.getElem?_map, show g.log.clips[i]? = some y from hy]
          dsimp only [Option.map_some]
          rw [if_pos ⟨hopen, beq_iff_eq.mpr howner⟩]
          rfl
        have hrun := hsame (y.close g.tb.frame.serial .trigger)
        exact ⟨_, hclosing, hrun.state, hrun.reason, hrun.ends⟩
    · intro mask haction hm own
      obtain ⟨htriggers, hnext, f, hclips, hsame⟩ := hfires (hmatches hm)
      obtain ⟨hignored, hother⟩ := Hub.attemptFire_start (h := g) haction
      refine ⟨fun ho => ?_, fun ho hc => ?_, fun ho hc => ?_⟩
      · rw [hignored ho] at htriggers hnext
        refine exists_became hrun ⟨?_, hnext⟩
        exact (congrArg (fun v : Vector Trigger 4 => v[k]) htriggers).trans
          (g.modTrigger_self k fun x => { x with ignored := x.ignored + 1 })
      · rw [(hother ho).1 hc] at htriggers hnext
        refine exists_became hrun ⟨?_, hnext⟩
        exact (congrArg (fun v : Vector Trigger 4 => v[k]) htriggers).trans
          (g.modTrigger_self k fun x => { x with misses := x.misses + 1 })
      · rw [(hother ho).2 hc] at htriggers hnext hclips
        have hlast : t.log.clips.getLast? =
            some (f (Clip.new g.log.nextClip (.trigger k) mask [] (g.tb.frame.serial + 1))) := by
          rw [hclips]
          change (List.map f (g.addClip (.trigger k) mask []).log.clips).getLast? = _
          rw [List.getLast?_map, Hub.addClip_eq]
          dsimp only
          rw [List.getLast?_concat]
          rfl
        have hrun' := hsame (Clip.new g.log.nextClip (.trigger k) mask [] (g.tb.frame.serial + 1))
        refine ⟨_, _, hrun, ?_, hnext, hlast, hrun'.number, hrun'.state, hrun'.owner, hrun'.mask, hrun'.start⟩
        refine (congrArg (fun v : Vector Trigger 4 => v[k]) htriggers).trans ((Hub.fired_self _ k).trans ?_)
        simp only [Hub.addClip_triggers]
        rfl

end Sys2Proof.Machine
end

section
/-! Proofs: where the units of other streams go: the rings stay where they are, and the bytes of a ring that stands apart
stay. -/

namespace Sys2Proof.Machine

-- In order, so that the package in one text stays within the memory of its check.
set_option Elab.async false

/-! ### The bytes of a ring -/

/-- No other ring reaches into the blocks of ring q. -/
def Hub.Apart (h : Hub) (q : Fin 17) : Prop := ∀ r : Fin 17, r ≠ q →
  (h.ring r).base + (h.ring r).size ≤ (h.ring q).base ∨ (h.ring q).base + (h.ring q).size ≤ (h.ring r).base

/-- A byte of the DRAM in the blocks of a ring. -/
def Ring.Holds (x : Ring) (a : Nat) : Prop := x.base * 4096 ≤ a ∧ a < (x.base + x.size) * 4096

/-- A write into a ring leaves every byte outside the ring's blocks. -/
theorem Ring.read_writeBytes_elsewhere (x : Ring) (m : List (Nat × BitVec 8)) {start a : Nat} {bs : Bytes}
    (hb : bs.length ≤ x.sectors * 512) (ha : ¬ x.Holds a) : Memory.read (x.writeBytes m start bs) a = Memory.read m a := by
  have htake : (bs.take ((x.size * 8 - start) * 512)).length = min ((x.size * 8 - start) * 512) bs.length := List.length_take
  have hdrop : (bs.drop ((x.size * 8 - start) * 512)).length = bs.length - (x.size * 8 - start) * 512 := List.length_drop
  unfold Ring.sectors at hb
  unfold Ring.Holds at ha
  unfold Ring.writeBytes Ring.sectors Ring.baseByte
  dsimp only
  rw [Memory.read_write, if_neg, Memory.read_write, if_neg]
  · rintro ⟨hlow, hhigh⟩
    rw [htake] at hhigh
    omega
  · rintro ⟨hlow, hhigh⟩
    rw [hdrop] at hhigh
    omega

/-- The bytes read from a ring are those of its blocks. -/
theorem Ring.readBytes_congr (x : Ring) {m l : List (Nat × BitVec 8)} (hm : Memory.wf m = true) (hl : Memory.wf l = true)
    (hsame : ∀ a, x.Holds a → Memory.read m a = Memory.read l a) {start n : Nat} (hs : start < x.sectors)
    (hn : n ≤ x.sectors * 512) : x.readBytes m start n = x.readBytes l start n := by
  unfold Ring.sectors at hs hn
  unfold Ring.Holds at hsame
  unfold Ring.readBytes Ring.sectors Ring.baseByte
  dsimp only
  rw [Memory.range_eq hm, Memory.range_eq hm, Memory.range_eq hl, Memory.range_eq hl]
  congr 1
  · exact Memory.bytes_congr fun a h₁ h₂ => hsame a (by omega)
  · exact Memory.bytes_congr fun a h₁ h₂ => hsame a (by omega)

/-- Between two hubs no ring moved, and where ring q stands apart its bytes stay. -/
structure Hub.KeepsBytes (q : Fin 17) (g h : Hub) : Prop where
  base : ∀ r, (h.ring r).base = (g.ring r).base
  size : ∀ r, (h.ring r).size = (g.ring r).size
  ok : g.MemoryOk → h.MemoryOk
  bytes : g.Apart q → ∀ a, (g.ring q).Holds a → Memory.read h.store.mem a = Memory.read g.store.mem a

section
variable {q : Fin 17} {a b c g h : Hub}

theorem Hub.KeepsBytes.refl (q : Fin 17) (h : Hub) : Hub.KeepsBytes q h h :=
    ⟨fun _ => rfl, fun _ => rfl, id, fun _ _ _ => rfl⟩

theorem Hub.KeepsBytes.trans (h₁ : Hub.KeepsBytes q a b) (h₂ : Hub.KeepsBytes q b c) : Hub.KeepsBytes q a c := by
  refine ⟨fun r => (h₂.base r).trans (h₁.base r), fun r => (h₂.size r).trans (h₁.size r), h₂.ok ∘ h₁.ok, fun hq x hx =>
    (h₂.bytes ?_ x ?_).trans (h₁.bytes hq x hx)⟩
  · intro r hr
    rw [h₁.base, h₁.base, h₁.size, h₁.size]
    exact hq r hr
  · unfold Ring.Holds
    rw [h₁.base, h₁.size]
    exact hx

theorem Hub.KeepsBytes.ite {p : Prop} [Decidable p] (h₁ : Hub.KeepsBytes q g a) (h₂ : Hub.KeepsBytes q g b) :
    Hub.KeepsBytes q g (if p then a else b) := by
  split
  · exact h₁
  · exact h₂

/-- A change that is made under a condition alone. -/
theorem Hub.KeepsBytes.opt {p : Prop} [Decidable p] (h₁ : Hub.KeepsBytes q g a) (h₂ : Hub.KeepsBytes q a b) :
    Hub.KeepsBytes q g (if p then b else a) := .ite (h₁.trans h₂) h₁

/-- A change that moves no ring and writes nothing. -/
theorem Hub.KeepsBytes.of_rings {parts : List Part} (ho : Hub.OnlyChanges parts g h) (hm : Part.memory ∉ parts)
    (hr : ∀ r, (h.ring r).base = (g.ring r).base ∧ (h.ring r).size = (g.ring r).size) : Hub.KeepsBytes q g h := by
  have hmem : g.store.mem = h.store.mem := ho .memory hm
  refine ⟨fun r => (hr r).1, fun r => (hr r).2, fun hg => ?_, fun _ _ _ => by rw [hmem]⟩
  unfold Hub.MemoryOk at hg ⊢
  rw [← hmem]
  exact hg

theorem Hub.KeepsBytes.of_only {parts : List Part} (ho : Hub.OnlyChanges parts g h) (hr : Part.rings ∉ parts)
    (hm : Part.memory ∉ parts) : Hub.KeepsBytes q g h :=
  .of_rings ho hm fun r => by rw [ho.ring_eq hr]; exact ⟨rfl, rfl⟩

theorem Hub.KeepsBytes.foldl {α : Type} {f : Hub → α → Hub} (hf : ∀ g x, Hub.KeepsBytes q g (f g x)) (xs : List α) :
    ∀ h, Hub.KeepsBytes q h (xs.foldl f h) := by
  induction xs with
  | nil => exact fun h => .refl q h
  | cons x xs ih => exact fun h => (hf h x).trans (ih _)

end

section
variable {q : Fin 17} (h : Hub)

theorem Hub.makeRoom_bytes (r : Fin 17) (len n : Nat) : Hub.KeepsBytes q h (Hub.makeRoom r len n h) := by
  refine .of_rings (Hub.makeRoom_only r len n h) (by decide) fun p => ?_
  by_cases hp : p = r
  · subst hp
    obtain ⟨l, w, hl⟩ := Hub.makeRoom_ring p len n h
    rw [hl]
    exact ⟨rfl, rfl⟩
  · rw [Hub.makeRoom_ring_ne hp]
    exact ⟨rfl, rfl⟩

/-- A unit that its ring can hold is written into that ring. -/
theorem Hub.writeUnit_bytes {r : Fin 17} {o : Offer} (hr : r = 16 ∨ r = o.stream.castSucc) (hq : r ≠ q)
    (hl : sectorsOf o.payload.length ≤ (h.ring r).sectors) (unit : Word) (w : Option Word) :
    Hub.KeepsBytes q h (h.writeUnit r o unit w) := by
  have hring : ∀ p, ((h.writeUnit r o unit w).ring p).base = (h.ring p).base ∧
      ((h.writeUnit r o unit w).ring p).size = (h.ring p).size := fun p => by
    by_cases hp : p = r
    · subst hp
      rw [Hub.writeUnit_ring_self]
      exact ⟨rfl, rfl⟩
    · by_cases hown : r = 16 ∧ p = o.stream.castSucc
      · obtain ⟨rfl, rfl⟩ := hown
        rw [Hub.writeUnit_ring_own]
        exact ⟨rfl, rfl⟩
      · rw [Hub.writeUnit_ring_ne _ hp fun h16 hs => hown ⟨h16, hs⟩]
        exact ⟨rfl, rfl⟩
  refine ⟨fun p => (hring p).1, fun p => (hring p).2, fun hm => h.writeUnit_memoryOk hm r o unit w, fun ha a hold => ?_⟩
  rw [Hub.writeUnit_mem]
  refine Ring.read_writeBytes_elsewhere _ _ (by rw [Hub.unitImage_length]; exact Nat.mul_le_mul_right _ hl) fun hthere => ?_
  have hapart := ha r hq
  unfold Ring.Holds at hold hthere
  omega

theorem Hub.offer_bytes {o : Offer} (hq : h.boundRing o.stream ≠ q) : Hub.KeepsBytes q h (h.offer o).1 := by
  have hdiscard : Hub.KeepsBytes q h (h.countDiscard o.stream) := .of_only (h.modStream_only _ _) (by decide) (by decide)
  have hcommit : sectorsOf o.payload.length ≤ (h.ring (h.boundRing o.stream)).sectors →
      Hub.KeepsBytes q h (h.commit o).1 := by
    intro hl
    obtain ⟨l, w, hroomed⟩ := h.roomed_ring o (h.boundRing o.stream)
    rw [Hub.commit_eq]
    refine .trans (.trans (h.makeRoom_bytes _ _ _) (Hub.writeUnit_bytes (h.roomed o) ?_ hq ?_ _ _))
      (.of_only (Hub.afterWrite_only _ _ _ _ _ _ _) (by decide) (by decide))
    · rcases h.boundRing_cases o.stream with ⟨-, hr⟩ | ⟨-, hr⟩
      · exact .inl hr
      · exact .inr hr
    · rw [hroomed]
      exact hl
  refine .trans (b := (h.judge o).1) ?_ (.of_only (Hub.testClips_only _ _ _) (by decide) (by decide))
  unfold Hub.judge
  dsimp only
  repeat' split
  · exact .refl q h
  · exact hdiscard
  · exact hdiscard
  · exact hdiscard
  · rename_i hl _
    exact hcommit ((Nat.not_lt.mp hl).trans (Nat.div_le_self _ _))

end

section
variable {k : Fin 16} (h : Hub)

theorem Hub.fileLabel_bytes (hk : (12 : Fin 16) ≠ k) (d : Draft) (named : Option Word) :
    Hub.KeepsBytes k.castSucc h (h.fileLabel d named).1 := by
  unfold Hub.fileLabel
  split
  · refine .trans (.trans (.of_only (h.modLog_only fun l => l.store d) (by decide) (by decide))
      (.of_only (Hub.modLog_only _ fun l => l.link h.log.nextLabel d named) (by decide) (by decide))) ?_
    unfold Hub.offerLabel
    exact .ite (Hub.offer_bytes _ (Hub.boundRing_ne _ hk)) (.refl _ _)
  · exact .of_only (h.modLog_only _) (by decide) (by decide)

theorem Hub.label_bytes (hk : (12 : Fin 16) ≠ k) (d : Draft) : Hub.KeepsBytes k.castSucc h (h.label d) := by
  unfold Hub.label
  rw [Hub.arriveLabel_fst]
  exact .trans (.trans (.of_only (h.offerTriggers_only d) (by decide) (by decide)) (Hub.fileLabel_bytes _ hk d none))
    (.foldl (f := fun g t => (Hub.fileLabel g t none).1) (fun g t => g.fileLabel_bytes hk t none) _ _)

theorem Hub.flush_bytes {j : Fin 4} (hj : pictureStream j ≠ k) :
    ∀ (n : Nat) (h : Hub), Hub.KeepsBytes k.castSucc h (Hub.flush j n h)
  | 0, h => .refl _ h
  | n + 1, h => by
    have hmod : ∀ (g : Hub) (f : Coder → Coder), Hub.KeepsBytes k.castSucc g (g.modCoder j f) := fun g f =>
      .of_only (g.modCoder_only j f) (by decide) (by decide)
    unfold Hub.flush
    split
    · exact .refl _ h
    · split
      · exact .refl _ h
      · exact ((hmod h _).trans ((hmod _ _).trans ((hmod _ _).trans (Hub.offer_bytes _ (Hub.boundRing_ne _ hj))))).trans
          (Hub.flush_bytes hj n _)

/-- The end of a hold moves a send pointer. -/
theorem Hub.endHold_bytes (q : Fin 17) (j : Fin 16) : Hub.KeepsBytes q h (h.endHold j) :=
  .of_rings (h.endHold_only j) (by decide) fun r => by
    obtain ⟨w, hw⟩ := h.endHold_rings j r
    rw [hw]
    exact ⟨rfl, rfl⟩

theorem Hub.streamChanged_bytes (q : Fin 17) (j : Fin 16) : Hub.KeepsBytes q h (h.streamChanged j) :=
  .of_only (h.streamChanged_only j) (by decide) (by decide)

theorem Hub.endClosing_bytes (q : Fin 17) (j : Fin 16) : Hub.KeepsBytes q h (h.endClosing j) := by
  unfold Hub.endClosing
  exact .trans (.trans (.opt (.refl q h) (h.endHold_bytes q j)) (.of_only (Hub.modStream_only _ j _) (by decide) (by decide)))
    (Hub.streamChanged_bytes _ q j)

theorem Hub.releaseHold_bytes (q : Fin 17) (j : Fin 16) : Hub.KeepsBytes q h (h.releaseHold j) := by
  unfold Hub.releaseHold
  exact .trans ((h.endHold_bytes q j).trans (.of_only (Hub.modStream_only _ j _) (by decide) (by decide)))
    (Hub.streamChanged_bytes _ q j)

theorem Hub.discardBuffer_bytes (q : Fin 17) (j : Fin 16) : Hub.KeepsBytes q h (h.discardBuffer j) :=
  .of_only (Hub.discardBuffer_only _ j) (by decide) (by decide)

end

end Sys2Proof.Machine
end

section
/-! Proofs: what operations, and the stages of a tick, leave of a stream and its units. -/

namespace Sys2Proof.Machine

-- In order, so that the package in one text stays within the memory of its check.
set_option Elab.async false

/-- Between two hubs stream k stands as it did, with its units and their bytes. -/
structure Hub.LeavesStream (k : Fin 16) (g h : Hub) : Prop where
  standing : (h.stream k).standing = (g.stream k).standing
  units : Hub.KeepsUnits k g h
  bytes : Hub.KeepsBytes k.castSucc g h

section
variable {k : Fin 16} {a b c g h : Hub}

theorem Hub.LeavesStream.refl (k : Fin 16) (h : Hub) : Hub.LeavesStream k h h := ⟨rfl, .refl k h, .refl _ h⟩

theorem Hub.LeavesStream.trans (h₁ : Hub.LeavesStream k a b) (h₂ : Hub.LeavesStream k b c) : Hub.LeavesStream k a c :=
  ⟨h₂.standing.trans h₁.standing, h₁.units.trans h₂.units, h₁.bytes.trans h₂.bytes⟩

theorem Hub.LeavesStream.ite {q : Prop} [Decidable q] (h₁ : Hub.LeavesStream k g a) (h₂ : Hub.LeavesStream k g b) :
    Hub.LeavesStream k g (if q then a else b) := by
  split
  · exact h₁
  · exact h₂

/-- A change that is made under a condition alone. -/
theorem Hub.LeavesStream.opt {q : Prop} [Decidable q] (h₁ : Hub.LeavesStream k g a) (h₂ : Hub.LeavesStream k a b) :
    Hub.LeavesStream k g (if q then b else a) := .ite (h₁.trans h₂) h₁

theorem Hub.LeavesStream.of_only {parts : List Part} (ho : Hub.OnlyChanges parts g h) (hs : Part.streams ∉ parts)
    (hr : Part.rings ∉ parts) (hm : Part.memory ∉ parts) : Hub.LeavesStream k g h :=
  ⟨congrArg Stream.standing (ho.stream_eq hs k), .of_only ho hs hr, .of_only ho hr hm⟩

/-- Where every stream stands, it is the units that count. -/
theorem Hub.LeavesStream.of_stands (hs : Hub.StreamsStand (fun _ => True) g h) (hu : Hub.KeepsUnits k g h)
    (hb : Hub.KeepsBytes k.castSucc g h) : Hub.LeavesStream k g h := ⟨(hs k).1, hu, hb⟩

theorem Hub.LeavesStream.foldl {α : Type} {f : Hub → α → Hub} (hf : ∀ g x, Hub.LeavesStream k g (f g x)) (xs : List α) :
    ∀ h, Hub.LeavesStream k h (xs.foldl f h) := by
  induction xs with
  | nil => exact fun h => .refl k h
  | cons x xs ih => exact fun h => (hf h x).trans (ih _)

theorem Hub.LeavesStream.forEach {n : Nat} {f : Fin n → Hub → Hub} (hf : ∀ i g, Hub.LeavesStream k g (f i g)) (h : Hub) :
    Hub.LeavesStream k h (h.forEach n f) := .foldl (fun g i => hf i g) _ h

end

section
variable {k : Fin 16} (h : Hub)

theorem Hub.offer_leaves {o : Offer} (ho : o.stream ≠ k) : Hub.LeavesStream k h (h.offer o).1 :=
  .of_stands (h.offer_stands trivial) (h.offer_keepsUnits ho) (h.offer_bytes (h.boundRing_ne ho))

theorem Hub.label_leaves (hk : (12 : Fin 16) ≠ k) (d : Draft) : Hub.LeavesStream k h (h.label d) :=
  .of_stands (h.label_stands d trivial) (h.label_keepsUnits hk d) (h.label_bytes hk d)

theorem Hub.endClosing_leaves {j : Fin 16} (hj : j ≠ k) : Hub.LeavesStream k h (h.endClosing j) :=
  ⟨congrArg Stream.standing (Hub.endClosing_ne h hj.symm), h.endClosing_keepsUnits j, h.endClosing_bytes _ j⟩

/-! ### Pictures of other streams -/

section
variable {j : Fin 4}

theorem Hub.modCoder_leaves (j : Fin 4) (f : Coder → Coder) : Hub.LeavesStream k h (h.modCoder j f) :=
  .of_only (h.modCoder_only j f) (by decide) (by decide) (by decide)

theorem Hub.settle_leaves (hj : pictureStream j ≠ k) : Hub.LeavesStream k h (h.settle j) := by
  have hflush : Hub.LeavesStream k h (Hub.flush j (h.coders[j]).flight.length h) :=
    .of_stands (Hub.flush_stands (S := fun _ => True) trivial _ h) (Hub.flush_keepsUnits hj _ h) (Hub.flush_bytes hj _ h)
  exact .opt hflush (Hub.endClosing_leaves _ hj)

theorem Hub.dropPicture_leaves (hk : (12 : Fin 16) ≠ k) (j : Fin 4) (f : Flight) (why : DropReason) :
    Hub.LeavesStream k h (h.dropPicture j f why) :=
  (((h.modCoder_leaves j _).trans (.of_only (Hub.notify_only _ _ _) (by decide) (by decide) (by decide))).trans
    (Hub.label_leaves _ hk _)).trans (.of_only (Hub.testClips_only _ _ _) (by decide) (by decide) (by decide))

theorem Hub.lateDrop_leaves (hk : (12 : Fin 16) ≠ k) (hj : pictureStream j ≠ k) : Hub.LeavesStream k h
    (Hub.lateDrop j h) := by
  unfold Hub.lateDrop
  split
  · exact .refl k h
  · exact .ite (((h.modCoder_leaves j _).trans (Hub.dropPicture_leaves _ hk j _ _)).trans (Hub.settle_leaves _ hj))
      (.refl k h)

theorem Hub.abortFrom_leaves (hj : pictureStream j ≠ k) (i : Fin 4) : Hub.LeavesStream k h (Hub.abortFrom i j h) := by
  unfold Hub.abortFrom
  exact .ite (.refl k h) ((h.modCoder_leaves j _).trans (Hub.settle_leaves _ hj))

theorem Hub.beginPicture_leaves (hj : pictureStream j ≠ k) : Hub.LeavesStream k h (Hub.beginPicture j h) := by
  unfold Hub.beginPicture
  refine .ite (.ite ?_ ?_) (.refl k h)
  · exact (Hub.LeavesStream.of_only (h.forgetRates_only j) (by decide) (by decide) (by decide)).trans
      (Hub.modCoder_leaves _ j _)
  · exact (h.modCoder_leaves j _).trans (Hub.settle_leaves _ hj)

theorem Hub.inputChanged_leaves (hk : (12 : Fin 16) ≠ k) (i : Fin 4) (kind : LabelKind) :
    Hub.LeavesStream k h (h.inputChanged i kind) :=
  (Hub.LeavesStream.of_only (h.notify_only .inputState i.val) (by decide) (by decide) (by decide)).trans
    (Hub.label_leaves _ hk _)

end

/-! ### The stages of a tick -/

theorem Hub.tickFrame_leaves (m : Nat) : Hub.LeavesStream k h (h.tickFrame m) :=
  .of_only (h.tickFrame_only m) (by decide) (by decide) (by decide)

theorem Hub.timebaseNotices_leaves (hk : (12 : Fin 16) ≠ k) (old : Timebase) :
    Hub.LeavesStream k h (h.timebaseNotices old) := by
  have hn : ∀ (g : Hub) (x : NoticeKind) (n : Nat), Hub.LeavesStream k g (g.notify x n) := fun g x n =>
    .of_only (g.notify_only x n) (by decide) (by decide) (by decide)
  unfold Hub.timebaseNotices
  exact .opt (.opt (.opt (.opt (.refl k h) (hn _ _ _)) ((hn _ _ _).trans (Hub.label_leaves _ hk _))) (hn _ _ _)) (hn _ _ _)

theorem Hub.modBus_leaves (j : Fin 16) (f : Bus → Bus) : Hub.LeavesStream k h (h.modBus j f) :=
  .of_only (h.modBus_only j f) (by decide) (by decide) (by decide)

theorem Hub.modPack_leaves (j : Fin 8) (f : Pack → Pack) : Hub.LeavesStream k h (h.modPack j f) :=
  .of_only (h.modPack_only j f) (by decide) (by decide) (by decide)

theorem Hub.judgeOverload_leaves (hk : (12 : Fin 16) ≠ k) (ended : Frame) (j : Fin 16) :
    Hub.LeavesStream k h (h.judgeOverload ended j) := by
  unfold Hub.judgeOverload
  exact .ite (.refl k h) (((h.modBus_leaves j _).trans (Hub.label_leaves _ hk _)).trans
    (.of_only (Hub.give_only _ _ (parts := [.notices]) (by decide)) (by decide) (by decide) (by decide)))

theorem Hub.judgeSilence_leaves (hk : (12 : Fin 16) ≠ k) (ended : Frame) (j : Fin 16) :
    Hub.LeavesStream k h (h.judgeSilence ended j) := by
  unfold Hub.judgeSilence
  exact .ite (.ite ((h.modBus_leaves j _).trans (Hub.label_leaves _ hk _)) (h.modBus_leaves j _))
    (.ite ((h.modBus_leaves j _).trans (Hub.label_leaves _ hk _)) (h.modBus_leaves j _))

theorem Hub.tickPack_leaves {j : Fin 8} (hj : soundStream j ≠ k) (ended : Frame) (n : Nat) :
    Hub.LeavesStream k h (Hub.tickPack ended n j h) := by
  have hstart : Hub.LeavesStream k h (h.startPack j) := by
    unfold Hub.startPack
    exact h.modPack_leaves j _
  refine .opt ?_ (Hub.endClosing_leaves _ hj)
  split
  · exact (hstart.trans (Hub.modPack_leaves _ j _)).trans (Hub.offer_leaves _ (by exact hj))
  · exact hstart.trans (Hub.modPack_leaves _ j _)
  · exact hstart

/-- The mixer's judgement of the buses at a tick. -/
def Hub.judgeBuses (h : Hub) (ended : Frame) : Hub :=
  h.closeMeters.forEach 16 fun k g => (g.judgeOverload ended k).judgeSilence ended k

/-- The sound units of a tick. -/
def Hub.tickPacks (h : Hub) (old : Timebase) : Hub :=
  h.forEach 8 (Hub.tickPack old.frame (old.frameRate.samples old.frame.phase))

theorem Hub.tickMixer_stages (old : Timebase) :
    h.tickMixer old = ((h.judgeBuses old.frame).tickPacks old).openMixerFrame := h.tickMixer_eq old

theorem Hub.closeMeters_only : Hub.OnlyChanges [.mixer] h h.closeMeters := h.withMixer_only _

theorem Hub.openMixerFrame_only : Hub.OnlyChanges [.mixer] h h.openMixerFrame := h.withMixer_only _

theorem Hub.judgeBuses_leaves (hk : (12 : Fin 16) ≠ k) (ended : Frame) : Hub.LeavesStream k h (h.judgeBuses ended) :=
  (Hub.LeavesStream.of_only h.closeMeters_only (by decide) (by decide) (by decide)).trans
    (.forEach (fun j g => (g.judgeOverload_leaves hk _ j).trans (Hub.judgeSilence_leaves _ hk _ j)) _)

/-- The mixer's part of a tick leaves the streams that are no sound stream. -/
theorem Hub.tickMixer_leaves (hk : (12 : Fin 16) ≠ k) (hj : ∀ j, soundStream j ≠ k) (old : Timebase) :
    Hub.LeavesStream k h (h.tickMixer old) := by
  rw [Hub.tickMixer_stages]
  exact ((h.judgeBuses_leaves hk old.frame).trans (.forEach (fun j g => g.tickPack_leaves (hj j) _ _) _)).trans
    (.of_only (Hub.openMixerFrame_only _) (by decide) (by decide) (by decide))

theorem Hub.afterChange_leaves (hk : (12 : Fin 16) ≠ k) (p : Fin 8) (old : Path) (s : PathState) (why : DownReason) :
    Hub.LeavesStream k h (h.afterChange p old s why) := by
  have hbond : Hub.OnlyChanges [.mapping, .notices] h
      ((h.tellBond p old).notify .pathState (p.val + 256 * pathStateCode s)) :=
    .trans (.opt (.refl _ h) ((h.modBond_only _ _).mono (by decide))) ((Hub.notify_only _ _ _).mono (by decide))
  rw [Hub.afterChange_eq, Hub.tellChange]
  exact .trans (.trans (.of_only hbond (by decide) (by decide) (by decide)) (Hub.label_leaves _ hk _))
    (.of_only (((Hub.leaveGauge_only _ p old s).mono (large := [.gauges, .notices, .budget]) (by decide)).trans
      ((Hub.recompute_only _).mono (by decide))) (by decide) (by decide) (by decide))

theorem Hub.evaluate_leavesStream (hk : (12 : Fin 16) ≠ k) (p : Fin 8) (f : Path → Path) :
    Hub.LeavesStream k h (Hub.evaluatePath p (h.modPath p f)) := by
  rw [Hub.evaluatePath_modPath]
  exact .ite (.of_only (h.modPath_only p _) (by decide) (by decide) (by decide))
    ((Hub.LeavesStream.of_only (h.modPath_only p _) (by decide) (by decide) (by decide)).trans
      (Hub.afterChange_leaves _ hk p _ _ _))

theorem Hub.tickPath_leaves (hk : (12 : Fin 16) ≠ k) (p : Fin 8) : Hub.LeavesStream k h (Hub.tickPath p h) := by
  rw [Hub.tickPath_eq]
  exact (Hub.LeavesStream.of_only (h.tellLines_only p) (by decide) (by decide) (by decide)).trans
    (Hub.evaluate_leavesStream _ hk p _)

theorem Hub.tickPaths_leaves (hk : (12 : Fin 16) ≠ k) : Hub.LeavesStream k h h.tickPaths :=
  .forEach (fun p g => g.tickPath_leaves hk p) h

theorem Hub.tickGauges_leaves : Hub.LeavesStream k h h.tickGauges := .of_only h.tickGauges_only (by decide) (by decide)
    (by decide)

theorem Hub.lateStages_leaves : Hub.LeavesStream k h h.openPaths.tickTests.tickTally :=
  (Hub.LeavesStream.of_only h.openPaths_only (by decide) (by decide) (by decide)).trans
    (.of_only (Hub.lateStages_only _) (by decide) (by decide) (by decide))

end

end Sys2Proof.Machine
end

section
/-! Proofs: receivers (R48, R49, R61): the loss of an input, an input at a tick, and what the later stages of a tick leave. -/

namespace Sys2Proof.Machine

-- In order, so that the package in one text stays within the memory of its check.
set_option Elab.async false

/-! ### Aborted pictures (R61) -/

section
variable (h : Hub) (i k : Fin 4)

/-- The context in which the pictures being captured from an input have been aborted. -/
def Coder.aborted (c : Coder) (i : Fin 4) : Coder :=
  { c with
    flight := c.flight.map fun f => if f.capturingFrom i then f.abort else f
    counts := { c.counts with
      aborted := c.counts.aborted + BitVec.ofNat 32 (c.flight.filter fun f => f.capturingFrom i).length } }

variable {i k} in
theorem Hub.abortFrom_void (hn : ∀ f ∈ (h.coders[k]'k.2).flight, f.capturingFrom i = false) : Hub.abortFrom i k h = h := by
  unfold Hub.abortFrom
  exact if_pos (List.length_eq_zero_iff.mpr (List.filter_eq_nil_iff.mpr fun f hf => by rw [hn f hf]; nofun))

theorem Hub.abortFrom_some (hn : ((h.coders[k]'k.2).flight.filter fun f => f.capturingFrom i).length ≠ 0) :
    Hub.abortFrom i k h = (h.modCoder k fun c => c.aborted i).settle k := by
  have hcongr : (h.modCoder k fun c => { c with
      flight := c.flight.map fun f => if f.capturingFrom i then f.abort else f
      counts := { c.counts with
        aborted :=
          c.counts.aborted + BitVec.ofNat 32 ((h.coders[k]'k.2).flight.filter fun f => f.capturingFrom i).length } }) =
      h.modCoder k fun c => c.aborted i := rfl
  unfold Hub.abortFrom
  refine (if_neg hn).trans ?_
  exact congrArg (Hub.settle · k) hcongr

theorem Hub.abortFrom_other {j : Fin 4} (hj : j ≠ k) : (Hub.abortFrom i k h).coders[j]'j.2 = h.coders[j]'j.2 := by
  by_cases hn : ((h.coders[k]'k.2).flight.filter fun f => f.capturingFrom i).length = 0
  · rw [show Hub.abortFrom i k h = h from if_pos hn]
  · rw [h.abortFrom_some i k hn, Hub.settle_other _ hj, Hub.modCoder_ne _ _ hj]

/-- What the loss of an input leaves of a context: no capture from it goes on. -/
structure Coder.Aborted (i : Fin 4) (c d : Coder) : Prop where
  none : ∀ f ∈ d.flight, f.capturingFrom i = false
  fullness : d.fullness = c.fullness
  q : d.q = c.q
  count : d.counts.aborted =
    c.counts.aborted + BitVec.ofNat 32 (c.flight.filter fun f => f.capturingFrom i).length

theorem Flight.abort_capturing (f : Flight) : f.abort.capturingFrom i = false := rfl

theorem Hub.abortFrom_own : Coder.Aborted i h.coders[k] (Hub.abortFrom i k h).coders[k] := by
  by_cases hn : ((h.coders[k]'k.2).flight.filter fun f => f.capturingFrom i).length = 0
  · have hnone : ∀ f ∈ (h.coders[k]'k.2).flight, f.capturingFrom i = false := fun f hf => by
      have hfilter := List.filter_eq_nil_iff.mp (List.length_eq_zero_iff.mp hn) f hf
      simpa using hfilter
    rw [show Hub.abortFrom i k h = h from if_pos hn]
    exact ⟨hnone, rfl, rfl, by rw [hn]; simp⟩
  · have hctx := (h.modCoder k fun c => c.aborted i).settle_context (k := k)
    rw [Hub.modCoder_self, ← h.abortFrom_some i k hn] at hctx
    rw [hctx]
    refine ⟨fun f hf => ?_, rfl, rfl, rfl⟩
    obtain ⟨x, -, rfl⟩ := List.mem_map.mp ((List.dropWhile_sublist _).subset hf)
    by_cases hx : x.capturingFrom i = true
    · rw [if_pos hx]
      exact Flight.abort_capturing i x
    · rw [if_neg hx]
      exact Bool.eq_false_iff.mpr hx

end

/-! ### The loss of an input (R48) -/

section
variable (h : Hub) (i : Fin 4)

/-- The hub in which an input is lost, before its pictures are aborted. -/
def Hub.inputLost (h : Hub) (i : Fin 4) : Hub :=
  let g := h.modInput i fun x => { x with present := false, sinceLoss := 0, losses := x.losses + 1 }
  ({ g with tally := { g.tally with flash := g.tally.flash.set i 0 } } : Hub).inputChanged i .inputLoss

theorem Hub.loseInput_eq : h.loseInput i = (h.inputLost i).forEach 4 (Hub.abortFrom i) := rfl

theorem Hub.inputLost_coders : (h.inputLost i).coders = h.coders := ((Hub.inputChanged_only _ i _) .coders (by decide)).symm

theorem Hub.inputLost_inputs : (h.inputLost i).inputs =
    (h.modInput i fun x => { x with present := false, sinceLoss := 0, losses := x.losses + 1 }).inputs :=
  ((Hub.inputChanged_only _ i _) .inputs (by decide)).symm

theorem Hub.inputLost_flash : (h.inputLost i).tally.flash = h.tally.flash.set i 0 := by
  have htally : (h.inputLost i).tally = { h.tally with flash := h.tally.flash.set i 0 } :=
    ((Hub.inputChanged_only _ i _) .tally (by decide)).symm
  rw [htally]

theorem Hub.loseInput_aborts (k : Fin 4) : Coder.Aborted i h.coders[k] (h.loseInput i).coders[k] := by
  obtain ⟨g, hbefore, hafter⟩ := Hub.forEach_at (f := Hub.abortFrom i) (R := fun a b => b.coders[k]'k.2 = a.coders[k]'k.2)
    (fun _ => rfl) (fun h₁ h₂ => h₂.trans h₁) k (fun q g hq => g.abortFrom_other i q hq.symm) (h.inputLost i)
  have hown := g.abortFrom_own i k
  rw [← h.loseInput_eq i] at hafter
  rw [hafter, ← show g.coders[k]'k.2 = h.coders[k]'k.2 from hbefore.trans (by rw [h.inputLost_coders i])]
  exact hown

theorem Hub.aborts_parts (g : Hub) : Hub.OnlyChanges pictureParts g (g.forEach 4 (Hub.abortFrom i)) :=
  .forEach (fun k g => g.abortFrom_pictureParts i k) g

theorem Hub.loseInput_inputs : (h.loseInput i).inputs =
    (h.modInput i fun x => { x with present := false, sinceLoss := 0, losses := x.losses + 1 }).inputs :=
  ((Hub.aborts_parts i (h.inputLost i)) .inputs (by decide)).symm.trans (h.inputLost_inputs i)

theorem Hub.loseInput_flash : (h.loseInput i).tally.flash = h.tally.flash.set i 0 := by
  have htally : (h.loseInput i).tally = (h.inputLost i).tally :=
    ((Hub.aborts_parts i (h.inputLost i)) .tally (by decide)).symm
  rw [htally, h.inputLost_flash]

/-- R48, R61: what the loss of an input leaves. -/
theorem Hub.loseInput_loses {h t : Hub} {i : Fin 4} (ht : t = h.loseInput i) :
    t.inputs[i]'i.2 = { h.inputs[i]'i.2 with present := false, sinceLoss := 0, losses := (h.inputs[i]'i.2).losses + 1 } ∧
      (∀ j : Fin 4, j ≠ i → t.inputs[j] = h.inputs[j]) ∧ (∀ k : Fin 4, Coder.Aborted i h.coders[k] t.coders[k]) ∧
        t.tally.flash[i] = 0 ∧
      (∀ j : Fin 4, j ≠ i → t.tally.flash[j]'j.2 = h.tally.flash[j]'j.2) ∧
        (∀ p : Fin 4, (t.notices[p]'p.2).summary.getLsbD 9 = true) ∧
      Hub.OnlyChanges coderParts h t := by
  have hinputs := h.loseInput_inputs i
  have hflash := h.loseInput_flash i
  have haborts := h.loseInput_aborts i
  have htold := fun p => h.loseInput_summary i p
  have honly := h.loseInput_only i
  rw [← ht] at hinputs hflash haborts htold honly
  refine ⟨?_, fun j hj => ?_, haborts, ?_, fun j hj => ?_, htold, honly⟩
  · rw [hinputs]
    exact h.modInput_self i fun x => { x with present := false, sinceLoss := 0, losses := x.losses + 1 }
  · rw [hinputs]
    exact h.modInput_ne (fun x => { x with present := false, sinceLoss := 0, losses := x.losses + 1 }) hj
  · rw [hflash]
    exact vectorSet_self _ _ _
  · rw [hflash]
    exact vectorSet_ne _ hj _

end

/-! ### An input at a tick (R48, R49) -/

/-- Whether an input delivered a picture of its expected format and the rate in force. -/
def VideoInput.Good (x : VideoInput) (r : Rate) : Prop := ∃ m ∈ x.delivered, m.format = some x.expected ∧ m.rate = some r

section
variable (h : Hub) (i : Fin 4)

theorem Hub.delivered_good :
    ((h.inputs[i]'i.2).delivered.any fun m => h.matchesInput i m) = true ↔ (h.inputs[i]'i.2).Good h.tb.rate := by
  unfold Hub.matchesInput VideoInput.Good
  simp only [List.any_eq_true, Bool.and_eq_true, beq_iff_eq]

/-- The hub with the delivered pictures of an input taken. -/
def Hub.collected (h : Hub) (i : Fin 4) : Hub := h.modInput i fun x => { x with delivered := [] }

variable {i} in
theorem Hub.tickInput_good (hp : (h.inputs[i]'i.2).present = true) (hg : (h.inputs[i]'i.2).Good h.tb.rate) :
    Hub.tickInput i h = h.collected i := by
  have hany := (h.delivered_good i).mpr hg
  unfold Hub.tickInput
  dsimp only
  rw [hany, if_pos hp, if_pos rfl]
  rfl

variable {i} in
theorem Hub.tickInput_lost (hp : (h.inputs[i]'i.2).present = true) (hg : ¬ (h.inputs[i]'i.2).Good h.tb.rate) :
    Hub.tickInput i h = (h.collected i).loseInput i := by
  have hany := Bool.eq_false_iff.mpr (mt (h.delivered_good i).mp hg)
  unfold Hub.tickInput
  dsimp only
  rw [hany, if_pos hp, if_neg Bool.false_ne_true]
  rfl

variable {i} in
theorem Hub.tickInput_returns (hp : (h.inputs[i]'i.2).present = false) (hg : (h.inputs[i]'i.2).Good h.tb.rate)
    (hl : (h.inputs[i]'i.2).locked = true) :
    Hub.tickInput i h = ((h.collected i).modInput i fun x => { x with present := true }).inputChanged i .inputReturn := by
  have hany := (h.delivered_good i).mpr hg
  unfold Hub.tickInput
  dsimp only
  rw [hany, hl, if_neg (by rw [hp]; nofun), if_pos (by rfl)]
  rfl

variable {i} in
theorem Hub.tickInput_waits (hp : (h.inputs[i]'i.2).present = false)
    (hg : ¬ (h.inputs[i]'i.2).Good h.tb.rate ∨ (h.inputs[i]'i.2).locked = false) :
    Hub.tickInput i h =
      { (h.collected i).modInput i fun x => { x with sinceLoss := min 4294967295 (x.sinceLoss + 1) } with
        tally := { h.tally with flash := h.tally.flash.set i ((h.tally.flash[i]'i.2 + 1) % 4) } } := by
  have hand : (((h.inputs[i]'i.2).delivered.any fun m => h.matchesInput i m) && (h.inputs[i]'i.2).locked) = false := by
    rcases hg with hg | hl
    · rw [Bool.eq_false_iff.mpr (mt (h.delivered_good i).mp hg), Bool.false_and]
    · rw [hl, Bool.and_false]
  unfold Hub.tickInput
  dsimp only
  rw [hand, if_neg (by rw [hp]; nofun), if_neg Bool.false_ne_true]
  rfl

/-- What a tick makes of an input's record, of its flash phase, and the notice that it gives. -/
structure Hub.InputTicked (i : Fin 4) (g h : Hub) : Prop where
  stays : (g.inputs[i]'i.2).present = true → (g.inputs[i]'i.2).Good g.tb.rate →
    h.inputs[i]'i.2 = { g.inputs[i]'i.2 with delivered := [] } ∧ h.tally.flash[i]'i.2 = g.tally.flash[i]'i.2
  lost : (g.inputs[i]'i.2).present = true → ¬ (g.inputs[i]'i.2).Good g.tb.rate →
    h.inputs[i]'i.2 = { g.inputs[i]'i.2 with
      delivered := [], present := false, sinceLoss := 0, losses := (g.inputs[i]'i.2).losses + 1 } ∧
      h.tally.flash[i]'i.2 = 0 ∧ ∀ p : Fin 4, (h.notices[p]'p.2).summary.getLsbD 9 = true
  returns : (g.inputs[i]'i.2).present = false → (g.inputs[i]'i.2).Good g.tb.rate → (g.inputs[i]'i.2).locked = true →
    h.inputs[i]'i.2 = { g.inputs[i]'i.2 with delivered := [], present := true } ∧
      h.tally.flash[i]'i.2 = g.tally.flash[i]'i.2 ∧
      ∀ p : Fin 4, (h.notices[p]'p.2).summary.getLsbD 9 = true
  waits : (g.inputs[i]'i.2).present = false → ¬ (g.inputs[i]'i.2).Good g.tb.rate ∨ (g.inputs[i]'i.2).locked = false →
    h.inputs[i]'i.2 =
      { g.inputs[i]'i.2 with delivered := [], sinceLoss := min 4294967295 ((g.inputs[i]'i.2).sinceLoss + 1) } ∧
      h.tally.flash[i]'i.2 = (g.tally.flash[i]'i.2 + 1) % 4

theorem Hub.tickInput_own {h t : Hub} {i : Fin 4} (ht : t = Hub.tickInput i h) : Hub.InputTicked i h t := by
  have hempty : (h.collected i).inputs[i] = { h.inputs[i] with delivered := [] } := Hub.modInput_self _ _ _
  constructor
  · intro hp hg
    rw [ht, h.tickInput_good hp hg]
    exact ⟨hempty, rfl⟩
  · intro hp hg
    obtain ⟨hself, -, -, hflash, -, htold, -⟩ := Hub.loseInput_loses (ht.trans (h.tickInput_lost hp hg))
    rw [hempty] at hself
    exact ⟨hself, hflash, htold⟩
  · intro hp hg hl
    have heq := ht.trans (h.tickInput_returns hp hg hl)
    have honly := Hub.inputChanged_only ((h.collected i).modInput i fun x => { x with present := true }) i .inputReturn
    have htold := Hub.inputChanged_summary ((h.collected i).modInput i fun x => { x with present := true }) i .inputReturn
    rw [← heq] at honly htold
    have hinputs : t.inputs = ((h.collected i).modInput i fun x => { x with present := true }).inputs :=
      (honly .inputs (by decide)).symm
    have htally : t.tally = h.tally := (honly .tally (by decide)).symm
    refine ⟨?_, by rw [htally], htold⟩
    rw [hinputs, Hub.modInput_self, hempty]
  · intro hp hg
    have heq := ht.trans (h.tickInput_waits hp hg)
    have hinputs : t.inputs =
        ((h.collected i).modInput i fun x => { x with sinceLoss := min 4294967295 (x.sinceLoss + 1) }).inputs :=
      by rw [heq]
    have hflash : t.tally.flash = h.tally.flash.set i ((h.tally.flash[i] + 1) % 4) :=
      by rw [heq]
    refine ⟨?_, ?_⟩
    · rw [hinputs, Hub.modInput_self, hempty]
    · rw [hflash]
      exact vectorSet_self _ _ _

end

/-! ### The coder's part of a tick (R54, R59, R61, R62) -/

/-- What the other inputs leave of input i at a tick. -/
structure Hub.SameInput (i : Fin 4) (g h : Hub) : Prop where
  input : h.inputs[i]'i.2 = g.inputs[i]'i.2
  flash : h.tally.flash[i]'i.2 = g.tally.flash[i]'i.2
  timebase : h.tb = g.tb
  heard : Hub.Heard coderKinds g h

section
variable {i : Fin 4} {a b c : Hub}

theorem Hub.SameInput.refl (i : Fin 4) (h : Hub) : Hub.SameInput i h h := ⟨rfl, rfl, rfl, .refl _ h⟩

theorem Hub.SameInput.trans (h₁ : Hub.SameInput i a b) (h₂ : Hub.SameInput i b c) : Hub.SameInput i a c :=
  ⟨h₂.input.trans h₁.input, h₂.flash.trans h₁.flash, h₂.timebase.trans h₁.timebase, h₁.heard.trans h₂.heard⟩

theorem Hub.SameInput.of_only {parts : List Part} (ho : Hub.OnlyChanges parts a b) (hh : Hub.Heard coderKinds a b)
    (hi : Part.inputs ∉ parts) (ht : Part.tally ∉ parts) (hb : Part.timebase ∉ parts) : Hub.SameInput i a b := by
  have hinputs : a.inputs = b.inputs := ho .inputs hi
  have htally : a.tally = b.tally := ho .tally ht
  exact ⟨by rw [hinputs], by rw [htally], (ho .timebase hb).symm, hh⟩

end

section
variable (h : Hub)

theorem Hub.tickInput_other {i j : Fin 4} (hj : i ≠ j) : Hub.SameInput i h (Hub.tickInput j h) := by
  have hcollect : (h.collected j).inputs[i] = h.inputs[i] := Hub.modInput_ne _ _ hj
  have hsame : ∀ {t : Hub}, t = Hub.tickInput j h → t.inputs[i] = h.inputs[i] ∧ t.tally.flash[i] = h.tally.flash[i] := by
    intro t ht
    by_cases hp : (h.inputs[j]).present = true
    · by_cases hg : (h.inputs[j]).Good h.tb.rate
      · rw [ht, h.tickInput_good hp hg]
        exact ⟨hcollect, rfl⟩
      · obtain ⟨-, hothers, -, -, hflash, -, -⟩ := Hub.loseInput_loses (ht.trans (h.tickInput_lost hp hg))
        exact ⟨(hothers i hj).trans hcollect, hflash i hj⟩
    · have hp' := Bool.eq_false_iff.mpr hp
      by_cases hgl : (h.inputs[j]).Good h.tb.rate ∧ (h.inputs[j]).locked = true
      · have heq := ht.trans (h.tickInput_returns hp' hgl.1 hgl.2)
        have honly := Hub.inputChanged_only ((h.collected j).modInput j fun x => { x with present := true }) j .inputReturn
        rw [← heq] at honly
        have hinputs : t.inputs = ((h.collected j).modInput j fun x => { x with present := true }).inputs :=
          (honly .inputs (by decide)).symm
        have htally : t.tally = h.tally := (honly .tally (by decide)).symm
        exact ⟨by rw [hinputs, Hub.modInput_ne _ _ hj, hcollect], by rw [htally]⟩
      · have heq := ht.trans (h.tickInput_waits hp' (by
          rw [← Bool.not_eq_true]
          exact not_and_or.mp hgl))
        have hinputs : t.inputs =
            ((h.collected j).modInput j fun x => { x with sinceLoss := min 4294967295 (x.sinceLoss + 1) }).inputs :=
              by rw [heq]
        have hflash : t.tally.flash = h.tally.flash.set j ((h.tally.flash[j] + 1) % 4) := by rw [heq]
        refine ⟨by rw [hinputs, Hub.modInput_ne _ _ hj, hcollect], ?_⟩
        rw [hflash]
        exact vectorSet_ne _ hj _
  obtain ⟨hinput, hflash⟩ := hsame rfl
  exact ⟨hinput, hflash, ((h.tickInput_only j) .timebase (by decide)).symm, h.tickInput_heard j⟩

/-- R48, R49: an input in the coder's part of a tick. -/
theorem Hub.tickCoder_input {h t : Hub} (ht : t = h.tickCoder) (i : Fin 4) : Hub.InputTicked i h t := by
  have hlate : Hub.SameInput i h (h.forEach 4 Hub.lateDrop) :=
    .of_only (.forEach (fun k g => g.lateDrop_pictureParts k) h) (.forEach (fun k g => g.lateDrop_heard k) h)
      (by decide) (by decide) (by decide)
  obtain ⟨g, hbefore, hafter⟩ := Hub.forEach_at (f := Hub.tickInput) (R := Hub.SameInput i) (Hub.SameInput.refl i)
    Hub.SameInput.trans i (fun j g hj => g.tickInput_other (Ne.symm hj)) (h.forEach 4 Hub.lateDrop)
  have hbegin : Hub.SameInput i ((h.forEach 4 Hub.lateDrop).forEach 4 Hub.tickInput) h.tickCoder :=
    .of_only (.forEach (fun k g => g.beginPicture_pictureParts k) _) (.forEach (fun k g => g.beginPicture_heard k) _)
      (by decide) (by decide) (by decide)
  have hin := hlate.trans hbefore
  have hout := hafter.trans hbegin
  rw [← ht] at hout
  have hown := Hub.tickInput_own (h := g) (i := i) rfl
  generalize Hub.tickInput i g = u at hown hout
  obtain ⟨hstays, hlost, hreturns, hwaits⟩ := hown
  rw [hin.input, hin.flash, hin.timebase] at *
  constructor
  · intro hp hg
    obtain ⟨hinput, hflash⟩ := hstays hp hg
    exact ⟨hout.input.trans hinput, hout.flash.trans hflash⟩
  · intro hp hg
    obtain ⟨hinput, hflash, htold⟩ := hlost hp hg
    exact ⟨hout.input.trans hinput, hout.flash.trans hflash, fun p => hout.heard.summary_mono p (by decide) (htold p)⟩
  · intro hp hg hl
    obtain ⟨hinput, hflash, htold⟩ := hreturns hp hg hl
    exact ⟨hout.input.trans hinput, hout.flash.trans hflash, fun p => hout.heard.summary_mono p (by decide) (htold p)⟩
  · intro hp hg
    obtain ⟨hinput, hflash⟩ := hwaits hp hg
    exact ⟨hout.input.trans hinput, hout.flash.trans hflash⟩

end

/-- What leaves picture stream k: its context, its record and its units, at the same frame. -/
structure Hub.LeavesPicture (k : Fin 4) (g h : Hub) : Prop where
  context : h.coders[k]'k.2 = g.coders[k]'k.2
  stream : Hub.LeavesStream (pictureStream k) g h
  timebase : h.tb = g.tb

section
variable {k : Fin 4} {a b c g h : Hub}

theorem Hub.LeavesPicture.refl (k : Fin 4) (h : Hub) : Hub.LeavesPicture k h h := ⟨rfl, .refl _ h, rfl⟩

theorem Hub.LeavesPicture.trans (h₁ : Hub.LeavesPicture k a b) (h₂ : Hub.LeavesPicture k b c) : Hub.LeavesPicture k a c :=
  ⟨h₂.context.trans h₁.context, h₁.stream.trans h₂.stream, h₂.timebase.trans h₁.timebase⟩

theorem Hub.LeavesPicture.of_only {parts : List Part} (ho : Hub.OnlyChanges parts g h) (hc : Part.coders ∉ parts)
    (hs : Part.streams ∉ parts) (hr : Part.rings ∉ parts) (hm : Part.memory ∉ parts) (ht : Part.timebase ∉ parts) :
    Hub.LeavesPicture k g h := by
  have hcoders : g.coders = h.coders := ho .coders hc
  exact ⟨by rw [hcoders], .of_only ho hs hr hm, (ho .timebase ht).symm⟩

/-- A flight of pictures whose capture has ended, none of them late by the tick that forms a frame. -/
def Coder.Current (c : Coder) (frame : Frame) : Prop :=
  ∀ f ∈ c.flight, f.subst = none ∧ f.captured = true ∧ (frame.serial - f.frame.serial).toNat < 2

/-- What leaves a picture stream whose pictures are current. -/
def Hub.LeavesCurrent (k : Fin 4) (g h : Hub) : Prop := (g.coders[k]'k.2).Current g.tb.frame → Hub.LeavesPicture k g h

theorem Hub.LeavesCurrent.refl (k : Fin 4) (h : Hub) : Hub.LeavesCurrent k h h := fun _ => .refl k h

theorem Hub.LeavesCurrent.trans (h₁ : Hub.LeavesCurrent k a b) (h₂ : Hub.LeavesCurrent k b c) : Hub.LeavesCurrent k a c :=
  fun ha => by
    have hb := h₁ ha
    refine hb.trans (h₂ ?_)
    rw [hb.context, hb.timebase]
    exact ha

theorem Hub.LeavesPicture.current (hg : Hub.LeavesPicture k g h) : Hub.LeavesCurrent k g h := fun _ => hg

end

section
variable (h : Hub) (k : Fin 4)

theorem Hub.lateDrop_other {j : Fin 4} (hj : k ≠ j) : (Hub.lateDrop j h).coders[k]'k.2 = h.coders[k]'k.2 := by
  unfold Hub.lateDrop
  split
  · rfl
  · split
    · rw [Hub.settle_other _ hj, Hub.dropPicture_other _ hj, Hub.modCoder_ne _ _ hj]
    · rfl

theorem Hub.lateDrop_current (j : Fin 4) : Hub.LeavesCurrent k h (Hub.lateDrop j h) := fun hc => by
  by_cases hj : j = k
  · subst hj
    have hvoid : Hub.lateDrop j h = h := by
      unfold Hub.lateDrop
      split
      · rfl
      · rename_i f rest hf
        exact if_neg fun ⟨_, hlate⟩ => absurd hlate
          (Nat.not_le.mpr (hc f (by rw [hf]; exact List.mem_cons_self)).2.2)
    rw [hvoid]
    exact .refl j h
  · exact ⟨h.lateDrop_other k (Ne.symm hj), h.lateDrop_leaves (labelStream_ne k) (pictureStream_injective hj),
      ((h.lateDrop_only j) .timebase (by decide)).symm⟩

theorem Hub.abortFrom_current (i j : Fin 4) : Hub.LeavesCurrent k h (Hub.abortFrom i j h) := fun hc => by
  by_cases hj : j = k
  · subst hj
    rw [h.abortFrom_void fun f hf => by
      unfold Flight.capturingFrom
      rw [(hc f hf).2.1]
      simp]
    exact .refl j h
  · exact ⟨h.abortFrom_other i j (Ne.symm hj), h.abortFrom_leaves (pictureStream_injective hj) i,
      ((h.abortFrom_only i j) .timebase (by decide)).symm⟩

theorem Hub.inputChanged_leavesPicture (i : Fin 4) (kind : LabelKind) : Hub.LeavesPicture k h (h.inputChanged i kind) := by
  have hcoders : h.coders = (h.inputChanged i kind).coders := (h.inputChanged_only i kind) .coders (by decide)
  exact ⟨by rw [hcoders], h.inputChanged_leaves (labelStream_ne k) i kind,
    ((h.inputChanged_only i kind) .timebase (by decide)).symm⟩

theorem Hub.loseInput_current (i : Fin 4) : Hub.LeavesCurrent k h (h.loseInput i) := by
  have hlost : Hub.LeavesPicture k h (h.inputLost i) :=
    (Hub.LeavesPicture.of_only ((h.modInput_only i _).mono (large := [.inputs, .tally]) (by decide)) (by decide) (by decide)
      (by decide) (by decide) (by decide)).trans ((Hub.LeavesPicture.of_only (Hub.withTally_only _ _) (by decide) (by decide)
        (by decide) (by decide) (by decide)).trans (Hub.inputChanged_leavesPicture _ k i _))
  rw [Hub.loseInput_eq]
  exact hlost.current.trans (Hub.forEach_relates (f := Hub.abortFrom i) (R := Hub.LeavesCurrent k) (Hub.LeavesCurrent.refl k)
    Hub.LeavesCurrent.trans (fun j g => g.abortFrom_current k i j) _)

theorem Hub.tickInput_current (i : Fin 4) : Hub.LeavesCurrent k h (Hub.tickInput i h) := by
  have hm : ∀ (g : Hub) (f : VideoInput → VideoInput), Hub.LeavesPicture k g (g.modInput i f) := fun g f =>
    .of_only (g.modInput_only i f) (by decide) (by decide) (by decide) (by decide) (by decide)
  by_cases hp : (h.inputs[i]'i.2).present = true
  · by_cases hg : (h.inputs[i]'i.2).Good h.tb.rate
    · rw [h.tickInput_good hp hg]
      exact (hm _ _).current
    · rw [h.tickInput_lost hp hg]
      exact (hm h _).current.trans (Hub.loseInput_current _ k i)
  · have hp' := Bool.eq_false_iff.mpr hp
    by_cases hgl : (h.inputs[i]'i.2).Good h.tb.rate ∧ (h.inputs[i]'i.2).locked = true
    · rw [h.tickInput_returns hp' hgl.1 hgl.2]
      exact (((hm h _).trans (hm _ _)).trans (Hub.inputChanged_leavesPicture _ k i _)).current
    · rw [h.tickInput_waits hp' (by
        rw [← Bool.not_eq_true]
        exact not_and_or.mp hgl)]
      exact (((hm h _).trans (hm _ _)).trans (.of_only (Hub.withTally_only _ _) (by decide) (by decide) (by decide)
        (by decide) (by decide))).current

end

/-! ### The stages after the coder's -/

section
variable (h : Hub)

/-- The stages of a tick after the coder's. -/
def Hub.laterStages (h : Hub) : Hub := h.tickPaths.tickGauges.tickPorts.openPaths.tickTests.tickTally

theorem Hub.tick_later (m : Nat) : h.tick m = (h.atPaths m).laterStages := h.tick_stages m

theorem Hub.laterStages_only : Hub.OnlyChanges absenceParts h h.laterStages :=
  ((((h.tickPaths_only.mono (by decide)).trans ((Hub.tickGauges_only _).mono (by decide))).trans (Hub.tickPorts_only _)).trans
    ((Hub.openPaths_only _).mono (by decide))).trans ((Hub.lateStages_only _).mono (by decide))

theorem Hub.laterStages_heard : Hub.Heard tickKinds h h.laterStages :=
  ((((Hub.Heard.forEach (fun p g => (g.tickPath_heard p).mono (by decide)) h).trans
    ((Hub.tickGauges_heard _).mono (by decide))).trans ((Hub.tickPorts_heard _).mono (by decide))).trans
    ((Hub.openPaths_only _).heard (by decide))).trans (Hub.lateStages_heard _)

/-- The flash phases stay where the tally's other fields alone change. -/
theorem Hub.forEach_flash {n : Nat} {f : Fin n → Hub → Hub} (hf : ∀ i (h : Hub), (f i h).tally.flash = h.tally.flash)
    (h : Hub) :
    (h.forEach n f).tally.flash = h.tally.flash :=
  Hub.forEach_relates (R := fun a b => b.tally.flash = a.tally.flash) (fun _ => rfl) (fun h₁ h₂ => h₂.trans h₁) hf h

theorem Hub.OnlyChanges.flash {parts : List Part} {g h : Hub} (ho : Hub.OnlyChanges parts g h) (hn : Part.tally ∉ parts) :
    h.tally.flash = g.tally.flash := by
  have ht : g.tally = h.tally := ho .tally hn
  rw [ht]

theorem Hub.goAbsent_flash (p : Fin 4) (period : Nat) : (Hub.goAbsent p period h).tally.flash = h.tally.flash := by
  have hclips : ∀ g : Hub, (Hub.absentTally p g).tally.flash = g.tally.flash := fun _ => rfl
  unfold Hub.goAbsent
  dsimp only
  rw [(Hub.notify_only _ _ _).flash (by decide), hclips, (Hub.absentClips_only _ p).flash (by decide),
    Hub.forEach_flash fun q g => (g.absentPath_only p q).flash (by decide),
    Hub.forEach_flash fun k g => (g.absentStream_only p k).flash (by decide)]
  rfl

theorem Hub.tickPort_flash (p : Fin 4) : (Hub.tickPort p h).tally.flash = h.tally.flash := by
  unfold Hub.tickPort
  split
  · rfl
  · dsimp only
    split
    · exact h.goAbsent_flash p _
    · split <;> rfl

theorem Hub.laterStages_flash : h.laterStages.tally.flash = h.tally.flash := by
  have hlamps : ∀ g : Hub, g.tickTally.tally.flash = g.tally.flash := fun _ => rfl
  rw [Hub.laterStages, hlamps, (Hub.tickTests_only _).flash (by decide), (Hub.openPaths_only _).flash (by decide),
    Hub.tickPorts, Hub.forEach_flash fun p g => g.tickPort_flash p, (Hub.tickGauges_only _).flash (by decide),
    (Hub.tickPaths_only _).flash (by decide)]

end

/-- Between two hubs stream k had no unit committed, and its own ring stays but for its send pointer. -/
structure Hub.KeepsEntries (k : Fin 16) (g h : Hub) : Prop where
  committed : (h.stream k).committed = (g.stream k).committed
  ring : ∃ w, h.ring k.castSucc = { g.ring k.castSucc with send := w }

section
variable {k : Fin 16} {a b c g h : Hub}

theorem Hub.KeepsUnits.entries (hu : Hub.KeepsUnits k g h) : Hub.KeepsEntries k g h := ⟨hu.committed, hu.ring⟩

theorem Hub.KeepsEntries.refl (k : Fin 16) (h : Hub) : Hub.KeepsEntries k h h := ⟨rfl, _, rfl⟩

theorem Hub.KeepsEntries.trans (h₁ : Hub.KeepsEntries k a b) (h₂ : Hub.KeepsEntries k b c) : Hub.KeepsEntries k a c := by
  obtain ⟨v, hv⟩ := h₁.ring
  obtain ⟨w, hw⟩ := h₂.ring
  exact ⟨h₂.committed.trans h₁.committed, w, by rw [hw, hv]⟩

theorem Hub.KeepsEntries.forEach {n : Nat} {f : Fin n → Hub → Hub} (hf : ∀ i g, Hub.KeepsEntries k g (f i g)) (h : Hub) :
    Hub.KeepsEntries k h (h.forEach n f) :=
  Hub.forEach_relates (R := Hub.KeepsEntries k) (Hub.KeepsEntries.refl k) Hub.KeepsEntries.trans hf h

end

section
variable {k : Fin 16} (h : Hub)

theorem Hub.discardBuffer_entries (j : Fin 16) : Hub.KeepsEntries k h (h.discardBuffer j) := by
  have hmod : ∀ (g : Hub) (f : Stream → Stream), (∀ x, (f x).committed = x.committed) →
      Hub.KeepsEntries k g (g.modStream j f) := fun g f hf => by
    refine ⟨?_, _, rfl⟩
    by_cases hj : k = j
    · subst hj
      rw [Hub.modStream_self]
      exact hf _
    · rw [Hub.modStream_ne _ _ hj]
  have hcount : ∀ g : Hub, Hub.KeepsEntries k g (g.countDiscard j) := fun g => by
    unfold Hub.countDiscard
    exact hmod g _ fun _ => rfl
  unfold Hub.discardBuffer
  split
  · exact .refl k h
  · exact (hmod h (fun st => { st with buffer := [], builder := none }) fun _ => rfl).trans (hcount _)

theorem Hub.absentStream_entries (p : Fin 4) (j : Fin 16) : Hub.KeepsEntries k h (Hub.absentStream p j h) := by
  have hset : Hub.KeepsEntries k h (h.modStream j fun x => { x with setter := none }) :=
    (h.modStream_keepsUnits j (f := fun x => { x with setter := none }) fun _ _ => ⟨rfl, rfl⟩).entries
  have hends : Hub.KeepsEntries k h
      (if (h.stream j).setter = some p then
        match (h.stream j).state with
        | .held => h.releaseHold j
        | .closing => h.endHold j
        | .opened => h.modStream j fun x => { x with setter := none }
        | .closed => h.modStream j fun x => { x with setter := none }
      else h) := by
    split
    · split
      · exact (h.releaseHold_keepsUnits j).entries
      · exact (h.endHold_keepsUnits j).entries
      · exact hset
      · exact hset
    · exact .refl k h
  unfold Hub.absentStream
  dsimp only
  split
  · exact hends.trans (Hub.discardBuffer_entries _ j)
  · exact hends

theorem Hub.absentPath_leaves (hk : (12 : Fin 16) ≠ k) (p : Fin 4) (q : Fin 8) : Hub.LeavesStream k h
    (Hub.absentPath p q h) := by
  unfold Hub.absentPath
  exact .ite (.ite (h.evaluate_leavesStream hk q _) (.of_only (h.modPath_only q _) (by decide) (by decide) (by decide)))
    (.refl k h)

theorem Hub.tickPort_entries (hk : (12 : Fin 16) ≠ k) (p : Fin 4) : Hub.KeepsEntries k h (Hub.tickPort p h) := by
  have hof : ∀ {g t : Hub} {parts : List Part}, Hub.OnlyChanges parts g t → Part.streams ∉ parts → Part.rings ∉ parts →
      Hub.KeepsEntries k g t := fun ho hs hr => (Hub.KeepsUnits.of_only ho hs hr).entries
  unfold Hub.tickPort
  split
  · exact .refl k h
  · dsimp only
    split
    · unfold Hub.goAbsent
      have hlate : ∀ g : Hub, Hub.OnlyChanges [.log, .tally, .notices] g
          ((Hub.absentTally p (Hub.absentClips p g)).notify .portAbsent p.val) := fun g =>
        (((Hub.absentClips_only g p).mono (by decide)).trans ((Hub.withTally_only _ _).mono (by decide))).trans
          ((Hub.notify_only _ _ _).mono (by decide))
      exact .trans (.trans (.trans (hof (h.modPort_only p _) (by decide) (by decide))
        (.forEach (fun j g => g.absentStream_entries p j) _))
          (.forEach (fun q g => (g.absentPath_leaves hk p q).units.entries) _))
        (hof (hlate _) (by decide) (by decide))
    · split
      · exact hof (h.modPort_only p _) (by decide) (by decide)
      · exact .refl k h

theorem Hub.laterStages_entries (hk : (12 : Fin 16) ≠ k) : Hub.KeepsEntries k h h.laterStages :=
  (((h.tickPaths_leaves hk).trans (Hub.tickGauges_leaves _)).units.entries.trans
    (.forEach (fun p g => g.tickPort_entries hk p) _)).trans (Hub.lateStages_leaves _).units.entries

end

/-! ### The pictures of a new frame -/

section
variable (h : Hub) (k : Fin 4)

/-- The substitute unit that a tick makes for stream k. -/
def Hub.substitute (h : Hub) (k : Fin 4) : Flight :=
  { frame := h.tb.frame, source := (h.coders[k]'k.2).source,
    subst := some (decide (25 ≤ (h.inputs[(h.coders[k]'k.2).source]).sinceLoss)),
    aborted := false, captured := false, lineError := false, coding := none }

/-- The hub with the substitute unit of stream k in flight. -/
def Hub.substituted (h : Hub) (k : Fin 4) : Hub :=
  h.modCoder k fun c => { c with flight := c.flight ++ [h.substitute k] }

variable {k} in
theorem Hub.beginPicture_idle
    (hs : (h.stream (pictureStream k)).state = .closed ∨ (h.stream (pictureStream k)).state = .closing) :
    Hub.beginPicture k h = h := by
  unfold Hub.beginPicture
  refine if_neg ?_
  rintro (ho | hh) <;> rcases hs with hs | hs
  · exact absurd (hs.symm.trans ho) nofun
  · exact absurd (hs.symm.trans ho) nofun
  · exact absurd (hs.symm.trans hh) nofun
  · exact absurd (hs.symm.trans hh) nofun

variable {k} in
theorem Hub.beginPicture_captures
    (hs : (h.stream (pictureStream k)).state = .opened ∨ (h.stream (pictureStream k)).state = .held)
    (hp : (h.inputs[(h.coders[k]'k.2).source]).present = true) :
    (Hub.beginPicture k h).coders[k]'k.2 = (h.coders[k]'k.2).capture h.tb.frame := by
  unfold Hub.beginPicture
  dsimp only
  rw [if_pos hs, if_pos hp, Hub.modCoder_self]
  rfl

variable {k} in
theorem Hub.beginPicture_substitutes
    (hs : (h.stream (pictureStream k)).state = .opened ∨ (h.stream (pictureStream k)).state = .held)
    (hp : (h.inputs[(h.coders[k]'k.2).source]).present = false) : Hub.beginPicture k h = (h.substituted k).settle k := by
  unfold Hub.beginPicture
  dsimp only
  rw [if_pos hs, if_neg (by rw [hp]; nofun)]
  rfl

theorem Hub.beginPicture_other {j : Fin 4} (hj : j ≠ k) : (Hub.beginPicture k h).coders[j]'j.2 = h.coders[j]'j.2 := by
  unfold Hub.beginPicture
  dsimp only
  split
  · split
    · rw [Hub.modCoder_ne _ _ hj]
      rfl
    · rw [Hub.settle_other _ hj, Hub.modCoder_ne _ _ hj]
  · rfl

theorem Hub.beginPicture_leavesPicture {j : Fin 4} (hj : j ≠ k) : Hub.LeavesPicture j h (Hub.beginPicture k h) :=
  ⟨h.beginPicture_other k hj, h.beginPicture_leaves (pictureStream_injective (Ne.symm hj)),
    ((h.beginPicture_only k) .timebase (by decide)).symm⟩

end

end Sys2Proof.Machine
end

section
/-! Proofs: the pictures of a new frame (R54, R62), and inputs and pictures through a whole tick. -/

namespace Sys2Proof.Machine

-- In order, so that the package in one text stays within the memory of its check.
set_option Elab.async false

/-! ### The substitute unit of a frame without a picture (R62) -/

theorem Coder.flushed_of_nil {c : Coder} (hc : c.flight = []) : c.flushed = c :=
  Coder.flushed_of_picture (forall_head?_nil hc _)

/-- The unit that stands for a picture. -/
def Hub.substituteUnit (h : Hub) (k : Fin 4) (f : Flight) (black : Bool) : Offer :=
  { stream := pictureStream k
    payload := if black then blackPayload (h.coders[k]'k.2).format else []
    frame := f.frame
    flags := { repeated := !black, black := black, sourceChange := (h.coders[k]'k.2).sourceChange }
    producer := pictureProducer (h.coders[k]'k.2).format f.source 0 0 0 }

theorem substitute_length (h : Hub) (k : Fin 4) (f : Flight) (black : Bool) :
    (h.substituteUnit k f black).payload.length = if black then 960 else 0 := by
  cases black
  · rfl
  · simp [Hub.substituteUnit, blackPayload]

/-- The hub in which a substitute unit of a context has been counted, before the Store is offered it. -/
def Hub.substituteCounted (h : Hub) (k : Fin 4) (black : Bool) : Hub :=
  (h.modCoder k fun c => { c with
    counts := if black then { c.counts with blacks := c.counts.blacks + 1 }
              else { c.counts with repeats := c.counts.repeats + 1 } }).modCoder k fun c => { c with sourceChange := false }

section
variable (h : Hub) (k : Fin 4)

theorem Hub.offerSubstitute_eq (f : Flight) (black : Bool) :
    h.offerSubstitute k f black = ((h.substituteCounted k black).offer (h.substituteUnit k f black)).1 := by
  have hmark : ((h.modCoder k fun c => { c with
      counts := if black then { c.counts with blacks := c.counts.blacks + 1 }
                else { c.counts with repeats := c.counts.repeats + 1 } }).coders[k]'k.2).sourceChange =
      (h.coders[k]'k.2).sourceChange := by rw [Hub.modCoder_self]
  unfold Hub.offerSubstitute Hub.offerPicture
  dsimp only
  rw [hmark]
  rfl

/-- The entry that the Store makes of the unit of a frame that had no picture. -/
structure Entry.Substitutes (u : Entry) (k : Fin 4) (number : Word) (frame : Frame) (black change : Bool) : Prop where
  stream : u.stream = pictureStream k
  unit : u.unit = number
  serial : u.serial = frame.serial
  tc : u.tc = frame.tc
  payload : u.payload = if black then 960 else 0
  flags : u.flags = { repeated := !black, black := black, inputError := false, sourceChange := change, damaged := false,
                      tcJump := frame.jump }

/-- Between two hubs the substitute unit of a frame was committed as stream k's next. -/
structure Hub.SubstituteCommitted (k : Fin 4) (f : Flight) (black : Bool) (g h : Hub) : Prop where
  entry : ∃ u, (h.ring (pictureStream k).castSucc).index.getLast? = some u ∧
    u.Substitutes k (g.ring (pictureStream k).castSucc).head f.frame black (g.coders[k]'k.2).sourceChange
  committed : (h.stream (pictureStream k)).committed = (g.stream (pictureStream k)).committed + 1

variable {k} in
/-- R34, R62: an OPEN stream bound to its own ring commits its substitute unit. -/
theorem Hub.offerSubstitute_commits {h t : Hub} {f : Flight} {black : Bool} (ht : t = h.offerSubstitute k f black)
    (hs : (h.stream (pictureStream k)).state = .opened) (hg : (h.stream (pictureStream k)).global = false)
    (hr : 4 ≤ (h.ring (pictureStream k).castSucc).sectors) : Hub.SubstituteCommitted k f black h t := by
  obtain ⟨g, hg'⟩ : ∃ g, g = h.substituteCounted k black := ⟨_, rfl⟩
  obtain ⟨o, ho⟩ : ∃ o, o = h.substituteUnit k f black := ⟨_, rfl⟩
  have hstream : g.stream = h.stream := by rw [hg']; rfl
  have hring : g.ring = h.ring := by rw [hg']; rfl
  have hown : o.stream = pictureStream k := by rw [ho]; rfl
  have hbound : g.boundRing o.stream = (pictureStream k).castSucc := by
    unfold Hub.boundRing
    rw [hstream, hown, hg]
    rfl
  have hlen : o.payload.length = if black then 960 else 0 := by rw [ho]; exact substitute_length h k f black
  have hsect : sectorsOf o.payload.length ≤ 2 := by
    rw [hlen]
    cases black <;> decide
  have hfit : sectorsOf o.payload.length ≤ (g.ring (g.boundRing o.stream)).sectors / 2 := by
    rw [hbound, hring]
    omega
  have hholding : (g.stream o.stream).holding = false := by
    unfold Stream.holding
    rw [hstream, hown, hs]
    rfl
  have hjudge : g.judge o = g.commit o := Hub.judge_commits (by rw [hstream, hown, hs]; nofun)
    (fun hc => absurd (hholding.symm.trans hc.1) nofun) hfit
    (fun hc => absurd hc.1 (by rw [ho]; nofun))
  obtain ⟨⟨n, w, hentry, -⟩, -, hcount, -⟩ := Hub.commit_commits (h := g) (o := o) (hfit.trans (Nat.div_le_self _ _))
  have htest : Hub.OnlyChanges [.log, .notices] (g.commit o).1 t := by
    rw [ht, h.offerSubstitute_eq k f black, ← hg', ← ho, Hub.offer_eq, hjudge]
    exact Hub.testClips_only _ _ _
  rw [hbound] at hentry
  rw [hown] at hcount
  refine ⟨⟨g.committedEntry o, ?_, ?_⟩, ?_⟩
  · rw [htest.ring_eq (by decide), hentry]
    exact List.getLast?_concat
  · refine ⟨hown, ?_, by rw [ho]; rfl, by rw [ho]; rfl, hlen, by rw [ho]; rfl⟩
    rw [← hring, ← hown]
    rfl
  · rw [htest.stream_eq (by decide), hcount, hstream]

variable {k} in
theorem Hub.substituted_context :
    ((h.substituted k).coders[k]'k.2).flight = (h.coders[k]'k.2).flight ++ [h.substitute k] := by
  unfold Hub.substituted
  rw [Hub.modCoder_self]

variable {k} in
/-- R62: behind pictures in flight a substitute unit waits. -/
theorem Hub.substituted_waits (hf : (h.coders[k]'k.2).flight ≠ []) (hc : ∀ f ∈ (h.coders[k]'k.2).flight, f.subst = none) :
    ((h.substituted k).settle k).coders[k]'k.2 =
      { h.coders[k]'k.2 with flight := (h.coders[k]'k.2).flight ++ [h.substitute k] } := by
  have hhead : ∀ f ∈ ((h.substituted k).coders[k]'k.2).flight.head?, f.subst = none := by
    rw [h.substituted_context]
    obtain ⟨x, xs, hx⟩ := List.exists_cons_of_ne_nil hf
    rw [hx] at hc ⊢
    intro f hm
    obtain rfl : x = f := by simpa using hm
    exact hc x List.mem_cons_self
  rw [Hub.settle_context, Coder.flushed_of_picture hhead]
  exact Hub.modCoder_self _ _ _

variable {k} in
/-- R62: with no picture in flight a substitute unit is offered at once. -/
theorem Hub.substituted_offers (hf : (h.coders[k]'k.2).flight = []) {black : Bool}
    (hb : (h.substitute k).subst = some black) :
    ((h.substituted k).settle k).coders[k]'k.2 =
      { h.coders[k]'k.2 with
        sourceChange := false
        counts := if black then { (h.coders[k]'k.2).counts with blacks := (h.coders[k]'k.2).counts.blacks + 1 }
                  else { (h.coders[k]'k.2).counts with repeats := (h.coders[k]'k.2).counts.repeats + 1 } } := by
  have hflight := h.substituted_context (k := k)
  rw [hf] at hflight
  have hself : (h.substituted k).coders[k]'k.2 = { h.coders[k]'k.2 with flight := [h.substitute k] } := by
    unfold Hub.substituted
    rw [Hub.modCoder_self, hf]
    rfl
  rw [Hub.settle_context, Coder.flushed_cons hflight hb, Coder.flushed_of_nil rfl, hself, ← hf]
  cases black <;> rfl

variable {k} in
theorem Hub.substituted_commits {h t : Hub} {black : Bool} (ht : t = (h.substituted k).settle k)
    (hf : (h.coders[k]'k.2).flight = []) (hb : (h.substitute k).subst = some black)
    (hs : (h.stream (pictureStream k)).state = .opened) (hg : (h.stream (pictureStream k)).global = false)
    (hr : 4 ≤ (h.ring (pictureStream k).castSucc).sectors) :
    ∃ u, Hub.SubstituteCommitted k (h.substitute k) black h u ∧ Hub.KeepsUnits (pictureStream k) u t := by
  have hflight := h.substituted_context (k := k)
  rw [hf] at hflight
  obtain ⟨g, hg'⟩ : ∃ g, g = (h.substituted k).modCoder k fun c => { c with flight := [] } := ⟨_, rfl⟩
  have hflush : Hub.flush k ((h.substituted k).coders[k]'k.2).flight.length (h.substituted k) =
      g.offerSubstitute k (h.substitute k) black := by
    rw [hflight, hg']
    exact Hub.flush_offer hflight hb 0
  have hstream : g.stream = h.stream := by rw [hg']; rfl
  have hring : g.ring = h.ring := by rw [hg']; rfl
  have hchange : (g.coders[k]'k.2).sourceChange = (h.coders[k]'k.2).sourceChange := by
    rw [hg', Hub.modCoder_self, Hub.substituted, Hub.modCoder_self]
  obtain ⟨hentry, hcount⟩ := Hub.offerSubstitute_commits (h := g) (k := k) (f := h.substitute k) (black := black) rfl
    (by rw [hstream, hs]) (by rw [hstream, hg]) (by rw [hring]; exact hr)
  rw [hring, hchange] at hentry
  rw [hstream] at hcount
  refine ⟨_, ⟨hentry, hcount⟩, ?_⟩
  rw [ht, Hub.settle, hflush]
  exact (Hub.closeIfDone_keeps _ k).1 _

end

/-- The picture whose capture begins with a frame. -/
def Coder.newFlight (c : Coder) (frame : Frame) : Flight :=
  { frame := frame, source := c.source, subst := none, aborted := false, captured := false, lineError := false,
    coding := none }

theorem Coder.capture_eq (c : Coder) (frame : Frame) :
    c.capture frame = { c with
      sourceChange := c.sourceChange || decide (c.source ≠ c.remembered)
      remembered := c.source
      flight := c.flight ++ [c.newFlight frame]
      counts := { c.counts with captured := c.counts.captured + 1 } } := by
  have hne : (c.source != c.remembered) = decide (c.source ≠ c.remembered) := Bool.eq_iff_iff.mpr (by simp)
  unfold Coder.capture
  rw [hne]
  rfl

/-- What the frame that a tick forms begins for stream k, with the input as the tick judged it. -/
structure Hub.PictureBegun (k : Fin 4) (frame : Frame) (input : VideoInput) (g h : Hub) : Prop where
  idle : (g.stream (pictureStream k)).state = .closed ∨ (g.stream (pictureStream k)).state = .closing →
    h.coders[k]'k.2 = g.coders[k]'k.2
  captures : (g.stream (pictureStream k)).state = .opened ∨ (g.stream (pictureStream k)).state = .held →
    input.present = true → h.coders[k]'k.2 = { g.coders[k]'k.2 with
      sourceChange := (g.coders[k]'k.2).sourceChange || decide ((g.coders[k]'k.2).source ≠ (g.coders[k]'k.2).remembered)
      remembered := (g.coders[k]'k.2).source
      flight := (g.coders[k]'k.2).flight ++ [(g.coders[k]'k.2).newFlight frame]
      counts := { (g.coders[k]'k.2).counts with captured := (g.coders[k]'k.2).counts.captured + 1 } }
  waits : (g.stream (pictureStream k)).state = .opened ∨ (g.stream (pictureStream k)).state = .held →
    input.present = false → (g.coders[k]'k.2).flight ≠ [] → (∀ f ∈ (g.coders[k]'k.2).flight, f.subst = none) →
    h.coders[k]'k.2 = { g.coders[k]'k.2 with
      flight := (g.coders[k]'k.2).flight ++
        [{ (g.coders[k]'k.2).newFlight frame with subst := some (decide (25 ≤ input.sinceLoss)) }] }
  offers : (g.stream (pictureStream k)).state = .opened ∨ (g.stream (pictureStream k)).state = .held →
    input.present = false → (g.coders[k]'k.2).flight = [] → h.coders[k]'k.2 = { g.coders[k]'k.2 with
      sourceChange := false
      counts := if decide (25 ≤ input.sinceLoss) then
          { (g.coders[k]'k.2).counts with blacks := (g.coders[k]'k.2).counts.blacks + 1 }
        else { (g.coders[k]'k.2).counts with repeats := (g.coders[k]'k.2).counts.repeats + 1 } }
  commits : (g.stream (pictureStream k)).state = .opened → input.present = false → (g.coders[k]'k.2).flight = [] →
    (g.stream (pictureStream k)).global = false → 4 ≤ (g.ring (pictureStream k).castSucc).sectors →
    (∃ u, (h.ring (pictureStream k).castSucc).index.getLast? = some u ∧
      u.Substitutes k (g.ring (pictureStream k).castSucc).head frame (decide (25 ≤ input.sinceLoss))
        (g.coders[k]'k.2).sourceChange) ∧
    (h.stream (pictureStream k)).committed = (g.stream (pictureStream k)).committed + 1

theorem Hub.beginPicture_begins {h t : Hub} {k : Fin 4} {frame : Frame} {input : VideoInput} (hf : h.tb.frame = frame)
    (hi : h.inputs[(h.coders[k]'k.2).source] = input) (ht : t = Hub.beginPicture k h) :
    Hub.PictureBegun k frame input h t := by
  subst hf hi
  constructor
  · intro hs
    rw [ht, h.beginPicture_idle hs]
  · intro hs hp
    rw [ht, h.beginPicture_captures hs hp, Coder.capture_eq]
  · intro hs hp hf hc
    rw [ht, h.beginPicture_substitutes hs hp, h.substituted_waits hf hc]
    rfl
  · intro hs hp hf
    rw [ht, h.beginPicture_substitutes hs hp, h.substituted_offers hf rfl]
  · intro hs hp hf hg hr
    obtain ⟨u, ⟨⟨e, hlast, hentry⟩, hcount⟩, hkeeps⟩ := Hub.substituted_commits
      (ht.trans (h.beginPicture_substitutes (.inl hs) hp)) hf rfl hs hg hr
    obtain ⟨w, hw⟩ := hkeeps.ring
    exact ⟨⟨e, by rw [hw]; exact hlast, hentry⟩, hkeeps.committed.trans hcount⟩

/-! ### Inputs and pictures through a whole tick -/

section
variable {i k : Fin 4} {a g h t : Hub}

theorem Hub.InputTicked.frame (ht : Hub.InputTicked i g h) (hin : g.inputs = a.inputs) (hfl : g.tally.flash = a.tally.flash)
    (hr : g.tb.rate = a.tb.rate) (hin' : t.inputs = h.inputs) (hfl' : t.tally.flash = h.tally.flash)
    {kinds : List NoticeKind} (hh : Hub.Heard kinds h t) : Hub.InputTicked i a t := by
  obtain ⟨hstays, hlost, hreturns, hwaits⟩ := ht
  rw [hin, hfl, hr] at *
  constructor
  · rw [hin', hfl']
    exact hstays
  · intro hp hg
    obtain ⟨hinput, hflash, htold⟩ := hlost hp hg
    rw [hin', hfl']
    exact ⟨hinput, hflash, fun p => hh.summary_mono p (by decide) (htold p)⟩
  · intro hp hg hl
    obtain ⟨hinput, hflash, htold⟩ := hreturns hp hg hl
    rw [hin', hfl']
    exact ⟨hinput, hflash, fun p => hh.summary_mono p (by decide) (htold p)⟩
  · rw [hin', hfl']
    exact hwaits

theorem Hub.PictureBegun.frame {frame : Frame} {input : VideoInput} (hb : Hub.PictureBegun k frame input g h)
    (hctx : g.coders[k]'k.2 = a.coders[k]'k.2) (hl : Hub.LeavesStream (pictureStream k) a g)
      (hctx' : t.coders[k]'k.2 = h.coders[k]'k.2)
    (he : Hub.KeepsEntries (pictureStream k) h t) : Hub.PictureBegun k frame input a t := by
  obtain ⟨hidle, hcaptures, hwaits, hoffers, hcommits⟩ := hb
  obtain ⟨hstate, -, -, hglobal, -⟩ := Stream.standing_eq hl.standing
  obtain ⟨v, hv⟩ := hl.units.ring
  obtain ⟨w, hw⟩ := he.ring
  rw [hctx, hstate] at hidle hcaptures hwaits hoffers hcommits
  constructor
  · rw [hctx']
    exact hidle
  · rw [hctx']
    exact hcaptures
  · rw [hctx']
    exact hwaits
  · rw [hctx']
    exact hoffers
  · rw [hglobal, hv, hl.units.committed] at hcommits
    rw [hw, he.committed]
    exact hcommits

end

section
variable (h : Hub) (m : Nat)

theorem Hub.atCoder_leaves (k : Fin 4) : Hub.LeavesStream (pictureStream k) h (h.atCoder m) :=
  ((h.tickFrame_leaves m).trans (Hub.timebaseNotices_leaves _ (labelStream_ne k) _)).trans
    (Hub.tickMixer_leaves _ (labelStream_ne k) (fun j => pictureStream_ne (Nat.le_add_right 4 j.val) k) _)

theorem Hub.atCoder_only : Hub.OnlyChanges ([.timebase] ++ mixerParts) h (h.atCoder m) :=
  (((h.tickFrame_only m).mono (by decide)).trans ((Hub.timebaseNotices_only _ _).mono (by decide))).trans
    ((Hub.tickMixer_only _ _).mono (by decide))

theorem Hub.atCoder_tb : (h.atCoder m).tb = h.tb.tick m := by
  rw [← h.atPaths_tb m]
  exact (h.atCoder m).tickCoder_only .timebase (by decide)

theorem Timebase.tick_rate (b : Timebase) : (b.tick m).rate = b.rate := by
  unfold Timebase.tick Timebase.reseek Timebase.readerTimeout
  dsimp only
  split <;> split <;> rfl

/-- R48, R49: an input at a tick. -/
theorem Hub.tick_input (i : Fin 4) : Hub.InputTicked i h (h.tick m) := by
  have hinputs : (h.atCoder m).inputs = h.inputs := ((h.atCoder_only m) .inputs (by decide)).symm
  have htally : (h.atCoder m).tally = h.tally := ((h.atCoder_only m) .tally (by decide)).symm
  have hrate : (h.atCoder m).tb.rate = h.tb.rate := by rw [Hub.atCoder_tb, Timebase.tick_rate]
  have hlater : (h.atPaths m).laterStages.inputs = (h.atPaths m).inputs :=
    ((Hub.laterStages_only _) .inputs (by decide)).symm
  rw [Hub.tick_later]
  exact (Hub.tickCoder_input (h := h.atCoder m) (t := h.atPaths m) rfl i).frame hinputs (by rw [htally]) hrate hlater
    (Hub.laterStages_flash _) (Hub.laterStages_heard _)

/-- R54, R62: what a tick begins for a stream whose pictures are current. -/
theorem Hub.tick_picture {k : Fin 4} (hc : (h.coders[k]'k.2).Current (h.tb.tick m).frame) :
    Hub.PictureBegun k (h.tb.tick m).frame (h.tick m).inputs[(h.coders[k]'k.2).source] h (h.tick m) := by
  have hcoders : (h.atCoder m).coders = h.coders := ((h.atCoder_only m) .coders (by decide)).symm
  have hjudged : Hub.LeavesCurrent k (h.atCoder m) (((h.atCoder m).forEach 4 Hub.lateDrop).forEach 4 Hub.tickInput) :=
    (Hub.forEach_relates (f := Hub.lateDrop) (R := Hub.LeavesCurrent k) (Hub.LeavesCurrent.refl k) Hub.LeavesCurrent.trans
      (fun j g => g.lateDrop_current k j) _).trans
    (Hub.forEach_relates (f := Hub.tickInput) (R := Hub.LeavesCurrent k) (Hub.LeavesCurrent.refl k) Hub.LeavesCurrent.trans
      (fun i g => g.tickInput_current k i) _)
  have hleft := hjudged (by rw [hcoders, Hub.atCoder_tb]; exact hc)
  obtain ⟨g, ⟨hbefore, hin⟩, hafter, hin'⟩ := Hub.forEach_at (f := Hub.beginPicture)
    (R := fun a b => Hub.LeavesPicture k a b ∧ b.inputs = a.inputs) (fun a => ⟨.refl k a, rfl⟩)
    (fun h₁ h₂ => ⟨h₁.1.trans h₂.1, h₂.2.trans h₁.2⟩) k
    (fun j g hj => ⟨g.beginPicture_leavesPicture j hj.symm, ((g.beginPicture_pictureParts j) .inputs (by decide)).symm⟩)
    (((h.atCoder m).forEach 4 Hub.lateDrop).forEach 4 Hub.tickInput)
  change Hub.LeavesPicture k _ (h.atPaths m) at hafter
  change (h.atPaths m).inputs = _ at hin'
  have htb : g.tb.frame = (h.tb.tick m).frame := by
    rw [hbefore.timebase, hleft.timebase, Hub.atCoder_tb]
  have hctx : g.coders[k]'k.2 = h.coders[k]'k.2 := by rw [hbefore.context, hleft.context, hcoders]
  have hstep : (Hub.beginPicture k g).inputs = g.inputs := ((g.beginPicture_pictureParts k) .inputs (by decide)).symm
  have hlater : (h.tick m).inputs = (h.atPaths m).inputs := by
    rw [Hub.tick_later]
    exact ((Hub.laterStages_only _) .inputs (by decide)).symm
  have hinput : (h.tick m).inputs = g.inputs := by rw [hlater, hin', hstep]
  have hctx' : (h.tick m).coders = (h.atPaths m).coders := by
    rw [Hub.tick_later]
    exact ((Hub.laterStages_only _) .coders (by decide)).symm
  have hsource : g.inputs[(g.coders[k]'k.2).source] = (h.tick m).inputs[(h.coders[k]'k.2).source] := by
    simp only [hctx, hinput]
  refine (Hub.beginPicture_begins (h := g) (k := k) htb hsource rfl).frame hctx
    (((h.atCoder_leaves m k).trans hleft.stream).trans hbefore.stream) ?_ ?_
  · rw [hctx', hafter.context]
  · rw [Hub.tick_later]
    exact hafter.stream.units.entries.trans (Hub.laterStages_entries _ (labelStream_ne k))

end

/-! ### Receiver reports (R48, R54) -/

/-- What a report that takes an input's signal leaves: the record as the report wrote it, and lost. -/
structure Hub.SignalLost (i : Fin 4) (y : VideoInput) (h t : Hub) : Prop where
  input : t.inputs[i]'i.2 = { y with present := false, sinceLoss := 0, losses := y.losses + 1 }
  others : ∀ j : Fin 4, j ≠ i → t.inputs[j]'j.2 = h.inputs[j]'j.2
  aborted : ∀ k : Fin 4, Coder.Aborted i h.coders[k] t.coders[k]
  flash : t.tally.flash[i]'i.2 = 0
  told : ∀ p : Fin 4, (t.notices[p]'p.2).summary.getLsbD 9 = true
  only : Hub.OnlyChanges coderParts h t

theorem Hub.report_loses {h t : Hub} {i : Fin 4} {f : VideoInput → VideoInput} (ht : t = (h.modInput i f).loseInput i) :
    Hub.SignalLost i (f h.inputs[i]) h t := by
  obtain ⟨hself, hothers, haborts, hflash, -, htold, honly⟩ := Hub.loseInput_loses ht
  rw [Hub.modInput_self] at hself
  exact ⟨hself, fun j hj => (hothers j hj).trans (Hub.modInput_ne h f hj), haborts, hflash, htold,
    ((h.modInput_only i f).mono (by decide)).trans honly⟩

theorem Hub.report_arrived {h t : Hub} {e : Env} {i : Fin 4} {f : VideoInput → VideoInput}
    (ht : t = ((h.arrive e).modInput i f).loseInput i) : Hub.SignalLost i (f h.inputs[i]) h t := by
  obtain ⟨hinput, hothers, haborted, hflash, htold, honly⟩ := Hub.report_loses ht
  exact ⟨hinput, hothers, haborted, hflash, htold, ((h.arrive_only e).mono (by simp)).trans honly⟩

theorem Hub.SignalLost.effects {i : Fin 4} {y : VideoInput} {h t : Hub} (hs : Hub.SignalLost i y h t) :
    t.inputs[i] = { y with present := false, sinceLoss := 0, losses := y.losses + 1 } ∧
      (∀ j : Fin 4, j ≠ i → t.inputs[j] = h.inputs[j]) ∧
      (∀ k : Fin 4, ∀ f ∈ (t.coders[k]).flight, f.capturingFrom i = false) ∧
      (∀ k : Fin 4, (t.coders[k]).fullness = (h.coders[k]).fullness ∧ (t.coders[k]).q = (h.coders[k]).q ∧
        (t.coders[k]).counts.aborted = (h.coders[k]).counts.aborted +
          BitVec.ofNat 32 ((h.coders[k]).flight.filter fun f => f.capturingFrom i).length) ∧
      t.tally.flash[i] = 0 ∧ (∀ p : Fin 4, (t.notices[p]).summary.getLsbD 9 = true) ∧
      t.tb = h.tb ∧ t.mixer = h.mixer ∧ t.paths.path = h.paths.path ∧ t.gauges = h.gauges ∧ t.ports = h.ports :=
  ⟨hs.input, hs.others, fun k => (hs.aborted k).none,
    fun k => ⟨(hs.aborted k).fullness, (hs.aborted k).q, (hs.aborted k).count⟩, hs.flash, hs.told,
    (hs.only .timebase (by decide)).symm, (hs.only .mixer (by decide)).symm, (hs.only .pathRecords (by decide)).symm,
    (hs.only .gauges (by decide)).symm, (hs.only .ports (by decide)).symm⟩

section
variable {h : Hub} {i : Fin 4} {m : Measured}

theorem Hub.lossOfLock_present (hp : (h.inputs[i]'i.2).present = true) :
    Hub.lossOfLock i h = (h.modInput i fun x => { x with locked := false }).loseInput i := if_pos hp

theorem Hub.lossOfLock_absent (hp : (h.inputs[i]'i.2).present = false) :
    Hub.lossOfLock i h = h.modInput i fun x => { x with locked := false } := if_neg (by rw [hp]; nofun)

theorem Hub.matchesInput_iff (h : Hub) (i : Fin 4) (m : Measured) :
    h.matchesInput i m = true ↔ m.format = some (h.inputs[i]'i.2).expected ∧ m.rate = some h.tb.rate := by
  unfold Hub.matchesInput
  simp only [Bool.and_eq_true, beq_iff_eq]

theorem Hub.formatReport_wrong (hp : (h.inputs[i]'i.2).present = true)
    (hm : ¬ (m.format = some (h.inputs[i]'i.2).expected ∧ m.rate = some h.tb.rate)) :
    Hub.formatReport i m h = (h.modInput i fun x => { x with measured := some m, locked := true }).loseInput i := by
  unfold Hub.formatReport
  rw [hp, Bool.eq_false_iff.mpr (mt (h.matchesInput_iff i m).mp hm)]
  rfl

theorem Hub.formatReport_right (hp : (h.inputs[i]'i.2).present = false ∨
    m.format = some (h.inputs[i]'i.2).expected ∧ m.rate = some h.tb.rate) :
    Hub.formatReport i m h = h.modInput i fun x => { x with measured := some m, locked := true } := by
  have hbad : ((h.inputs[i]'i.2).present && !h.matchesInput i m) = false := by
    rcases hp with hp | hm
    · rw [hp, Bool.false_and]
    · rw [(h.matchesInput_iff i m).mpr hm, Bool.not_true, Bool.and_false]
  unfold Hub.formatReport
  rw [hbad]
  rfl

theorem Hub.captureEnd_unlocked (hl : (h.inputs[i]'i.2).locked = false) : Hub.captureEnd i h = h := if_neg (by rw [hl]; nofun)

theorem Hub.captureEnd_locked (hl : (h.inputs[i]'i.2).locked = true) :
    Hub.captureEnd i h =
      { h with
        inputs := h.inputs.set i { h.inputs[i]'i.2 with
          delivered := (h.inputs[i]'i.2).delivered ++ (h.inputs[i]'i.2).measured.toList }
        coders := Vector.ofFn fun k => { h.coders[k]'k.2 with
          flight := (h.coders[k]'k.2).flight.map fun f => if f.capturingFrom i then { f with captured := true } else f } } :=
  if_pos hl

end

/-- Settles O23: a report loses a signal as `Hub.report_loses` says; at a tick every input and every stream's picture is
judged in its turn, and the turns of the others leave it. -/
theorem receiversJudgeInputs : Obligations.ReceiversJudgeInputs := by
  refine ⟨fun e i m s hs => ?_, fun e i s hs => ⟨?_, fun hl => ?_, fun hl => ?_⟩, fun e s hs href => ?_⟩
  · refine ⟨fun hp => ?_, fun hp => ?_, fun hp hm => ?_, fun hp => ?_⟩
    · obtain ⟨t, ht⟩ : ∃ t, t = ((s.hub.arrive e).modInput i fun x => { x with locked := false }).loseInput i := ⟨_, rfl⟩
      have hrun := (State.run_free hs fun h => Hub.lossOfLock i (h.arrive e)).trans
        (congrArg s.became (Hub.lossOfLock_present (h := s.hub.arrive e) hp))
      rw [← ht] at hrun
      exact ⟨_, hrun, (Hub.report_arrived ht).effects⟩
    · exact (State.run_free hs fun h => Hub.lossOfLock i (h.arrive e)).trans
        (congrArg s.became (Hub.lossOfLock_absent (h := s.hub.arrive e) hp))
    · obtain ⟨t, ht⟩ : ∃ t, t = ((s.hub.arrive e).modInput i fun x =>
          { x with measured := some m, locked := true }).loseInput i := ⟨_, rfl⟩
      have hrun := (State.run_free hs fun h => Hub.formatReport i m (h.arrive e)).trans
        (congrArg s.became (Hub.formatReport_wrong (h := s.hub.arrive e) hp hm))
      rw [← ht] at hrun
      exact ⟨_, hrun, (Hub.report_arrived ht).effects⟩
    · exact (State.run_free hs fun h => Hub.formatReport i m (h.arrive e)).trans
        (congrArg s.became (Hub.formatReport_right (h := s.hub.arrive e) hp))
  · exact State.run_free hs fun h => Hub.lineCheck i (h.arrive e)
  · exact (State.run_free hs fun h => Hub.captureEnd i (h.arrive e)).trans
      (congrArg s.became (Hub.captureEnd_locked (h := s.hub.arrive e) hl))
  · exact (State.run_free hs fun h => Hub.captureEnd i (h.arrive e)).trans
      (congrArg s.became (Hub.captureEnd_unlocked (h := s.hub.arrive e) hl))
  · refine exists_became ((State.run_free hs _).trans (congrArg s.became (Hub.dividerExpiry_expired href))) ?_
    have hinput := (s.hub.expired e).tick_input s.hub.tb.expiry
    have hpicture := fun k => (s.hub.expired e).tick_picture s.hub.tb.expiry (k := k)
    have htb := (s.hub.expired e).tick_tb s.hub.tb.expiry
    rw [← htb] at hpicture
    generalize (s.hub.expired e).tick s.hub.tb.expiry = t at hinput hpicture
    refine ⟨fun i => ⟨(hinput i).stays, (hinput i).lost, (hinput i).returns, (hinput i).waits⟩, fun k hc => ?_⟩
    obtain ⟨hidle, hcaptures, hwaits, hoffers, hcommits⟩ := hpicture k hc
    refine ⟨hidle, fun hs => ⟨hcaptures hs, fun hp hf => hwaits hs hp hf fun f hm => (hc f hm).1, fun hp hf =>
      ⟨hoffers hs hp hf, fun ho hg hr => ?_⟩⟩⟩
    obtain ⟨⟨u, hlast, ⟨hstream, hunit, hserial, htc, hpayload, hflags⟩⟩, hcount⟩ := hcommits ho hp hf hg hr
    exact ⟨u, hlast, hstream, hunit, hserial, htc, hpayload, hflags, hcount⟩

end Sys2Proof.Machine
end

section
/-! Proofs: what a tail unit that leaves takes along: its clips, its unsent count, the release marks (R32, R33, R37, R142). -/

namespace Sys2Proof.Machine

-- In order, so that the package in one text stays within the memory of its check.
set_option Elab.async false

/-! ### The clips that lapse with a unit (R32, R142) -/

/-- A clip as its lapse leaves it. -/
def Clip.lapsed (c : Clip) : Clip := { c with state := .lapsed, limitDue := false }

section
variable (h : Hub) (k : Fin 16) (u : Word)

theorem Hub.retains_lapsed (c : Clip) : h.retains c.lapsed k u = false := rfl

/-- The clips of a unit, as its removal leaves them. -/
def Hub.lapseOf (k : Fin 16) (u : Word) (c : Clip) : Clip := if h.retains c k u = true then c.lapsed else c

theorem Hub.lapse_retains (n : Word) (c : Clip) : (h.lapse n).retains c k u = h.retains c k u := rfl

theorem Hub.lapse_clips (n : Word) :
    (h.lapse n).log.clips = h.log.clips.map fun c => if c.number = n then c.lapsed else c := rfl

theorem Hub.lapse_lapses (n : Word) : (h.lapse n).log.lapses = h.log.lapses + 1 := rfl

/-- A choice that keeps the best so far or takes the next ends with one of the list. -/
theorem foldl_choice {α : Type} {f : Option α → α → Option α} (hf : ∀ b x, f b x = some x ∨ (f b x = b ∧ b ≠ none))
    (xs : List α) :
    ∀ b, (xs.foldl f b = b ∧ (b ≠ none ∨ xs = [])) ∨ ∃ x ∈ xs, xs.foldl f b = some x := by
  induction xs with
  | nil => exact fun b => .inl ⟨rfl, .inr rfl⟩
  | cons x xs ih =>
    intro b
    rw [List.foldl_cons]
    rcases ih (f b x) with ⟨hkeep, -⟩ | ⟨y, hy, htake⟩
    · rw [hkeep]
      rcases hf b x with hx | ⟨hb, hne⟩
      · exact .inr ⟨x, List.mem_cons_self, hx⟩
      · exact .inl ⟨hb, .inl hne⟩
    · exact .inr ⟨y, List.mem_cons_of_mem _ hy, htake⟩

/-- Of the best clip so far and the next the one that lapses first. -/
def Hub.sooner (k : Fin 16) (best : Option Clip) (c : Clip) : Option Clip :=
  match best with
  | none => some c
  | some d => if dist (h.unitBase k) (c.starts[k].getD 0) < dist (h.unitBase k) (d.starts[k].getD 0) then some c else some d

theorem Hub.nextToLapse_eq :
    h.nextToLapse k u = (h.log.clips.filter fun c => h.retains c k u).foldl (h.sooner k) none := rfl

theorem Hub.sooner_choice (b : Option Clip) (c : Clip) : h.sooner k b c = some c ∨ (h.sooner k b c = b ∧ b ≠ none) := by
  unfold Hub.sooner
  cases b with
  | none => exact .inl rfl
  | some d =>
    dsimp only
    split
    · exact .inl rfl
    · exact .inr ⟨rfl, nofun⟩

/-- The clip that lapses first, if any does. -/
theorem Hub.nextToLapse_spec :
    (h.nextToLapse k u = none ∧ (h.log.clips.filter fun c => h.retains c k u) = []) ∨
      ∃ c ∈ h.log.clips.filter fun c => h.retains c k u, h.nextToLapse k u = some c := by
  rw [Hub.nextToLapse_eq]
  rcases foldl_choice (h.sooner_choice k) (h.log.clips.filter fun c => h.retains c k u) none with ⟨hkeep, hnil⟩ | htake
  · exact .inl ⟨hkeep, hnil.resolve_left fun hn => hn rfl⟩
  · exact .inr htake

theorem Hub.lapseRetainers_some {c : Clip} (hc : h.nextToLapse k u = some c) (n : Nat) :
    Hub.lapseRetainers k u (n + 1) h = Hub.lapseRetainers k u n (h.lapse c.number) := by
  conv_lhs => unfold Hub.lapseRetainers
  rw [hc]

/-- R32: the clips that retain the unit lapse, each once. -/
theorem Hub.lapseRetainers_lapses : ∀ (n : Nat) (h : Hub), (h.log.clips.map Clip.number).Nodup →
    (h.log.clips.filter fun c => h.retains c k u).length ≤ n →
    (Hub.lapseRetainers k u n h).log.clips = h.log.clips.map (h.lapseOf k u) ∧
    (Hub.lapseRetainers k u n h).log.lapses =
      h.log.lapses + BitVec.ofNat 32 (h.log.clips.filter fun c => h.retains c k u).length := by
  have hidle : ∀ h : Hub, (h.log.clips.filter fun c => h.retains c k u) = [] →
      h.log.clips = h.log.clips.map (h.lapseOf k u) ∧ h.log.lapses =
        h.log.lapses + BitVec.ofNat 32 (h.log.clips.filter fun c => h.retains c k u).length := by
    intro h hnil
    refine ⟨(List.map_id' _).symm.trans (List.map_congr_left fun c hc => ?_), by rw [hnil]; simp⟩
    exact (if_neg (List.filter_eq_nil_iff.mp hnil c hc)).symm
  intro n
  induction n with
  | zero => exact fun h _ hn => hidle h (List.length_eq_zero_iff.mp (Nat.le_zero.mp hn))
  | succ n ih =>
    intro h hnodup hn
    rcases h.nextToLapse_spec k u with ⟨heq, hnil⟩ | ⟨c, hspec, heq⟩
    · unfold Hub.lapseRetainers
      rw [heq]
      exact hidle h hnil
    · rw [h.lapseRetainers_some k u heq]
      obtain ⟨hmem, hret⟩ := List.mem_filter.mp hspec
      obtain ⟨l₁, l₂, hsplit⟩ := List.append_of_mem hmem
      rw [hsplit, List.map_append, List.map_cons, List.nodup_append'] at hnodup
      obtain ⟨hnd₁, hnd₂, hdisj⟩ := hnodup
      obtain ⟨hc₂, hnd₂⟩ := List.nodup_cons.mp hnd₂
      have hne₁ : ∀ x ∈ l₁, x.number ≠ c.number := fun x hx he =>
        hdisj (List.mem_map_of_mem hx) (by rw [he]; exact List.mem_cons_self)
      have hne₂ : ∀ x ∈ l₂, x.number ≠ c.number := fun x hx he => hc₂ (he ▸ List.mem_map_of_mem hx)
      have hclips : (h.lapse c.number).log.clips = l₁ ++ c.lapsed :: l₂ := by
        have hstay : ∀ l : List Clip, (∀ x ∈ l, x.number ≠ c.number) →
            (l.map fun x => if x.number = c.number then x.lapsed else x) = l := fun l hl =>
          (List.map_congr_left fun x hx => if_neg (hl x hx)).trans (List.map_id' l)
        rw [Hub.lapse_clips, hsplit, List.map_append, List.map_cons, if_pos rfl, hstay l₁ hne₁, hstay l₂ hne₂]
      have hcount : (h.log.clips.filter fun x => h.retains x k u).length =
          ((h.lapse c.number).log.clips.filter fun x => (h.lapse c.number).retains x k u).length + 1 := by
        rw [hclips, hsplit]
        simp only [Hub.lapse_retains, List.filter_append, List.filter_cons, hret, Hub.retains_lapsed, if_true,
          Bool.false_eq_true, if_false, List.length_append, List.length_cons]
        omega
      obtain ⟨htable, hlapses⟩ := ih (h.lapse c.number) (by
        rw [hclips, List.map_append, List.map_cons, List.nodup_append']
        exact ⟨hnd₁, List.nodup_cons.mpr ⟨hc₂, hnd₂⟩, hdisj⟩) (by omega)
      refine ⟨?_, ?_⟩
      · have hfun : (h.lapse c.number).lapseOf k u = h.lapseOf k u := rfl
        rw [htable, hfun, hclips, hsplit, List.map_append, List.map_cons, List.map_append, List.map_cons]
        have hown : h.lapseOf k u c = c.lapsed := if_pos hret
        have hdone : h.lapseOf k u c.lapsed = c.lapsed := if_neg (by rw [Hub.retains_lapsed]; nofun)
        rw [hown, hdone]
      · rw [hlapses, Hub.lapse_lapses, hcount, BitVec.ofNat_add, BitVec.add_assoc,
          BitVec.add_comm (1 : Word)]
        rfl

/-- R142: a lapse gives CLIP_LAPSED to the ports of class LOG. -/
theorem Hub.lapseRetainers_summary {n : Nat} (hne : (h.log.clips.filter fun c => h.retains c k u) ≠ []) (hn : n ≠ 0)
    {p : Fin 4} (hp : h.hasClass p .log = true) :
    ((Hub.lapseRetainers k u n h).notices[p]).summary.getLsbD 18 = true := by
  obtain ⟨m, rfl⟩ := Nat.exists_eq_add_one_of_ne_zero hn
  rcases h.nextToLapse_spec k u with ⟨-, hnil⟩ | ⟨c, -, heq⟩
  · exact absurd hnil hne
  · rw [h.lapseRetainers_some k u heq]
    refine (Hub.lapseRetainers_heard k u m _).summary_mono p (by decide) ?_
    exact Hub.notify_summary
      (h := (h.modClip c.number Clip.lapsed).modLog fun l => { l with lapses := l.lapses + 1 }) (k := .clipLapsed) _ hp

end

/-- Where notices of a kind are not offered, a queue's entries of that kind stay. -/
theorem Hub.Heard.mem_queue {kinds : List NoticeKind} {a b : Hub} (h : Hub.Heard kinds a b) (p : Fin 4)
    (hs : NoticeKind.supplyWarn ∉ kinds) {x : Notice} (hx : x.kind ∉ kinds) :
    x ∈ (b.notices[p]).queue ↔ x ∈ (a.notices[p]).queue := by
  obtain ⟨xs, hxs, hb⟩ := h p
  rw [hb]
  generalize a.notices[p] = n
  clear hb
  induction xs generalizing n with
  | nil => exact Iff.rfl
  | cons y ys ih =>
    rw [List.foldl_cons, ih (fun z hz => hxs z (List.mem_cons_of_mem _ hz)),
      NoticePort.offer_queue _ _ fun hk => hs (hk ▸ hxs y List.mem_cons_self)]
    split
    · rw [List.mem_append, List.mem_singleton]
      exact or_iff_left fun he => hx (he ▸ hxs y List.mem_cons_self)
    · exact Iff.rfl

/-! ### A tail unit leaves (R32, R33, R37) -/

/-- The tail of a ring with a head and the entries that it keeps (R31). -/
def tailOf (r : Fin 17) (head : Word) : List Entry → Word
  | [] => head
  | e :: _ => e.key r

section
variable (h : Hub) {r : Fin 17} {y : Entry} {rest : List Entry}

theorem Hub.tail_tailOf (r : Fin 17) : h.tail r = tailOf r (h.ring r).head (h.ring r).index := by
  unfold Hub.tail tailOf
  cases (h.ring r).index <;> rfl

/-- R28: the tail unit is unsent exactly when the send pointer is at it. -/
theorem Hub.unsent_tail (hi : (h.ring r).index = y :: rest) : h.unsent r y = true ↔ (h.ring r).send = y.key r := by
  unfold Hub.unsent
  rw [h.tail_tailOf, hi, decide_eq_true_iff]
  change ((h.ring r).send - y.key r).toNat ≤ (y.key r - y.key r).toNat ↔ _
  rw [BitVec.sub_self]
  constructor
  · intro hle
    exact sub_eq_zero.mp (BitVec.eq_of_toNat_eq (Nat.le_zero.mp hle))
  · intro heq
    rw [heq, BitVec.sub_self]

/-- The hub with a tail unit passed and counted as lost. -/
def Hub.countedLost (h : Hub) (r : Fin 17) (y : Entry) : Hub :=
  (h.moveSend r (y.key r + 1)).modStream y.stream fun st => { st with lost := st.lost + 1 }

theorem Hub.loseUnsent_eq (r : Fin 17) (y : Entry) :
    h.loseUnsent r y = if h.unsentLostQueued y.stream = true then h.countedLost r y
      else (h.countedLost r y).notify .unsentLost y.stream.val := by
  have hq : (h.countedLost r y).unsentLostQueued y.stream = h.unsentLostQueued y.stream := by
    have hn : (h.moveSend r (y.key r + 1)).notices = h.notices := ((h.moveSend_only r _) .notices (by decide)).symm
    unfold Hub.unsentLostQueued
    rw [← hn]
    rfl
  rw [← hq]
  rfl

theorem Hub.loseUnsent_notifies (r : Fin 17) (y : Entry) : Hub.OnlyChanges [.notices] (h.countedLost r y)
    (h.loseUnsent r y) := by
  rw [Hub.loseUnsent_eq]
  exact .ite (.refl _ _) (Hub.notify_only _ _ _)

theorem Hub.loseUnsent_keepsLog (r : Fin 17) (y : Entry) : (h.loseUnsent r y).log = h.log :=
  ((h.loseUnsent_notifies r y) .log (by decide)).symm.trans ((h.moveSend_only r _) .log (by decide)).symm

theorem Hub.countedLost_stream (r : Fin 17) (y : Entry) (j : Fin 16) :
    (h.countedLost r y).stream j =
      if y.stream = j then { h.stream j with lost := (h.stream j).lost + 1 } else h.stream j := by
  unfold Hub.countedLost
  by_cases hj : y.stream = j
  · rw [if_pos hj, ← hj, Hub.modStream_self, Hub.moveSend_stream]
  · rw [if_neg hj, Hub.modStream_ne _ _ (Ne.symm hj), Hub.moveSend_stream]

theorem Hub.loseUnsent_stream (r : Fin 17) (y : Entry) (j : Fin 16) :
    (h.loseUnsent r y).stream j = if y.stream = j then { h.stream j with lost := (h.stream j).lost + 1 } else h.stream j := by
  rw [(h.loseUnsent_notifies r y).stream_eq (by decide), Hub.countedLost_stream]

theorem Hub.loseUnsent_taken (r : Fin 17) (y : Entry) : ((h.loseUnsent r y).paths.sends[r]).taken = none := by
  have hpaths : (h.loseUnsent r y).paths = (h.countedLost r y).paths := by
    rw [Hub.loseUnsent_eq]
    split <;> rfl
  have hsame : (h.countedLost r y).paths = (h.moveSend r (y.key r + 1)).paths := rfl
  rw [hpaths, hsame, Hub.moveSend_context]

theorem Hub.loseUnsent_told (r : Fin 17) (y : Entry) (hq : ¬ h.unsentLostQueued y.stream = true) (p : Fin 4) :
    ((h.loseUnsent r y).notices[p]).summary.getLsbD 5 = true := by
  rw [Hub.loseUnsent_eq, if_neg hq]
  exact Hub.notify_summary _ (k := .unsentLost) _ rfl

theorem Hub.loseUnsent_silent (r : Fin 17) (y : Entry) (hq : h.unsentLostQueued y.stream = true) :
    (h.loseUnsent r y).notices = h.notices := by
  rw [Hub.loseUnsent_eq, if_pos hq]
  exact ((h.moveSend_only r _) .notices (by decide)).symm

theorem Hub.unsentLostQueued_iff (k : Fin 16) : h.unsentLostQueued k = true ↔
    ∃ p : Fin 4, ∃ z ∈ (h.notices[p]).queue, z.kind = .unsentLost ∧ z.param.toNat = k.val := by
  unfold Hub.unsentLostQueued
  simp only [List.any_eq_true, Bool.and_eq_true, beq_iff_eq, Vector.mem_toList_iff, Vector.mem_iff_getElem]
  constructor
  · rintro ⟨n, ⟨i, hi, rfl⟩, hz⟩
    exact ⟨⟨i, hi⟩, hz⟩
  · rintro ⟨p, hz⟩
    exact ⟨_, ⟨p.val, p.isLt, rfl⟩, hz⟩

/-- What the removal of the tail unit leaves, with the entries that stay behind it. -/
structure Hub.TailLeft (r : Fin 17) (y : Entry) (rest : List Entry) (h t : Hub) : Prop where
  sent : (h.ring r).send ≠ y.key r → (t.ring r).send = (h.ring r).send
  passed : (h.ring r).send = y.key r → (t.ring r).send = y.key r + 1 ∧ (t.paths.sends[r]).taken = none
  lost : ∀ j, (t.stream j).lost =
    if (h.ring r).send = y.key r ∧ y.stream = j then (h.stream j).lost + 1 else (h.stream j).lost
  told : (h.ring r).send = y.key r → ¬ h.unsentLostQueued y.stream = true → ∀ p : Fin 4, (t.notices[p]).summary.getLsbD 5 =
    true
  silent : h.unsentLostQueued y.stream = true ∨ (h.ring r).send ≠ y.key r →
    ∀ p : Fin 4, (t.notices[p]).summary.getLsbD 5 = (h.notices[p]).summary.getLsbD 5
  marks : ∀ j, (t.stream j).releaseMark =
    if r = 16 ∧ dist (y.key r) (h.stream j).releaseMark < dist (y.key r) (tailOf r (h.ring r).head rest) then
      tailOf r (h.ring r).head rest
    else (h.stream j).releaseMark

/-- What the drop of a tail unit makes of its ring's stream marks. -/
theorem Hub.dropTail_stream (r : Fin 17) (y : Entry) (j : Fin 16) :
    (h.dropTail r y).stream j =
      if r = 16 ∧ dist (y.key r) (h.stream j).releaseMark <
          dist (y.key r) (tailOf r (h.ring r).head ((h.ring r).index.drop 1)) then
        { h.stream j with releaseMark := tailOf r (h.ring r).head ((h.ring r).index.drop 1) }
      else h.stream j := by
  unfold Hub.dropTail
  dsimp only
  by_cases hr : r = 16
  · subst hr
    rw [if_pos rfl, Hub.carryMarks_stream, Hub.tail_tailOf, Hub.modRing_self, Hub.modRing_stream]
    simp only [true_and]
  · rw [if_neg hr, if_neg (fun hc => hr hc.1), Hub.modRing_stream]

theorem Hub.dropTail_lost (r : Fin 17) (y : Entry) (j : Fin 16) : ((h.dropTail r y).stream j).lost = (h.stream j).lost := by
  rw [Hub.dropTail_stream]
  split <;> rfl

theorem Hub.dropTail_mark (r : Fin 17) (y : Entry) (j : Fin 16) :
    ((h.dropTail r y).stream j).releaseMark =
      if r = 16 ∧ dist (y.key r) (h.stream j).releaseMark <
          dist (y.key r) (tailOf r (h.ring r).head ((h.ring r).index.drop 1)) then
        tailOf r (h.ring r).head ((h.ring r).index.drop 1)
      else (h.stream j).releaseMark := by
  rw [Hub.dropTail_stream]
  exact apply_ite Stream.releaseMark _ _ _

/-- R32, R33, R37, R142: the tail unit of a ring leaves. -/
theorem Hub.removeTail_leaves {h t : Hub} (ht : t = h.removeTail r y) (hi : (h.ring r).index = y :: rest) :
    Hub.TailLeft r y rest h t ∧ t.log = (h.lapseTail r y).log ∧
      ∀ p : Fin 4, ((h.lapseTail r y).notices[p]).summary.getLsbD 18 = true →
        (t.notices[p]).summary.getLsbD 18 = true := by
  obtain ⟨a, ha⟩ : ∃ a, a = h.lapseTail r y := ⟨_, rfl⟩
  have hlapse := h.lapseTail_only r y
  have hheard : Hub.Heard [.clipLapsed] h (h.lapseTail r y) := .ite (Hub.lapseRetainers_heard _ _ _ h) (.refl _ h)
  rw [← ha] at hlapse hheard
  have hring : a.ring r = h.ring r := hlapse.ring_eq (by decide) r
  have hstream : ∀ j, a.stream j = h.stream j := hlapse.stream_eq (by decide)
  have hqueued : a.unsentLostQueued y.stream = true ↔ h.unsentLostQueued y.stream = true := by
    rw [Hub.unsentLostQueued_iff, Hub.unsentLostQueued_iff]
    refine exists_congr fun p => exists_congr fun z => ⟨fun ⟨hz, hk, hp⟩ => ⟨?_, hk, hp⟩, fun ⟨hz, hk, hp⟩ => ⟨?_, hk, hp⟩⟩
    · exact (hheard.mem_queue p (by decide) (by rw [hk]; decide)).mp hz
    · exact (hheard.mem_queue p (by decide) (by rw [hk]; decide)).mpr hz
  have hsum : ∀ p : Fin 4, (a.notices[p]).summary.getLsbD 5 = (h.notices[p]).summary.getLsbD 5 := fun p =>
    hheard.summary_eq p (by decide) (by decide)
  have hunsent := a.unsent_tail (r := r) (y := y) (rest := rest) (by rw [hring, hi])
  rw [hring] at hunsent
  have hbefore : h.removeTail r y = (if a.unsent r y = true then a.loseUnsent r y else a).dropTail r y := by
    rw [ha]
    exact h.removeTail_eq r y
  have hlater := Hub.dropTail_only (if a.unsent r y = true then a.loseUnsent r y else a) r y
  have hpaths := Hub.dropTail_paths (if a.unsent r y = true then a.loseUnsent r y else a) r y
  have hlost := Hub.dropTail_lost (if a.unsent r y = true then a.loseUnsent r y else a) r y
  have hmarks := Hub.dropTail_mark (if a.unsent r y = true then a.loseUnsent r y else a) r y
  have hdrop := Hub.dropTail_ring (if a.unsent r y = true then a.loseUnsent r y else a) r y
  rw [← hbefore, ← ht] at hlater hpaths hlost hmarks hdrop
  by_cases hs : (h.ring r).send = y.key r
  · rw [if_pos (hunsent.mpr hs)] at hlater hpaths hlost hmarks hdrop
    rw [Hub.loseUnsent_ring, hring] at hdrop
    have hnotices : t.notices = (a.loseUnsent r y).notices := (hlater .notices (by decide)).symm
    have hlog : t.log = a.log := (hlater .log (by decide)).symm.trans ((Hub.loseUnsent_keepsLog a r y))
    refine ⟨⟨fun hn => absurd hs hn, fun _ => ⟨by rw [hdrop], by rw [hpaths, Hub.loseUnsent_taken]⟩, fun j => ?_,
      fun _ hq p => ?_, fun hq p => ?_, fun j => ?_⟩, by rw [hlog, ha], fun p hp => ?_⟩
    · rw [hlost j, Hub.loseUnsent_stream, hstream]
      by_cases hj : y.stream = j
      · rw [if_pos hj, if_pos ⟨hs, hj⟩]
      · rw [if_neg hj, if_neg fun hc => hj hc.2]
    · rw [hnotices]
      exact Hub.loseUnsent_told a r y (fun hc => hq (hqueued.mp hc)) p
    · rw [hnotices, Hub.loseUnsent_silent a r y (hqueued.mpr (hq.resolve_right fun hn => hn hs))]
      exact hsum p
    · have hmark : ((a.loseUnsent r y).stream j).releaseMark = (h.stream j).releaseMark := by
        rw [Hub.loseUnsent_stream, hstream]
        split <;> rfl
      rw [hmarks j, hmark, Hub.loseUnsent_ring, hring, hi]
      rfl
    · rw [hnotices]
      rw [← ha] at hp
      exact (a.loseUnsent_heard r y).summary_mono p (by decide) hp
  · rw [if_neg (mt hunsent.mp hs)] at hlater hpaths hlost hmarks hdrop
    rw [hring] at hdrop
    have hnotices : t.notices = a.notices := (hlater .notices (by decide)).symm
    have hlog : t.log = a.log := (hlater .log (by decide)).symm
    refine ⟨⟨fun _ => by rw [hdrop], fun hc => absurd hc hs, fun j => ?_, fun hc => absurd hc hs, fun _ p => ?_, fun j => ?_⟩,
      by rw [hlog, ha], fun p hp => ?_⟩
    · rw [hlost j, hstream, if_neg fun hc => hs hc.1]
    · rw [hnotices]
      exact hsum p
    · rw [hmarks j, hring, hi, hstream]
      rfl
    · rw [hnotices]
      rw [← ha] at hp
      exact hp

end

end Sys2Proof.Machine
end

section
/-! Proofs: what follows a commit: its notice, and the spans and the measure of the clips (R35, R136, R141). -/

namespace Sys2Proof.Machine

-- In order, so that the package in one text stays within the memory of its check.
set_option Elab.async false

/-! ### What a commit adds after the room is made (R34, R35, R136, R141) -/

theorem Hub.Evolves.clipsOrdered {strict : Prop} {g h : Hub} (he : g.Evolves strict h) (hg : g.ClipsOrdered) :
    h.ClipsOrdered := he.keeps (fun _ _ hc => hc.mild.clipsOrdered) hg

section
variable (h : Hub) (o : Offer)

theorem Hub.roomed_fits (hf : (h.ring (h.boundRing o.stream)).RoomBehind (sectorsOf o.payload.length)
    (h.ring (h.boundRing o.stream)).index) : h.roomed o = h := by
  have hno := (not_iff_not.mpr (Ring.not_roomBehind_iff (h.ring (h.boundRing o.stream)) (sectorsOf_pos o.payload.length))).mpr
    (not_not.mpr hf)
  unfold Hub.roomed
  cases (h.ring (h.boundRing o.stream)).index.length with
  | zero => rfl
  | succ n =>
    unfold Hub.makeRoom
    exact if_neg hno

theorem Hub.roomed_one {y : Entry} {rest : List Entry} (hi : (h.ring (h.boundRing o.stream)).index = y :: rest)
    (hn : ¬ (h.ring (h.boundRing o.stream)).RoomBehind (sectorsOf o.payload.length) (y :: rest))
    (hf : (h.ring (h.boundRing o.stream)).RoomBehind (sectorsOf o.payload.length) rest) :
    h.roomed o = h.removeTail (h.boundRing o.stream) y := by
  have hfull := (Ring.not_roomBehind_iff (h.ring (h.boundRing o.stream)) (sectorsOf_pos o.payload.length)).mpr (by rwa [hi])
  obtain ⟨w, hw⟩ := h.removeTail_ring (h.boundRing o.stream) y
  have hroom := Ring.not_roomBehind_iff ((h.removeTail (h.boundRing o.stream) y).ring (h.boundRing o.stream))
    (sectorsOf_pos o.payload.length)
  unfold Hub.roomed
  rw [hi, List.length_cons]
  unfold Hub.makeRoom
  rw [if_pos hfull]
  split
  · rename_i hnil
    exact absurd (hi.symm.trans hnil) nofun
  · rename_i e es hcons
    obtain ⟨rfl, -⟩ := List.cons.inj (hi.symm.trans hcons)
    cases rest with
    | nil => rfl
    | cons z zs =>
      rw [List.length_cons]
      unfold Hub.makeRoom
      refine if_neg fun hc => hroom.mp hc ?_
      rw [hw, hi]
      exact hf

/-- The hub in which a unit has been written. -/
def Hub.written (h : Hub) (o : Offer) : Hub :=
  (h.roomed o).writeUnit (h.boundRing o.stream) o (h.nextUnit o.stream) (h.nextG o.stream)

/-- A clip whose span takes a commit to stream k (R136). -/
def Clip.spanning (x : Clip) (k : Fin 16) (u serial : Word) : Clip :=
  if x.active = true ∧ x.covers k = true ∧ x.spans serial = true then
    { x with starts := x.starts.set k (some (x.starts[k].getD u)), running := x.running.set k (some u) }
  else x

/-- A clip as the measure of ring r leaves it (R141). -/
def Hub.measured (h : Hub) (r : Fin 17) (x : Clip) : Clip :=
  if x.state = .opened ∧
      (512 < (h.retainedIn x r).length ∨ (h.ring r).size * 8 < 2 * ((h.retainedIn x r).map Entry.len).sum) then
    { x with limitDue := true }
  else x

theorem Hub.retains_stores {g h : Hub} (hs : ∀ k, h.stream k = g.stream k) (hr : ∀ r, h.ring r = g.ring r) (c : Clip)
    (k : Fin 16) (u : Word) : h.retains c k u = g.retains c k u := by
  refine Hub.retains_congr ?_ ?_ c u
  · unfold Hub.nextUnit
    rw [hr]
  · unfold Hub.unitBase Hub.nextUnit Hub.tail
    simp only [hs, hr]

theorem Hub.measured_stores {g h : Hub} (hs : ∀ k, h.stream k = g.stream k) (hr : ∀ r, h.ring r = g.ring r) (r : Fin 17)
    (c : Clip) : h.measured r c = g.measured r c := by
  unfold Hub.measured Hub.retainedIn Hub.boundRing
  simp only [hs, hr, Hub.retains_stores hs hr]

/-- The notices, clips and tests that follow the write of a unit. -/
def Hub.settled (w : Hub) (r : Fin 17) (start : Nat) (o : Offer) (unit : Word) : Hub :=
  (((w.ringNotices r start (sectorsOf o.payload.length)).spanCommit o.stream unit o.frame.serial).measureClips r).testClips
    o.stream (some o.frame.serial)

theorem Hub.offer_settles (hj : h.judge o = h.commit o) :
    h.offer o = ((h.written o).settled (h.boundRing o.stream) (h.ring (h.boundRing o.stream)).headOff o (h.nextUnit o.stream),
      .committed (h.nextUnit o.stream) (h.nextG o.stream)) := by
  rw [Hub.offer_eq, hj, Hub.commit_eq]
  rfl

end

theorem Hub.testClips_lapses (g : Hub) (k : Fin 16) (d : Option Word) : (g.testClips k d).log.lapses = g.log.lapses := by
  have hfold : ∀ (xs : List Clip) (g : Hub),
      (xs.foldl (fun h c => (h.modClip c.number Clip.finish).notify .clipClosed c.number.toNat) g).log.lapses =
        g.log.lapses := by
    intro xs
    induction xs with
    | nil => exact fun _ => rfl
    | cons x xs ih => exact fun g => ih _
  exact hfold _ _

section
variable {w t : Hub} {r : Fin 17} {start : Nat} {o : Offer} {unit : Word} (ht : t = w.settled r start o unit)
include ht

theorem Hub.settled_only : Hub.OnlyChanges [.log, .notices] w t := by
  rw [ht]
  exact (w.afterWrite_only r start (sectorsOf o.payload.length) o.stream unit o.frame.serial).trans (Hub.testClips_only _ _ _)

theorem Hub.settled_lapses : t.log.lapses = w.log.lapses := by
  rw [ht, Hub.settled, Hub.testClips_lapses]
  have hring : w.log = (w.ringNotices r start (sectorsOf o.payload.length)).log :=
    (w.ringNotices_only r start _) .log (by decide)
  rw [hring]
  rfl

/-- A clip that is not in CLOSING comes through a commit with its span and its measure alone. -/
theorem Hub.settled_clip (ho : w.ClipsOrdered) {x : Clip} (hx : x ∈ w.log.clips) (hs : x.state ≠ .closing) :
    t.measured r (x.spanning o.stream unit o.frame.serial) ∈ t.log.clips := by
  obtain ⟨a, ha⟩ : ∃ a, a = w.ringNotices r start (sectorsOf o.payload.length) := ⟨_, rfl⟩
  obtain ⟨b, hb⟩ : ∃ b, b = a.spanCommit o.stream unit o.frame.serial := ⟨_, rfl⟩
  have hta : t = (b.measureClips r).testClips o.stream (some o.frame.serial) := by
    rw [ht, hb, ha]
    rfl
  have hnotice : Hub.OnlyChanges [.notices] w a := by
    rw [ha]
    exact w.ringNotices_only r start _
  have hlog : a.log = w.log := (hnotice .log (by decide)).symm
  have hspan : b.log.clips = a.log.clips.map fun x => x.spanning o.stream unit o.frame.serial := by
    rw [hb]
    rfl
  have hmeasure : (b.measureClips r).log.clips = b.log.clips.map (b.measured r) := rfl
  have hordered : (b.measureClips r).ClipsOrdered := by
    have hbefore : a.ClipsOrdered := by
      unfold Hub.ClipsOrdered
      rw [hlog]
      exact ho
    rw [hb]
    exact ((a.spanCommit_evolves (strict := True) _ _ _).trans (Hub.measureClips_evolves _ r)).clipsOrdered hbefore
  have honly : Hub.OnlyChanges [.log, .notices] b t := by
    rw [hta]
    exact ((Hub.mapClips_only _ _).mono (by decide)).trans (Hub.testClips_only _ _ _)
  have hsame := Hub.measured_stores (g := b) (h := t) (honly.stream_eq (by decide)) (honly.ring_eq (by decide)) r
  obtain ⟨y, hy⟩ : ∃ y, y = b.measured r (x.spanning o.stream unit o.frame.serial) := ⟨_, rfl⟩
  have hstate : y.state = x.state := by
    rw [hy]
    unfold Hub.measured Clip.spanning
    split <;> split <;> rfl
  have hmem : y ∈ (b.measureClips r).log.clips := by
    rw [hmeasure, hspan, hlog, hy]
    exact List.mem_map_of_mem (List.mem_map_of_mem hx)
  have hnot : y.state ≠ .closing := by
    rw [hstate]
    exact hs
  have hmark : (b.measureClips r).mark o.stream (some o.frame.serial) y = y := if_neg fun hc => hnot hc.1
  rw [hsame, ← hy, hta, Hub.testClips_ordered _ hordered]
  refine List.mem_map.mpr ⟨y, hmem, ?_⟩
  rw [hmark]
  refine if_neg fun hd => hnot ((Clip.due_iff y).mp hd).1

end

/-! ### The notice of a commit (R35) -/

/-- The kinds of notice in the order of their codes (Table 66). -/
def noticeKinds : List NoticeKind :=
  [.refState, .serialWrap, .tcJump, .dayWrap, .streamState, .unsentLost, .ringHalf, .ringWrap, .memoryError, .inputState,
    .pictureDrop, .audioOverload, .pathChange, .pathState, .gaugeDone, .budgetChange, .starved, .clipClosed, .clipLapsed,
    .triggerFired, .supplyWarn, .portAbsent, .portPresent]

theorem noticeKinds_code (k : NoticeKind) : noticeKinds[k.code]? = some k := by cases k <;> rfl

theorem NoticeKind.code_injective {j k : NoticeKind} (he : j.code = k.code) : j = k := by
  have hj := noticeKinds_code j
  rw [he, noticeKinds_code k] at hj
  exact (Option.some.inj hj).symm

/-- A notice of a kind to every port, given from one hub to another under a condition. -/
def Hub.GivesAll (kind : NoticeKind) (param : Nat) (given : Prop) (g h : Hub) : Prop :=
  ∀ p : Fin 4,
    ((h.notices[p]).summary.getLsbD kind.code = true ↔ (g.notices[p]).summary.getLsbD kind.code = true ∨ given) ∧
    (given → (g.notices[p]).mask.getLsbD kind.code = true → (g.notices[p]).queue.length < 32 →
      { kind := kind, param := BitVec.ofNat 32 param, serial := g.tb.frame.serial } ∈ (h.notices[p]).queue)

section
variable {kind : NoticeKind} {param : Nat} {given : Prop} {a g h : Hub}

theorem Hub.GivesAll.silent {kinds : List NoticeKind} (hh : Hub.Heard kinds g h) (hk : kind ∉ kinds) (hg : ¬ given) :
    Hub.GivesAll kind param given g h := fun p => by
  have hne : ∀ x ∈ kinds, x.code ≠ kind.code := fun x hx he => hk (NoticeKind.code_injective he ▸ hx)
  rw [hh.summary_eq p kind.code_lt hne]
  exact ⟨(or_iff_left hg).symm, fun hc => absurd hc hg⟩

theorem Hub.GivesAll.told (h : Hub) (hg : given) (hw : kind ≠ .supplyWarn)
    (ha : ∀ p, h.audience { kind := kind, param := BitVec.ofNat 32 param, serial := h.tb.frame.serial } p = true) :
    Hub.GivesAll kind param given h (h.notify kind param) := fun p => by
  refine ⟨⟨fun _ => .inr hg, fun _ => h.notify_summary param (ha p)⟩, fun _ hm hq => ?_⟩
  rw [h.notify_queue param hw (ha p) hm hq]
  exact List.mem_append_right _ (List.mem_singleton.mpr rfl)

theorem Hub.GivesAll.after {kinds : List NoticeKind} (hg : Hub.GivesAll kind param given a g) (hh : Hub.Heard kinds g h)
    (hk : kind ∉ kinds) (hs : NoticeKind.supplyWarn ∉ kinds) : Hub.GivesAll kind param given a h := fun p => by
  obtain ⟨hsum, htold⟩ := hg p
  have hne : ∀ x ∈ kinds, x.code ≠ kind.code := fun x hx he => hk (NoticeKind.code_injective he ▸ hx)
  rw [hh.summary_eq p kind.code_lt hne]
  exact ⟨hsum, fun hc hm hq => (hh.queue_prefix p hs).subset (htold hc hm hq)⟩

end

section
variable (h : Hub) (r : Fin 17) (start len : Nat)

theorem Hub.ringNotices_half : Hub.GivesAll .ringHalf r.val
    (start < (h.ring r).sectors / 2 ∧ (h.ring r).sectors / 2 < start + len) h (h.ringNotices r start len) := by
  unfold Hub.ringNotices
  dsimp only
  by_cases hhalf : start < (h.ring r).sectors / 2 ∧ (h.ring r).sectors / 2 < start + len
  · rw [if_pos hhalf]
    exact .told h hhalf nofun fun _ => rfl
  · rw [if_neg hhalf]
    exact .silent (kinds := [.ringWrap]) (.ite (h.notify_heard (by decide) _) (.refl _ h)) (by decide) hhalf

theorem Hub.ringNotices_wrap : Hub.GivesAll .ringWrap r.val
    (¬ (start < (h.ring r).sectors / 2 ∧ (h.ring r).sectors / 2 < start + len) ∧ (h.ring r).sectors ≤ start + len) h
    (h.ringNotices r start len) := by
  unfold Hub.ringNotices
  dsimp only
  by_cases hhalf : start < (h.ring r).sectors / 2 ∧ (h.ring r).sectors / 2 < start + len
  · rw [if_pos hhalf]
    exact .silent (kinds := [.ringHalf]) (h.notify_heard (by decide) _) (by decide) fun hc => hc.1 hhalf
  · rw [if_neg hhalf]
    by_cases hwrap : (h.ring r).sectors ≤ start + len
    · rw [if_pos hwrap]
      exact .told h ⟨hhalf, hwrap⟩ nofun fun _ => rfl
    · rw [if_neg hwrap]
      exact .silent (.refl [] h) (by decide) fun hc => hwrap hc.2

end

section
variable {h t : Hub} {o : Offer} (hj : h.judge o = h.commit o) (ht : t = (h.offer o).1)
include hj ht

theorem Hub.offer_settled : t = (h.written o).settled (h.boundRing o.stream) (h.ring (h.boundRing o.stream)).headOff o
    (h.nextUnit o.stream) := by rw [ht, h.offer_settles o hj]

theorem Hub.offer_commits (hl : sectorsOf o.payload.length ≤ (h.ring (h.boundRing o.stream)).sectors) : h.Commits t o := by
  have honly : Hub.OnlyChanges [.log, .notices] (h.commit o).1 t := by
    rw [ht, Hub.offer_eq, hj]
    exact Hub.testClips_only _ _ _
  obtain ⟨⟨n, w, hring, hfits⟩, hown, hcommitted, hdiscarded, hmem⟩ := h.commit_commits (o := o) hl
  exact ⟨⟨n, w, by rw [honly.ring_eq (by decide), hring], hfits⟩, by rw [honly.ring_eq (by decide), hown],
    by rw [honly.stream_eq (by decide), hcommitted], by rw [honly.stream_eq (by decide), hdiscarded],
    (honly .memory (by decide)).symm.trans hmem⟩

/-- R35: the notice of a commit, told where no unit leaves. -/
theorem Hub.offer_rings {kind : NoticeKind} (hk : kind = .ringHalf ∨ kind = .ringWrap) {given : Prop}
    (hg : ∀ g : Hub, (g.ring (h.boundRing o.stream)).sectors = (h.ring (h.boundRing o.stream)).sectors →
      Hub.GivesAll kind (h.boundRing o.stream).val given g
        (g.ringNotices (h.boundRing o.stream) (h.ring (h.boundRing o.stream)).headOff (sectorsOf o.payload.length))) :
    (∀ p : Fin 4, (t.notices[p]).summary.getLsbD kind.code = true ↔ (h.notices[p]).summary.getLsbD kind.code = true ∨ given) ∧
      (h.roomed o = h → Hub.GivesAll kind (h.boundRing o.stream).val given h t) := by
  have hroom : Hub.Heard [.unsentLost, .clipLapsed] h (h.roomed o) := Hub.makeRoom_heard _ _ _ h
  have hwrite : Hub.OnlyChanges [.streams, .rings, .memory] (h.roomed o) (h.written o) := Hub.writeUnit_only _ _ _ _ _
  have hsect : ((h.written o).ring (h.boundRing o.stream)).sectors = (h.ring (h.boundRing o.stream)).sectors := by
    obtain ⟨l, w, hl⟩ := h.roomed_ring o (h.boundRing o.stream)
    rw [Hub.written, Hub.writeUnit_ring_self, hl]
    rfl
  have hin : kind ∉ [NoticeKind.unsentLost, .clipLapsed] := by rcases hk with rfl | rfl <;> decide
  have hout : kind ∉ [NoticeKind.clipClosed] := by rcases hk with rfl | rfl <;> decide
  have hend : Hub.GivesAll kind (h.boundRing o.stream).val given (h.written o) t := by
    rw [Hub.offer_settled hj ht]
    exact (hg _ hsect).after (((Hub.mapClips_heard _ _).trans (Hub.mapClips_heard _ _)).trans (Hub.testClips_heard _ _ _))
      hout (by decide)
  refine ⟨fun p => ?_, fun heq p => ?_⟩
  · have hne : ∀ x ∈ [NoticeKind.unsentLost, .clipLapsed], x.code ≠ kind.code := fun x hx he =>
      hin (NoticeKind.code_injective he ▸ hx)
    have hsame : (h.written o).notices = (h.roomed o).notices := (hwrite .notices (by decide)).symm
    rw [(hend p).1, hsame, hroom.summary_eq p kind.code_lt hne]
  · have hsame : (h.written o).notices = h.notices := (hwrite .notices (by decide)).symm.trans (by rw [heq])
    have htb : (h.written o).tb = h.tb := (hwrite .timebase (by decide)).symm.trans (by rw [heq])
    have hp := hend p
    rw [hsame, htb] at hp
    exact hp

end

/-! ### A commit that takes one unit's place, and a commit that takes none -/

section
variable {h t : Hub} {o : Offer} (hj : h.judge o = h.commit o) (ht : t = (h.offer o).1)
include hj ht

/-- What the write and all that follows it leave. -/
theorem Hub.offer_room : (t.ring (h.boundRing o.stream)).send = ((h.roomed o).ring (h.boundRing o.stream)).send ∧
    t.paths.sends = (h.roomed o).paths.sends ∧ (∀ j, (t.stream j).lost = ((h.roomed o).stream j).lost) ∧
    (∀ j, (t.stream j).releaseMark = ((h.roomed o).stream j).releaseMark) ∧
    Hub.Heard [.ringHalf, .ringWrap, .clipClosed] (h.roomed o) t := by
  have honly := Hub.settled_only (Hub.offer_settled hj ht)
  have hwrite : Hub.OnlyChanges [.streams, .rings, .memory] (h.roomed o) (h.written o) := Hub.writeUnit_only _ _ _ _ _
  have hstream : ∀ j, (t.stream j).lost = ((h.roomed o).stream j).lost ∧
      (t.stream j).releaseMark = ((h.roomed o).stream j).releaseMark := fun j => by
    rw [honly.stream_eq (by decide), Hub.written, Hub.writeUnit_stream]
    split <;> exact ⟨rfl, rfl⟩
  refine ⟨?_, ?_, fun j => (hstream j).1, fun j => (hstream j).2, ?_⟩
  · rw [honly.ring_eq (by decide), Hub.written, Hub.writeUnit_ring_self]
  · exact ((honly .sending (by decide)).1.symm).trans (hwrite .sending (by decide)).1.symm
  · refine (hwrite.heard (by decide)).trans ?_
    rw [Hub.offer_settled hj ht]
    exact ((Hub.ringNotices_heard _ _ _ _).mono (by decide)).trans (((Hub.mapClips_heard _ _).trans
      (Hub.mapClips_heard _ _)).trans ((Hub.testClips_heard _ _ _).mono (by decide)))

omit hj ht in
theorem Hub.offer_ordered (ho : h.ClipsOrdered) : (h.written o).ClipsOrdered := by
  have hwrite : (h.roomed o).log = (h.written o).log := (Hub.writeUnit_only _ _ _ _ _) .log (by decide)
  unfold Hub.ClipsOrdered
  rw [← hwrite]
  exact (Hub.makeRoom_evolves (strict := True) _ _ _ h).clipsOrdered ho

/-- R136, R141: where no unit leaves, no clip lapses, and an OPEN clip is spanned and measured. -/
theorem Hub.offer_spans (hr : h.roomed o = h) (ho : h.ClipsOrdered) :
    t.log.lapses = h.log.lapses ∧ ∀ x ∈ h.log.clips, x.state = .opened →
      t.measured (h.boundRing o.stream) (x.spanning o.stream (h.nextUnit o.stream) o.frame.serial) ∈ t.log.clips := by
  have hwrite : (h.written o).log = h.log := by
    have hroom : (h.roomed o).log = (h.written o).log := (Hub.writeUnit_only _ _ _ _ _) .log (by decide)
    rw [← hroom, hr]
  have heq := Hub.offer_settled hj ht
  refine ⟨by rw [Hub.settled_lapses heq, hwrite], fun x hx hs => ?_⟩
  exact Hub.settled_clip heq (Hub.offer_ordered ho) (by rw [hwrite]; exact hx) (by rw [hs]; nofun)

section
variable {y : Entry} {rest : List Entry} (hi : (h.ring (h.boundRing o.stream)).index = y :: rest)
  (hr : h.roomed o = h.removeTail (h.boundRing o.stream) y)
include hi hr

/-- R32, R33, R37: where one unit leaves, the rest of the commit adds nothing to what that takes along. -/
theorem Hub.offer_tail : Hub.TailLeft (h.boundRing o.stream) y rest h t ∧
    ∀ p : Fin 4, ((h.lapseTail (h.boundRing o.stream) y).notices[p]).summary.getLsbD 18 = true →
      (t.notices[p]).summary.getLsbD 18 = true := by
  obtain ⟨⟨hsent, hpassed, hlost, htold, hsilent, hmarks⟩, -, hheard⟩ := Hub.removeTail_leaves (h := h)
    (r := h.boundRing o.stream) (y := y) (rest := rest) rfl hi
  obtain ⟨hsend, hsends, hlost', hmarks', hheard'⟩ := Hub.offer_room hj ht
  rw [hr] at hsend hsends hlost' hmarks' hheard'
  refine ⟨?_, fun p hp => hheard'.summary_mono p (by decide) (hheard p hp)⟩
  constructor
  case sent => exact fun hn => hsend.trans (hsent hn)
  case passed =>
    intro hs
    rw [hsend, hsends]
    exact hpassed hs
  case lost => exact fun j => (hlost' j).trans (hlost j)
  case told => exact fun hs hq p => hheard'.summary_mono p (by decide) (htold hs hq p)
  case silent => exact fun hc p => (hheard'.summary_eq p (by decide) (by decide)).trans (hsilent hc p)
  case marks => exact fun j => (hmarks' j).trans (hmarks j)

/-- R142: the clips that retained the unit lapse. -/
theorem Hub.offer_lapses (ho : h.ClipsOrdered) (hb : h.boundRing y.stream = h.boundRing o.stream) :
    t.log.lapses = h.log.lapses + BitVec.ofNat 32 (h.log.clips.filter fun c => h.retains c y.stream y.unit).length ∧
      ∀ x ∈ h.log.clips, h.retains x y.stream y.unit = true → x.lapsed ∈ t.log.clips ∧
        ∀ p : Fin 4, h.hasClass p .log = true → (t.notices[p]).summary.getLsbD 18 = true := by
  obtain ⟨-, hlog, -⟩ := Hub.removeTail_leaves (h := h) (r := h.boundRing o.stream) (y := y) (rest := rest) rfl hi
  have htail : h.lapseTail (h.boundRing o.stream) y = Hub.lapseRetainers y.stream y.unit h.log.clips.length h := if_pos hb
  obtain ⟨hclips, hlapses⟩ := Hub.lapseRetainers_lapses y.stream y.unit h.log.clips.length h ho.nodup
    (List.length_filter_le _ _)
  have hwrite : (h.written o).log = (h.lapseTail (h.boundRing o.stream) y).log := by
    have hroom : (h.roomed o).log = (h.written o).log := (Hub.writeUnit_only _ _ _ _ _) .log (by decide)
    rw [← hroom, hr, hlog]
  rw [htail] at hwrite
  have heq := Hub.offer_settled hj ht
  refine ⟨by rw [Hub.settled_lapses heq, hwrite, hlapses], fun x hx hret => ⟨?_, fun p hp => ?_⟩⟩
  · have hmem : x.lapsed ∈ (h.written o).log.clips := by
      rw [hwrite, hclips]
      exact List.mem_map.mpr ⟨x, hx, if_pos hret⟩
    have hkeeps := Hub.settled_clip heq (Hub.offer_ordered ho) hmem nofun
    have hspan : x.lapsed.spanning o.stream (h.nextUnit o.stream) o.frame.serial = x.lapsed :=
      if_neg fun hc => absurd hc.1 nofun
    have hmeasure : t.measured (h.boundRing o.stream) x.lapsed = x.lapsed := if_neg fun hc => absurd hc.1 nofun
    rwa [hspan, hmeasure] at hkeeps
  · refine (Hub.offer_tail hj ht hi hr).2 p ?_
    rw [htail]
    exact h.lapseRetainers_summary y.stream y.unit (List.ne_nil_of_mem (List.mem_filter.mpr ⟨hx, hret⟩))
      (List.length_pos_of_mem hx).ne' hp

end

end

end Sys2Proof.Machine
end

section
/-! Proofs: the final INSERT, and what a completed unit makes of the hub (R29, R32, R34, R40). -/

namespace Sys2Proof.Machine

-- In order, so that the package in one text stays within the memory of its check.
set_option Elab.async false

/-! ### The final INSERT (R40) -/

section
variable (h : Hub) (k : Fin 16) (data : Bytes)

/-- The hub from whose stream the insert buffer has been taken. -/
def Hub.bufferTaken : Hub := h.modStream k fun st => { st with buffer := [], builder := none }

/-- The unit that a final INSERT completes. -/
def Hub.builtUnit : Offer :=
  { stream := k, payload := (h.stream k).buffer ++ data, frame := h.tb.frame, flags := {}, producer := [] }

/-- What the offer of a completed unit leaves, before the answer. -/
def Hub.inserted : Hub := ((h.bufferTaken k).offer (h.builtUnit k data)).1

theorem Hub.bufferTaken_self : (h.bufferTaken k).stream k = { h.stream k with buffer := [], builder := none } :=
  Hub.modStream_self h k _

theorem Hub.bufferTaken_counts (j : Fin 16) : ((h.bufferTaken k).stream j).global = (h.stream j).global ∧
    ((h.bufferTaken k).stream j).lost = (h.stream j).lost ∧
    ((h.bufferTaken k).stream j).releaseMark = (h.stream j).releaseMark := by
  unfold Hub.bufferTaken
  by_cases hj : j = k
  · subst hj
    rw [Hub.modStream_self]
    exact ⟨rfl, rfl, rfl⟩
  · rw [Hub.modStream_ne _ _ hj]
    exact ⟨rfl, rfl, rfl⟩

theorem Hub.bufferTaken_bound (j : Fin 16) : (h.bufferTaken k).boundRing j = h.boundRing j := by
  unfold Hub.boundRing
  rw [(h.bufferTaken_counts k j).1]

theorem Hub.bufferTaken_retains (x : Clip) (j : Fin 16) (u : Word) : (h.bufferTaken k).retains x j u = h.retains x j u := by
  refine Hub.retains_congr (g := h) (h := h.bufferTaken k) rfl ?_ x u
  unfold Hub.unitBase
  rw [(h.bufferTaken_counts k j).1]
  rfl

theorem Hub.insert_final {p : Fin 4} (hk : 13 ≤ k.val) (h0 : data.length ≠ 0) (h4 : data.length ≤ 4096)
    (hl : (h.stream k).buffer.length + data.length ≤ 65536) (hs : (h.stream k).state = .opened ∨ (h.stream k).state = .held)
    (hb : (h.stream k).buffer = [] ∨ (h.stream k).builder = some p) :
    h.insert p (byte k.val) data true =
      (h.inserted k data, .done ((h.bufferTaken k).offer (h.builtUnit k data)).2.report) :=
  (Hub.insert_taken p k hk h0 h4 hs hb).trans ((if_neg (Nat.not_lt.mpr hl)).trans rfl)

theorem Hub.inserted_only : Hub.OnlyChanges [.streams, .rings, .memory, .sending, .log, .notices] h (h.inserted k data) :=
  ((Hub.modStream_only h k _).mono (by decide)).trans (Hub.offer_only _ _)

/-- R29: held with DISCARD, the unit takes no number. -/
theorem Hub.inserted_discards (hs : (h.stream k).state = .held) (hd : (h.stream k).discard = true) :
    ((h.bufferTaken k).offer (h.builtUnit k data)).2.report = zeros 10 ∧
      (h.inserted k data).stream k =
        { h.stream k with buffer := [], builder := none, discarded := (h.stream k).discarded + 1 } ∧
      Hub.OnlyChanges [.streams, .log, .notices] h (h.inserted k data) := by
  have hself := h.bufferTaken_self k
  have hj := (h.bufferTaken k).judge_discards (o := h.builtUnit k data)
    (by change ((h.bufferTaken k).stream k).state ≠ _; rw [hself, hs]; nofun)
    (by change ((h.bufferTaken k).stream k).holding = true ∧ ((h.bufferTaken k).stream k).discard = true
        rw [hself]
        exact ⟨by unfold Stream.holding; rw [hs]; rfl, hd⟩)
  unfold Hub.inserted
  rw [Hub.offer_eq, hj]
  have htest := Hub.testClips_only ((h.bufferTaken k).countDiscard k) k (some h.tb.frame.serial)
  refine ⟨rfl, ?_, ?_⟩
  · refine (htest.stream_eq (by decide) k).trans ?_
    unfold Hub.countDiscard
    rw [Hub.modStream_self, hself]
  · exact ((Hub.modStream_only h k _).mono (by decide)).trans (((Hub.modStream_only _ k _).mono (by decide)).trans
      (htest.mono (by decide)))

theorem Hub.builtUnit_commits
    (hs : (h.stream k).state = .opened ∨ ((h.stream k).state = .held ∧ (h.stream k).discard = false))
    (hl : sectorsOf (h.builtUnit k data).payload.length ≤ (h.ring (h.boundRing k)).sectors / 2) :
    (h.bufferTaken k).judge (h.builtUnit k data) = (h.bufferTaken k).commit (h.builtUnit k data) := by
  have hself : (h.bufferTaken k).stream (h.builtUnit k data).stream = { h.stream k with buffer := [], builder := none } :=
    h.bufferTaken_self k
  have hbound : (h.bufferTaken k).boundRing (h.builtUnit k data).stream = h.boundRing k := h.bufferTaken_bound k k
  refine Hub.judge_commits ?_ ?_ ?_ (fun hc => absurd hc.1 nofun)
  · rw [hself]
    rcases hs with ho | ⟨hh, -⟩
    · rw [ho]
      nofun
    · rw [hh]
      nofun
  · rw [hself]
    unfold Stream.holding
    rcases hs with ho | ⟨-, hd⟩
    · rw [ho]
      exact fun hc => absurd hc.1 nofun
    · rw [hd]
      exact fun hc => absurd hc.2 nofun
  · rw [hbound]
    exact hl

end

/-! ### What a committed INSERT leaves, told of the hub before it -/

section
variable {h t : Hub} {k : Fin 16} {data : Bytes}
  (hj : (h.bufferTaken k).judge (h.builtUnit k data) = (h.bufferTaken k).commit (h.builtUnit k data))
  (ht : t = h.inserted k data)
include hj ht

theorem Hub.inserted_ring (hl : sectorsOf (h.builtUnit k data).payload.length ≤ (h.ring (h.boundRing k)).sectors) :
    (h.bufferTaken k).Commits t (h.builtUnit k data) := by
  refine Hub.offer_commits hj ht ?_
  have hbound : (h.bufferTaken k).boundRing (h.builtUnit k data).stream = h.boundRing k := h.bufferTaken_bound k k
  rw [hbound]
  exact hl

omit hj in
theorem Hub.inserted_stream : (t.stream k).state = (h.stream k).state ∧ (t.stream k).buffer = [] ∧
    (t.stream k).builder = none := by
  have hstand := ((h.bufferTaken k).offer_stands (S := fun _ => True) (o := h.builtUnit k data) trivial k).1
  obtain ⟨hstate, -, -, -, -, hbuffer, hbuilder⟩ := Stream.standing_eq hstand
  rw [h.bufferTaken_self] at hstate hbuffer hbuilder
  rw [ht]
  exact ⟨hstate, hbuffer, hbuilder⟩

/-- R32, R33, R37: where one unit leaves. -/
theorem Hub.inserted_tail {y : Entry} {rest : List Entry} (hi : (h.ring (h.boundRing k)).index = y :: rest)
    (hn : ¬ (h.ring (h.boundRing k)).RoomBehind (sectorsOf (h.builtUnit k data).payload.length) (y :: rest))
    (hf : (h.ring (h.boundRing k)).RoomBehind (sectorsOf (h.builtUnit k data).payload.length) rest) :
    Hub.TailLeft (h.boundRing k) y rest h t ∧
      (h.ClipsOrdered → h.boundRing y.stream = h.boundRing k →
        t.log.lapses = h.log.lapses + BitVec.ofNat 32 (h.log.clips.filter fun c => h.retains c y.stream y.unit).length ∧
        ∀ x ∈ h.log.clips, h.retains x y.stream y.unit = true → x.lapsed ∈ t.log.clips ∧
          ∀ p : Fin 4, h.hasClass p .log = true → (t.notices[p]).summary.getLsbD 18 = true) := by
  have hbound : (h.bufferTaken k).boundRing (h.builtUnit k data).stream = h.boundRing k := h.bufferTaken_bound k k
  have hroom := (h.bufferTaken k).roomed_one (h.builtUnit k data) (y := y) (rest := rest) (by rw [hbound]; exact hi)
    (by rw [hbound]; exact hn) (by rw [hbound]; exact hf)
  obtain ⟨hleft, -⟩ := Hub.offer_tail hj ht (by rw [hbound]; exact hi) hroom
  have hlapse := Hub.offer_lapses hj ht (by rw [hbound]; exact hi) hroom
  rw [hbound] at hleft hlapse
  obtain ⟨hsent, hpassed, hlost, htold, hsilent, hmarks⟩ := hleft
  refine ⟨⟨hsent, hpassed, fun j => ?_, htold, hsilent, fun j => ?_⟩, fun ho hb => ?_⟩
  · rw [hlost j, (h.bufferTaken_counts k j).2.1]
    rfl
  · rw [hmarks j, (h.bufferTaken_counts k j).2.2]
    rfl
  · have h2 := hlapse ho (by rw [h.bufferTaken_bound, hb])
    simp only [h.bufferTaken_retains k] at h2
    exact h2

/-- R136, R141: where no unit leaves. -/
theorem Hub.inserted_spans (hf : (h.ring (h.boundRing k)).RoomBehind (sectorsOf (h.builtUnit k data).payload.length)
    (h.ring (h.boundRing k)).index) (ho : h.ClipsOrdered) :
    t.log.lapses = h.log.lapses ∧ ∀ x ∈ h.log.clips, x.state = .opened →
      t.measured (h.boundRing k) (x.spanning k (h.nextUnit k) h.tb.frame.serial) ∈ t.log.clips := by
  have hbound : (h.bufferTaken k).boundRing (h.builtUnit k data).stream = h.boundRing k := h.bufferTaken_bound k k
  have hspans := Hub.offer_spans hj ht ((h.bufferTaken k).roomed_fits (h.builtUnit k data) (by rw [hbound]; exact hf)) ho
  rw [hbound] at hspans
  exact hspans

/-- R35: the notice of the commit. -/
theorem Hub.inserted_rings {kind : NoticeKind} (hk : kind = .ringHalf ∨ kind = .ringWrap) {given : Prop}
    (hg : ∀ g : Hub, (g.ring (h.boundRing k)).sectors = (h.ring (h.boundRing k)).sectors →
      Hub.GivesAll kind (h.boundRing k).val given g
        (g.ringNotices (h.boundRing k) (h.ring (h.boundRing k)).headOff (sectorsOf (h.builtUnit k data).payload.length))) :
    (∀ p : Fin 4, (t.notices[p]).summary.getLsbD kind.code = true ↔ (h.notices[p]).summary.getLsbD kind.code = true ∨ given) ∧
      ((h.ring (h.boundRing k)).RoomBehind (sectorsOf (h.builtUnit k data).payload.length) (h.ring (h.boundRing k)).index →
        Hub.GivesAll kind (h.boundRing k).val given h t) := by
  have hbound : (h.bufferTaken k).boundRing (h.builtUnit k data).stream = h.boundRing k := h.bufferTaken_bound k k
  have hrings := Hub.offer_rings hj ht hk (given := given) (by rw [hbound]; exact hg)
  rw [hbound] at hrings
  exact ⟨hrings.1, fun hf => hrings.2 ((h.bufferTaken k).roomed_fits (h.builtUnit k data) (by rw [hbound]; exact hf))⟩

end

/-! ### What the answered INSERT leaves, told of the hub before the command -/

section
variable (h : Hub) (k : Fin 16)

/-- The number by which the bound ring of a stream orders an entry. -/
theorem Hub.key_bound (e : Entry) : e.key (h.boundRing k) = if (h.stream k).global then e.g.getD 0 else e.unit := by
  unfold Entry.key
  rcases h.boundRing_cases k with ⟨hg, hr⟩ | ⟨hg, hr⟩
  · rw [hr, hg, if_pos rfl, if_pos rfl]
  · rw [hr, hg, if_neg (ownRing_ne_ringG k)]
    rfl

theorem Hub.bound_global : h.boundRing k = 16 ↔ (h.stream k).global = true := by
  rcases h.boundRing_cases k with ⟨hg, hr⟩ | ⟨hg, hr⟩
  · rw [hr, hg]
    exact ⟨fun _ => rfl, fun _ => rfl⟩
  · rw [hr, hg]
    exact ⟨fun hc => absurd hc (ownRing_ne_ringG k), nofun⟩

/-- The index entry of a completed unit (R34). -/
def Hub.builtEntry (data : Bytes) : Entry :=
  { stream := k, unit := (h.ring k.castSucc).head, g := if (h.stream k).global then some (h.ring 16).head else none,
    start := (h.ring (h.boundRing k)).headOff, len := sectorsOf (h.builtUnit k data).payload.length,
    payload := (h.builtUnit k data).payload.length, serial := h.tb.frame.serial, tc := h.tb.frame.tc,
    flags := { tcJump := h.tb.frame.jump } }

theorem Hub.bufferTaken_nextG : (h.bufferTaken k).nextG k = if (h.stream k).global then some (h.ring 16).head else none := by
  have hbound : (h.bufferTaken k).nextG k = if h.boundRing k = 16 then some (h.ring 16).head else none := by
    unfold Hub.nextG
    rw [h.bufferTaken_bound k]
    rfl
  rw [hbound]
  exact if_congr (h.bound_global k) rfl rfl

theorem Hub.builtEntry_eq (data : Bytes) : (h.bufferTaken k).committedEntry (h.builtUnit k data) = h.builtEntry k data := by
  have hbound : (h.bufferTaken k).boundRing (h.builtUnit k data).stream = h.boundRing k := h.bufferTaken_bound k k
  have hg : (h.bufferTaken k).nextG (h.builtUnit k data).stream = _ := h.bufferTaken_nextG k
  unfold Hub.committedEntry Hub.newEntry
  rw [hbound, hg]
  rfl

end

/-- A clip that is OPEN, with no end yet, is spanned by each commit of its streams from its start on (R136). -/
theorem Clip.spanning_opened {x : Clip} (hs : x.state = .opened) (he : x.endSerial = none) (k : Fin 16) (u w : Word) :
    x.spanning k u w =
      if x.mask.getLsbD k.val = true ∧ (w - x.startSerial).toNat < 2147483648 then
        { x with starts := x.starts.set k (some (x.starts[k].getD u)), running := x.running.set k (some u) }
      else x := by
  refine if_congr ?_ rfl rfl
  unfold Clip.active Clip.spans Clip.covers atOrAfter
  rw [hs, he]
  simp

section
variable {h u t : Hub} {e : Env} {k : Fin 16} {data : Bytes} {r : Fin 17} {len : Nat}
  (hj : ((h.arrive e).bufferTaken k).judge (h.builtUnit k data) = ((h.arrive e).bufferTaken k).commit (h.builtUnit k data))
  (hu : u = (h.arrive e).inserted k data) (ha : Hub.OnlyChanges [.ports] u t) (hr : h.boundRing k = r)
  (hlen : sectorsOf (h.builtUnit k data).payload.length = len)
include hu ha

theorem Hub.answered_stream : (t.stream k).state = (h.stream k).state ∧ (t.stream k).buffer = [] ∧
    (t.stream k).builder = none := by
  rw [ha.stream_eq (by decide)]
  exact Hub.inserted_stream (h := h.arrive e) hu

include hj hr hlen

/-- R32, R34: the bound ring and the counts. -/
theorem Hub.answered_ring (hl : len ≤ (h.ring r).sectors) :
    (∃ n w, t.ring r = { h.ring r with
        index := (h.ring r).index.drop n ++ [h.builtEntry k data]
        headOff := ((h.ring r).headOff + len) % (h.ring r).sectors
        head := (h.ring r).head + 1
        send := w } ∧
      (h.ring r).RoomBehind len ((h.ring r).index.drop n) ∧
      ∀ m, m < n → ¬ (h.ring r).RoomBehind len ((h.ring r).index.drop m)) ∧
    (t.ring k.castSucc).head = (h.ring k.castSucc).head + 1 ∧ (t.stream k).committed = (h.stream k).committed + 1 := by
  subst hr hlen
  obtain ⟨hring, hown, hcommitted, -, -⟩ := Hub.inserted_ring hj hu hl
  have hbound : ((h.arrive e).bufferTaken k).boundRing ((h.arrive e).builtUnit k data).stream = h.boundRing k :=
    (h.arrive e).bufferTaken_bound k k
  have hself := (h.arrive e).bufferTaken_self k
  have hentry := (h.arrive e).builtEntry_eq k data
  rw [hbound, hentry] at hring
  refine ⟨?_, ?_, ?_⟩
  · rw [ha.ring_eq (by decide)]
    exact hring
  · rw [ha.ring_eq (by decide)]
    exact hown
  · rw [ha.stream_eq (by decide)]
    refine hcommitted.trans ?_
    change (((h.arrive e).bufferTaken k).stream k).committed + 1 = _
    rw [hself]
    rfl

/-- R34: the bytes of the unit. -/
theorem Hub.answered_memory (hl : len ≤ (h.ring r).sectors) (hoff : (h.ring r).headOff < (h.ring r).sectors) :
    (∀ a, (h.ring r).Outside (h.ring r).headOff len a → Memory.read t.store.mem a = Memory.read h.store.mem a) ∧
      (h.MemoryOk → t.Stores r (h.builtEntry k data) h.tb.frame.phase [] (h.builtUnit k data).payload) := by
  obtain ⟨⟨n, w, hring, -, -⟩, -, -⟩ := Hub.answered_ring hj hu ha hr hlen hl
  subst hr hlen
  have hcommits := Hub.inserted_ring hj hu hl
  have hbound : ((h.arrive e).bufferTaken k).boundRing ((h.arrive e).builtUnit k data).stream = h.boundRing k :=
    (h.arrive e).bufferTaken_bound k k
  have hentry := (h.arrive e).builtEntry_eq k data
  have honly : Hub.OnlyChanges [.streams, .rings, .memory, .sending, .log, .ports, .notices] h t := by
    have hinserted := (h.arrive e).inserted_only k data
    rw [← hu] at hinserted
    exact ((h.arrive_only e).mono (by decide)).trans ((hinserted.mono (by decide)).trans (ha.mono (by decide)))
  have hbytes : t.store.mem = u.store.mem := (ha .memory (by decide)).symm
  refine ⟨fun a hout => ?_, fun hm => ?_⟩
  · rw [hbytes, hcommits.mem, hbound]
    exact Ring.read_writeBytes_outside _ _ hoff hl (Hub.unitImage_length _ _ _ _) hout
  · have hstores := hcommits.stores (u := t) hm (by rw [hbound]; exact hoff) (by rw [hbound]; exact hl) (Nat.zero_le _)
      (by rw [hbound, hring]; rfl) (by rw [hbound, hring]; rfl) (by rw [hbytes])
      (by rw [← honly .strap (by decide)]; rfl) (by rw [← honly .timebase (by decide)]; rfl)
    rw [hbound, hentry] at hstores
    exact hstores

/-- R35: the notice of the commit. -/
theorem Hub.answered_rings {kind : NoticeKind} (hk : kind = .ringHalf ∨ kind = .ringWrap) {given : Prop}
    (hg : ∀ g : Hub, (g.ring r).sectors = (h.ring r).sectors →
      Hub.GivesAll kind r.val given g (g.ringNotices r (h.ring r).headOff len)) :
    (∀ p : Fin 4, (t.notices[p]).summary.getLsbD kind.code = true ↔ (h.notices[p]).summary.getLsbD kind.code = true ∨ given) ∧
      ((h.ring r).RoomBehind len (h.ring r).index → Hub.GivesAll kind r.val given h t) := by
  subst hr hlen
  obtain ⟨hsum, htold⟩ := Hub.inserted_rings hj hu hk hg
  have hsame : u.notices = t.notices := ha .notices (by decide)
  rw [hsame] at hsum
  refine ⟨hsum, fun hf p => ?_⟩
  have hp := htold hf p
  rw [hsame] at hp
  exact hp

/-- R32, R33, R37, R142: where one unit leaves. -/
theorem Hub.answered_tail {y : Entry} {rest : List Entry} (hi : (h.ring r).index = y :: rest)
    (hn : ¬ (h.ring r).RoomBehind len (y :: rest)) (hf : (h.ring r).RoomBehind len rest) :
    Hub.TailLeft r y rest h t ∧
      (h.ClipsOrdered → h.boundRing y.stream = r →
        t.log.lapses = h.log.lapses + BitVec.ofNat 32 (h.log.clips.filter fun c => h.retains c y.stream y.unit).length ∧
        ∀ x ∈ h.log.clips, h.retains x y.stream y.unit = true → x.lapsed ∈ t.log.clips ∧
          ∀ p : Fin 4, h.hasClass p .log = true → (t.notices[p]).summary.getLsbD 18 = true) := by
  subst hr hlen
  obtain ⟨⟨hsent, hpassed, hlost, htold, hsilent, hmarks⟩, hlapses⟩ := Hub.inserted_tail hj hu hi hn hf
  have hring := ha.ring_eq (by decide) (h.boundRing k)
  have hstream := ha.stream_eq (by decide)
  have hnotices : u.notices = t.notices := ha .notices (by decide)
  have hlog : u.log = t.log := ha .log (by decide)
  have hsends : u.paths.sends = t.paths.sends := (ha .sending (by decide)).1
  rw [hlog, hnotices] at hlapses
  refine ⟨⟨fun hc => ?_, fun hc => ?_, fun j => ?_, fun hc hq p => ?_, fun hc p => ?_, fun j => ?_⟩, hlapses⟩
  · rw [hring]
    exact hsent hc
  · rw [hring, ← hsends]
    exact hpassed hc
  · rw [hstream]
    exact hlost j
  · rw [← hnotices]
    exact htold hc hq p
  · rw [← hnotices]
    exact hsilent hc p
  · rw [hstream]
    exact hmarks j

/-- R136, R141: where no unit leaves. -/
theorem Hub.answered_spans (hf : (h.ring r).RoomBehind len (h.ring r).index) (ho : h.ClipsOrdered) :
    t.log.lapses = h.log.lapses ∧ ∀ x ∈ h.log.clips, x.state = .opened →
      t.measured r (x.spanning k (h.ring k.castSucc).head h.tb.frame.serial) ∈ t.log.clips := by
  subst hr hlen
  have hspans := Hub.inserted_spans hj hu hf ho
  have hlog : u.log = t.log := ha .log (by decide)
  rw [hlog] at hspans
  refine ⟨hspans.1, fun x hx hs => ?_⟩
  rw [Hub.measured_stores (g := u) (ha.stream_eq (by decide)) (ha.ring_eq (by decide))]
  exact hspans.2 x hx hs

end

/-- Settles O21: held with DISCARD, and committed: the unit, its bytes, its notice, the room, and the clips. -/
theorem finalInsertCommits : Obligations.FinalInsertCommits := by
  intro c k data s hs hk h0 h4 hl hb x ring unit cmd old len fits number
  obtain ⟨u, hu⟩ : ∃ u, u = (s.hub.arrive c.env).inserted k data := ⟨_, rfl⟩
  obtain ⟨report, hreport⟩ : ∃ d, d = (((s.hub.arrive c.env).bufferTaken k).offer (s.hub.builtUnit k data)).2.report :=
    ⟨_, rfl⟩
  obtain ⟨t, ht⟩ : ∃ t, t = u.answer c 0x27 .done report := ⟨_, rfl⟩
  have hrun : x.state = .opened ∨ x.state = .held → exec cmd s = s.became t := fun hstate => by
    rw [ht, hu, hreport]
    exact hs.run_stream (Hub.insert_final (s.hub.arrive c.env) k data hk h0 h4 hl hstate hb) nofun
  have hanswer : Hub.OnlyChanges [.ports] u t := by
    rw [ht]
    exact u.answer_only c 0x27 _ _
  have hsending : (t.ports[c.port]).sending =
      some (false, { tag := c.tag, code := 0x27, outcome := .done, data := report }) := by
    rw [ht]
    exact Hub.answer_sending _ _ _ _ _
  have hanswered : ∀ parts : List Part, Part.ports ∈ parts → Hub.OnlyChanges parts (s.hub.arrive c.env) u →
      Hub.OnlyChanges parts s.hub t := fun parts hp ho => by
    rw [ht]
    exact .answered _ _ _ _ ho hp
  refine ⟨fun hheld hd => ?_, fun hstate hsize => ?_⟩
  · obtain ⟨hzero, hself, hsame⟩ := (s.hub.arrive c.env).inserted_discards k data hheld hd
    rw [← hu] at hself hsame
    exact ⟨_, hrun (.inr hheld), (hanswer.stream_eq (by decide) k).trans hself,
      hsending.trans (by rw [hreport, ← hzero]; rfl), hanswered _ (by decide) (hsame.mono (by decide))⟩
  have hlen : sectorsOf (s.hub.builtUnit k data).payload.length = len := by
    unfold Hub.builtUnit sectorsOf
    rw [List.length_append]
  have hsectors : old.sectors = 8 * old.size := Nat.mul_comm _ _
  have hfits : ∀ l, fits l ↔ old.RoomBehind len l := fun l => by
    unfold Ring.RoomBehind
    rw [hsectors]
  have hbuffer : x.buffer.length + data.length ≤ 65536 := hl
  have hhalf : len ≤ old.sectors / 2 := by
    change 512 ≤ old.sectors at hsize
    change (64 + (x.buffer.length + data.length) + 511) / 512 ≤ _
    omega
  have hfit : len ≤ old.sectors := hhalf.trans (Nat.div_le_self _ _)
  have hj := (s.hub.arrive c.env).builtUnit_commits k data hstate (hlen.trans_le hhalf)
  obtain ⟨⟨⟨n, w, hring, hroom, hmore⟩, hown, hcommitted⟩, hopen, htaken, hbuilder⟩ :=
    And.intro (Hub.answered_ring hj hu hanswer rfl hlen hfit) (Hub.answered_stream hu hanswer)
  have hthere : t.ring ring = { old with
      index := old.index.drop n ++ [s.hub.builtEntry k data]
      headOff := (old.headOff + len) % (8 * old.size)
      head := old.head + 1
      send := w } := by
    rw [← hsectors]
    exact hring
  have hkey : ∀ z : Entry, z.key ring = number z := s.hub.key_bound k
  refine ⟨_, s.hub.builtEntry k data, hrun (hstate.imp_right And.left), ?_, rfl, rfl, rfl, List.length_append, rfl, rfl, hown,
    congrArg Ring.head hthere, htaken, hbuilder, hcommitted, hopen, hsending.trans ?_, rfl, rfl, hlen, fun hoff =>
    Hub.answered_memory hj hu hanswer rfl hlen hfit (hoff.trans_eq hsectors.symm), ?_,
    ⟨n, ?_, (hfits _).mpr hroom, fun m hm => mt (hfits _).mp (hmore m hm)⟩, fun y rest hi hno hyes => ?_, fun hf ho => ?_, ?_⟩
  · exact (congrArg (fun z : Ring => z.index.getLast?) hthere).trans List.getLast?_concat
  · have hg := (s.hub.arrive c.env).bufferTaken_nextG k
    have hnumbers : report = 1 :: word4 unit ++ optField 4 word4 (s.hub.builtEntry k data).g := by
      rw [hreport]
      refine (congrArg (fun z => (Prod.snd z).report) (Hub.offer_settles _ _ hj)).trans ?_
      exact congrArg (fun g => 1 :: word4 unit ++ optField 4 word4 g) hg
    rw [hnumbers]
  · intro m half wrap gives
    have hgives : ∀ {kind : NoticeKind}, kind = .ringHalf ∨ kind = .ringWrap → ∀ {given : Prop},
        (∀ g : Hub, (g.ring ring).sectors = m → Hub.GivesAll kind ring.val given g (g.ringNotices ring old.headOff len)) →
        gives kind kind.code given := by
      intro kind hkind given hgiven p
      obtain ⟨hsum, htold⟩ := Hub.answered_rings hj hu hanswer rfl hlen hkind fun g hg => hgiven g (hg.trans hsectors)
      exact ⟨hsum p, fun hc hf => (htold ((hfits _).mp hf) p).2 hc⟩
    refine ⟨hgives (.inl rfl) fun g hg => ?_, hgives (.inr rfl) fun g hg => ?_⟩
    · have hnotice := g.ringNotices_half ring old.headOff len
      rw [hg] at hnotice
      exact hnotice
    · have hnotice := g.ringNotices_wrap ring old.headOff len
      rw [hg] at hnotice
      exact hnotice
  · exact hthere.trans (by rw [hthere])
  · intro unsent told tail
    obtain ⟨⟨hsent, hpassed, hlost, htold, hsilent, hmarks⟩, hlapses⟩ := Hub.answered_tail (r := ring) hj hu hanswer rfl
      hlen hi
      (mt (hfits _).mpr hno) ((hfits _).mp hyes)
    have hqueued : s.hub.unsentLostQueued y.stream = true ↔ told := Hub.unsentLostQueued_iff _ _
    have htail : tailOf ring (s.hub.ring ring).head rest = tail := by
      cases rest with
      | nil => rfl
      | cons z zs => exact hkey z
    have hunsent : (s.hub.ring ring).send = number y ↔ unsent := Iff.rfl
    have hglobal : ring = 16 ↔ x.global = true := s.hub.bound_global k
    simp only [hkey, hunsent, hqueued, ne_eq] at hsent hpassed hlost htold hsilent
    rw [hkey, htail] at hmarks
    exact ⟨hpassed, hsent, hlost, htold, hsilent, fun j => (hmarks j).trans (if_congr (and_congr_left' hglobal) rfl rfl),
      hlapses⟩
  · have hspans := Hub.answered_spans hj hu hanswer rfl hlen ((hfits _).mp hf) ho
    refine ⟨hspans.1, fun clip hclip hstate hend => ?_⟩
    intro covered new held
    have hnew : clip.spanning k unit s.hub.tb.frame.serial = new := Clip.spanning_opened hstate hend k _ _
    have hopened : new.state = .opened := by
      rw [← hnew]
      unfold Clip.spanning
      split <;> exact hstate
    have hmeasure : t.measured ring new =
        if 512 < held.length ∨ 8 * old.size < 2 * (held.map Entry.len).sum then { new with limitDue := true } else new := by
      have hsize : (t.ring ring).size * 8 = 8 * old.size := (congrArg (fun z : Ring => z.size * 8) hthere).trans hsectors
      unfold Hub.measured
      rw [hsize]
      exact if_congr (and_iff_right hopened) rfl rfl
    rw [← hmeasure, ← hnew]
    exact hspans.2 clip hclip hstate
  · refine hanswered [.streams, .rings, .memory, .sending, .log, .ports, .notices] (by decide) ?_
    rw [hu]
    exact ((s.hub.arrive c.env).inserted_only k data).mono (by decide)

end Sys2Proof.Machine
end

section
/-! Proofs: the buses at a tick (R78 to R81). -/

namespace Sys2Proof.Machine

-- In order, so that the package in one text stays within the memory of its check.
set_option Elab.async false

/-! ### The buses (R78, R79, R81) -/

/-- A closed bus as the judgement of its overloads leaves it. -/
def Bus.overloadJudged (b : Bus) : Bus := if b.lastOverloads = 0 then b else { b with overloadFrames := b.overloadFrames + 1 }

/-- A closed bus as the judgement of its silence leaves it. -/
def Bus.silenceJudged (b : Bus) : Bus :=
  if b.lastPeak ≤ b.threshold then
    { b with run := min 65535 (b.run + 1), silent := b.silent || decide (b.silenceFrames ≤ min 65535 (b.run + 1)) }
  else { b with run := 0, silent := false }

/-- The judgement of one bus. -/
def Hub.judgeBus (ended : Frame) (k : Fin 16) (h : Hub) : Hub := (h.judgeOverload ended k).judgeSilence ended k

/-- The mixer beside its buses. -/
def Mixer.beside (m : Mixer) : Vector Channel 64 × Vector Pack 8 × Nat := (m.channels, m.packs, m.sampleNo)

/-- What a bus's judgement leaves of the mixer: the others, and all but the buses. -/
structure Mixer.BusJudged (k : Fin 16) (y : Bus) (m n : Mixer) : Prop where
  self : n.buses[k] = y
  others : ∀ j : Fin 16, j ≠ k → n.buses[j] = m.buses[j]
  rest : n.beside = m.beside

section
variable (h : Hub) (k : Fin 16)

theorem Mixer.BusJudged.trans {k : Fin 16} {f g : Bus → Bus} {a b c : Mixer} (h₁ : Mixer.BusJudged k (f a.buses[k]) a b)
    (h₂ : Mixer.BusJudged k (g b.buses[k]) b c) : Mixer.BusJudged k (g (f a.buses[k])) a c := by
  refine ⟨by rw [h₂.self, h₁.self], fun j hj => (h₂.others j hj).trans (h₁.others j hj),
    h₂.rest.trans h₁.rest⟩

theorem Hub.modBus_judged {f : Bus → Bus} {y : Bus} (hy : f h.mixer.buses[k] = y) :
    Mixer.BusJudged k y h.mixer (h.modBus k f).mixer :=
  ⟨(Hub.modBus_self h k f).trans hy, fun _ hj => Hub.modBus_ne h f hj, rfl⟩

theorem Hub.label_mixer (d : Draft) : (h.label d).mixer = h.mixer := ((h.label_only d) .mixer (by decide)).symm

theorem Hub.judgeOverload_mixer (ended : Frame) :
    Mixer.BusJudged k (h.mixer.buses[k]).overloadJudged h.mixer (h.judgeOverload ended k).mixer := by
  unfold Hub.judgeOverload Bus.overloadJudged
  by_cases hz : (h.mixer.buses[k]).lastOverloads = 0
  · rw [if_pos hz, if_pos hz]
    exact ⟨rfl, fun _ _ => rfl, rfl⟩
  · rw [if_neg hz, if_neg hz, Hub.give_mixer, Hub.label_mixer]
    exact h.modBus_judged k rfl

theorem Hub.judgeSilence_mixer (ended : Frame) :
    Mixer.BusJudged k (h.mixer.buses[k]).silenceJudged h.mixer (h.judgeSilence ended k).mixer := by
  unfold Hub.judgeSilence Bus.silenceJudged
  dsimp only
  by_cases hq : (h.mixer.buses[k]).lastPeak ≤ (h.mixer.buses[k]).threshold
  · rw [if_pos hq, if_pos hq]
    by_cases hs : (h.mixer.buses[k]).silenceFrames ≤ min 65535 ((h.mixer.buses[k]).run + 1)
    · by_cases hsilent : (h.mixer.buses[k]).silent = false
      · rw [if_pos ⟨hs, hsilent⟩, Hub.label_mixer, decide_eq_true hs, Bool.or_true]
        exact h.modBus_judged k rfl
      · rw [if_neg fun hc => hsilent hc.2, decide_eq_true hs, Bool.or_true]
        refine h.modBus_judged k ?_
        rw [← Bool.of_not_eq_false hsilent]
    · rw [if_neg fun hc => hs hc.1, decide_eq_false hs, Bool.or_false]
      exact h.modBus_judged k rfl
  · rw [if_neg hq, if_neg hq]
    by_cases hsilent : (h.mixer.buses[k]).silent = true
    · rw [if_pos hsilent, Hub.label_mixer]
      exact h.modBus_judged k rfl
    · rw [if_neg hsilent]
      refine h.modBus_judged k ?_
      rw [← Bool.of_not_eq_true hsilent]

theorem Hub.judgeBus_mixer (ended : Frame) :
    Mixer.BusJudged k (h.mixer.buses[k]).overloadJudged.silenceJudged h.mixer (Hub.judgeBus ended k h).mixer := by
  have hover := h.judgeOverload_mixer k ended
  have hsilence := (h.judgeOverload ended k).judgeSilence_mixer k ended
  exact hover.trans (g := Bus.silenceJudged) hsilence

theorem Hub.judgeBuses_eq (ended : Frame) : h.judgeBuses ended = h.closeMeters.forEach 16 (Hub.judgeBus ended) := rfl

/-- R78, R79, R81: the buses after the judgement. -/
theorem Hub.judgeBuses_mixer (ended : Frame) :
    (∀ k : Fin 16, (h.judgeBuses ended).mixer.buses[k] = ((h.mixer.buses[k]).closeFrame).overloadJudged.silenceJudged) ∧
      (h.judgeBuses ended).mixer.beside = h.mixer.beside := by
  rw [Hub.judgeBuses_eq]
  refine ⟨fun k => ?_, ?_⟩
  · obtain ⟨g, hbefore, hafter⟩ := Hub.forEach_at (f := Hub.judgeBus ended)
      (R := fun a b => b.mixer.buses[k] = a.mixer.buses[k]) (fun _ => rfl) (fun h₁ h₂ => h₂.trans h₁) k
      (fun j g hj => (g.judgeBus_mixer j ended).others k (Ne.symm hj)) h.closeMeters
    have hclosed : (h.closeMeters).mixer.buses[k] = (h.mixer.buses[k]).closeFrame := by
      simp [Hub.closeMeters]
    have hself := (g.judgeBus_mixer k ended).self
    rw [hbefore, hclosed] at hself
    exact hafter.trans hself
  · exact Hub.forEach_relates (f := Hub.judgeBus ended) (R := fun a b => b.mixer.beside = a.mixer.beside) (fun _ => rfl)
      (fun h₁ h₂ => h₂.trans h₁) (fun j g => (g.judgeBus_mixer j ended).rest) h.closeMeters

end

/-! ### What the turns of a loop bring together -/

/-- The turns of a loop bring lists that are joined, where each turn finds what its own list depends on. -/
theorem Hub.foldl_collects {α : Type} {n c : Nat} {f : Fin n → Hub → Hub} {T : Nat → List α → Hub → Hub → Prop}
    {I : Fin n → Hub → Prop} {L : Fin n → List α} (hrefl : ∀ g, T 0 [] g g)
    (htrans : ∀ {m k xs ys a b d}, T m xs a b → T k ys b d → T (m + k) (xs ++ ys) a d)
    (hkeep : ∀ i j g, i ≠ j → I i g → I i (f j g)) (hturn : ∀ j g, I j g → T c (L j) g (f j g)) :
    ∀ js : List (Fin n), js.Nodup → ∀ g, (∀ j ∈ js, I j g) →
      T (js.length * c) (js.flatMap L) g (js.foldl (fun g j => f j g) g)
  | [], _, g, _ => by simpa using hrefl g
  | j :: js, hn, g, hI => by
    obtain ⟨hj, hjs⟩ := List.nodup_cons.mp hn
    have hrest := Hub.foldl_collects (T := T) hrefl htrans hkeep hturn js hjs (f j g) fun i hi =>
      hkeep i j g (fun he => hj (he ▸ hi)) (hI i (List.mem_cons_of_mem _ hi))
    have hall := htrans (hturn j g (hI j List.mem_cons_self)) hrest
    rw [List.length_cons, Nat.succ_mul, Nat.add_comm, List.flatMap_cons]
    exact hall

theorem Hub.forEach_collects {α : Type} {n c : Nat} {f : Fin n → Hub → Hub} {T : Nat → List α → Hub → Hub → Prop}
    {I : Fin n → Hub → Prop} {L : Fin n → List α} (hrefl : ∀ g, T 0 [] g g)
    (htrans : ∀ {m k xs ys a b d}, T m xs a b → T k ys b d → T (m + k) (xs ++ ys) a d)
    (hkeep : ∀ i j g, i ≠ j → I i g → I i (f j g)) (hturn : ∀ j g, I j g → T c (L j) g (f j g)) (h : Hub)
    (hI : ∀ j, I j h) : T (n * c) ((List.finRange n).flatMap L) h (h.forEach n f) := by
  have hall := Hub.foldl_collects (T := T) hrefl htrans hkeep hturn (List.finRange n) (List.nodup_finRange n) h
    fun j _ => hI j
  rw [List.length_finRange] at hall
  exact hall

/-- Of lists of which one alone is not empty that one is left. -/
theorem flatMap_finRange_one {α : Type} {n : Nat} {L : Fin n → List α} (k : Fin n) (hL : ∀ j, j ≠ k → L j = []) :
    (List.finRange n).flatMap L = L k := by
  have hnone : ∀ js : List (Fin n), k ∉ js → js.flatMap L = [] := fun js hk =>
    List.flatMap_eq_nil_iff.mpr fun j hj => hL j fun he => hk (he ▸ hj)
  obtain ⟨xs, ys, hxy⟩ := List.append_of_mem (List.mem_finRange k)
  have hnodup : (xs ++ k :: ys).Nodup := hxy ▸ List.nodup_finRange n
  obtain ⟨-, hys, hdisj⟩ := List.nodup_append.mp hnodup
  rw [hxy, List.flatMap_append, List.flatMap_cons, hnone xs fun hk => hdisj k hk k (by simp) rfl,
    hnone ys (List.nodup_cons.mp hys).1, List.nil_append, List.append_nil]

/-! ### The notices of the buses (R79) -/

/-- No trigger is ARMED, and stream 12 is CLOSED: labels give no notice. -/
def Hub.Unheard (h : Hub) : Prop := (∀ x : Fin 4, (h.log.triggers[x]).state ≠ .armed) ∧ (h.stream 12).state = .closed

/-- From one hub to another the ports are offered a list of notices, where labels give none. -/
def Hub.Offers (_ : Nat) (xs : List Notice) (g h : Hub) : Prop :=
  g.Unheard → h.Unheard ∧ ∀ p : Fin 4, h.notices[p] = xs.foldl NoticePort.offer g.notices[p]

section
variable {a b c g h : Hub} {m n : Nat} {xs ys : List Notice}

theorem Hub.Offers.trans (h₁ : Hub.Offers m xs a b) (h₂ : Hub.Offers n ys b c) : Hub.Offers (m + n) (xs ++ ys) a c := by
  intro ha
  obtain ⟨hb, hxs⟩ := h₁ ha
  obtain ⟨hc, hys⟩ := h₂ hb
  exact ⟨hc, fun p => by rw [hys, hxs, List.foldl_append]⟩

/-- A change of neither log, streams nor notices. -/
theorem Hub.Offers.of_only {parts : List Part} (ho : Hub.OnlyChanges parts g h)
    (hp : Part.log ∉ parts ∧ Part.streams ∉ parts ∧ Part.notices ∉ parts) : Hub.Offers n [] g h := by
  obtain ⟨hlog, hstreams, hnotices⟩ := hp
  rintro ⟨harmed, hclosed⟩
  refine ⟨⟨?_, ?_⟩, fun p => ?_⟩
  · rw [← ho .log hlog]
    exact harmed
  · rw [ho.stream_eq hstreams]
    exact hclosed
  · rw [← ho .notices hnotices]
    rfl

theorem Hub.Offers.give (x : Notice) (hx : ∀ p, g.audience x p = true) : Hub.Offers n [x] g (g.give x) := fun hg =>
  ⟨hg, fun p => by rw [Hub.give_notices, if_pos (hx p)]; rfl⟩

end

section
variable (h : Hub) {n : Nat}

/-- The filing of a label leaves the triggers, and stream 12 when it is CLOSED. -/
theorem Hub.fileLabel_triggers (d : Draft) (named : Option Word) (hs : (h.stream 12).state = .closed) :
    (h.fileLabel d named).1.log.triggers = h.log.triggers ∧ (h.fileLabel d named).1.stream 12 = h.stream 12 := by
  unfold Hub.fileLabel
  split
  · have hclosed := Hub.offerLabel_closed ((h.modLog fun l => l.store d).modLog fun l => l.link h.log.nextLabel d named) hs
      h.log.nextLabel d
    dsimp only
    rw [hclosed]
    refine ⟨?_, rfl⟩
    change (h.log.store d).triggers = _
    unfold ClipLog.store ClipLog.dropOldest
    dsimp only
    repeat' split
    all_goals rfl
  · exact ⟨rfl, rfl⟩

theorem Hub.label_offers (d : Draft) : Hub.Offers n [] h (h.label d) := by
  rintro ⟨harmed, hclosed⟩
  have hnotices := h.label_notices_alone (d := d) harmed hclosed
  have hlabel : h.label d = (h.fileLabel d none).1 := by
    rw [Hub.label, Hub.arriveLabel_fst, h.offerTriggers_unarmed harmed]
    rfl
  obtain ⟨htriggers, hstream⟩ := h.fileLabel_triggers d none hclosed
  rw [← hlabel] at htriggers hstream
  refine ⟨⟨?_, ?_⟩, fun p => ?_⟩
  · rw [htriggers]
    exact harmed
  · rw [hstream]
    exact hclosed
  · rw [hnotices]
    rfl

/-- The notice of bus k for the ended frame, when it was overloaded. -/
def Bus.overloadGiven (b : Bus) (k : Fin 16) (ended : Frame) : List Notice :=
  if b.lastOverloads = 0 then [] else [{ kind := .audioOverload, param := BitVec.ofNat 32 k.val, serial := ended.serial }]

theorem Hub.judgeBus_offers (k : Fin 16) (ended : Frame) :
    Hub.Offers n ((h.mixer.buses[k]).overloadGiven k ended) h (Hub.judgeBus ended k h) := by
  have hbus : ∀ (g : Hub) (f : Bus → Bus), Hub.Offers 0 [] g (g.modBus k f) := fun g f =>
    .of_only (g.modBus_only k f) (by decide)
  have hlabelled : ∀ (g : Hub) (f : Bus → Bus) (d : Draft), Hub.Offers 0 [] g ((g.modBus k f).label d) := fun g f d =>
    (hbus g f).trans (n := 0) (Hub.label_offers _ d)
  have hover : Hub.Offers 0 ((h.mixer.buses[k]).overloadGiven k ended) h (h.judgeOverload ended k) := by
    unfold Hub.judgeOverload Bus.overloadGiven
    by_cases hz : (h.mixer.buses[k]).lastOverloads = 0
    · rw [if_pos hz, if_pos hz]
      exact .of_only (.refl [] h) (by decide)
    · rw [if_neg hz, if_neg hz]
      exact (hlabelled h _ _).trans (n := 0) (.give _ fun _ => rfl)
  have hsilence : ∀ g : Hub, Hub.Offers 0 [] g (g.judgeSilence ended k) := fun g => by
    unfold Hub.judgeSilence
    dsimp only
    repeat' split
    · exact hlabelled g _ _
    · exact hbus g _
    · exact hlabelled g _ _
    · exact hbus g _
  have hboth := hover.trans (hsilence _)
  rw [List.append_nil] at hboth
  exact hboth

/-- R79: the notices of the buses for the ended frame. -/
def Hub.overloadsGiven (h : Hub) (ended : Frame) : List Notice :=
  (List.finRange 16).flatMap fun k => ((h.mixer.buses[k]).closeFrame).overloadGiven k ended

theorem Hub.judgeBuses_offers (ended : Frame) : Hub.Offers n (h.overloadsGiven ended) h (h.judgeBuses ended) := by
  have hall := Hub.forEach_collects (T := Hub.Offers) (c := 0) (f := Hub.judgeBus ended)
    (I := fun k g => g.mixer.buses[k] = (h.mixer.buses[k]).closeFrame)
    (L := fun k => ((h.mixer.buses[k]).closeFrame).overloadGiven k ended)
    (fun g => .of_only (.refl [] g) (by decide)) Hub.Offers.trans
    (fun i j g hij hi => ((g.judgeBus_mixer j ended).others i hij).trans hi)
    (fun j g hj => by rw [← hj]; exact g.judgeBus_offers j ended) h.closeMeters (fun k => by simp [Hub.closeMeters])
  exact (Hub.Offers.of_only h.closeMeters_only (by decide)).trans (m := 0) hall

theorem Hub.overloadsGiven_length (ended : Frame) : (h.overloadsGiven ended).length ≤ 16 := by
  have hone : ∀ k : Fin 16, (((h.mixer.buses[k]).closeFrame).overloadGiven k ended).length ≤ 1 := fun k => by
    unfold Bus.overloadGiven
    split
    · exact Nat.zero_le 1
    · exact Nat.le_refl 1
  have hall : ∀ ks : List (Fin 16),
      (ks.flatMap fun k => ((h.mixer.buses[k]).closeFrame).overloadGiven k ended).length ≤ ks.length := fun ks => by
    induction ks with
    | nil => exact Nat.le_refl 0
    | cons k ks ih =>
      rw [List.flatMap_cons, List.length_append, List.length_cons]
      have hk := hone k
      omega
  have hlen := hall (List.finRange 16)
  rwa [List.length_finRange] at hlen

end

/-! ### The labels of the buses (R79, R81) -/

/-- A label of bus k of a kind. -/
def Label.ofBus (k : Fin 16) (kind : LabelKind) (x : Label) : Bool :=
  x.kind == kind && x.source == .mixer && x.value == some (BitVec.ofNat 32 k.val)

/-- The dating and the text of a label. -/
def Label.said (x : Label) : Word × Timecode × Bytes := (x.serial, x.tc, x.text)

/-- From one hub to another at most `n` labels are added to the Label Store, where it has room for them all, and those of bus
k and a kind say what a list gives. -/
def Hub.Says (k : Fin 16) (kind : LabelKind) (n : Nat) (xs : List (Word × Timecode × Bytes)) (g h : Hub) : Prop :=
  h.log.selection = g.log.selection ∧ (g.log.labels.length + n ≤ 4096 →
    ∃ new, new.length ≤ n ∧ h.log.labels = g.log.labels ++ new ∧ (new.filter (Label.ofBus k kind)).map Label.said = xs)

section
variable {k : Fin 16} {kind : LabelKind} {a b c g h : Hub} {m n : Nat} {xs ys : List (Word × Timecode × Bytes)}

theorem Hub.Says.trans (h₁ : Hub.Says k kind m xs a b) (h₂ : Hub.Says k kind n ys b c) :
    Hub.Says k kind (m + n) (xs ++ ys) a c := by
  obtain ⟨hsel₁, h₁⟩ := h₁
  obtain ⟨hsel₂, h₂⟩ := h₂
  refine ⟨hsel₂.trans hsel₁, fun hroom => ?_⟩
  obtain ⟨us, hul, hb, hxs⟩ := h₁ (by omega)
  obtain ⟨vs, hvl, hc, hys⟩ := h₂ (by rw [hb, List.length_append]; omega)
  refine ⟨us ++ vs, by rw [List.length_append]; omega, by rw [hc, hb, List.append_assoc], ?_⟩
  rw [List.filter_append, List.map_append, hxs, hys]

theorem Hub.Says.mono (hs : Hub.Says k kind m xs g h) (hn : m ≤ n) : Hub.Says k kind n xs g h := by
  refine ⟨hs.1, fun hroom => ?_⟩
  obtain ⟨us, hul, hrest⟩ := hs.2 (by omega)
  exact ⟨us, by omega, hrest⟩

/-- What files nothing says nothing. -/
theorem Hub.Says.after (hs : Hub.Says k kind n xs a b) (hf : b.SameFiling c) : Hub.Says k kind n xs a c := by
  refine ⟨hf.selection.trans hs.1, fun hroom => ?_⟩
  rw [hf.labels]
  exact hs.2 hroom

/-- Labels of other blocks say nothing of the buses. -/
theorem Hub.Files.says {P : Label → Prop} (hf : Hub.Files P n g h) (hP : ∀ x, P x → x.source ≠ .mixer) :
    Hub.Says k kind n [] g h := by
  refine ⟨hf.1, fun hroom => ?_⟩
  obtain ⟨us, hul, hall, hus⟩ := hf.2 hroom
  refine ⟨us, hul, hus, ?_⟩
  rw [List.filter_eq_nil_iff.mpr fun x hx => ?_]
  · rfl
  · have hsource : (x.source == .mixer) = false := beq_eq_false_iff_ne.mpr (hP x (hall x hx))
    rw [Label.ofBus, hsource, Bool.and_false, Bool.false_and]
    exact Bool.false_ne_true

theorem Hub.SameFiling.says (hs : g.SameFiling h) : Hub.Says k kind 0 [] g h :=
  Hub.Files.says (P := fun _ => False) hs.files fun _ => False.elim

end

/-- The numbers of two buses are the same value of a label when they are one bus. -/
theorem busValue_beq (j k : Fin 16) :
    (some (BitVec.ofNat 32 j.val) == some (BitVec.ofNat 32 k.val)) = decide (j = k) := by
  have hiff : some (BitVec.ofNat 32 j.val) = some (BitVec.ofNat 32 k.val) ↔ j = k := by
    rw [Option.some.injEq, ← BitVec.toNat_inj, BitVec.toNat_ofNat, BitVec.toNat_ofNat, Fin.ext_iff]
    omega
  rw [Bool.eq_iff_iff, beq_iff_eq, decide_eq_true_iff, hiff]

/-- Whether a closed bus brings a label of a kind. -/
def Bus.tells (b : Bus) : LabelKind → Bool
  | .overload => decide (b.lastOverloads ≠ 0)
  | .silenceStart => decide (b.lastPeak ≤ b.threshold ∧ b.silenceFrames ≤ min 65535 (b.run + 1) ∧ b.silent = false)
  | .silenceEnd => decide (¬ b.lastPeak ≤ b.threshold ∧ b.silent = true)
  | _ => false

/-- What one label of bus j says to a reader of the labels of bus k, where there is one and the selection keeps it. -/
def busSays (tells : Bool) (j k : Fin 16) (keep : Bool) (ended : Frame) : List (Word × Timecode × Bytes) :=
  if (tells = true ∧ j = k) ∧ keep = true then [(ended.serial, ended.tc, [])] else []

section
variable (h : Hub) (k : Fin 16) (kind : LabelKind) (ended : Frame)

/-- What a label of bus j says to a reader of the labels of bus k and a kind. -/
theorem Hub.label_says (j : Fin 16) (kind' : LabelKind) :
    Hub.Says k kind 5 (busSays (decide (kind = kind')) j k (h.log.keeps kind .mixer) ended) h
      (h.label (busDraft j kind' ended)) := by
  unfold busSays
  refine ⟨(h.label_files _).1, fun hroom => ?_⟩
  obtain ⟨fires, hlen, hfires, hlabels⟩ := h.arriveLabel_labels (busDraft j kind' ended) none hroom
  have hnone : fires.filter (Label.ofBus k kind) = [] := List.filter_eq_nil_iff.mpr fun x hx => by
    rw [Label.ofBus, hfires x hx]
    simp
  have hmatch : Label.ofBus k kind (h.log.labelOf (busDraft j kind' ended)) = decide (kind = kind' ∧ j = k) := by
    have hvalue := busValue_beq j k
    unfold Label.ofBus
    change (kind' == kind && LabelSource.mixer == .mixer && some (BitVec.ofNat 32 j.val) == some (BitVec.ofNat 32 k.val)) = _
    rw [hvalue]
    by_cases hk : kind = kind'
    · simp [hk]
    · simp [hk, Ne.symm hk]
  refine ⟨_, ?_, by rw [Hub.label, hlabels, List.append_assoc], ?_⟩
  · rw [List.length_append]
    split
    · rw [List.length_singleton]; omega
    · rw [List.length_nil]; omega
  · rw [List.filter_append, hnone, List.append_nil]
    by_cases hone : kind = kind' ∧ j = k
    · have hkeeps : h.log.keeps (busDraft j kind' ended).kind (busDraft j kind' ended).source = h.log.keeps kind .mixer := by
        rw [hone.1]
        rfl
      rw [hkeeps]
      by_cases hkeep : h.log.keeps kind .mixer = true
      · rw [if_pos hkeep, if_pos ⟨⟨decide_eq_true hone.1, hone.2⟩, hkeep⟩,
          List.filter_cons_of_pos (by rw [hmatch]; exact decide_eq_true hone)]
        rfl
      · rw [if_neg hkeep, if_neg fun hc => hkeep hc.2]
        rfl
    · rw [if_neg (c := (decide (kind = kind') = true ∧ j = k) ∧ _) fun hc => hone ⟨of_decide_eq_true hc.1.1, hc.1.2⟩]
      split
      · rw [List.filter_cons_of_neg (by rw [hmatch, decide_eq_false hone]; exact Bool.false_ne_true)]
        rfl
      · rfl


theorem busSays_false (j : Fin 16) (keep : Bool) : busSays false j k keep ended = [] :=
  if_neg fun hc => Bool.false_ne_true hc.1.1

theorem busSays_ne {j : Fin 16} (hj : j ≠ k) (t keep : Bool) : busSays t j k keep ended = [] := if_neg fun hc => hj hc.1.2

/-- A bus's part in the labels, when it is what one label of the bus says. -/
theorem Hub.modBus_label_says (j : Fin 16) (f : Bus → Bus) {kind' : LabelKind} {tells keep : Bool}
    (hk : h.log.keeps kind .mixer = keep) (ht : decide (kind = kind') = tells) :
    Hub.Says k kind 5 (busSays tells j k keep ended) h ((h.modBus j f).label (busDraft j kind' ended)) := by
  have hlabel := (h.modBus_sameFiling j f).says.trans ((h.modBus j f).label_says k kind ended j kind')
  rw [ht, show (h.modBus j f).log.keeps kind .mixer = keep from hk] at hlabel
  exact hlabel.mono (by omega)

/-- A bus's part in the labels, when it brings none. -/
theorem Hub.modBus_says (j : Fin 16) (f : Bus → Bus) {tells keep : Bool} (ht : tells = false) :
    Hub.Says k kind 5 (busSays tells j k keep ended) h (h.modBus j f) := by
  rw [ht, busSays_false]
  exact (h.modBus_sameFiling j f).says.mono (by omega)

end

section
variable (b : Bus) (kind : LabelKind)

theorem Bus.overloadJudged_tells : b.overloadJudged.tells kind = b.tells kind := by
  unfold Bus.overloadJudged
  split
  · rfl
  · rfl

theorem Bus.tells_quiet (hz : b.lastOverloads = 0) : (kind == .overload && b.tells kind) = false := by
  cases kind <;> simp [Bus.tells, hz]

theorem Bus.tells_overload (hz : b.lastOverloads ≠ 0) :
    decide (kind = .overload) = (kind == .overload && b.tells kind) := by
  cases kind <;> simp [Bus.tells, hz]

/-- R81: which of the two labels of silence a closed bus brings. -/
theorem Bus.tells_silence (kind' : LabelKind) (hk : kind' = .silenceStart ∧ b.tells .silenceStart = true ∨
      kind' = .silenceEnd ∧ b.tells .silenceEnd = true) :
    decide (kind = kind') = (kind != .overload && b.tells kind) := by
  have hone : b.tells .silenceStart = true → b.tells .silenceEnd = false := fun hs =>
    decide_eq_false fun hc => hc.1 (of_decide_eq_true hs).1
  obtain ⟨rfl, hs⟩ | ⟨rfl, he⟩ := hk
  · have hend := hone hs
    cases kind
    case silenceStart => rw [hs]; rfl
    case silenceEnd => rw [hend]; rfl
    all_goals rfl
  · have hstart : b.tells .silenceStart = false := by
      cases hs : b.tells .silenceStart
      · rfl
      · exact absurd (he.symm.trans (hone hs)) nofun
    cases kind
    case silenceStart => rw [hstart]; rfl
    case silenceEnd => rw [he]; rfl
    all_goals rfl

theorem Bus.tells_none (hs : b.tells .silenceStart = false) (he : b.tells .silenceEnd = false) :
    (kind != .overload && b.tells kind) = false := by
  cases kind
  case silenceStart => exact hs
  case silenceEnd => exact he
  all_goals rfl

end

section
variable (h : Hub) (k : Fin 16) (kind : LabelKind) (ended : Frame) {b : Bus} {keep : Bool}

theorem Hub.judgeOverload_says (j : Fin 16) (hb : h.mixer.buses[j] = b) (hk : h.log.keeps kind .mixer = keep) :
    Hub.Says k kind 5 (busSays (kind == .overload && b.tells kind) j k keep ended) h (h.judgeOverload ended j) := by
  subst hb
  unfold Hub.judgeOverload
  by_cases hz : (h.mixer.buses[j]).lastOverloads = 0
  · rw [if_pos hz, Bus.tells_quiet _ kind hz, busSays_false]
    exact (Hub.SameFiling.refl h).says.mono (Nat.zero_le 5)
  · rw [if_neg hz]
    exact (h.modBus_label_says k kind ended j _ hk (Bus.tells_overload _ kind hz)).after (Hub.give_sameFiling _ _)

theorem Hub.judgeSilence_says (j : Fin 16) (hb : h.mixer.buses[j] = b) (hk : h.log.keeps kind .mixer = keep) :
    Hub.Says k kind 5 (busSays (kind != .overload && b.tells kind) j k keep ended) h (h.judgeSilence ended j) := by
  subst hb
  unfold Hub.judgeSilence
  dsimp only
  split
  · rename_i hq
    have hend : (h.mixer.buses[j]).tells .silenceEnd = false := decide_eq_false fun hc => hc.1 hq
    split
    · rename_i hs
      exact h.modBus_label_says k kind ended j _ hk
        (Bus.tells_silence _ kind _ (.inl ⟨rfl, decide_eq_true ⟨hq, hs⟩⟩))
    · rename_i hs
      exact h.modBus_says k kind ended j _ (Bus.tells_none _ kind (decide_eq_false fun hc => hs hc.2) hend)
  · rename_i hq
    have hstart : (h.mixer.buses[j]).tells .silenceStart = false := decide_eq_false fun hc => hq hc.1
    split
    · rename_i hs
      exact h.modBus_label_says k kind ended j _ hk
        (Bus.tells_silence _ kind _ (.inr ⟨rfl, decide_eq_true ⟨hq, hs⟩⟩))
    · rename_i hs
      exact h.modBus_says k kind ended j _ (Bus.tells_none _ kind hstart (decide_eq_false fun hc => hs hc.2))

theorem busSays_split (p t : Bool) (j : Fin 16) :
    busSays (p && t) j k keep ended ++ busSays (!p && t) j k keep ended = busSays t j k keep ended := by
  cases p
  · rw [Bool.false_and, busSays_false]
    rfl
  · rw [Bool.not_true, Bool.false_and, busSays_false, List.append_nil]
    rfl

/-- R79, R81: what the judgement of a bus says in the Label Store. -/
theorem Hub.judgeBus_says (j : Fin 16) (hb : h.mixer.buses[j] = b) (hk : h.log.keeps kind .mixer = keep) :
    Hub.Says k kind 10 (busSays (b.tells kind) j k keep ended) h (Hub.judgeBus ended j h) := by
  have hover := h.judgeOverload_says k kind ended j hb hk
  have hkeep : (h.judgeOverload ended j).log.keeps kind .mixer = keep := by
    rw [ClipLog.keeps, hover.1]
    exact hk
  have hsilence := (h.judgeOverload ended j).judgeSilence_says k kind ended j (b := b.overloadJudged)
    (by rw [← hb]; exact (h.judgeOverload_mixer j ended).self) hkeep
  rw [Bus.overloadJudged_tells] at hsilence
  have hboth := hover.trans hsilence
  rw [show (kind != .overload) = !(kind == .overload) from rfl, busSays_split] at hboth
  exact hboth

/-- R79, R81: what the judgement of the buses says in the Label Store. -/
theorem Hub.judgeBuses_says (hk : h.log.keeps kind .mixer = keep) :
    Hub.Says k kind 160 (busSays (((h.mixer.buses[k]).closeFrame).tells kind) k k keep ended) h (h.judgeBuses ended) := by
  have hall := Hub.forEach_collects (T := Hub.Says k kind) (c := 10) (f := Hub.judgeBus ended)
    (I := fun j g => g.mixer.buses[j] = (h.mixer.buses[j]).closeFrame ∧ g.log.keeps kind .mixer = keep)
    (L := fun j => busSays (((h.mixer.buses[j]).closeFrame).tells kind) j k keep ended)
    (fun g => (Hub.SameFiling.refl g).says) Hub.Says.trans
    (fun i j g hij ⟨hi, hkeep⟩ => ⟨((g.judgeBus_mixer j ended).others i hij).trans hi, by
      rw [ClipLog.keeps, (g.judgeBus_says k kind ended j rfl hkeep).1]; exact hkeep⟩)
    (fun j g ⟨hj, hkeep⟩ => g.judgeBus_says k kind ended j hj hkeep)
    h.closeMeters (fun j => ⟨by simp [Hub.closeMeters], hk⟩)
  rw [flatMap_finRange_one k fun j hj => busSays_ne k ended hj _ _] at hall
  exact ((h.closeMeters_only.sameFiling (by decide)).says.trans hall).mono (by omega)

end

end Sys2Proof.Machine
end

section
/-! Proofs: the sound units of a tick (R82 to R84). -/

namespace Sys2Proof.Machine

-- In order, so that the package in one text stays within the memory of its check.
set_option Elab.async false

/-! ### The packs (R82, R83) -/

/-- The hub in which a sound stream's pack has begun its new frame, with the old one counted. -/
def Hub.packBegun (h : Hub) (k : Fin 8) : Hub :=
  (h.startPack k).modPack k fun p =>
    { p with
      offered := if (h.mixer.packs[k]).state = .packing then p.offered + 1 else p.offered
      voided := if (h.mixer.packs[k]).state = .void then p.voided + 1 else p.voided }

/-- The hub in which the unit of a sound stream's ended frame has been offered, when there is one. -/
def Hub.packOffered (h : Hub) (ended : Frame) (n : Nat) (k : Fin 8) : Hub :=
  if (h.mixer.packs[k]).state = .packing then ((h.packBegun k).offer (h.soundOffer ended n k)).1 else h.packBegun k

/-- A pack as its tick leaves it. -/
def Pack.ticked (p : Pack) (serial : Word) (st : StreamState) : Pack :=
  { state := if st = .opened ∨ st = .held then .packing else .idle
    serial := serial
    buffer := []
    offered := if p.state = .packing then p.offered + 1 else p.offered
    voided := if p.state = .void then p.voided + 1 else p.voided }

section
variable (h : Hub) (ended : Frame) (n : Nat) (k : Fin 8)

theorem Hub.tickPack_eq : Hub.tickPack ended n k h =
    if ((h.packOffered ended n k).stream (soundStream k)).state = .closing then
      (h.packOffered ended n k).endClosing (soundStream k)
    else h.packOffered ended n k := by
  have hoffered : h.packOffered ended n k = match (h.mixer.packs[k]).state with
      | .packing => (((h.startPack k).modPack k fun p => { p with offered := p.offered + 1 }).offer
          (h.soundOffer ended n k)).1
      | .void => (h.startPack k).modPack k fun p => { p with voided := p.voided + 1 }
      | .idle => h.startPack k := by
    unfold Hub.packOffered Hub.packBegun
    cases hs : (h.mixer.packs[k]).state
    case idle =>
      simp [Hub.startPack, Hub.modPack]
    case packing => simp
    case void => simp
  rw [hoffered]
  rfl

theorem Hub.packBegun_mixer :
    (h.packBegun k).mixer.packs[k] = (h.mixer.packs[k]).ticked h.tb.frame.serial (h.stream (soundStream k)).state ∧
      (∀ j : Fin 8, j ≠ k → (h.packBegun k).mixer.packs[j] = h.mixer.packs[j]) := by
  unfold Hub.packBegun Hub.startPack
  refine ⟨?_, fun j hj => ?_⟩
  · rw [Hub.modPack_self, Hub.modPack_self]
    rfl
  · rw [Hub.modPack_ne _ _ hj, Hub.modPack_ne _ _ hj]

theorem Hub.packOffered_mixer : (h.packOffered ended n k).mixer = (h.packBegun k).mixer := by
  unfold Hub.packOffered
  split
  · exact ((Hub.offer_only _ _) .mixer (by decide)).symm
  · rfl

theorem Hub.tickPack_mixer : (Hub.tickPack ended n k h).mixer = (h.packBegun k).mixer := by
  rw [Hub.tickPack_eq]
  split
  · rw [← (Hub.endClosing_only _ _) .mixer (by decide), Hub.packOffered_mixer]
  · exact h.packOffered_mixer ended n k

end

theorem Stream.standing_state {x y : Stream} (hs : x.standing = y.standing) : x.state = y.state :=
  show x.standing.state = y.standing.state by rw [hs]

theorem soundStream_injective {j k : Fin 8} (hj : j ≠ k) : soundStream j ≠ soundStream k := fun he =>
  hj (Fin.ext (Nat.add_left_cancel (congrArg Fin.val he)))

theorem labelStream_ne_sound (k : Fin 8) : (12 : Fin 16) ≠ soundStream k := fun he => by
  have hval : 12 = 4 + k.val := congrArg Fin.val he
  omega

/-- Between two hubs what the turn of a sound stream's pack reads stays: the pack, the buses, the stream with its units, the
Timebase, and the strap word. -/
structure Hub.LeavesPack (k : Fin 8) (g h : Hub) : Prop where
  pack : h.mixer.packs[k] = g.mixer.packs[k]
  buses : h.mixer.buses = g.mixer.buses
  stream : Hub.LeavesStream (soundStream k) g h
  timebase : h.tb = g.tb
  strap : h.strap = g.strap

section
variable {k : Fin 8} {a b c : Hub}

theorem Hub.LeavesPack.refl (k : Fin 8) (h : Hub) : Hub.LeavesPack k h h := ⟨rfl, rfl, .refl _ h, rfl, rfl⟩

theorem Hub.LeavesPack.trans (h₁ : Hub.LeavesPack k a b) (h₂ : Hub.LeavesPack k b c) : Hub.LeavesPack k a c :=
  ⟨h₂.pack.trans h₁.pack, h₂.buses.trans h₁.buses, h₁.stream.trans h₂.stream, h₂.timebase.trans h₁.timebase,
    h₂.strap.trans h₁.strap⟩

end

section
variable (h : Hub) (ended : Frame) (n : Nat)

theorem Hub.tickPack_other {j k : Fin 8} (hj : j ≠ k) : Hub.LeavesPack k h (Hub.tickPack ended n j h) := by
  have hmixer := h.tickPack_mixer ended n j
  have honly := h.tickPack_only ended n j
  refine ⟨?_, ?_, h.tickPack_leaves (soundStream_injective hj) ended n, (honly .timebase (by decide)).symm,
    (honly .strap (by decide)).symm⟩
  · rw [hmixer, (h.packBegun_mixer j).2 k hj.symm]
  · rw [hmixer]
    rfl

/-- The turn of a sound stream's pack finds what it reads as it was, and what it leaves stays. -/
theorem Hub.tickPacks_turn (old : Timebase) (k : Fin 8) : ∃ g, Hub.LeavesPack k h g ∧
    Hub.LeavesPack k (Hub.tickPack old.frame (old.frameRate.samples old.frame.phase) k g) (h.tickPacks old) ∧
    Hub.Heard (stateKinds ++ unitKinds) (Hub.tickPack old.frame (old.frameRate.samples old.frame.phase) k g)
      (h.tickPacks old) := by
  obtain ⟨g, ⟨hbefore, -⟩, hafter, hheard⟩ := Hub.forEach_at
    (f := Hub.tickPack old.frame (old.frameRate.samples old.frame.phase))
    (R := fun a b => Hub.LeavesPack k a b ∧ Hub.Heard (stateKinds ++ unitKinds) a b)
    (fun a => ⟨.refl k a, .refl _ a⟩) (fun h₁ h₂ => ⟨h₁.1.trans h₂.1, h₁.2.trans h₂.2⟩) k
    (fun _ g hj => ⟨g.tickPack_other _ _ hj, g.tickPack_heard _ _ _⟩) h
  exact ⟨g, hbefore, hafter, hheard⟩

theorem Hub.tickPacks_beside (old : Timebase) : (h.tickPacks old).mixer.buses = h.mixer.buses ∧
    (h.tickPacks old).mixer.channels = h.mixer.channels := by
  have hall := Hub.forEach_relates (f := Hub.tickPack old.frame (old.frameRate.samples old.frame.phase))
    (R := fun a b => b.mixer.buses = a.mixer.buses ∧ b.mixer.channels = a.mixer.channels) (fun _ => ⟨rfl, rfl⟩)
    (fun h₁ h₂ => ⟨h₂.1.trans h₁.1, h₂.2.trans h₁.2⟩)
    (fun j g => by rw [g.tickPack_mixer]; exact ⟨rfl, rfl⟩) h
  unfold Hub.tickPacks
  exact hall

end

/-! ### The mixer at a tick -/

/-- The hub of a tick after the judgement of the buses. -/
def Hub.judged (h : Hub) (m : Nat) : Hub := (h.atMixer m).judgeBuses h.tb.frame

theorem Mixer.beside_eq {m n : Mixer} (hb : m.beside = n.beside) :
    m.channels = n.channels ∧ m.packs = n.packs ∧ m.sampleNo = n.sampleNo := by
  unfold Mixer.beside at hb
  exact ⟨congrArg Prod.fst hb, congrArg (fun x => x.2.1) hb, congrArg (fun x => x.2.2) hb⟩

section
variable (h : Hub) (m : Nat)

theorem Hub.judged_eq : h.judged m = (h.atMixer m).judgeBuses h.tb.frame := rfl

theorem Hub.atCoder_judged : h.atCoder m = ((h.judged m).tickPacks h.tb).openMixerFrame := Hub.tickMixer_stages _ _

theorem Hub.atMixer_only : Hub.OnlyChanges ([.timebase] ++ unitParts) h (h.atMixer m) :=
  ((h.tickFrame_only m).mono (by decide)).trans ((Hub.timebaseNotices_only _ _).mono (by decide))

theorem Hub.atMixer_mixer : (h.atMixer m).mixer = h.mixer := ((h.atMixer_only m) .mixer (by decide)).symm

theorem Hub.judgeBuses_only (ended : Frame) : Hub.OnlyChanges mixerParts h (h.judgeBuses ended) :=
  (h.closeMeters_only.mono (by decide)).trans
    (.forEach (fun k g => (g.judgeOverload_only ended k).trans (Hub.judgeSilence_only _ ended k)) _)

theorem Hub.judged_tb : (h.judged m).tb = h.tb.tick m :=
  (((h.tickFrame m).timebaseNotices_only h.tb .timebase (by decide)).trans
    ((h.atMixer m).judgeBuses_only h.tb.frame .timebase (by decide))).symm

theorem Hub.judged_strap : (h.judged m).strap = h.strap :=
  ((h.atMixer_only m .strap (by decide)).trans ((h.atMixer m).judgeBuses_only h.tb.frame .strap (by decide))).symm

theorem Hub.judged_leaves (k : Fin 8) : Hub.LeavesStream (soundStream k) h (h.judged m) :=
  ((h.tickFrame_leaves m).trans (Hub.timebaseNotices_leaves _ (labelStream_ne_sound k) _)).trans
    (Hub.judgeBuses_leaves _ (labelStream_ne_sound k) _)

/-- The mixer after a tick is that of the units offered, its new frame opened. -/
theorem Hub.tick_mixer : (h.tick m).mixer = ((h.judged m).tickPacks h.tb).openMixerFrame.mixer := by
  have hlater : (h.atCoder m).mixer = (h.tick m).mixer := by
    rw [Hub.tick_later]
    exact ((h.atCoder m).tickCoder_only .mixer (by decide)).trans ((h.atPaths m).laterStages_only .mixer (by decide))
  exact hlater.symm.trans (congrArg Hub.mixer (h.atCoder_judged m))

theorem Hub.openMixerFrame_bus (k : Fin 16) :
    h.openMixerFrame.mixer.buses[k] = { h.mixer.buses[k] with inputError := false } := by simp [Hub.openMixerFrame]

theorem Hub.openMixerFrame_channel (c : Fin 64) : h.openMixerFrame.mixer.channels[c] = (h.mixer.channels[c]).tick := by
  simp [Hub.openMixerFrame]

theorem Hub.openMixerFrame_pack (k : Fin 8) : h.openMixerFrame.mixer.packs[k] = h.mixer.packs[k] := by
  simp only [Hub.openMixerFrame]

/-- R78, R79, R81: a bus when the sound units are formed. -/
theorem Hub.judged_bus (k : Fin 16) :
    (h.judged m).mixer.buses[k] = ((h.mixer.buses[k]).closeFrame).overloadJudged.silenceJudged := by
  have hjudged := ((h.atMixer m).judgeBuses_mixer h.tb.frame).1 k
  rw [Hub.atMixer_mixer] at hjudged
  rw [Hub.judged_eq, hjudged]

theorem Hub.judged_beside : (h.judged m).mixer.beside = h.mixer.beside := by
  rw [← Hub.atMixer_mixer h m, Hub.judged_eq]
  exact ((h.atMixer m).judgeBuses_mixer h.tb.frame).2

/-- R78, R79, R81: a bus after a tick. -/
theorem Hub.tick_bus (k : Fin 16) : (h.tick m).mixer.buses[k] =
    { ((h.mixer.buses[k]).closeFrame).overloadJudged.silenceJudged with inputError := false } := by
  have hpacks : ((h.judged m).tickPacks h.tb).mixer.buses[k] = (h.judged m).mixer.buses[k] :=
    congrArg (fun x : Vector Bus 16 => x[k]) ((h.judged m).tickPacks_beside h.tb).1
  refine (congrArg (fun x : Mixer => x.buses[k]) (h.tick_mixer m)).trans ((Hub.openMixerFrame_bus _ k).trans ?_)
  rw [hpacks, Hub.judged_bus]

/-- R72: a channel after a tick. -/
theorem Hub.tick_channel (c : Fin 64) : (h.tick m).mixer.channels[c] = (h.mixer.channels[c]).tick := by
  have hpacks : ((h.judged m).tickPacks h.tb).mixer.channels[c] = h.mixer.channels[c] :=
    congrArg (fun x : Vector Channel 64 => x[c])
      (((h.judged m).tickPacks_beside h.tb).2.trans (Mixer.beside_eq (h.judged_beside m)).1)
  refine (congrArg (fun x : Mixer => x.channels[c]) (h.tick_mixer m)).trans ((Hub.openMixerFrame_channel _ c).trans ?_)
  rw [hpacks]

theorem Hub.tick_sampleNo : (h.tick m).mixer.sampleNo = 0 := by
  have hopened : ∀ g : Hub, g.openMixerFrame.mixer.sampleNo = 0 := fun _ => rfl
  exact (congrArg Mixer.sampleNo (h.tick_mixer m)).trans (hopened _)

theorem Hub.judged_pack (k : Fin 8) : (h.judged m).mixer.packs[k] = h.mixer.packs[k] :=
  congrArg (fun x : Vector Pack 8 => x[k]) (Mixer.beside_eq (h.judged_beside m)).2.1

/-- R82, R83: a pack after a tick. -/
theorem Hub.tick_pack (k : Fin 8) : (h.tick m).mixer.packs[k] =
    (h.mixer.packs[k]).ticked (h.tb.frame.serial + 1) (h.stream (soundStream k)).state := by
  obtain ⟨g, hbefore, hafter, -⟩ := (h.judged m).tickPacks_turn h.tb k
  have hstanding := ((h.judged_leaves m k).trans hbefore.stream).standing
  have hstate : (g.stream (soundStream k)).state = (h.stream (soundStream k)).state := Stream.standing_state hstanding
  have htb : g.tb = h.tb.tick m := hbefore.timebase.trans (h.judged_tb m)
  have hserial : g.tb.frame.serial = h.tb.frame.serial + 1 := by
    rw [htb, Timebase.tick_eq]
    rfl
  have hpack : g.mixer.packs[k] = h.mixer.packs[k] := hbefore.pack.trans (h.judged_pack m k)
  have hturn : (Hub.tickPack h.tb.frame (h.tb.frameRate.samples h.tb.frame.phase) k g).mixer.packs[k] =
      (h.mixer.packs[k]).ticked (h.tb.frame.serial + 1) (h.stream (soundStream k)).state := by
    rw [Hub.tickPack_mixer, (g.packBegun_mixer k).1, hpack, hserial, hstate]
  exact (congrArg (fun x : Mixer => x.packs[k]) (h.tick_mixer m)).trans
    ((Hub.openMixerFrame_pack _ k).trans (hafter.pack.trans hturn))

end

end Sys2Proof.Machine
end

section
/-! Proofs: what a tick says of the buses: notices and labels (R79, R81). -/

namespace Sys2Proof.Machine

-- In order, so that the package in one text stays within the memory of its check.
set_option Elab.async false

/-! ### The notices of a tick up to those of the buses -/

theorem NoticePort.offers_length : ∀ (xs : List Notice) (n : NoticePort), (∀ y ∈ xs, y.kind ≠ .supplyWarn) →
    (xs.foldl NoticePort.offer n).queue.length ≤ n.queue.length + xs.length
  | [], _, _ => Nat.le_refl _
  | x :: xs, n, hk => by
    have hone := n.offer_length (hk x List.mem_cons_self)
    have hrest := NoticePort.offers_length xs (n.offer x) fun y hy => hk y (List.mem_cons_of_mem _ hy)
    rw [List.foldl_cons, List.length_cons]
    omega

/-- From one hub to another the ports are offered a few notices, where labels give none. -/
def Hub.OffersFew (n : Nat) (g h : Hub) : Prop :=
  ∃ xs : List Notice, xs.length ≤ n ∧ (∀ y ∈ xs, y.kind ≠ .supplyWarn) ∧ Hub.Offers 0 xs g h

section
variable {m n : Nat} {a b c g h : Hub}

theorem Hub.OffersFew.trans (h₁ : Hub.OffersFew m a b) (h₂ : Hub.OffersFew n b c) : Hub.OffersFew (m + n) a c := by
  obtain ⟨xs, hxl, hxk, hxs⟩ := h₁
  obtain ⟨ys, hyl, hyk, hys⟩ := h₂
  refine ⟨xs ++ ys, by rw [List.length_append]; omega, fun y hy => ?_, hxs.trans (m := 0) hys⟩
  exact (List.mem_append.mp hy).elim (hxk y) (hyk y)

theorem Hub.Offers.few (ho : Hub.Offers 0 [] g h) : Hub.OffersFew 0 g h := 
  ⟨[], Nat.le_refl 0, fun _ hy => absurd hy List.not_mem_nil, ho⟩

theorem Hub.OffersFew.opt {q : Prop} [Decidable q] (h₁ : Hub.OffersFew m a b) (h₂ : Hub.OffersFew n b c) :
    Hub.OffersFew (m + n) a (if q then c else b) := by
  split
  · exact h₁.trans h₂
  · obtain ⟨xs, hxl, hrest⟩ := h₁
    exact ⟨xs, by omega, hrest⟩

theorem Hub.notify_few (h : Hub) {k : NoticeKind} (hk : k ≠ .supplyWarn) (w : Nat)
    (ha : ∀ (x : Notice) (p : Fin 4), x.kind = k → h.audience x p = true) : Hub.OffersFew 1 h (h.notify k w) :=
  ⟨[{ kind := k, param := BitVec.ofNat 32 w, serial := h.tb.frame.serial }], Nat.le_refl 1,
    fun y hy => by rw [List.mem_singleton.mp hy]; exact hk, .give _ fun p => ha _ p rfl⟩

end

section
variable (h : Hub) (m : Nat)

theorem Hub.timebaseNotices_few (old : Timebase) : Hub.OffersFew 4 h (h.timebaseNotices old) := by
  unfold Hub.timebaseNotices
  exact .opt (m := 3) (.opt (m := 2) (.opt (m := 1) (.opt (m := 0) (Hub.Offers.few (.of_only (.refl [] h) (by decide)))
    (Hub.notify_few _ (by decide) _ fun x p hx => by simp [Hub.audience, hx]))
    ((Hub.notify_few _ (by decide) _ fun x p hx => by simp [Hub.audience, hx]).trans (Hub.label_offers _ _).few))
    (Hub.notify_few _ (by decide) _ fun x p hx => by simp [Hub.audience, hx]))
    (Hub.notify_few _ (by decide) _ fun x p hx => by simp [Hub.audience, hx])

theorem Hub.atMixer_few : Hub.OffersFew 4 h (h.atMixer m) := by
  have hframe : Hub.Offers 0 [] h (h.tickFrame m) := fun hh => ⟨hh, fun _ => rfl⟩
  exact hframe.few.trans (m := 0) (Hub.timebaseNotices_few _ _)

/-- The notices given after the judgement of the buses. -/
theorem Hub.judged_heard : Hub.Heard tickKinds (h.judged m) (h.tick m) := by
  have hpacks : Hub.Heard tickKinds (h.judged m) (h.atCoder m) := by
    rw [Hub.atCoder_judged]
    exact (Hub.Heard.forEach (fun k g => (g.tickPack_heard _ _ k).mono (by decide)) _).trans
      ((Hub.openMixerFrame_only _).heard (by decide))
  rw [Hub.tick_later]
  exact (hpacks.trans ((Hub.tickCoder_heard _).mono (by decide))).trans (Hub.laterStages_heard _)

theorem Hub.judgeBus_heard (k : Fin 16) (ended : Frame) : Hub.Heard mixerKinds h (Hub.judgeBus ended k h) :=
  ((h.judgeOverload_heard ended k).mono (by decide)).trans ((Hub.judgeSilence_heard _ ended k).mono (by decide))

/-- R79: an overloaded bus is told to every port. -/
theorem Hub.judgeOverload_summary {k : Fin 16} (hk : (h.mixer.buses[k]).lastOverloads ≠ 0) (ended : Frame) (p : Fin 4) :
    ((h.judgeOverload ended k).notices[p]).summary.getLsbD 11 = true := by
  unfold Hub.judgeOverload
  rw [if_neg hk, Hub.give_notices, if_pos (by rfl), NoticePort.offer_summary _ _ (by decide)]
  exact Bool.or_true _

theorem Hub.judgeBuses_summary {k : Fin 16} (hk : (h.mixer.buses[k]).overloads ≠ 0) (ended : Frame) (p : Fin 4) :
    ((h.judgeBuses ended).notices[p]).summary.getLsbD 11 = true := by
  obtain ⟨g, ⟨hbus, -⟩, -, hafter⟩ := Hub.forEach_at (f := Hub.judgeBus ended)
    (R := fun a b => b.mixer.buses[k] = a.mixer.buses[k] ∧ Hub.Heard mixerKinds a b) (fun a => ⟨rfl, .refl _ a⟩)
    (fun h₁ h₂ => ⟨h₂.1.trans h₁.1, h₁.2.trans h₂.2⟩) k
    (fun j g hj => ⟨(g.judgeBus_mixer j ended).others k (Ne.symm hj), g.judgeBus_heard j ended⟩) h.closeMeters
  have hclosed : (h.closeMeters).mixer.buses[k] = (h.mixer.buses[k]).closeFrame := by
    simp [Hub.closeMeters]
  have htold := g.judgeOverload_summary (k := k) (by rw [hbus, hclosed]; exact hk) ended p
  have hturn := (Hub.judgeSilence_heard (g.judgeOverload ended k) ended k).summary_mono p (by decide) htold
  exact hafter.summary_mono p (by decide) hturn

/-- R79: what a tick gives for an overloaded bus. -/
theorem Hub.tick_overload {k : Fin 16} (hk : (h.mixer.buses[k]).overloads ≠ 0) (p : Fin 4) :
    ((h.tick m).notices[p]).summary.getLsbD 11 = true ∧
      (h.Unheard → (h.notices[p]).mask.getLsbD 11 = true → (h.notices[p]).queue.length ≤ 12 →
        { kind := .audioOverload, param := BitVec.ofNat 32 k.val, serial := h.tb.frame.serial } ∈
          ((h.tick m).notices[p]).queue) := by
  have hmixer := h.atMixer_mixer m
  refine ⟨(h.judged_heard m).summary_mono p (by decide) ((h.atMixer m).judgeBuses_summary (k := k)
    (by rw [hmixer]; exact hk) h.tb.frame p), fun hu hmask hq => ?_⟩
  obtain ⟨xs, hlen, hkinds, hxs⟩ := h.atMixer_few m
  obtain ⟨hunheard, hnotices⟩ := hxs hu
  obtain ⟨-, hbuses⟩ := (h.atMixer m).judgeBuses_offers (n := 0) h.tb.frame hunheard
  have hgiven : { kind := .audioOverload, param := BitVec.ofNat 32 k.val, serial := h.tb.frame.serial } ∈
      (h.atMixer m).overloadsGiven h.tb.frame := by
    refine List.mem_flatMap.mpr ⟨k, List.mem_finRange k, ?_⟩
    rw [hmixer, Bus.overloadGiven, if_neg (by exact hk)]
    exact List.mem_singleton_self _
  have hover : ∀ y ∈ (h.atMixer m).overloadsGiven h.tb.frame, y.kind ≠ .supplyWarn := by
    intro y hy
    obtain ⟨j, -, hj⟩ := List.mem_flatMap.mp hy
    unfold Bus.overloadGiven at hj
    split at hj
    · exact absurd hj List.not_mem_nil
    · rw [List.mem_singleton.mp hj]
      exact (by decide : NoticeKind.audioOverload ≠ .supplyWarn)
  have hqueue := NoticePort.offers_length xs (h.notices[p]) hkinds
  have hcount := (h.atMixer m).overloadsGiven_length h.tb.frame
  have hjoined : { kind := .audioOverload, param := BitVec.ofNat 32 k.val, serial := h.tb.frame.serial } ∈
      ((h.judged m).notices[p]).queue := by
    rw [Hub.judged_eq, hbuses p, hnotices p]
    exact NoticePort.offers_join _ _ hover (by omega) hgiven (by rw [NoticePort.offers_mask]; exact hmask)
  exact ((h.judged_heard m).queue_prefix p (by decide)).subset hjoined

end

/-! ### The labels of a tick -/

section
variable (h : Hub) (m : Nat)

theorem Hub.laterStages_files : Hub.Files LabelSource.link.Owns 200 h h.laterStages := by
  have hpaths : Hub.Files LabelSource.link.Owns (8 * 5) h h.tickPaths :=
    .forEach (fun p g => (g.tickPath_files p).mono (fun _ => PathBrings.owns) (Nat.le_refl _)) h
  have hports : ∀ g : Hub, Hub.Files LabelSource.link.Owns (4 * 40) g g.tickPorts := fun g =>
    .forEach (fun p g => g.tickPort_files p) g
  have hgauges : ∀ g : Hub, g.SameFiling g.tickGauges := fun g => g.tickGauges_only.sameFiling (by decide)
  have hrest : ∀ g : Hub, g.SameFiling g.openPaths.tickTests.tickTally := fun g =>
    ((g.openPaths_only).sameFiling (by decide)).trans
      ((Hub.tickTests_sameFiling _).trans ((Hub.tickTally_only _).sameFiling (by decide)))
  exact (((hpaths.trans (hgauges _).files).trans (hports _)).trans (hrest _).files).mono (fun _ => id) (by omega)

/-- Labels of a block other than the mixer say nothing of the buses. -/
theorem Hub.Files.saysNone {b : LabelSource} (hb : b ≠ .mixer) {n : Nat} {g t : Hub} (hf : Hub.Files b.Owns n g t)
    (k : Fin 16) (kind : LabelKind) : Hub.Says k kind n [] g t :=
  hf.says fun x hx => by
    rcases hx with hx | hx
    · rw [hx]
      exact hb
    · rw [hx]
      decide

/-- R79, R81: what a tick says of bus k in the Label Store. -/
theorem Hub.tick_says (k : Fin 16) (kind : LabelKind) : Hub.Says k kind 405
    (busSays ((h.mixer.buses[k]).closeFrame.tells kind) k k (h.log.keeps kind .mixer) h.tb.frame) h (h.tick m) := by
  have hmixer : Hub.Says k kind (0 + 5) [] h (h.atMixer m) := (h.tickFrame_sameFiling m).says.trans
    ((Hub.timebaseNotices_files _ _).saysNone (by decide) k kind)
  have hkeeps : (h.atMixer m).log.keeps kind .mixer = h.log.keeps kind .mixer := by
    rw [ClipLog.keeps, ClipLog.keeps, hmixer.1]
  have hbuses := (h.atMixer m).judgeBuses_says k kind h.tb.frame hkeeps
  have hpacks : (h.judged m).SameFiling (h.atCoder m) := by
    have hall : Hub.SameFiling (h.judged m) ((h.judged m).tickPacks h.tb) :=
      .foldl (fun g j => g.tickPack_sameFiling _ _ j) _ _
    rw [Hub.atCoder_judged]
    exact hall.trans ((Hub.openMixerFrame_only _).sameFiling (by decide))
  have hcoder := (Hub.tickCoder_files (h.atCoder m)).saysNone (by decide) k kind
  have hlater := (Hub.laterStages_files (h.atPaths m)).saysNone (by decide) k kind
  rw [Hub.atMixer_mixer] at hbuses
  rw [Hub.tick_later]
  have hall := ((hmixer.trans hbuses).after hpacks).trans (hcoder.trans hlater)
  rw [List.nil_append, List.append_nil, List.append_nil] at hall
  exact hall.mono (by omega)

/-- R79, R81: the labels of the buses that a tick adds, where the Label Store has room for all that it can bring. -/
theorem Hub.tick_busLabels (hl : h.log.labels.length ≤ 2048) :
    ∃ new, (h.tick m).log.labels = h.log.labels ++ new ∧ ∀ (k : Fin 16) (kind : LabelKind),
      (new.filter (Label.ofBus k kind)).map Label.said =
        busSays ((h.mixer.buses[k]).closeFrame.tells kind) k k (h.log.keeps kind .mixer) h.tb.frame := by
  obtain ⟨new, -, hnew, -⟩ := (h.tick_says m 0 .overload).2 (by omega)
  refine ⟨new, hnew, fun k kind => ?_⟩
  obtain ⟨new', -, hnew', hsays⟩ := (h.tick_says m k kind).2 (by omega)
  rw [List.append_cancel_left (hnew.symm.trans hnew')]
  exact hsays

theorem busSays_true (k : Fin 16) (keep : Bool) (ended : Frame) :
    busSays true k k keep ended = if keep = true then [(ended.serial, ended.tc, [])] else [] :=
  if_congr ⟨fun hc => hc.2, fun hk => ⟨⟨rfl, rfl⟩, hk⟩⟩ rfl rfl

end

end Sys2Proof.Machine
end

section
/-! Proofs: what the ports' part of a tick leaves of a stream (R44). -/

namespace Sys2Proof.Machine

-- In order, so that the package in one text stays within the memory of its check.
set_option Elab.async false

/-! ### What the ports' part of a tick leaves of a stream (R44) -/

/-- What the ports' part of a tick leaves of stream j: its units, the bytes of its ring, and its state unless it is HELD. -/
structure Hub.PortKeeps (j : Fin 16) (g h : Hub) : Prop where
  entries : Hub.KeepsEntries j g h
  bytes : Hub.KeepsBytes j.castSucc g h
  empty : (g.stream j).buffer = [] → (h.stream j).buffer = [] ∧ (h.stream j).discarded = (g.stream j).discarded
  state : (g.stream j).state ≠ .held → (h.stream j).state = (g.stream j).state

/-- The hold setter of stream j is o, and stays, and so does the state. -/
def Hub.HoldStays (j : Fin 16) (o : Option (Fin 4)) (g h : Hub) : Prop :=
  (g.stream j).setter = o → (h.stream j).setter = o ∧ (h.stream j).state = (g.stream j).state

section
variable {j : Fin 16} {o : Option (Fin 4)} {a b c g h : Hub}

theorem Hub.PortKeeps.trans (h₁ : Hub.PortKeeps j a b) (h₂ : Hub.PortKeeps j b c) : Hub.PortKeeps j a c := by
  refine ⟨h₁.entries.trans h₂.entries, h₁.bytes.trans h₂.bytes, fun ha => ?_, fun ha => ?_⟩
  · obtain ⟨hb, hd⟩ := h₁.empty ha
    obtain ⟨hc, hd'⟩ := h₂.empty hb
    exact ⟨hc, hd'.trans hd⟩
  · have hb := h₁.state ha
    exact (h₂.state (by rw [hb]; exact ha)).trans hb

theorem Hub.LeavesStream.portKeeps (hl : Hub.LeavesStream j g h) : Hub.PortKeeps j g h := by
  have hbuffer : (h.stream j).buffer = (g.stream j).buffer :=
    show (h.stream j).standing.buffer = (g.stream j).standing.buffer by rw [hl.standing]
  exact ⟨hl.units.entries, hl.bytes, fun hb => ⟨hbuffer.trans hb, hl.units.discarded⟩, fun _ =>
    Stream.standing_state hl.standing⟩

theorem Hub.PortKeeps.forEach {n : Nat} {f : Fin n → Hub → Hub} (hf : ∀ i g, Hub.PortKeeps j g (f i g)) (h : Hub) :
    Hub.PortKeeps j h (h.forEach n f) :=
  Hub.forEach_relates (R := Hub.PortKeeps j) (fun a => (Hub.LeavesStream.refl j a).portKeeps) Hub.PortKeeps.trans hf h

theorem Hub.HoldStays.refl (j : Fin 16) (o : Option (Fin 4)) (h : Hub) : Hub.HoldStays j o h h := fun hs => ⟨hs, rfl⟩

theorem Hub.HoldStays.trans (h₁ : Hub.HoldStays j o a b) (h₂ : Hub.HoldStays j o b c) : Hub.HoldStays j o a c := fun hs => by
  obtain ⟨hb, hstate⟩ := h₁ hs
  obtain ⟨hc, hstate'⟩ := h₂ hb
  exact ⟨hc, hstate'.trans hstate⟩

theorem Hub.LeavesStream.holdStays (hl : Hub.LeavesStream j g h) : Hub.HoldStays j o g h := fun hs => by
  have hsetter : (h.stream j).setter = (g.stream j).setter :=
    show (h.stream j).standing.setter = (g.stream j).standing.setter by rw [hl.standing]
  exact ⟨hsetter.trans hs, Stream.standing_state hl.standing⟩

theorem Hub.HoldStays.of_eq (he : h.stream j = g.stream j) : Hub.HoldStays j o g h := fun hs => by
  rw [he]
  exact ⟨hs, rfl⟩

end

section
variable (h : Hub) (p : Fin 4) {j : Fin 16}

theorem Hub.dropSetter_ne {i : Fin 16} (hi : i ≠ j) : (h.dropSetter p i).stream j = h.stream j := by
  unfold Hub.dropSetter
  split
  · split
    · exact h.releaseHold_ne hi.symm
    · exact h.endHold_ne hi.symm
    · exact Hub.modStream_ne _ _ hi.symm
    · exact Hub.modStream_ne _ _ hi.symm
  · rfl

theorem Hub.absentStream_ne {i : Fin 16} (hi : i ≠ j) : (Hub.absentStream p i h).stream j = h.stream j := by
  rw [Hub.absentStream_eq]
  split
  · rw [Hub.discardBuffer_ne _ hi.symm, h.dropSetter_ne p hi]
  · exact h.dropSetter_ne p hi

theorem Hub.dropSetter_bytes (q : Fin 17) (i : Fin 16) : Hub.KeepsBytes q h (h.dropSetter p i) := by
  have hset : Hub.KeepsBytes q h (h.modStream i fun x => { x with setter := none }) :=
    .of_only (h.modStream_only i _) (by decide) (by decide)
  unfold Hub.dropSetter
  split
  · split
    · exact h.releaseHold_bytes q i
    · exact h.endHold_bytes q i
    · exact hset
    · exact hset
  · exact .refl q h

theorem Hub.dropSetter_discarded (i : Fin 16) :
    ((h.dropSetter p i).stream i).discarded = (h.stream i).discarded := by
  unfold Hub.dropSetter
  split
  · split
    · rw [Hub.releaseHold_self, Hub.endHold_self]
    · rw [Hub.endHold_self]
    · rw [Hub.modStream_self]
    · rw [Hub.modStream_self]
  · rfl

theorem Hub.dropSetter_state (i : Fin 16) (hs : (h.stream i).state ≠ .held) :
    ((h.dropSetter p i).stream i).state = (h.stream i).state := by
  unfold Hub.dropSetter
  split
  · split
    · rename_i hheld
      exact absurd hheld hs
    · exact h.endHold_state i
    · rw [Hub.modStream_self]
    · rw [Hub.modStream_self]
  · rfl

theorem Hub.absentStream_keeps (i : Fin 16) : Hub.PortKeeps j h (Hub.absentStream p i h) := by
  have hbytes : Hub.KeepsBytes j.castSucc h (Hub.absentStream p i h) := by
    rw [Hub.absentStream_eq]
    exact .opt (h.dropSetter_bytes p _ i) (Hub.discardBuffer_bytes _ _ i)
  by_cases hi : i = j
  · subst hi
    obtain ⟨-, hbuffer, -⟩ := h.dropSetter_self p i
    have hcount := h.dropSetter_discarded p i
    refine ⟨h.absentStream_entries p i, hbytes, fun hb => ?_, fun hs => ?_⟩
    · rw [Hub.absentStream_eq]
      split
      · rw [Hub.discardBuffer_self, if_pos (hbuffer.trans hb)]
        exact ⟨hbuffer.trans hb, hcount⟩
      · exact ⟨hbuffer.trans hb, hcount⟩
    · have hstate := h.dropSetter_state p i hs
      rw [Hub.absentStream_eq]
      split
      · rw [Hub.discardBuffer_self]
        split
        · exact hstate
        · exact hstate
      · exact hstate
  · have hsame := h.absentStream_ne p hi
    exact ⟨h.absentStream_entries p i, hbytes, fun hb => by rw [hsame]; exact ⟨hb, rfl⟩, fun _ => by rw [hsame]⟩

/-- A port that is not the hold setter of a stream leaves its hold. -/
theorem Hub.absentStream_holdStays {o : Option (Fin 4)} (ho : o ≠ some p) (i : Fin 16) :
    Hub.HoldStays j o h (Hub.absentStream p i h) := by
  by_cases hi : i = j
  · subst hi
    intro hs
    have hdrop : h.dropSetter p i = h := if_neg (by rw [hs]; exact ho)
    rw [Hub.absentStream_eq, hdrop]
    split
    · rw [Hub.discardBuffer_self]
      split
      · exact ⟨hs, rfl⟩
      · exact ⟨hs, rfl⟩
    · exact ⟨hs, rfl⟩
  · exact .of_eq (h.absentStream_ne p hi)

/-- R44: the port that is the hold setter of a HELD stream opens it. -/
theorem Hub.absentStream_opens (hheld : (h.stream j).state = .held) (hs : (h.stream j).setter = some p) :
    ((Hub.absentStream p j h).stream j).state = .opened ∧ ((Hub.absentStream p j h).stream j).setter = none ∧
      ∀ q : Fin 4, ((Hub.absentStream p j h).notices[q]).summary.getLsbD 4 = true := by
  have hdrop : h.dropSetter p j = h.releaseHold j := by
    unfold Hub.dropSetter
    rw [if_pos hs]
    split
    · rfl
    all_goals
      rename_i hother
      exact absurd (hheld.symm.trans hother) nofun
  have hself : ((h.releaseHold j).stream j).state = .opened ∧ ((h.releaseHold j).stream j).setter = none := by
    rw [Hub.releaseHold_self, Hub.endHold_self]
    exact ⟨rfl, rfl⟩
  have htold := fun q => h.releaseHold_summary j q
  rw [Hub.absentStream_eq, hdrop]
  generalize h.releaseHold j = r at hself htold ⊢
  obtain ⟨hopened, hnone⟩ := hself
  split
  · have hnotices : (r.discardBuffer j).notices = r.notices := ((r.discardBuffer_only j) .notices (by decide)).symm
    have htold' : ∀ q : Fin 4, ((r.discardBuffer j).notices[q]).summary.getLsbD 4 = true := fun q =>
      hnotices ▸ htold q
    rw [Hub.discardBuffer_self]
    split
    · exact ⟨hopened, hnone, htold'⟩
    · exact ⟨hopened, hnone, htold'⟩
  · exact ⟨hopened, hnone, htold⟩

end

/-! ### A port that goes ABSENT, and the other ports of a tick -/

/-- The streams' part of an absence. -/
def Hub.absentStreams (p : Fin 4) (h : Hub) : Hub := h.forEach 16 (Hub.absentStream p)

/-- What follows the streams' part of an absence. -/
def Hub.absentRest (p : Fin 4) (h : Hub) : Hub :=
  (Hub.absentTally p (Hub.absentClips p (h.forEach 8 (Hub.absentPath p)))).notify .portAbsent p.val

section
variable (h : Hub) (p : Fin 4) {j : Fin 16}

theorem Hub.goAbsent_parts (n : Nat) : Hub.goAbsent p n h =
    ((h.modPort p fun x => x.goAbsent n h.tb.lastTick).absentStreams p).absentRest p := rfl

theorem Hub.absentRest_leaves (hj : (12 : Fin 16) ≠ j) : Hub.LeavesStream j h (h.absentRest p) := by
  have htail : ∀ g : Hub, Hub.OnlyChanges [.log, .tally, .notices] g
      ((Hub.absentTally p (Hub.absentClips p g)).notify .portAbsent p.val) := fun g =>
    (((g.absentClips_only p).mono (by decide)).trans ((Hub.withTally_only _ _).mono (by decide))).trans
      ((Hub.notify_only _ _ _).mono (by decide))
  exact (Hub.LeavesStream.forEach (fun q g => g.absentPath_leaves hj p q) h).trans
    (.of_only (htail _) (by decide) (by decide) (by decide))

theorem Hub.absentRest_heard : Hub.Heard absenceKinds h (h.absentRest p) :=
  (Hub.Heard.forEach (fun q g => (g.absentPath_heard p q).mono (by decide)) h).trans
    (.trans (.trans (.trans (Hub.mapClips_heard _ _) (Hub.mapClips_heard _ _)) (Hub.withTally_heard _ _))
      (Hub.notify_heard _ (k := .portAbsent) (by decide) _))

theorem Hub.absentRest_ports : (h.absentRest p).ports = h.ports := by
  have hpaths : Hub.OnlyChanges pathParts h (h.forEach 8 (Hub.absentPath p)) := .forEach (fun q g => g.absentPath_only p q) h
  have htail : ∀ g : Hub, ((Hub.absentTally p (Hub.absentClips p g)).notify .portAbsent p.val).ports = g.ports := fun _ => rfl
  exact (htail _).trans (hpaths .ports (by decide)).symm

theorem Hub.absentStreams_ports : (h.absentStreams p).ports = h.ports := by
  have hstreams : Hub.OnlyChanges [.streams, .rings, .sending, .budget, .log, .notices] h (h.absentStreams p) :=
    .forEach (fun k g => g.absentStream_only p k) h
  exact (hstreams .ports (by decide)).symm

theorem Hub.goAbsent_ports (n : Nat) :
    (Hub.goAbsent p n h).ports = (h.modPort p fun x => x.goAbsent n h.tb.lastTick).ports := by
  rw [Hub.goAbsent_parts, Hub.absentRest_ports, Hub.absentStreams_ports]

theorem Hub.modPort_leaves (f : PortRecord → PortRecord) : Hub.LeavesStream j h (h.modPort p f) :=
  .of_only (h.modPort_only p f) (by decide) (by decide) (by decide)

theorem Hub.goAbsent_keeps (hj : (12 : Fin 16) ≠ j) (n : Nat) : Hub.PortKeeps j h (Hub.goAbsent p n h) :=
  ((h.modPort_leaves p _).portKeeps.trans (.forEach (fun i g => g.absentStream_keeps p i) _)).trans
    (Hub.absentRest_leaves _ p hj).portKeeps

theorem Hub.goAbsent_holdStays (hj : (12 : Fin 16) ≠ j) {o : Option (Fin 4)} (ho : o ≠ some p) (n : Nat) :
    Hub.HoldStays j o h (Hub.goAbsent p n h) :=
  ((h.modPort_leaves p _).holdStays.trans (Hub.forEach_relates (f := Hub.absentStream p) (R := Hub.HoldStays j o)
    (Hub.HoldStays.refl j o) Hub.HoldStays.trans (fun i g => g.absentStream_holdStays p ho i) _)).trans
    (Hub.absentRest_leaves _ p hj).holdStays

/-- R44: a stream that is HELD by a port that goes ABSENT is OPEN. -/
theorem Hub.goAbsent_opens (hj : (12 : Fin 16) ≠ j) (hheld : (h.stream j).state = .held) (hs : (h.stream j).setter = some p)
    (n : Nat) : ((Hub.goAbsent p n h).stream j).state = .opened ∧ ((Hub.goAbsent p n h).stream j).setter = none ∧
      ∀ q : Fin 4, ((Hub.goAbsent p n h).notices[q]).summary.getLsbD 4 = true := by
  obtain ⟨g, ⟨hsame, -⟩, hopened, hheard⟩ := Hub.forEach_at (f := Hub.absentStream p)
    (R := fun a b => b.stream j = a.stream j ∧ Hub.Heard stateKinds a b) (fun a => ⟨rfl, .refl _ a⟩)
    (fun h₁ h₂ => ⟨h₂.1.trans h₁.1, h₁.2.trans h₂.2⟩) j
    (fun i g hi => ⟨g.absentStream_ne p hi, g.absentStream_heard p i⟩) (h.modPort p fun x => x.goAbsent n h.tb.lastTick)
  have hstream : g.stream j = h.stream j := hsame
  obtain ⟨hstate, hnone, htold⟩ := g.absentStream_opens p (j := j) (by rw [hstream]; exact hheld) (by rw [hstream]; exact hs)
  rw [Hub.goAbsent_parts]
  change (((h.modPort p fun x => x.goAbsent n h.tb.lastTick).absentStreams p).stream j) = _ at hopened
  change Hub.Heard stateKinds _ ((h.modPort p fun x => x.goAbsent n h.tb.lastTick).absentStreams p) at hheard
  generalize (h.modPort p fun x => x.goAbsent n h.tb.lastTick).absentStreams p = b at hopened hheard ⊢
  obtain ⟨hnone', hstate'⟩ := (b.absentRest_leaves p hj).holdStays (o := none) (by rw [hopened]; exact hnone)
  refine ⟨by rw [hstate', hopened]; exact hstate, hnone', fun q => ?_⟩
  exact (b.absentRest_heard p).summary_mono q (by decide) (hheard.summary_mono q (by decide) (htold q))

/-- R177: what a tick makes of a port. -/
theorem Hub.tickPort_cases : (∃ n, strapPeriod h.strap = some n ∧ (h.ports[p]).expiring n = true ∧
      Hub.tickPort p h = Hub.goAbsent p n h) ∨
    ((Hub.tickPort p h).ports[p]).present = (h.ports[p]).present ∧ Hub.OnlyChanges [.ports] h (Hub.tickPort p h) := by
  unfold Hub.tickPort
  split
  · exact .inr ⟨rfl, .refl _ h⟩
  · rename_i n hn
    dsimp only
    split
    · rename_i he
      exact .inl ⟨n, hn, he, rfl⟩
    · split
      · refine .inr ⟨?_, h.modPort_only p _⟩
        rw [Hub.modPort_self]
      · exact .inr ⟨rfl, .refl _ h⟩

theorem Hub.tickPort_ports_ne {q : Fin 4} (hq : q ≠ p) : (Hub.tickPort p h).ports[q] = h.ports[q] := by
  unfold Hub.tickPort
  split
  · rfl
  · dsimp only
    split
    · exact (congrArg (fun x : Vector PortRecord 4 => x[q]) (h.goAbsent_ports p _)).trans (Hub.modPort_ne _ _ hq)
    · split
      · rw [Hub.modPort_ne _ _ hq]
      · rfl

theorem Hub.tickPort_keeps (hj : (12 : Fin 16) ≠ j) : Hub.PortKeeps j h (Hub.tickPort p h) := by
  rcases h.tickPort_cases p with ⟨n, -, -, hn⟩ | ⟨-, ho⟩
  · rw [hn]
    exact h.goAbsent_keeps p hj n
  · exact (Hub.LeavesStream.of_only ho (by decide) (by decide) (by decide)).portKeeps

theorem Hub.tickPort_holdStays (hj : (12 : Fin 16) ≠ j) {o : Option (Fin 4)} (ho : o ≠ some p) :
    Hub.HoldStays j o h (Hub.tickPort p h) := by
  rcases h.tickPort_cases p with ⟨n, -, -, hn⟩ | ⟨-, hsame⟩
  · rw [hn]
    exact h.goAbsent_holdStays p hj ho n
  · exact (Hub.LeavesStream.of_only hsame (by decide) (by decide) (by decide)).holdStays

end

/-- R44, R177: what the ports' part of a tick makes of a hold. -/
structure Hub.HoldJudged (j : Fin 16) (g h : Hub) : Prop where
  stays : (∀ q, (g.stream j).setter = some q → (h.ports[q]).present = true) → (h.stream j).state = .held
  ends : ∀ q, (g.stream j).setter = some q → (g.ports[q]).present = true → (h.ports[q]).present = false →
    (h.stream j).state = .opened ∧ ∀ p : Fin 4, (h.notices[p]).summary.getLsbD 4 = true

theorem Hub.tickPorts_hold (h : Hub) {j : Fin 16} (hj : (12 : Fin 16) ≠ j) (hheld : (h.stream j).state = .held) :
    Hub.HoldJudged j h h.tickPorts := by
  cases hs : (h.stream j).setter with
  | none =>
    have hstays := Hub.forEach_relates (f := Hub.tickPort) (R := Hub.HoldStays j none) (Hub.HoldStays.refl j none)
      Hub.HoldStays.trans (fun p g => g.tickPort_holdStays p hj nofun) h hs
    refine ⟨fun _ => hstays.2.trans hheld, fun q hq => ?_⟩
    exact absurd (hs.symm.trans hq) nofun
  | some p =>
    obtain ⟨g, ⟨hbefore, hport, -⟩, hafter, hport', hheard⟩ := Hub.forEach_at (f := Hub.tickPort)
      (R := fun a b => (∀ o : Option (Fin 4), o = some p ∨ o = none → Hub.HoldStays j o a b) ∧ b.ports[p] = a.ports[p] ∧
        Hub.Heard absenceKinds a b)
      (fun a => ⟨fun o _ => .refl j o a, rfl, .refl _ a⟩)
      (fun h₁ h₂ => ⟨fun o ho => (h₁.1 o ho).trans (h₂.1 o ho), h₂.2.1.trans h₁.2.1, h₁.2.2.trans h₂.2.2⟩) p
      (fun q g hq => ⟨fun o ho => g.tickPort_holdStays q hj (by
        rcases ho with rfl | rfl
        · exact fun he => hq (Option.some.inj he).symm
        · exact nofun), g.tickPort_ports_ne q hq.symm, g.tickPort_heard q⟩) h
    change ∀ o : Option (Fin 4), _ → Hub.HoldStays j o _ h.tickPorts at hafter
    change h.tickPorts.ports[p] = _ at hport'
    change Hub.Heard absenceKinds _ h.tickPorts at hheard
    obtain ⟨hsetter, hstate⟩ := hbefore (some p) (.inl rfl) hs
    have hgheld := hstate.trans hheld
    rcases g.tickPort_cases p with ⟨n, -, -, hn⟩ | ⟨hpresent, ho⟩
    · obtain ⟨hopened, hnone, htold⟩ := g.goAbsent_opens p hj hgheld hsetter n
      rw [hn] at hafter hport' hheard
      have hgone : (h.tickPorts.ports[p]).present = false := by
        rw [hport', Hub.goAbsent_ports, Hub.modPort_self]
        rfl
      have hend := (hafter none (.inr rfl) hnone).2.trans hopened
      refine ⟨fun hall => ?_, fun q _ _ _ => ⟨hend, fun x => hheard.summary_mono x (by decide) (htold x)⟩⟩
      exact absurd ((hall p hs).symm.trans hgone) nofun
    · have hturn := (Hub.LeavesStream.of_only (k := j) ho (by decide) (by decide) (by decide)).holdStays hsetter
      have hend := (hafter (some p) (.inl rfl) hturn.1).2.trans (hturn.2.trans hgheld)
      have hsame : (h.tickPorts.ports[p]).present = (h.ports[p]).present := by
        rw [hport', hpresent, hport]
      refine ⟨fun _ => hend, fun q hq htrue hfalse => ?_⟩
      obtain rfl := Option.some.inj (hs.symm.trans hq)
      exact absurd (htrue.symm.trans (hsame.symm.trans hfalse)) nofun

end Sys2Proof.Machine
end

section
/-! Proofs: the sound streams at a tick (R83, R84, Table 16). -/

namespace Sys2Proof.Machine

-- In order, so that the package in one text stays within the memory of its check.
set_option Elab.async false

/-! ### The coder's part of a tick, for the sound streams -/

section
variable {k : Fin 16} (h : Hub)

theorem Hub.modInput_leaves (i : Fin 4) (f : VideoInput → VideoInput) : Hub.LeavesStream k h (h.modInput i f) :=
  .of_only (h.modInput_only i f) (by decide) (by decide) (by decide)

theorem Hub.withTally_leaves (t : Tally) : Hub.LeavesStream k h { h with tally := t } :=
  .of_only (h.withTally_only t) (by decide) (by decide) (by decide)

theorem Hub.loseInput_leaves (hk : (12 : Fin 16) ≠ k) (hp : ∀ j, pictureStream j ≠ k) (i : Fin 4) :
    Hub.LeavesStream k h (h.loseInput i) := by
  unfold Hub.loseInput
  exact (((h.modInput_leaves i _).trans (Hub.withTally_leaves _ _)).trans (Hub.inputChanged_leaves _ hk i _)).trans
    (.forEach (fun j g => g.abortFrom_leaves (hp j) i) _)

theorem Hub.tickInput_leaves (hk : (12 : Fin 16) ≠ k) (hp : ∀ j, pictureStream j ≠ k) (i : Fin 4) :
    Hub.LeavesStream k h (Hub.tickInput i h) := by
  unfold Hub.tickInput
  dsimp only
  refine .ite (.ite (h.modInput_leaves i _) ((h.modInput_leaves i _).trans (Hub.loseInput_leaves _ hk hp i))) (.ite ?_ ?_)
  · exact ((h.modInput_leaves i _).trans (Hub.modInput_leaves _ i _)).trans (Hub.inputChanged_leaves _ hk i _)
  · exact ((h.modInput_leaves i _).trans (Hub.modInput_leaves _ i _)).trans (Hub.withTally_leaves _ _)

/-- The coder's part of a tick leaves the streams that are no picture stream. -/
theorem Hub.tickCoder_leaves (hk : (12 : Fin 16) ≠ k) (hp : ∀ j, pictureStream j ≠ k) : Hub.LeavesStream k h h.tickCoder :=
  ((Hub.LeavesStream.forEach (fun j g => g.lateDrop_leaves hk (hp j)) h).trans
    (.forEach (fun i g => g.tickInput_leaves hk hp i) _)).trans (.forEach (fun j g => g.beginPicture_leaves (hp j)) _)

end

theorem pictureStream_ne_sound (j : Fin 4) (k : Fin 8) : pictureStream j ≠ soundStream k := fun he =>
  pictureStream_ne (Nat.le_add_right 4 k.val) j he.symm

/-! ### The turn of a sound stream (R83, R84, Table 16) -/

section
variable (h : Hub) (ended : Frame) (n : Nat) (k : Fin 8)

theorem Hub.packBegun_leaves (j : Fin 16) : Hub.LeavesStream j h (h.packBegun k) := by
  unfold Hub.packBegun Hub.startPack
  exact (h.modPack_leaves k _).trans (Hub.modPack_leaves _ k _)

theorem Hub.packOffered_packing (hp : (h.mixer.packs[k]).state = .packing) :
    h.packOffered ended n k = ((h.packBegun k).offer (h.soundOffer ended n k)).1 := if_pos hp

theorem Hub.packOffered_idle (hp : (h.mixer.packs[k]).state ≠ .packing) : h.packOffered ended n k = h.packBegun k := if_neg hp

theorem Hub.packOffered_standing :
    ((h.packOffered ended n k).stream (soundStream k)).standing = (h.stream (soundStream k)).standing := by
  have hbegun := (h.packBegun_leaves k (soundStream k)).standing
  unfold Hub.packOffered
  split
  · exact ((Hub.offer_stands (S := fun _ => True) _ trivial) (soundStream k)).1.trans hbegun
  · exact hbegun

/-- What the end of a sound stream's turn makes of its state: CLOSING ends with STREAM_STATE. -/
structure Hub.TurnEnds (j : Fin 16) (g t : Hub) : Prop where
  units : Hub.KeepsUnits j g t
  bytes : Hub.KeepsBytes j.castSucc g t
  buffer : (t.stream j).buffer = (g.stream j).buffer
  closes : (g.stream j).state = .closing → (t.stream j).state = .closed ∧
    ∀ p : Fin 4, (t.notices[p]).summary.getLsbD 4 = true
  stays : (g.stream j).state ≠ .closing → t.stream j = g.stream j

theorem Hub.endClosing_buffer (j : Fin 16) : ((h.endClosing j).stream j).buffer = (h.stream j).buffer := by
  rw [Hub.endClosing_self]
  split
  · rw [Hub.endHold_self]
  · rfl

theorem Hub.tickPack_ends : Hub.TurnEnds (soundStream k) (h.packOffered ended n k) (Hub.tickPack ended n k h) := by
  rw [Hub.tickPack_eq]
  generalize h.packOffered ended n k = g
  split
  · rename_i hc
    refine ⟨g.endClosing_keepsUnits _, g.endClosing_bytes _ _, g.endClosing_buffer _, fun _ => ⟨?_, g.endClosing_summary _⟩,
      fun hn => absurd hc hn⟩
    rw [Hub.endClosing_self]
  · rename_i hc
    exact ⟨.refl _ g, .refl _ g, rfl, fun hn => absurd hn hc, fun _ => rfl⟩

end

/-! ### The whole tick, around the turn of a sound stream -/

theorem Stream.standing_setter {x y : Stream} (hs : x.standing = y.standing) : x.setter = y.setter :=
  show x.standing.setter = y.standing.setter by rw [hs]

/-- The turn of a sound stream's pack at a tick. -/
def Hub.turn (old : Timebase) (k : Fin 8) (g : Hub) : Hub := Hub.tickPack old.frame (old.frameRate.samples old.frame.phase)
    k g

/-- The hub that the turn of sound stream 4 + k finds in a tick, and what follows the turn up to the ports' part. -/
structure Hub.SoundTurn (h : Hub) (m : Nat) (k : Fin 8) (g : Hub) : Prop where
  before : Hub.LeavesStream (soundStream k) h g
  pack : g.mixer.packs[k] = h.mixer.packs[k]
  buses : g.mixer.buses = (h.judged m).mixer.buses
  timebase : g.tb = h.tb.tick m
  strap : g.strap = h.strap
  after : Hub.LeavesStream (soundStream k) (Hub.turn h.tb k g) (h.tickBlocks m)
  heard : Hub.Heard tickKinds (Hub.turn h.tb k g) (h.tickBlocks m)

section
variable (h : Hub) (m : Nat) (k : Fin 8)

theorem Hub.tick_turn : ∃ g, Hub.SoundTurn h m k g := by
  obtain ⟨g, hbefore, hafter, hheard⟩ := (h.judged m).tickPacks_turn h.tb k
  change Hub.LeavesPack k (Hub.turn h.tb k g) _ at hafter
  change Hub.Heard _ (Hub.turn h.tb k g) _ at hheard
  have hlabel := labelStream_ne_sound k
  have hopened : Hub.LeavesStream (soundStream k) ((h.judged m).tickPacks h.tb) (h.atCoder m) := by
    rw [Hub.atCoder_judged]
    exact .of_only (Hub.openMixerFrame_only _) (by decide) (by decide) (by decide)
  have hopenedHeard : Hub.Heard tickKinds ((h.judged m).tickPacks h.tb) (h.atCoder m) := by
    rw [Hub.atCoder_judged]
    exact (Hub.openMixerFrame_only _).heard (by decide)
  have hblocks : Hub.LeavesStream (soundStream k) (h.atCoder m) (h.tickBlocks m) :=
    (((h.atCoder m).tickCoder_leaves hlabel fun j => pictureStream_ne_sound j k).trans
      ((h.atPaths m).tickPaths_leaves hlabel)).trans (Hub.tickGauges_leaves _)
  have hblocksHeard : Hub.Heard tickKinds (h.atCoder m) (h.tickBlocks m) :=
    (((h.atCoder m).tickCoder_heard.mono (by decide)).trans
      (.forEach (fun p g => (g.tickPath_heard p).mono (by decide)) _)).trans ((Hub.tickGauges_heard _).mono (by decide))
  exact ⟨g, (h.judged_leaves m k).trans hbefore.stream, hbefore.pack.trans (h.judged_pack m k), hbefore.buses,
    hbefore.timebase.trans (h.judged_tb m), hbefore.strap.trans (h.judged_strap m), (hafter.stream.trans hopened).trans
      hblocks,
    ((hheard.mono (by decide)).trans hopenedHeard).trans hblocksHeard⟩

/-- The ports before their part of a tick. -/
theorem Hub.tickBlocks_ports : (h.tickBlocks m).ports = h.ports := by
  have hearly := h.atPaths_only m .ports (by decide)
  have hpaths := (h.atPaths m).tickPaths_only .ports (by decide)
  have hgauges := (h.atGauges m).tickGauges_only .ports (by decide)
  exact ((hearly.trans hpaths).trans hgauges).symm

theorem Hub.tick_ports : (h.tick m).ports = (h.afterPorts m).ports := (h.tick_late m .ports (by decide)).symm

theorem Hub.tick_lateHeard : Hub.Heard tickKinds (h.tickBlocks m) (h.tick m) := by
  have hports : Hub.Heard tickKinds (h.tickBlocks m) (h.afterPorts m) := (Hub.tickPorts_heard _).mono (by decide)
  have hpaths : Hub.Heard tickKinds (h.afterPorts m) (h.afterPorts m).openPaths := (Hub.openPaths_only _).heard (by decide)
  rw [Hub.tick_stages]
  exact (hports.trans hpaths).trans (Hub.lateStages_heard _)

theorem Hub.tick_portKeeps : Hub.PortKeeps (soundStream k) (h.tickBlocks m) (h.tick m) :=
  (Hub.PortKeeps.forEach (fun p g => g.tickPort_keeps p (labelStream_ne_sound k)) _).trans
    (Hub.LeavesStream.of_only (h.tick_late m) (by decide) (by decide) (by decide)).portKeeps

variable {h m k}

/-- Table 16: a sound stream in CLOSING is CLOSED at a tick. -/
theorem Hub.tick_soundCloses (hc : (h.stream (soundStream k)).state = .closing) :
    ((h.tick m).stream (soundStream k)).state = .closed ∧ ∀ p : Fin 4, ((h.tick m).notices[p]).summary.getLsbD 4 = true := by
  obtain ⟨g, hturn⟩ := h.tick_turn m k
  have hends := g.tickPack_ends h.tb.frame (h.tb.frameRate.samples h.tb.frame.phase) k
  have hstanding := (g.packOffered_standing h.tb.frame (h.tb.frameRate.samples h.tb.frame.phase) k).trans
    hturn.before.standing
  obtain ⟨hclosed, htold⟩ := hends.closes ((Stream.standing_state hstanding).trans hc)
  change ((Hub.turn h.tb k g).stream (soundStream k)).state = _ at hclosed
  have hblocks := (Stream.standing_state hturn.after.standing).trans hclosed
  refine ⟨((h.tick_portKeeps m k).state (by rw [hblocks]; nofun)).trans hblocks, fun p => ?_⟩
  exact (h.tick_lateHeard m).summary_mono p (by decide) (hturn.heard.summary_mono p (by decide) (htold p))

/-- A sound stream that is not in CLOSING comes to the ports' part of a tick as it stood. -/
theorem Hub.tick_soundStands (hc : (h.stream (soundStream k)).state ≠ .closing) :
    ((h.tickBlocks m).stream (soundStream k)).standing = (h.stream (soundStream k)).standing := by
  obtain ⟨g, hturn⟩ := h.tick_turn m k
  have hends := g.tickPack_ends h.tb.frame (h.tb.frameRate.samples h.tb.frame.phase) k
  have hstanding := (g.packOffered_standing h.tb.frame (h.tb.frameRate.samples h.tb.frame.phase) k).trans
    hturn.before.standing
  have hstays := hends.stays (by rw [Stream.standing_state hstanding]; exact hc)
  change (Hub.turn h.tb k g).stream (soundStream k) = _ at hstays
  rw [hturn.after.standing, hstays]
  exact hstanding

theorem Hub.tick_soundKeeps (hs : (h.stream (soundStream k)).state = .opened ∨ (h.stream (soundStream k)).state = .closed) :
    ((h.tick m).stream (soundStream k)).state = (h.stream (soundStream k)).state := by
  have hne : (h.stream (soundStream k)).state ≠ .closing ∧ (h.stream (soundStream k)).state ≠ .held := by
    rcases hs with hs | hs
    · rw [hs]
      exact ⟨nofun, nofun⟩
    · rw [hs]
      exact ⟨nofun, nofun⟩
  have hblocks := Stream.standing_state (h.tick_soundStands (m := m) hne.1)
  exact ((h.tick_portKeeps m k).state (by rw [hblocks]; exact hne.2)).trans hblocks

/-- R44, R179: a HELD sound stream at a tick. -/
theorem Hub.tick_soundHold (hs : (h.stream (soundStream k)).state = .held) :
    Hub.HoldJudged (soundStream k) h (h.tick m) := by
  have hstanding := h.tick_soundStands (m := m) (k := k) (by rw [hs]; nofun)
  have hstate := (Stream.standing_state hstanding).trans hs
  have hsetter : ((h.tickBlocks m).stream (soundStream k)).setter = (h.stream (soundStream k)).setter :=
    Stream.standing_setter hstanding
  have hjudged := (h.tickBlocks m).tickPorts_hold (labelStream_ne_sound k) hstate
  have hstream := (h.tick_late m).stream_eq (by decide) (soundStream k)
  have hbefore := h.tickBlocks_ports m
  have hafter := h.tick_ports m
  have hlast : Hub.Heard tickKinds (h.afterPorts m) (h.tick m) := by
    rw [Hub.tick_stages]
    exact ((Hub.openPaths_only _).heard (by decide)).trans (Hub.lateStages_heard _)
  change Hub.HoldJudged (soundStream k) (h.tickBlocks m) (h.afterPorts m) at hjudged
  generalize h.tick m = t at hstream hafter hlast ⊢
  generalize h.afterPorts m = b at hjudged hstream hafter hlast
  generalize h.tickBlocks m = a at hjudged hsetter hbefore
  refine ⟨fun hall => ?_, fun q hq htrue hfalse => ?_⟩
  · rw [hstream]
    exact hjudged.stays fun q hq => by
      rw [← hafter]
      exact hall q (hsetter.symm.trans hq)
  · rw [hstream]
    obtain ⟨hopened, htold⟩ := hjudged.ends q (hsetter.trans hq) (by rw [hbefore]; exact htrue)
      (by rw [← hafter]; exact hfalse)
    exact ⟨hopened, fun p => hlast.summary_mono p (by decide) (htold p)⟩

end

/-! ### The unit of a sound stream (R83, R84) -/

/-- Between two hubs stream j had no unit committed, its ring stays but for the send pointer, with the bytes of its units,
and with
an empty insert buffer none was discarded. -/
structure Hub.UnitsStay (j : Fin 16) (g h : Hub) : Prop where
  entries : Hub.KeepsEntries j g h
  bytes : Hub.KeepsBytes j.castSucc g h
  discarded : (g.stream j).buffer = [] → (h.stream j).discarded = (g.stream j).discarded

theorem Stream.standing_fields {x y : Stream} (hs : x.standing = y.standing) :
    x.state = y.state ∧ x.fromHeld = y.fromHeld ∧ x.global = y.global ∧ x.discard = y.discard ∧ x.buffer = y.buffer :=
  show x.standing.state = y.standing.state ∧ x.standing.fromHeld = y.standing.fromHeld ∧
      x.standing.global = y.standing.global ∧ x.standing.discard = y.standing.discard ∧
      x.standing.buffer = y.standing.buffer by
    rw [hs]
    exact ⟨rfl, rfl, rfl, rfl, rfl⟩

section
variable {h g : Hub} {m : Nat} {k : Fin 8}

/-- What follows the offer of a sound stream's unit in a tick. -/
theorem Hub.SoundTurn.afterOffer (hturn : Hub.SoundTurn h m k g) :
    Hub.UnitsStay (soundStream k) (g.packOffered h.tb.frame (h.tb.frameRate.samples h.tb.frame.phase) k) (h.tick m) := by
  have hends := g.tickPack_ends h.tb.frame (h.tb.frameRate.samples h.tb.frame.phase) k
  change Hub.TurnEnds (soundStream k) _ (Hub.turn h.tb k g) at hends
  have hafter := hturn.after.portKeeps.trans (h.tick_portKeeps m k)
  refine ⟨hends.units.entries.trans hafter.entries, hends.bytes.trans hafter.bytes, fun hb => ?_⟩
  exact (hafter.empty (hends.buffer.trans hb)).2.trans hends.units.discarded

/-- The hub that a sound stream's unit is offered to. -/
theorem Hub.SoundTurn.begun (hturn : Hub.SoundTurn h m k g) : Hub.LeavesStream (soundStream k) h (g.packBegun k) :=
  hturn.before.trans (g.packBegun_leaves k _)

/-- R82: without a frame that is packed nothing is offered. -/
theorem Hub.tick_soundIdle (m : Nat) (hp : (h.mixer.packs[k]).state ≠ .packing)
    (hb : (h.stream (soundStream k)).buffer = []) :
    ((h.tick m).stream (soundStream k)).committed = (h.stream (soundStream k)).committed ∧
      ((h.tick m).stream (soundStream k)).discarded = (h.stream (soundStream k)).discarded ∧
      ((h.tick m).ring (soundStream k).castSucc).index = (h.ring (soundStream k).castSucc).index := by
  obtain ⟨g, hturn⟩ := h.tick_turn m k
  have hafter := hturn.afterOffer
  rw [Hub.packOffered_idle g _ _ k (by rw [hturn.pack]; exact hp)] at hafter
  have hbegun := hturn.begun
  obtain ⟨-, -, -, -, hbuffer⟩ := Stream.standing_fields hbegun.standing
  obtain ⟨w, hw⟩ := (hbegun.units.entries.trans hafter.entries).ring
  exact ⟨hafter.entries.committed.trans hbegun.units.committed,
    (hafter.discarded (hbuffer.trans hb)).trans hbegun.units.discarded, by rw [hw]⟩

/-- What the offer of a sound stream's unit finds, and what follows it. -/
structure Hub.SoundOffered (h : Hub) (k : Fin 8) (u v t : Hub) : Prop where
  before : Hub.LeavesStream (soundStream k) h u
  after : Hub.UnitsStay (soundStream k) v t

/-- The unit that a tick offers for sound stream 4 + k. -/
def Hub.soundUnit (h : Hub) (k : Fin 8) : Offer :=
  { stream := soundStream k
    payload := soundPayload (h.tb.frameRate.samples h.tb.frame.phase) (h.mixer.packs[k]).buffer
    frame := h.tb.frame
    flags := { inputError := (h.mixer.buses[firstBus k]).inputError || (h.mixer.buses[secondBus k]).inputError }
    producer := soundProducer k (h.tb.frameRate.samples h.tb.frame.phase) ((h.mixer.buses[firstBus k]).closeFrame)
      ((h.mixer.buses[secondBus k]).closeFrame) }

theorem Bus.judged_fields (b : Bus) : (b.overloadJudged.silenceJudged).inputError = b.inputError ∧
    (b.overloadJudged.silenceJudged).lastPeak = b.lastPeak ∧ (b.overloadJudged.silenceJudged).lastOverloads =
      b.lastOverloads := by
  have hsilence : ∀ x : Bus, x.silenceJudged.inputError = x.inputError ∧ x.silenceJudged.lastPeak = x.lastPeak ∧
      x.silenceJudged.lastOverloads = x.lastOverloads := fun x => by
    unfold Bus.silenceJudged
    split
    · exact ⟨rfl, rfl, rfl⟩
    · exact ⟨rfl, rfl, rfl⟩
  have hover : b.overloadJudged.inputError = b.inputError ∧ b.overloadJudged.lastPeak = b.lastPeak ∧
      b.overloadJudged.lastOverloads = b.lastOverloads := by
    unfold Bus.overloadJudged
    split
    · exact ⟨rfl, rfl, rfl⟩
    · exact ⟨rfl, rfl, rfl⟩
  obtain ⟨he, hp, ho⟩ := hsilence b.overloadJudged
  exact ⟨he.trans hover.1, hp.trans hover.2.1, ho.trans hover.2.2⟩

theorem Hub.SoundTurn.unit (hturn : Hub.SoundTurn h m k g) :
    g.soundOffer h.tb.frame (h.tb.frameRate.samples h.tb.frame.phase) k = h.soundUnit k := by
  have hbus : ∀ i : Fin 16, (g.mixer.buses[i]).inputError = (h.mixer.buses[i]).inputError ∧
      (g.mixer.buses[i]).lastPeak = ((h.mixer.buses[i]).closeFrame).lastPeak ∧
      (g.mixer.buses[i]).lastOverloads = ((h.mixer.buses[i]).closeFrame).lastOverloads := fun i => by
    have hi : g.mixer.buses[i] = ((h.mixer.buses[i]).closeFrame).overloadJudged.silenceJudged :=
      (congrArg (fun x : Vector Bus 16 => x[i]) hturn.buses).trans (h.judged_bus m i)
    rw [hi]
    exact Bus.judged_fields _
  obtain ⟨he, hp, ho⟩ := hbus (firstBus k)
  obtain ⟨he', hp', ho'⟩ := hbus (secondBus k)
  unfold Hub.soundOffer Hub.soundUnit soundProducer
  dsimp only
  rw [hturn.pack, he, he', hp, hp', ho, ho']

/-- R83: a packed frame is offered. -/
theorem Hub.tick_soundOffer (h : Hub) (m : Nat) (hp : (h.mixer.packs[k]).state = .packing) :
    ∃ u, Hub.SoundOffered h k u (u.offer (h.soundUnit k)).1 (h.tick m) ∧ u.strap = h.strap ∧ u.tb.rate = h.tb.rate := by
  obtain ⟨g, hturn⟩ := h.tick_turn m k
  have hafter := hturn.afterOffer
  rw [Hub.packOffered_packing g _ _ k (by rw [hturn.pack]; exact hp), hturn.unit] at hafter
  refine ⟨g.packBegun k, ⟨hturn.begun, hafter⟩, hturn.strap, ?_⟩
  change g.tb.rate = _
  rw [hturn.timebase, Timebase.tick_rate]

end

end Sys2Proof.Machine
end

section
/-! Proofs: the unit of a sound stream at a tick, and its obligation (R34, R83). -/

namespace Sys2Proof.Machine

-- In order, so that the package in one text stays within the memory of its check.
set_option Elab.async false

theorem soundPayload_length (n : Nat) (xs : List (BitVec 24 × BitVec 24)) : (soundPayload n xs).length = 6 * n := by
  have hmany : ∀ ys : List (BitVec 24 × BitVec 24),
      (ys.flatMap fun x => sampleBytes x.1 ++ sampleBytes x.2).length = 6 * ys.length := by
    intro ys
    induction ys with
    | nil => rfl
    | cons y ys ih =>
      rw [List.flatMap_cons, List.length_append, ih, List.length_cons]
      simp only [sampleBytes, List.length_append, le_length]
      omega
  have hmissing : (missingSamples n).length = n := by simp [missingSamples]
  unfold soundPayload
  rw [hmany, List.length_take, List.length_append, hmissing]
  omega

theorem soundPayload_eq {n : Nat} {xs : List (BitVec 24 × BitVec 24)} (hx : xs.length = n) :
    soundPayload n xs = xs.reverse.flatMap fun x => le 3 x.1.toNat ++ le 3 x.2.toNat := by
  unfold soundPayload
  rw [List.take_left' (by rw [List.length_reverse]; exact hx)]
  rfl

theorem samples_le (r : Rate) (phase : Nat) : r.samples phase ≤ 1920 := by
  unfold Rate.samples
  cases r
  case r25 => exact Nat.le_refl _
  case r50 => exact Nat.le_of_ble_eq_true rfl
  all_goals
    dsimp only
    split <;> exact Nat.le_of_ble_eq_true rfl

section
variable {h u t : Hub} {k : Fin 8}

theorem Hub.soundUnit_sectors (h : Hub) (k : Fin 8) :
    (h.soundUnit k).payload.length = 6 * h.tb.frameRate.samples h.tb.frame.phase ∧
    sectorsOf (h.soundUnit k).payload.length ≤ 256 := by
  have hlen : (h.soundUnit k).payload.length = 6 * h.tb.frameRate.samples h.tb.frame.phase := soundPayload_length _ _
  have hle := samples_le h.tb.frameRate h.tb.frame.phase
  refine ⟨hlen, ?_⟩
  rw [hlen]
  unfold sectorsOf
  omega

/-- The bound ring of a sound stream that is bound OWN, as the offer finds it. -/
theorem Hub.LeavesStream.ownRing (hl : Hub.LeavesStream (soundStream k) h u)
    (hg : (h.stream (soundStream k)).global = false) :
    u.boundRing (soundStream k) = (soundStream k).castSucc ∧
      ∃ w, u.ring (soundStream k).castSucc = { h.ring (soundStream k).castSucc with send := w } := by
  obtain ⟨-, -, hglobal, -⟩ := Stream.standing_fields hl.standing
  refine ⟨?_, hl.units.ring⟩
  unfold Hub.boundRing
  rw [hglobal, hg]
  rfl

/-- The entry of a sound unit that is committed. -/
def Hub.soundEntry (h : Hub) (k : Fin 8) : Entry :=
  h.newEntry (soundStream k).castSucc (h.soundUnit k) (h.ring (soundStream k).castSucc).head none

theorem Hub.LeavesStream.soundEntry (hbefore : Hub.LeavesStream (soundStream k) h u)
    (hg : (h.stream (soundStream k)).global = false) : u.committedEntry (h.soundUnit k) = h.soundEntry k := by
  obtain ⟨hbound, w, hring⟩ := hbefore.ownRing hg
  have hbound' : u.boundRing (h.soundUnit k).stream = (soundStream k).castSucc := hbound
  have hne : (soundStream k).castSucc ≠ (16 : Fin 17) := fun he => by
    have hval := congrArg Fin.val he
    have hlt := (soundStream k).isLt
    change (soundStream k).val = 16 at hval
    omega
  have hunit : u.nextUnit (h.soundUnit k).stream = (h.ring (soundStream k).castSucc).head := by
    change (u.ring (soundStream k).castSucc).head = _
    rw [hring]
  unfold Hub.committedEntry Hub.soundEntry Hub.newEntry Hub.nextG
  rw [hbound', hunit, hring, if_neg hne]

variable (ho : Hub.SoundOffered h k u (u.offer (h.soundUnit k)).1 t) (hs : (h.stream (soundStream k)).state ≠ .closed)
  (hg : (h.stream (soundStream k)).global = false) (hl : 512 ≤ (h.ring (soundStream k).castSucc).sectors)
  (hb : (h.stream (soundStream k)).buffer = [])
include ho hs hg hl hb

/-- R30, R84: a packed frame that is discarded or aborted is counted. -/
theorem Hub.SoundOffered.counts
    (hd : ((h.stream (soundStream k)).discard = true ∧ ((h.stream (soundStream k)).state = .held ∨
        ((h.stream (soundStream k)).state = .closing ∧ (h.stream (soundStream k)).fromHeld = true))) ∨
      ((h.soundUnit k).flags.inputError = true ∧ (h.ring (soundStream k).castSucc).keep = false)) :
    (t.stream (soundStream k)).discarded = (h.stream (soundStream k)).discarded + 1 ∧
      (t.stream (soundStream k)).committed = (h.stream (soundStream k)).committed ∧
      (t.ring (soundStream k).castSucc).index = (h.ring (soundStream k).castSucc).index := by
  obtain ⟨hbefore, hafter⟩ := ho
  obtain ⟨hstate, hfrom, hglobal, hdiscard, hbuffer⟩ := Stream.standing_fields hbefore.standing
  obtain ⟨hbound, w, hring⟩ := hbefore.ownRing hg
  have hsectors := (h.soundUnit_sectors k).2
  have hclosed : (u.stream (h.soundUnit k).stream).state ≠ .closed := by
    change (u.stream (soundStream k)).state ≠ .closed
    rw [hstate]
    exact hs
  have hjudged : ∃ fate, u.judge (h.soundUnit k) = (u.countDiscard (h.soundUnit k).stream, fate) := by
    by_cases hholds : (u.stream (soundStream k)).holding = true ∧ (u.stream (soundStream k)).discard = true
    · exact ⟨_, Hub.judge_discards hclosed hholds⟩
    · have herror := hd.resolve_left
        fun hc => hholds ((Stream.discards_iff _).mpr (by rw [hdiscard, hstate, hfrom]; exact hc))
      refine ⟨_, Hub.judge_aborts hclosed hholds ?_ ⟨herror.1, ?_⟩⟩
      · change sectorsOf _ ≤ (u.ring (u.boundRing (soundStream k))).sectors / 2
        rw [hbound, hring]
        change sectorsOf _ ≤ (h.ring (soundStream k).castSucc).sectors / 2
        omega
      · change ¬ (u.ring (u.boundRing (soundStream k))).keep = true
        rw [hbound, hring]
        change ¬ (h.ring (soundStream k).castSucc).keep = true
        rw [herror.2]
        nofun
  obtain ⟨fate, hjudge⟩ := hjudged
  obtain ⟨hstream, hrings, -, -⟩ := Hub.judge_counts hjudge
  change (u.offer (h.soundUnit k)).1.stream (soundStream k) = _ at hstream
  obtain ⟨w', hw⟩ := hafter.entries.ring
  refine ⟨?_, ?_, ?_⟩
  · rw [hafter.discarded (by rw [hstream]; exact hbuffer.trans hb), hstream]
    exact congrArg (· + 1) hbefore.units.discarded
  · rw [hafter.entries.committed, hstream]
    exact hbefore.units.committed
  · have hsame : (u.offer (h.soundUnit k)).1.ring (soundStream k).castSucc = u.ring (soundStream k).castSucc := by
      unfold Hub.ring
      rw [hrings]
    rw [hw, hsame, hring]

omit hb in
theorem Hub.SoundOffered.commits
    (hd : ¬ ((h.stream (soundStream k)).discard = true ∧ ((h.stream (soundStream k)).state = .held ∨
        ((h.stream (soundStream k)).state = .closing ∧ (h.stream (soundStream k)).fromHeld = true))))
    (he : (h.soundUnit k).flags.inputError = false ∨ (h.ring (soundStream k).castSucc).keep = true) :
    u.Commits (u.offer (h.soundUnit k)).1 (h.soundUnit k) := by
  obtain ⟨hbefore, hafter⟩ := ho
  obtain ⟨hstate, hfrom, hglobal, hdiscard, hbuffer⟩ := Stream.standing_fields hbefore.standing
  obtain ⟨hbound, w, hring⟩ := hbefore.ownRing hg
  have hsectors := (h.soundUnit_sectors k).2
  have hbound' : u.boundRing (h.soundUnit k).stream = (soundStream k).castSucc := hbound
  have hsize : (u.ring (soundStream k).castSucc).sectors = (h.ring (soundStream k).castSucc).sectors := by
    rw [hring]
    rfl
  refine Hub.offer_commits (Hub.judge_commits ?_ ?_ ?_ ?_) rfl ?_
  · change (u.stream (soundStream k)).state ≠ .closed
    rw [hstate]
    exact hs
  · intro hc
    have hdiscards := (Stream.discards_iff _).mp hc
    change (u.stream (soundStream k)).discard = true ∧ ((u.stream (soundStream k)).state = .held ∨
      ((u.stream (soundStream k)).state = .closing ∧ (u.stream (soundStream k)).fromHeld = true)) at hdiscards
    rw [hdiscard, hstate, hfrom] at hdiscards
    exact hd hdiscards
  · rw [hbound', hsize]
    omega
  · rw [hbound', hring]
    rintro ⟨herror, hkeep⟩
    rcases he with he | he
    · exact absurd (herror.symm.trans he) nofun
    · exact hkeep he
  · rw [hbound', hsize]
    omega

omit hs hl in
/-- R34, R83: a packed frame that is committed. -/
theorem Hub.SoundOffered.committed (hc : u.Commits (u.offer (h.soundUnit k)).1 (h.soundUnit k)) :
    (t.stream (soundStream k)).discarded = (h.stream (soundStream k)).discarded ∧
      (t.stream (soundStream k)).committed = (h.stream (soundStream k)).committed + 1 ∧
      (t.ring (soundStream k).castSucc).head = (h.ring (soundStream k).castSucc).head + 1 ∧
      (t.ring (soundStream k).castSucc).index.getLast? = some (h.soundEntry k) := by
  obtain ⟨hbefore, hafter⟩ := ho
  obtain ⟨-, -, -, -, hbuffer⟩ := Stream.standing_fields hbefore.standing
  obtain ⟨hbound, w, hring⟩ := hbefore.ownRing hg
  have hbound' : u.boundRing (h.soundUnit k).stream = (soundStream k).castSucc := hbound
  obtain ⟨⟨n, w', hcommit, -⟩, -, hcommitted, hdiscarded, -⟩ := hc
  obtain ⟨w'', hw⟩ := hafter.entries.ring
  have hstands : ((u.offer (h.soundUnit k)).1.stream (soundStream k)).standing = (u.stream (soundStream k)).standing :=
    ((Hub.offer_stands (S := fun _ => True) _ trivial) (soundStream k)).1
  obtain ⟨-, -, -, -, hoffered⟩ := Stream.standing_fields hstands
  change ((u.offer (h.soundUnit k)).1.stream (soundStream k)).committed = (u.stream (soundStream k)).committed + 1 at hcommitted
  change ((u.offer (h.soundUnit k)).1.stream (soundStream k)).discarded = (u.stream (soundStream k)).discarded at hdiscarded
  rw [hbound', hbefore.soundEntry hg] at hcommit
  refine ⟨?_, ?_, ?_, ?_⟩
  · rw [hafter.discarded (hoffered.trans (hbuffer.trans hb)), hdiscarded, hbefore.units.discarded]
  · rw [hafter.entries.committed, hcommitted, hbefore.units.committed]
  · rw [hw, hcommit, hring]
  · rw [hw, hcommit]
    exact List.getLast?_concat

omit hs hb in
/-- R34: the sectors of a sound unit that is committed, where the rings stand apart. -/
theorem Hub.SoundOffered.stores (hc : u.Commits (u.offer (h.soundUnit k)).1 (h.soundUnit k)) (hm : h.MemoryOk)
    (hoff : (h.ring (soundStream k).castSucc).headOff < (h.ring (soundStream k).castSucc).sectors)
    (hapart : h.Apart (soundStream k).castSucc) (hstrap : t.strap = u.strap) (hrate : t.tb.rate = u.tb.rate) :
    t.Stores (soundStream k).castSucc (h.soundEntry k) (h.soundUnit k).frame.phase (h.soundUnit k).producer
      (h.soundUnit k).payload := by
  obtain ⟨hbefore, hafter⟩ := ho
  obtain ⟨hbound, w, hring⟩ := hbefore.ownRing hg
  have hbound' : u.boundRing (h.soundUnit k).stream = (soundStream k).castSucc := hbound
  have hne : u.boundRing (h.soundUnit k).stream ≠ 16 := fun he => by
    have hval := congrArg Fin.val (hbound'.symm.trans he)
    have hlt := (soundStream k).isLt
    change (soundStream k).val = 16 at hval
    omega
  have hsectors := (h.soundUnit_sectors k).2
  obtain ⟨hbase, hsize, hok, -⟩ := u.offer_bytes hne
  generalize (u.offer (h.soundUnit k)).1 = v at *
  have hbaseV : ∀ r, (v.ring r).base = (h.ring r).base := fun r => (hbase r).trans (hbefore.bytes.base r)
  have hsizeV : ∀ r, (v.ring r).size = (h.ring r).size := fun r => (hsize r).trans (hbefore.bytes.size r)
  have hmV : v.MemoryOk := hok (hbefore.bytes.ok hm)
  have hapartV : v.Apart (soundStream k).castSucc := fun r hr => by
    rw [hbaseV, hbaseV, hsizeV, hsizeV]
    exact hapart r hr
  have hsame := hafter.bytes.bytes hapartV
  have hmT : t.MemoryOk := hafter.bytes.ok hmV
  have hbaseT := hafter.bytes.base (soundStream k).castSucc
  have hsizeT := hafter.bytes.size (soundStream k).castSucc
  have hsectorsT : (t.ring (soundStream k).castSucc).sectors = (h.ring (soundStream k).castSucc).sectors := by
    unfold Ring.sectors
    rw [hsizeT, hsizeV]
  have hread : (t.ring (soundStream k).castSucc).readBytes t.store.mem (h.ring (soundStream k).castSucc).headOff
        (512 * sectorsOf (h.soundUnit k).payload.length) =
      (t.ring (soundStream k).castSucc).readBytes v.store.mem (h.ring (soundStream k).castSucc).headOff
        (512 * sectorsOf (h.soundUnit k).payload.length) := by
    refine Ring.readBytes_congr _ hmT hmV (fun a ha => hsame a ?_) (by rw [hsectorsT]; exact hoff) (by rw [hsectorsT]; omega)
    unfold Ring.Holds at ha ⊢
    rw [hbaseT, hsizeT] at ha
    exact ha
  have hstores := hc.stores (u := t) (hbefore.bytes.ok hm) (by rw [hbound', hring]; exact hoff)
    (by rw [hbound', hring]; change _ ≤ (h.ring (soundStream k).castSucc).sectors; omega)
    (by unfold Hub.soundUnit soundProducer; simp [le_length, zeros])
    (by rw [hbound', hbaseT, hbase]) (by rw [hbound', hsizeT, hsize]) (by rw [hbound', hring]; exact hread) hstrap hrate
  rw [hbound', hbefore.soundEntry hg] at hstores
  exact hstores

end

/-! ### Records at a tick -/

theorem Channel.tick_unmuted {c : Channel} (hm : c.muteEnd = none) : c.tick = c := by
  unfold Channel.tick
  rw [hm]

theorem Channel.tick_muted {c : Channel} {k : Nat} (hm : c.muteEnd = some (k + 2)) :
    c.tick = { c with muteEnd := some (k + 1) } := by
  unfold Channel.tick
  rw [hm]
  exact if_neg (by omega)

theorem Channel.tick_ends {c : Channel} {k : Nat} (hm : c.muteEnd = some k) (hk : k ≤ 1) : c.tick = c.endMute := by
  unfold Channel.tick
  rw [hm]
  exact if_pos hk

/-- R78, R79, R81: a bus at a tick. -/
theorem Bus.ticked_eq (b : Bus) : { (b.closeFrame).overloadJudged.silenceJudged with inputError := false } =
    { b with
      peak := 0
      overloads := 0
      lastPeak := b.peak
      lastOverloads := b.overloads
      overloadFrames := if b.overloads = 0 then b.overloadFrames else b.overloadFrames + 1
      run := if b.peak ≤ b.threshold then min 65535 (b.run + 1) else 0
      silent := if b.peak ≤ b.threshold then b.silent || decide (b.silenceFrames ≤ min 65535 (b.run + 1)) else false
      inputError := false } := by
  unfold Bus.silenceJudged Bus.overloadJudged Bus.closeFrame
  dsimp only
  by_cases ho : b.overloads = 0
  · rw [if_pos ho]
    by_cases hq : b.peak ≤ b.threshold
    · simp only [if_pos hq, if_pos ho]
    · simp only [if_neg hq, if_pos ho]
  · rw [if_neg ho]
    by_cases hq : b.peak ≤ b.threshold
    · simp only [if_pos hq, if_neg ho]
    · simp only [if_neg hq, if_neg ho]

section
variable (h : Hub) (m : Nat) {k : Fin 8}

/-- R83, R30, R34, R84: what a tick makes of a packed frame. -/
theorem Hub.tick_soundPacked (hp : (h.mixer.packs[k]).state = .packing) (hs : (h.stream (soundStream k)).state ≠ .closed)
    (hg : (h.stream (soundStream k)).global = false) (hl : 512 ≤ (h.ring (soundStream k).castSucc).sectors)
    (hb : (h.stream (soundStream k)).buffer = []) :
    let st := h.stream (soundStream k)
    let st' := (h.tick m).stream (soundStream k)
    let ring := h.ring (soundStream k).castSucc
    let ring' := (h.tick m).ring (soundStream k).castSucc
    let discards := st.discard = true ∧ (st.state = .held ∨ (st.state = .closing ∧ st.fromHeld = true))
    (discards ∨ ((h.soundUnit k).flags.inputError = true ∧ ring.keep = false) →
      st'.discarded = st.discarded + 1 ∧ st'.committed = st.committed ∧ ring'.index = ring.index) ∧
    (¬ discards → (h.soundUnit k).flags.inputError = false ∨ ring.keep = true →
      st'.discarded = st.discarded ∧ st'.committed = st.committed + 1 ∧ ring'.head = ring.head + 1 ∧
        ring'.index.getLast? = some (h.soundEntry k) ∧
        (h.MemoryOk → ring.headOff < ring.sectors → h.Apart (soundStream k).castSucc →
          (h.tick m).Stores (soundStream k).castSucc (h.soundEntry k) h.tb.frame.phase (h.soundUnit k).producer
            (h.soundUnit k).payload)) := by
  obtain ⟨u, hu, hstrap, hrate⟩ := h.tick_soundOffer m hp
  refine ⟨hu.counts hs hg hl hb, fun hd he => ?_⟩
  have hc := hu.commits hs hg hl hd he
  obtain ⟨hdiscarded, hcommitted, hhead, hlast⟩ := hu.committed hg hb hc
  refine ⟨hdiscarded, hcommitted, hhead, hlast, fun hm hoff hapart => ?_⟩
  exact hu.stores hg hl hc hm hoff hapart ((h.tick_strap m).trans hstrap.symm)
    (by rw [Hub.tick_tb, Timebase.tick_rate, hrate])

end

/-- Settles O31: the mixer's records, what a tick says of the buses, and the units and states of the sound streams. -/
theorem tickClosesMixerFrame : Obligations.TickClosesMixerFrame := by
  intro e s hs hr
  refine exists_became ((State.run_free hs _).trans (congrArg s.became (Hub.dividerExpiry_expired hr))) ?_
  have hsample := (s.hub.expired e).tick_sampleNo s.hub.tb.expiry
  have hchannel := (s.hub.expired e).tick_channel s.hub.tb.expiry
  have hbus := (s.hub.expired e).tick_bus s.hub.tb.expiry
  have hpack := (s.hub.expired e).tick_pack s.hub.tb.expiry
  have hover := fun k => (s.hub.expired e).tick_overload s.hub.tb.expiry (k := k)
  have hlabels := (s.hub.expired e).tick_busLabels s.hub.tb.expiry
  have hcloses := fun k => Hub.tick_soundCloses (h := s.hub.expired e) (m := s.hub.tb.expiry) (k := k)
  have hkeeps := fun k => Hub.tick_soundKeeps (h := s.hub.expired e) (m := s.hub.tb.expiry) (k := k)
  have hhold := fun k => Hub.tick_soundHold (h := s.hub.expired e) (m := s.hub.tb.expiry) (k := k)
  have hidle := fun k => Hub.tick_soundIdle (h := s.hub.expired e) s.hub.tb.expiry (k := k)
  have hpacked := fun k => (s.hub.expired e).tick_soundPacked s.hub.tb.expiry (k := k)
  generalize (s.hub.expired e).tick s.hub.tb.expiry = t at *
  intro x y
  refine ⟨hsample, fun c => ?_, fun k => (hbus k).trans (Bus.ticked_eq _), fun k j hj => ?_, ?_⟩
  · split
    · rename_i hm
      exact (hchannel c).trans (Channel.tick_unmuted hm)
    · rename_i n hm
      exact (hchannel c).trans (Channel.tick_muted hm)
    · rename_i n hne hm
      have hle : n ≤ 1 := by
        match n, hne with
        | 0, _ => exact Nat.zero_le 1
        | 1, _ => exact Nat.le_refl 1
        | k + 2, hne => exact absurd rfl (hne k)
      exact (hchannel c).trans (Channel.tick_ends hm hle)
  · obtain rfl : j = soundStream k := Fin.ext hj
    exact hpack k
  intro ended overloaded quiet begins ends
  refine ⟨fun k p hk => ?_, fun hl => ?_, fun k j a b hj ha hb => ?_⟩
  · obtain ⟨hsummary, hqueue⟩ := hover k hk p
    exact ⟨hsummary, fun _ harmed hclosed => hqueue ⟨harmed, hclosed⟩⟩
  · obtain ⟨new, hnew, hsays⟩ := hlabels hl
    refine ⟨new, hnew, fun k => ?_⟩
    intro given one
    have htold : ∀ kind, ((s.hub.mixer.buses[k]).closeFrame).tells kind = true → given kind = one kind := fun kind ht =>
      (hsays k kind).trans
        (by rw [show (((s.hub.expired e).mixer.buses[k]).closeFrame).tells kind = true from ht, busSays_true]; rfl)
    have hnone : ∀ kind, ((s.hub.mixer.buses[k]).closeFrame).tells kind = false → given kind = [] := fun kind ht =>
      (hsays k kind).trans
        (by rw [show (((s.hub.expired e).mixer.buses[k]).closeFrame).tells kind = false from ht, busSays_false])
    exact ⟨fun hc => htold _ (decide_eq_true hc), fun hc => hnone _ (decide_eq_false hc),
      fun ⟨hq, hsilent, hrun⟩ => htold _ (decide_eq_true ⟨hq, hrun, hsilent⟩),
      fun hc => hnone _ (decide_eq_false fun ⟨hq, hrun, hsilent⟩ => hc ⟨hq, hsilent, hrun⟩),
      fun hc => htold _ (decide_eq_true hc), fun hc => hnone _ (decide_eq_false hc)⟩
  · obtain rfl : j = soundStream k := Fin.ext hj
    obtain rfl : a = firstBus k := Fin.ext ha
    obtain rfl : b = secondBus k := Fin.ext hb
    intro st st' ring ring' pack count error discards told
    refine ⟨hcloses k, hkeeps k, fun hheld => ⟨(hhold k hheld).stays, (hhold k hheld).ends⟩, fun hp hbuf => ?_,
      fun hp hopen hown hsectors hbuf => ?_⟩
    · exact hidle k hp hbuf
    · obtain ⟨hcounts, hcommits⟩ := hpacked k hp hopen hown hsectors hbuf
      refine ⟨hcounts, fun hd he => ?_⟩
      obtain ⟨hdiscarded, hcommitted, hhead, hlast, hstores⟩ := hcommits hd he
      have hlen := (s.hub.soundUnit_sectors k).1
      have hsec : sectorsOf (s.hub.soundUnit k).payload.length = sectorsOf (6 * count) := congrArg sectorsOf hlen
      refine ⟨hdiscarded, hcommitted, hhead, _, hlast, rfl, rfl, rfl, rfl, hsec, hlen, rfl, rfl, rfl,
        fun hm hoff hfull hapart => ?_⟩
      have hpayload : (s.hub.soundUnit k).payload = pack.buffer.reverse.flatMap fun x => le 3 x.1.toNat ++ le 3 x.2.toNat :=
        soundPayload_eq hfull
      rw [← hpayload]
      exact hstores hm hoff hapart

end Sys2Proof.Machine
end
